-- ==== Sys2Proof/Word.lean ====
section
/-!
DEFINITION. The word types of the NM2560 and their plainest arithmetic (R2, R9): bytes, 32-bit register words,
64-bit counters and positions.
-/
namespace Sys2Proof

/-- One byte of an addressed memory or of a frame. -/
abbrev Byte := BitVec 8

/-- One 32-bit register word (R9). -/
abbrev Word := BitVec 32

/-- One 64-bit register, counter or position (R9, R12). -/
abbrev DWord := BitVec 64

/-- Bits `[lo + len - 1 : lo]` of a natural number (the manual's `[high:low]` of R2). -/
def bitsOf (n lo len : Nat) : Nat := n / 2 ^ lo % 2 ^ len

/-- Bits `[lo + len - 1 : lo]` of a word, as a number. -/
def fieldOf (w : Word) (lo len : Nat) : Nat := bitsOf w.toNat lo len

/-- Bit `i` of a word, as a truth value. -/
def bitOf (w : Word) (i : Nat) : Bool := w.getLsbD i

/-- 1 for true and 0 for false. -/
def bit01 (b : Bool) : Nat := if b then 1 else 0

/-- The word whose value is `n` modulo 2^32. -/
def word (n : Nat) : Word := BitVec.ofNat 32 n

/-- The 64-bit value `n` modulo 2^64. -/
def dword (n : Nat) : DWord := BitVec.ofNat 64 n

end Sys2Proof
end

