-- ==== Sys2Proof/Syntax.lean ====
section
/-!
DEFINITION. The commands of the NM2560: one constructor of `Instr` for each row of spec/opcode_table.json, with the
operands the row's rule gives it. A command is an access by a master, an operation, or an event of the outside world; what
only the outside world decides (the bytes that arrive, the level of a pad, what a checker finds) is an operand.
-/
namespace Sys2Proof

/-- The path of an access (R443, R444). The host has three; every other master reaches the device on internal paths. Over PCIe an access is a request of
one DW with all byte enables, at its device address, in BAR0, or a request of BAR2 (`pcie`); a request of two DW in BAR0 (`pciePair`); a request of any other
shape in BAR0 (`pcieOdd`); or an access of the MSI-X table and pending-bit array, at its offset in BAR4 (`bar4`) (R449, R450). -/
inductive Path where
  | pcie | pciePair | pcieOdd | bar4 | hsl | uart | internal
  deriving DecidableEq, Repr

/-- The origin of an access: its master identity (R443) and its path. -/
structure Who where
  master : Nat
  path : Path
  deriving DecidableEq, Repr

/-- What the checks of R117 find in a core while a bundle issues. -/
inductive CoreFinding where
  | clean
  | imSingle | imDouble
  | ldmSingle | ldmDouble
  | rfSingle | rfDouble
  | residue
  deriving DecidableEq, Repr

/-- What the SEC-DED code finds in a word that is read (R373, R374, R173). -/
inductive EccFinding where
  | clean | single | double
  deriving DecidableEq, Repr

/-- A CAN frame in the record layout of R181: the words at 0x00 and 0x04 and the data bytes. -/
structure CanFrame where
  idWord : Word
  ctlWord : Word
  data : List Byte
  deriving DecidableEq, Repr

/-- The error a CAN controller detects first in a frame, in the terms of STAT.LEC (R189). -/
inductive CanErr where
  | stuff | form | ack | bit1 | bit0 | crc
  deriving DecidableEq, Repr

/-- How an attempt of a CAN controller ends (R187). `exempt` says that an exception of ISO 11898-1 leaves TEC unchanged
(R189: an error-passive transmitter that sees no dominant bit during its passive error flag after an ACK error, and a stuff
error during arbitration). `more` counts the further steps of 8 that the standard gives for bit errors and dominant bits while the
transmitter flags the error or, after a frame of its own that succeeded, sends an overload flag. -/
inductive CanEnd where
  | success (more : Nat)
  | arbitrationLost
  | error (kind : CanErr) (exempt : Bool) (more : Nat)
  deriving DecidableEq, Repr

/-- How a frame on the bus that a controller is receiving goes wrong (R189): an error, for which the standard adds 1 or
8 to REC and 8 more for each of `more` further findings while the controller flags it, or a protocol exception. -/
inductive CanRxErr where
  | error (kind : CanErr) (plusEight : Bool) (more : Nat)
  | protocolException
  deriving DecidableEq, Repr

/-- The resolved speed of a link, in the encoding of LINK.SPEED. -/
inductive LinkSpeed where
  | m10 | m100 | g1 | g10
  deriving DecidableEq, Repr

/-- What the receiver and the partner present when a link comes up (R199): the speed, the partner's pause bits, and
whether the partner reports half duplex, whether a negotiation is complete (without, it is lock or code-group synchronisation alone), and the
faults of 10GBASE-R. -/
structure LinkFacts where
  speed : LinkSpeed
  partnerPause : Nat
  halfDuplex : Bool
  negotiated : Bool
  localFault : Bool
  remoteFault : Bool
  deriving DecidableEq, Repr

/-- A link that goes down (R199, R200, R202): its port, whether code-group synchronisation is lost, and the faults of 10GBASE-R. -/
structure LostLink where
  port : Nat
  syncLost : Bool
  localFault : Bool
  remoteFault : Bool
  deriving DecidableEq, Repr

/-- What the monitors of the SerDes references find by the criteria of R274: SDREF_A is declared bad, SDREF_B is good (R471). -/
structure SdrefFinding where
  aBad : Bool
  bGood : Bool
  deriving DecidableEq, Repr

/-- How a transaction of the two-wire bus ends early (R420): the target does not acknowledge, the arbitration is lost, or the target stretches the
clock for longer than TIMEOUT. -/
inductive TwbStop where
  | nack
  | arbLost
  | stretchTo
  deriving DecidableEq, Repr

/-- What the target and the board do in a transaction of the two-wire bus (R420): whether it ends early, and after how many whole bytes on the bus;
the bytes that the target sends in a read, and its packet error code. -/
structure TwbOutcome where
  early : Option (TwbStop × Nat)
  data : List Byte
  pec : Byte
  deriving DecidableEq, Repr

/-- An item of a bundle as the MCP finds it (R431): its key slot, the SHA-384 digest of the public key it is signed with, whether the signature verifies
with that key (R107), its SEC_VERSION, and whether its digest is the one that the manifest lists. The manifest is an item too. -/
structure BundleItem where
  slot : Nat
  keyDigest : BitVec 384
  signed : Bool
  version : Nat
  digestOk : Bool
  deriving DecidableEq, Repr

/-- A bundle (R430, R431): its items, the silicon revision and part that the manifest names, and what it carries: the MCP firmware, the key records as
they stand in the secure memory, the images with their places in the scratchpad, and what the MCP writes into PEC (offset and word): the image directory
and the bindings. -/
structure BundleFacts where
  items : List BundleItem
  rev : Nat
  part : Nat
  firmware : List Byte
  keys : List Byte
  images : List (Nat × List Byte)
  writes : List (Nat × Word)
  deriving DecidableEq, Repr

/-- A unit that fails its start-up test (R422): its kind (R438; 0xFF for a kind that has no spares), its number, and
whether a spare of its kind is healthy, and whether the binding of the bundle about to run grants it. -/
structure FailedUnit where
  kind : Nat
  unit : Nat
  spareHealthy : Bool
  granted : Bool
  deriving DecidableEq, Repr

/-- What start-up finds at power-good (R421 to R423): the level of BOOT_MODE, whether the fuse array is read correctly, which PLL
locks, on which reference, which units fail their tests, what the flash slots A and B hold, and the update, if any, that the MCP has taken since the
last start (R431). -/
structure BootFacts where
  bootMode : Nat
  fusesOk : Bool
  namedPllLocks : Bool
  otherPllLocks : Bool
  lockOnB : Bool
  failed : List FailedUnit
  slotA : BundleFacts
  slotB : BundleFacts
  update : Option BundleFacts
  deriving DecidableEq, Repr

/-- The fuses of one part (R425 to R437, SYS and MGT tables): identity, life-cycle state, key slots with the SHA-384 digests of their public keys, and the count of
each ageing monitor at manufacture. -/
structure Fuses where
  deviceId : DWord
  marine : Bool
  lcState : Nat
  keyPresent : Nat
  keyRevoked : Nat
  keyDigests : List (BitVec 384)
  ageRef : List Word
  deriving DecidableEq, Repr

/-- What the slow sensors read (R417): the counts of the ageing monitors, and STRENGTH of the pin drivers, four of each channel. -/
structure SlowReadings where
  ages : List Word
  legs : List Byte
  deriving DecidableEq, Repr

/-- What the reads of host memory for a transmit descriptor give (R455): the bytes read so far, whether PCIe reported an error, and whether the rest of a
frame is still to be read. -/
structure HostData where
  bytes : List Byte
  readError : Bool
  more : Bool
  deriving DecidableEq, Repr

/-- The commands: one constructor for each row of spec/opcode_table.json, in the table's order. -/
inductive Instr where
  -- registers, snapshots and the scratchpad
  | registerWrite (w : Who) (addr : Nat) (data : Word)
  | lowWordRead (w : Who) (addr : Nat)
  | highWordRead (w : Who) (addr : Nat)
  | snapReq (w : Who) (data : Word)
  | snapshotCopy
  | scratchpadWrite (w : Who) (addr : Nat) (bytes : List Byte)
  -- the base tick
  | tickBoundary
  | tickRunStart (w : Who)
  | tickRunStop (w : Who)
  | tickPeriodWrite (w : Who) (period : Word)
  | engineTickStart
  | stagedOutputTransfer (l : Nat)
  | budgetExhausted (pe : Nat)
  | commitDeadline
  -- takeover
  | takeoverStart (l : Nat)
  | loaderLoadComplete (checksOk : Bool)
  | spareTakeup (l : Nat)
  -- the cores
  | bundleIssue (core : Nat) (found : CoreFinding)
  | mulResult (core : Nat) (residueOk : Bool)
  | divResult (core : Nat) (residueOk : Bool)
  | lsuLoadResult (core : Nat)
  | farResult (core : Nat) (ecc : EccFinding)
  | postedWriteComplete (core : Nat)
  | ctlWaitEnd (core : Nat)
  | lockstepMismatch
  -- images and bindings
  | imgVerifyStart (w : Who) (i : Nat)
  | imgCheckComplete (i : Nat)
  | imgWithdraw (w : Who) (i : Nat)
  | imgAddrLenWrite (w : Who) (i : Nat) (isLen : Bool) (data : Word)
  | bindGo (w : Who) (l : Nat) (data : Word)
  | binding (l : Nat)
  | bindHalt (w : Who) (l : Nat) (data : Word)
  | unbind (l : Nat)
  | tsAreaWrite (w : Who) (l : Nat) (data : Word)
  -- on-the-fly pairs
  | otfFrame (j : Nat) (fromLower : Bool) (bytes : List Byte) (codeError : Bool)
  | otfModeWrite (w : Who) (p : Nat) (data : Word)
  -- pin channels
  | sequencerStep (n : Nat) (ecc : EccFinding)
  | compareMatch (n : Nat)
  | taqHiWrite (w : Who) (n : Nat) (data : Word)
  | timedActionExecute (n : Nat)
  | txdWrite (w : Who) (n : Nat) (data : Word)
  | rxdRead (w : Who) (n : Nat)
  | swapRequest (w : Who) (n : Nat) (data : Word)
  | forcedSwapRequest (w : Who) (n : Nat) (data : Word)
  | swapTakeEffect (n : Nat)
  | swapTimeout (n : Nat)
  | forcedSwapApply (n : Nat)
  | cflagSet (w : Who) (n : Nat) (data : Word)
  | cflagClr (w : Who) (n : Nat) (data : Word)
  | dflagSet (w : Who) (n : Nat) (data : Word)
  | dflagClr (w : Who) (n : Nat) (data : Word)
  | muxCanAbWrite (w : Who) (n : Nat) (data : Word)
  | muxTravWrite (w : Who) (n : Nat) (data : Word)
  | spareCoreSteer (w : Who) (n : Nat) (data : Word)
  | coreSteerBack (w : Who) (n : Nat) (data : Word)
  | coreCopyComplete (n : Nat) (ecc : EccFinding)
  | shortDetect (n : Nat) (pin : Nat)
  | openWireTest (n : Nat) (pin : Nat) (followed : Bool)
  | reversalDetect (n : Nat)
  | xcvrFaultDetect (n : Nat)
  | bringIn (w : Who) (n : Nat) (pin : Nat) (data : Word)
  | legExchangeComplete (n : Nat) (pin : Nat)
  -- CAN FD controllers
  | canModeWrite (w : Who) (k : Nat) (data : Word)
  | canModeChange (k : Nat)
  | canIntegrationComplete (k : Nat)
  | boRec (w : Who) (k : Nat) (data : Word)
  | busOffRecoveryComplete (k : Nat)
  | canTxReq (w : Who) (k : Nat) (slots : Word)
  | canTxCxl (w : Who) (k : Nat) (slots : Word)
  | canNewClr (w : Who) (k : Nat) (data : Word)
  | canRxfPop (w : Who) (k : Nat) (data : Word)
  | canViewCapture
  | canAttemptStart (k : Nat)
  | canAttemptEnd (k : Nat) (how : CanEnd)
  | canFrameReceived (k : Nat) (frame : CanFrame) (stampLag : Nat)
  -- Ethernet ports
  | pcsModeWrite (w : Who) (p : Nat) (data : Word)
  | anRestart (w : Who) (p : Nat) (data : Word)
  | linkUp (p : Nat) (facts : LinkFacts)
  | linkDown (p : LostLink)
  | polarityCorrection (p : Nat)
  | laneSwapExchange (p : Nat)
  | serdesSwapWrite (w : Who) (p : Nat) (data : Word)
  | serdesRxInvWrite (w : Who) (p : Nat) (data : Word)
  | frameHeadClassified (p : Nat) (bytes : List Byte)
  | macFrameEnd (p : Nat) (bytes : List Byte) (codeError : Bool)
  | pauseHoldExpiry (q : Nat)
  | pauseFrameSend (p : Nat)
  | pauseRefresh (p : Nat) (prio : Nat)
  | frameTxStart (p : Nat) (found : EccFinding)
  | frameTxEnd (p : Nat) (found : EccFinding)
  | segSubmit (w : Who) (p : Nat) (data : Word)
  | segJobStart (p : Nat)
  | segJobComplete (p : Nat)
  | mdioGo (w : Who) (data : Word)
  | mdioComplete (value : Word)
  -- the path table
  | ptInsert (w : Who) (data : Word)
  | ptDelete (w : Who) (data : Word)
  | ptLookup (w : Who) (data : Word)
  | ptWriteMasked (w : Who) (data : Word)
  | ptClearLearned (w : Who) (data : Word)
  | ptCommandComplete
  | sourceLearn
  | addressAgeVisit (index : Nat)
  | mirrorRecordWrite
  | mirEnWrite (w : Who) (r : Nat) (data : Word)
  -- queues, meters, ledgers
  | redAverageUpdate
  | redSeedWrite (w : Who) (data : Word)
  | ageGranule
  | meterEnable (w : Who) (m : Nat) (data : Word)
  | ledgerAudit
  | restartSwitch (w : Who) (data : Word)
  -- the time base
  | rateWrite (w : Who) (data : Word)
  | stepGo (w : Who) (data : Word)
  | stepApply
  | nowNsRead (w : Who)
  | servoUpd (w : Who) (data : Word)
  | holdoverEntry
  | ownerWrite (w : Who) (data : Word)
  | referenceBad (isB : Bool)
  | referenceGood (isB : Bool)
  | referenceRevert
  | refSelWrite (w : Who) (data : Word)
  | sdrefSwitch (toB : SdrefFinding)
  | txtsInfoRead (w : Who) (p : Nat)
  | gateWindowOpen (n : Nat)
  | gateWindowClose (n : Nat)
  | launchOnceEligible (n : Nat)
  | launchArm (w : Who) (n : Nat) (data : Word)
  | lqModeWrite (w : Who) (q : Nat) (data : Word)
  | ppsOutPulse (o : Nat)
  | ppsOutPulseEnd (o : Nat)
  | ppsInCapture (i : Nat) (rising : Bool)
  | capInfoRead (w : Who) (i : Nat)
  -- Ropeline
  | ropeContextEnable (w : Who) (r : Nat) (data : Word)
  | ropeContextDisable (w : Who) (r : Nat) (data : Word)
  | refBuild (r : Nat)
  | slotRelease (r : Nat) (slot : Nat) (p : Nat)
  | refTakeEffect (r : Nat)
  | refSlotClose (r : Nat)
  | coldEntry (r : Nat)
  | anchorWindowOpen (r : Nat) (slot : Nat)
  | sharedWindowDecision (r : Nat)
  | anchorTruncation (p : Nat)
  | anchorWindowEnd (r : Nat) (slot : Nat)
  | anchorLockTimeout (r : Nat)
  | reconnect (w : Who) (p : Nat) (data : Word)
  -- Traverse
  | gridPoint
  | homeCapture (a : Nat)
  | setpointView
  | travRun (w : Who) (a : Nat)
  | travTarget (w : Who) (a : Nat)
  | travStop (w : Who) (a : Nat)
  | travHome (w : Who) (a : Nat)
  | travGear (w : Who) (a : Nat)
  | travClear (w : Who) (a : Nat)
  | segWrWrite (w : Who) (a : Nat) (data : Word)
  | gearQPush (w : Who) (a : Nat) (data : Word)
  | groupGo (w : Who) (g : Nat) (data : Word)
  | kick (w : Who) (a : Nat) (data : Word)
  | travWatchdogExpiry (a : Nat)
  -- mailboxes, doorbells, locks
  | mbSend (w : Who) (e : Nat) (i : Nat) (data : Word)
  | mbRecv (w : Who) (e : Nat) (i : Nat)
  | dbSet (w : Who) (e : Nat) (data : Word)
  | dbMaskWrite (w : Who) (e : Nat) (data : Word)
  | dbTake (w : Who) (e : Nat)
  | waitTmrWrite (w : Who) (e : Nat) (data : Word)
  | waitTmrExpiry (e : Nat)
  | lockTestAndSet (w : Who) (n : Nat)
  | lockRelease (w : Who) (n : Nat)
  -- memory control
  | ceLogRead (w : Who)
  | wipeGo (w : Who) (data : Word)
  | wipeComplete
  | bgtRegionTest (cls : Nat) (pe : Nat) (found : EccFinding) (patternFails : Bool)
  | marchGo (w : Who) (data : Word)
  | marchComplete (failAddr : Option Nat)
  | repairGo (w : Who) (data : Word)
  | repairComplete
  -- faults and the Cairn
  | faultTaken (src : Nat) (cls : Nat) (cause : Nat) (vector : Word)
  | pathBroken (src : Nat) (cls : Nat)
  | pathTest (src : Nat) (cls : Nat) (pulseSeen : Bool)
  | eventEnqueue
  | cairnRecordWrite
  | tallyRecordWrite (src : Nat)
  | intHoldoffEnd
  | outRel (w : Who) (data : Word)
  | unitRelease (o : Nat)
  | aliveToggle
  | heartbeat (w : Who) (data : Word)
  | heartbeatLoss
  | wdogKick (w : Who) (data : Word)
  | wdogExpiry
  | nsafeAssert
  | nsafeClear
  | injGo (w : Who) (data : Word)
  | injMissed
  | injEnd
  | f3Clr (w : Who) (data : Word)
  | cairnScanComplete
  | powerFailThreshold
  | scrubGo (w : Who) (data : Word)
  | scrubComplete (correctedBits : Nat)
  | post (w : Who) (data : Word)
  -- power, start-up and service
  | powerGood (facts : BootFacts)
  | porstAssert
  | vddAonApply (fuses : Fuses)
  | vddAonRemoval
  | softReset (w : Who) (data : Word)
  | confirm (w : Who)
  | trialAutoConfirm
  | revoke (w : Who) (slot : Nat) (signer : Nat) (signatureOk : Bool)
  | load (w : Who) (bundle : BundleFacts)
  | bivouacReq (w : Who) (data : Word)
  | hostBundleWrite (w : Who) (data : Word)
  | bundleData (w : Who) (data : Word)
  | uartBundleFrame (declaredLen : Nat) (bytes : List Byte) (crc : Word) (gapTooLong : Bool) (bundle : BundleFacts)
  | lcCmd (w : Who) (data : Word) (authorised : Bool)
  | tamperTrip (bit : Nat)
  | sensorSample (temps : List Word) (volts : List Word) (slow : SlowReadings)
  | twbGo (w : Who) (data : Word)
  | twbComplete (outcome : TwbOutcome)
  -- the host interface
  | functionLevelReset
  | busMasterDisable
  | dmaDoorbellTake (bit : Nat)
  | txDescriptor (r : Nat) (addr : DWord) (word8 : Word) (wordC : Word) (host : HostData)
  | rxDescriptorComplete (r : Nat) (addr : DWord)
  | ringDisable (w : Who) (receive : Bool) (r : Nat) (data : Word)
  | imodHoldoffEnd (v : Nat)
  | hslReadWord (cmd : Byte) (offset : Word) (crc : Byte)
  | hslWriteWord (cmd : Byte) (offset : Word) (data : Word) (crc : Byte)
  | uartReadRequest (offset : Word) (count : Nat) (crc : Byte)
  | uartConsoleByte (byte : Byte)
  -- the rows added last to the table
  | canReceiveError (k : Nat) (how : CanRxErr)
  | systemPllLossOfLock
  | coreCopyForce (n : Nat)
  | logicBistComplete (pe : Nat) (pass : Bool)
  | sparePreloadDeal
  | ingressCellTaken (p : Nat) (bytes : List Byte)
  | ingressOversizeByte (p : Nat) (bytes : List Byte)
  | ingressCapturePoint (p : Nat) (bytes : List Byte)
  deriving DecidableEq, Repr

end Sys2Proof
end

