-- ==== Sys2Proof/Decode.lean ====
section
/-!
DEFINITION. The decoder over the rows of spec/opcode_table.json that give bits. No row does: a command of the NM2560 reaches it as an
access, an operation or an event, none of which is encoded as a word.
-/
namespace Sys2Proof

/-- The command that a word of `nbits` bits spells by the table: none. -/
def decodeTableWord (_nbits _w : Nat) : Option Instr := none

end Sys2Proof
end

