-- ==== Sys2Proof/Config.lean ====
section
/-!
DEFINITION. What the spec leaves open and the model keeps free. Each constant here has no body, so nothing in Lean can
evaluate it or prove a value of it: a claim about it holds whatever it is. `State.freeCtr` is the counter it is applied to.
-/
namespace Sys2Proof

/-- A free value of `w` bits for the counter value `n`: what an operation leaves where the spec states no value
(log entries 5 and 6). -/
opaque freeValue (w n : Nat) : BitVec w

/-- A free truth value for the counter value `n` (log entry 6). -/
def freeBool (n : Nat) : Bool := (freeValue 1 n).toNat = 1

/-- A free number from `lo` to `hi`, both included, for the counter value `n`: a value of which the spec states only the
range (log entry 6). -/
def freeBetween (lo hi n : Nat) : Nat := lo + (freeValue 32 n).toNat % (hi + 1 - lo)

/-- The contents of the MCP's ROM, by byte address (R102, R414): the spec does not give them (log entry 47). -/
opaque romByte (a : Nat) : Byte

end Sys2Proof
end

