-- ==== Sys2Proof/Machine/RegMap.lean ====
section
/-!
DEFINITION. The form of the register map (R5 to R9): rows of registers with their access masks and reset values, regions
of rows that repeat, and the lookup of an offset in a block. The rows themselves stand in Machine/RegTables.lean.
-/
namespace Sys2Proof.Machine

/-- The bits `[hi:lo]` as a mask (R2). -/
def bits (hi lo : Nat) : Nat := 2 ^ (hi + 1) - 2 ^ lo

/-- What stands at a row's offset. `word rw w1c reset`: one register word, of which the bits of `rw` store what is written,
the bits of `w1c` clear where 1 is written, and the others ignore writes (R6, R7). `wide` the same over 64 bits (R9).
`count d`: a 64-bit event counter whose snapshot shadow stands `d` bytes above it (R4, R12). -/
inductive RegKind where
  | word (rw w1c reset : Nat)
  | wide (rw reset : Nat)
  | count (d : Nat)
  deriving DecidableEq, Repr

/-- A row of the map: a register, or `n` of them `stride` bytes apart. -/
structure RegRow where
  name : String
  off : Nat
  n : Nat
  stride : Nat
  kind : RegKind
  deriving DecidableEq, Repr

/-- Rows that repeat `n` times, `stride` bytes apart, from offset `base` of a block. -/
structure Region where
  name : String
  base : Nat
  n : Nat
  stride : Nat
  rows : List RegRow
  deriving DecidableEq, Repr

/-- A register word with RW bits only. -/
def rw (name : String) (off mask : Nat) (reset : Nat := 0) (n : Nat := 1) (stride : Nat := 4) : RegRow :=
  ⟨name, off, n, stride, .word mask 0 reset⟩
/-- A read-only register word. -/
def ro (name : String) (off : Nat) (reset : Nat := 0) (n : Nat := 1) (stride : Nat := 4) : RegRow :=
  ⟨name, off, n, stride, .word 0 0 reset⟩
/-- A write-only register word: it reads as zero and its unit acts on the write. -/
def wo (name : String) (off : Nat) (n : Nat := 1) (stride : Nat := 4) : RegRow :=
  ⟨name, off, n, stride, .word 0 0 0⟩
/-- A register word with RW bits, W1C bits and read-only bits. -/
def reg (name : String) (off rwMask w1c : Nat) (reset : Nat := 0) (n : Nat := 1) (stride : Nat := 4) : RegRow :=
  ⟨name, off, n, stride, .word rwMask w1c reset⟩
/-- A 64-bit register. -/
def reg64 (name : String) (off rwMask : Nat) (reset : Nat := 0) (n : Nat := 1) (stride : Nat := 8) : RegRow :=
  ⟨name, off, n, stride, .wide rwMask reset⟩
/-- A 64-bit event counter with its shadow `d` bytes above it. -/
def cnt (name : String) (off d : Nat) (n : Nat := 1) (stride : Nat := 8) : RegRow :=
  ⟨name, off, n, stride, .count d⟩

/-- What stands at one word offset. Counters carry the offset of their own low word. -/
inductive RegCell where
  | word (rw w1c reset : Nat)
  | wideLo (rw reset : Nat)
  | wideHi (rw reset : Nat)
  | countLo (key : Nat)
  | countHi (key : Nat)
  | snapLo (key : Nat)
  | snapHi (key : Nat)
  deriving DecidableEq, Repr

/-- Is `o` the offset `base + i * stride + extra` of some copy `i` below `n`? -/
def hits (o base n stride extra : Nat) : Bool :=
  if n = 1 then o == base + extra
  else base + extra ≤ o && (o - (base + extra)) % stride == 0 && decide ((o - (base + extra)) / stride < n)

/-- What row `r`, placed at block offset `at0`, has at the offset `o` within the row's repetition. -/
def RegRow.cell (r : RegRow) (at0 o : Nat) : Option RegCell :=
  match r.kind with
  | .word w c d => if hits o r.off r.n r.stride 0 then some (.word w c d) else none
  | .wide w d =>
    if hits o r.off r.n r.stride 0 then some (.wideLo (w % 2 ^ 32) (d % 2 ^ 32))
    else if hits o r.off r.n r.stride 4 then some (.wideHi (w / 2 ^ 32) (d / 2 ^ 32)) else none
  | .count d =>
    if hits o r.off r.n r.stride 0 then some (.countLo (at0 + o))
    else if hits o r.off r.n r.stride 4 then some (.countHi (at0 + o - 4))
    else if hits o r.off r.n r.stride d then some (.snapLo (at0 + o - d))
    else if hits o r.off r.n r.stride (d + 4) then some (.snapHi (at0 + o - d - 4)) else none

/-- The first row of a list that has something at offset `o`. -/
def rowsCell (at0 o : Nat) : List RegRow → Option RegCell
  | [] => none
  | r :: rs =>
    match r.cell at0 o with
    | some c => some c
    | none => rowsCell at0 o rs

/-- What a block whose regions are given has at the offset `o`; counters are keyed by their device address. -/
def regionsCell (blockBase o : Nat) : List Region → Option RegCell
  | [] => none
  | g :: gs =>
    if g.base ≤ o ∧ o < g.base + g.n * g.stride then
      let o' := (o - g.base) % g.stride
      match rowsCell (blockBase + (o - o')) o' g.rows with
      | some c => some c
      | none => regionsCell blockBase o gs
    else regionsCell blockBase o gs

end Sys2Proof.Machine
end

