-- ==== Sys2Proof/Machine/RegTables.lean ====
section
/-!
DEFINITION. The device address map (R445) and the registers of every block, one row per register with its byte offset,
its access masks and its reset value, as the register tables of spec/02 to spec/17 give them.
-/
namespace Sys2Proof.Machine

/-- The blocks of the device address map (R445). -/
inductive Block where
  | scratchpad | secure | pe | sys | tick | flt | mgt | time | mbx | mem | pec | pch | can | port | sw | rope | trav
  | host | cairn
  deriving DecidableEq, Repr

def sysBase : Nat := 0x10000000
def tickBase : Nat := 0x10100000
def fltBase : Nat := 0x10200000
def mgtBase : Nat := 0x10300000
def timeBase : Nat := 0x10400000
def mbxBase : Nat := 0x10500000
def memBase : Nat := 0x10600000
def pecBase : Nat := 0x10700000
def pchBase : Nat := 0x11000000
def canBase : Nat := 0x11800000
def portBase : Nat := 0x12000000
def swBase : Nat := 0x13000000
def ropeBase : Nat := 0x14000000
def travBase : Nat := 0x15000000
def hostBase : Nat := 0x16000000
def cairnBase : Nat := 0x17000000
def secureBase : Nat := 0x01000000
def peBase : Nat := 0x02000000

/-- The address ranges of R445: block, base, first address past the end. -/
def addressMap : List (Block × Nat × Nat) :=
  [(.scratchpad, 0, 0x00800000), (.secure, secureBase, 0x01040000), (.pe, peBase, 0x02900000),
   (.sys, sysBase, 0x10100000), (.tick, tickBase, 0x10200000), (.flt, fltBase, 0x10300000),
   (.mgt, mgtBase, 0x10400000), (.time, timeBase, 0x10500000), (.mbx, mbxBase, 0x10600000),
   (.mem, memBase, 0x10700000), (.pec, pecBase, 0x10800000), (.pch, pchBase, 0x11400000),
   (.can, canBase, 0x11900000), (.port, portBase, 0x12400000), (.sw, swBase, 0x14000000),
   (.rope, ropeBase, 0x14400000), (.trav, travBase, 0x15200000), (.host, hostBase, 0x16100000),
   (.cairn, cairnBase, 0x17400000)]

/-- The block and the offset in it of a device address; none outside the listed ranges. -/
def findBlock (a : Nat) : List (Block × Nat × Nat) → Option (Block × Nat)
  | [] => none
  | (b, lo, hi) :: t => if lo ≤ a ∧ a < hi then some (b, a - lo) else findBlock a t

/-- The block and the offset in it of a device address (R445). -/
def blockOf (a : Nat) : Option (Block × Nat) := findBlock a addressMap

/-- One region that is not repeated. -/
def flat (name : String) (size : Nat) (rows : List RegRow) : Region := ⟨name, 0, 1, size, rows⟩

/-- SYS (chapter 16). SILICON_REV.MARINE and DEVICE_ID are fused: Machine/Mgt.lean reads them from the fuses. -/
def sysMap : List Region :=
  [flat "SYS" 0x100000
    [ro "SILICON_REV" 0x0000 0x2560B0, reg64 "DEVICE_ID" 0x0008 0, wo "SNAP_REQ" 0x0010, ro "SNAP_SEQ" 0x0014,
     wo "RESTART" 0x0020, ro "RESET_CAUSE" 0x0030 1, wo "SOFT_RESET" 0x0034]]

/-- TICK (chapter 02). -/
def tickMap : List Region :=
  [flat "TICK" 0x100000
    [rw "CTL" 0x0000 1, rw "PERIOD" 0x0004 (bits 19 0) 0x3E8, reg "STATUS" 0x0008 0 (bits 5 3), reg64 "INDEX" 0x0010 0,
     reg64 "START_SEC" 0x0018 0, ro "START_NS" 0x0020, ro "LENGTH" 0x0024, ro "LENGTH_NS" 0x0028,
     cnt "TICK_CNT" 0x0030 0x100, cnt "IRREG_CNT" 0x0038 0x100]]

/-- FLT with the Cairn controller's registers (chapter 15). -/
def fltMap : List Region :=
  [flat "FLT" 0x100000
    [ro "STATUS" 0x0000, reg "STICKY" 0x0004 0 (bits 13 0),
     rw "CFG" 0x0008 (bits 2 0 + bits 31 8) (2 + 16 * 256 + 100 * 65536),
     reg "FF_INFO" 0x0010 0 (bits 15 15), ro "FF_NS" 0x0014, reg64 "FF_SEC" 0x0018 0, reg64 "FF_TICK" 0x0020 0,
     reg "GF_INFO" 0x0030 0 (bits 15 15), ro "GF_NS" 0x0034, reg64 "GF_SEC" 0x0038 0, reg64 "GF_TICK" 0x0040 0,
     wo "HEARTBEAT" 0x0050, rw "HB_CFG" 0x0054 (bits 9 0) 100, rw "WDOG_CFG" 0x0058 (1 + bits 31 16) (1000 * 65536),
     wo "WDOG_KICK" 0x005C, rw "NSAFE_CFG" 0x0060 (bits 9 0) 10, rw "PATH_CFG" 0x0064 (bits 9 0) 10, wo "F3_CLR" 0x006C,
     rw "INJ_CTL" 0x0070 (bits 6 0 + bits 10 8 + bits 13 12) (2 * 256), rw "INJ_DUR" 0x0074 (bits 19 0) 100,
     reg "INJ_STAT" 0x0078 0 (bits 3 1), rw "EVQ" 0x0080 (bits 28 16),
     rw "POST_CTL" 0x0090 (bits 2 0 + bits 31 16), rw "POST_DATA" 0x00C0 (bits 31 0) 0 16,
     ro "SRC_LIVE" 0x0100 0 4, reg "SRC_STICKY" 0x0110 0 (bits 31 0) 0 4, ro "SRC_BROKEN" 0x0120 0 4,
     rw "SAFE_LVL" 0x1000 (bits 31 0) 0 64, ro "OUT_SAFE" 0x2000 0x21 288, wo "OUT_REL" 0x2800,
     cnt "EVT_CNT" 0x3000 0x100 5, cnt "INJ_EVT_CNT" 0x3028 0x100, cnt "TALLIED_CNT" 0x3030 0x100,
     cnt "REC_CNT" 0x3038 0x100,
     ro "CAIRN_STAT" 0x8000, reg64 "LAST_SEQ" 0x8008 0, ro "RING_NEXT" 0x8010, ro "PERM_USED" 0x8014,
     ro "RECENT_NEXT" 0x8018, ro "BOOT" 0x801C, rw "SCRUB_CMD" 0x8020 (bits 15 0), cnt "SCRUB_CNT" 0x8028 0x100,
     cnt "CORR_CNT" 0x8030 0x100],
   ⟨"TALLY[s]", 0x4000, 128, 0x20, [ro "COUNT" 0x00 0 5, ro "SAT" 0x14]⟩]

/-- The sticky flags of a core in PE[n].STICKY and MGT.STICKY (R101). -/
def coreStickyMask : Nat := bits 9 0
/-- The trap enables of a core (R101). -/
def coreTrapMask : Nat := bits 9 0

/-- MGT (chapter 16). LC and KEYSLOT are fused: Machine/Mgt.lean reads them from the fuses. -/
def mgtMap : List Region :=
  [flat "MGT" 0x100000
    [ro "MCP_STAT" 0x0000 1, wo "CMD" 0x0010, rw "AUTO_CONFIRM" 0x0014 1, rw "HOST_BUNDLE" 0x0018 (bits 22 0),
     wo "BIVOUAC_REQ" 0x001C, rw "HOST_BUNDLE_LEN" 0x0020 (bits 22 0), wo "BUNDLE_DATA" 0x0024,
     reg "STICKY" 0x0100 0 coreStickyMask, rw "TRAP_EN" 0x0104 coreTrapMask, reg "TRAP_CAUSE" 0x0108 0 (bits 31 31),
     ro "LC" 0x0200, wo "LC_CMD" 0x0204, ro "KEYSLOT" 0x0210, rw "TAMPER_CFG" 0x0220 (bits 7 0 + bits 31 31),
     ro "TAMPER_STAT" 0x0224, reg "BOOT_STAT" 0x0300 0 (bits 7 7),
     ro "TEMP" 0x0400 0 32, ro "VMON" 0x0500 0 24, ro "AGE" 0x0600 0 48,
     rw "TEMP_WARN" 0x0480 (bits 15 0) 1000, rw "TEMP_HIGH" 0x0484 (bits 15 0) 1160, rw "TEMP_TRIP" 0x0488 (bits 15 0) 1216,
     ro "WEAR" 0x0700, rw "TWB_CFG" 0x0800 (bits 1 0 + bits 15 8) (25 * 256),
     rw "TWB_CMD" 0x0804 (bits 21 0) 0x10000, reg "TWB_STAT" 0x0808 0 (bits 4 0), reg64 "TWB_DATA" 0x0810 (bits 63 0)]]

/-- TIME (chapter 11). -/
def timeMap : List Region :=
  [⟨"TIME", 0, 1, 0x400,
    [ro "NOW_NS" 0x0000, ro "NOW_FRAC" 0x0004, reg64 "NOW_SEC" 0x0008 0, rw "RATE" 0x0010 (bits 31 0),
     reg64 "STEP_SEC" 0x0018 (bits 63 0), rw "STEP_NS" 0x0020 (bits 29 0), wo "STEP_GO" 0x0024,
     rw "OWNER" 0x0030 (bits 5 0) 0x20, wo "SERVO_UPD" 0x0034, rw "HOLD_LIM" 0x0038 (bits 15 0) 3000, ro "HOLD_AGE" 0x003C,
     ro "STATUS" 0x0040 2, reg "STICKY" 0x0044 0 (bits 7 0), rw "REF" 0x0048 (bits 3 0), ro "LAST_NS" 0x0050,
     ro "LAST_SEC_LO" 0x0054, cnt "STEP_CNT" 0x0100 0x80, cnt "HOLD_CNT" 0x0108 0x80, cnt "REF_SWITCH_CNT" 0x0110 0x80,
     cnt "LAUNCH_DONE_CNT" 0x0118 0x80, cnt "LAUNCH_LATE_CNT" 0x0120 0x80]⟩,
   ⟨"PPS_OUT[o]", 0x0400, 2, 0x40,
    [rw "CFG" 0x00 3, rw "START_NS" 0x04 (bits 29 0), rw "START_SEC" 0x08 (bits 31 0),
     rw "PERIOD" 0x0C (bits 29 0) 1000000000, rw "WIDTH" 0x10 (bits 29 0) 100000000]⟩,
   ⟨"PPS_IN[i]", 0x0500, 2, 0x40,
    [rw "CFG" 0x00 3, ro "CAP_INFO" 0x04, ro "NS" 0x08, ro "SEC_LO" 0x0C, ro "SEC_HI" 0x10, ro "LEVEL" 0x14,
     cnt "CAP_OVF_CNT" 0x20 0x08]⟩,
   ⟨"PORT[p]", 0x10000, 40, 0x100,
    [rw "PCFG" 0x00 7, rw "RX_LAT" 0x04 (bits 31 0), rw "TX_LAT" 0x08 (bits 31 0), rw "LINK_DELAY" 0x0C (bits 31 0),
     ro "TXTS_INFO" 0x10, ro "NS" 0x14, ro "SEC_LO" 0x18, ro "SEC_HI" 0x1C, ro "TXTS_LEVEL" 0x20,
     cnt "TC_CNT" 0x40 0x80, cnt "TXTS_CNT" 0x48 0x80, cnt "TXTS_OVF_CNT" 0x50 0x80]⟩,
   ⟨"LAUNCH[n]", 0x20000, 1024, 0x20,
    [rw "CFG" 0x00 (bits 3 0 + bits 16 8), rw "X_NS" 0x04 (bits 29 0), rw "X_SEC" 0x08 (bits 31 0),
     rw "OPEN_LEN" 0x0C (bits 31 0), rw "PERIOD" 0x10 (bits 31 0), rw "LATE_TOL" 0x14 (bits 31 0),
     reg "STAT" 0x18 0 (bits 3 1)]⟩,
   ⟨"LQ[q]", 0x30000, 320, 4, [rw "LQ" 0 3]⟩]

/-- HOST (chapter 17). -/
def hostMap : List Region :=
  [⟨"HOST", 0, 1, 0x1000,
    [rw "CTL" 0x0000 1, reg "STAT" 0x0004 0 (bits 9 9), reg64 "ERR_ADDR" 0x0010 0, reg "ERR_INFO" 0x0018 0 (bits 31 31),
     cnt "BUS_ERR_CNT" 0x0100 0x80, cnt "DMA_ERR_CNT" 0x0108 0x80, cnt "TX_DESC_CNT" 0x0110 0x80,
     cnt "RX_DESC_CNT" 0x0118 0x80]⟩,
   ⟨"TXR[r]", 0x1000, 8, 0x40,
    [reg64 "BASE" 0x00 (bits 63 6), rw "SIZE" 0x08 (bits 12 0) 16, ro "HEAD" 0x0C, rw "TAIL" 0x10 (bits 11 0), rw "CTL" 0x14 1]⟩,
   ⟨"RXR[r]", 0x2000, 8, 0x40,
    [reg64 "BASE" 0x00 (bits 63 6), rw "SIZE" 0x08 (bits 12 0) 16, ro "HEAD" 0x0C, rw "TAIL" 0x10 (bits 11 0), rw "CTL" 0x14 1,
     rw "BUF_LEN" 0x18 (bits 13 0) 2048]⟩,
   ⟨"IMOD[v]", 0x3000, 16, 4, [rw "IMOD" 0 (bits 15 0)]⟩]

/-- The registers of one signalling endpoint. -/
def epRows : List RegRow :=
  [wo "MB_SEND" 0x000 16, ro "MB_STAT" 0x040 0 16, ro "MB_RECV" 0x080 0 16, ro "MB_PEEK" 0x0C0 0 16,
   reg "DB_PEND" 0x100 0 (bits 31 0), wo "DB_SET" 0x104, rw "DB_MASK" 0x108 (bits 31 0), ro "DB_TAKE" 0x10C,
   rw "WAIT_TMR" 0x110 (bits 23 0 + bits 28 24), ro "FULL_SUM" 0x118, ro "REDIR" 0x11C,
   cnt "SENT_CNT" 0x120 0x80, cnt "REJ_CNT" 0x128 0x80, cnt "RING_CNT" 0x130 0x80]

/-- MBX (chapter 14): the 40 endpoints of R354 and the lock words. -/
def mbxMap : List Region :=
  [⟨"EP[e]", 0, 4, 0x200, epRows⟩, ⟨"EP[e]", 0x2000, 36, 0x200, epRows⟩,
   ⟨"LOCK", 0x10000, 1, 0x1000,
    [rw "LOCK" 0x000 0 0 256, ro "LOCK_VIEW" 0x400 0 256, cnt "FOREIGN_CLR_CNT" 0x800 0x80, cnt "RECLAIM_CNT" 0x808 0x80]⟩]

/-- MEM (chapter 14). -/
def memMap : List Region :=
  [flat "MEM" 0x10000
    [rw "BGT_CTL" 0x0000 (7 + bits 31 16) (7 + 10 * 65536), reg "BGT_STAT" 0x0004 0 1, reg64 "BGT_FAIL_ADDR" 0x0008 0,
     rw "MARCH_CMD" 0x0010 7, reg "MARCH_STAT" 0x0014 0 3, reg64 "MARCH_FAIL_ADDR" 0x0018 0, reg "WIPE" 0x0020 0 4,
     reg64 "UE_ADDR" 0x0028 0, reg "UE_INFO" 0x0030 0 (bits 8 8), rw "REPAIR_CMD" 0x0040 (bits 14 0),
     reg "REPAIR_STAT" 0x0044 0 (bits 8 8) (8 + 2 * 16), rw "REPAIR_CLASS" 0x0048 7, ro "CE_LOG" 0x0050,
     cnt "SP_CORR_CNT" 0x0100 0x100, cnt "SP_UE_CNT" 0x0108 0x100, cnt "SM_CORR_CNT" 0x0110 0x100,
     cnt "SM_UE_CNT" 0x0118 0x100, cnt "MCPM_CORR_CNT" 0x0120 0x100, cnt "MCPM_UE_CNT" 0x0128 0x100,
     cnt "BGT_PB_SWEEP_CNT" 0x0130 0x100, cnt "BGT_SP_SWEEP_CNT" 0x0138 0x100, cnt "BGT_PE_SWEEP_CNT" 0x0140 0x100,
     cnt "BGT_FAIL_CNT" 0x0148 0x100, cnt "WIPE_CNT" 0x0150 0x100, cnt "REPAIR_CNT" 0x0158 0x100,
     cnt "PB_CORR_CNT" 0x0160 0x100, cnt "PB_UE_CNT" 0x0168 0x100, cnt "CE_LOG_OVF_CNT" 0x0170 0x100],
   ⟨"CONF_CNT[m]", 0x10000, 6, 0x40, [cnt "CONF_CNT" 0x00 0x4000 8]⟩,
   ⟨"CONF_CNT[m]", 0x10400, 36, 0x40, [cnt "CONF_CNT" 0x00 0x4000 8]⟩,
   ⟨"CONF_SNAP[m]", 0x14000, 6, 0x40, [cnt "CONF_SNAP" 0x00 0x4000 8]⟩,
   ⟨"CONF_SNAP[m]", 0x14400, 36, 0x40, [cnt "CONF_SNAP" 0x00 0x4000 8]⟩]

/-- PEC (chapters 02 to 04): the binding table, the image directory and the engines' register groups. -/
def pecMap : List Region :=
  [⟨"BIND[L]", 0x2000, 32, 0x100,
    [rw "CTL" 0x00 4, reg "STAT" 0x04 0 (bits 17 17), rw "TS" 0x08 (bits 16 0), rw "ATM" 0x0C (bits 10 0 + bits 23 16),
     ro "WORST" 0x10, rw "RUN" 0x20 (bits 7 0) 0 8, rw "PCH_OWN" 0x40 (bits 31 0) 0 8, rw "CAN_OWN" 0x60 (bits 31 0),
     rw "PORT_OWN_LO" 0x64 (bits 31 0), rw "PORT_OWN_HI" 0x68 (bits 7 0), rw "GRANT" 0x70 (bits 31 0) 0 4,
     cnt "MISSED_CNT" 0x80 8, cnt "TAKEOVER_CNT" 0x90 8]⟩,
   ⟨"IMG[i]", 0x6000, 128, 0x20,
    [rw "ADDR" 0x00 (bits 22 0), rw "LEN" 0x04 (bits 16 0), ro "ID" 0x08, ro "STAT" 0x0C]⟩,
   ⟨"PE[n]", 0x10000, 36, 0x400,
    [rw "PE_CFG" 0x000 1, ro "PE_STATE" 0x004, ro "BUDGET" 0x040, ro "USED" 0x044, rw "PEAK" 0x048 (bits 31 0),
     reg "TICK_STAT" 0x04C 0 (bits 4 2), cnt "OVERRUN_CNT" 0x050 8, reg "STICKY" 0x060 0 coreStickyMask,
     rw "TRAP_EN" 0x064 coreTrapMask, reg "TRAP_CAUSE" 0x068 0 (bits 31 31), cnt "BUS_ERR_CNT" 0x070 8, cnt "F2_CNT" 0x080 8,
     cnt "ECC_CORR_CNT" 0x090 8]⟩]

/-- One pin channel's window (chapter 06). STAT, LEVEL, VIEW, CMP and NOW are worked out by Machine/Pch.lean. -/
def pchRows : List RegRow :=
  [rw "LUT_A" 0x0000 (bits 31 0) 0 512, rw "LUT_B" 0x0800 (bits 31 0) 0 512,
   rw "SHCFG" 0x1000 (bits 5 0 + bits 11 8) 0x20 2 0x20, rw "ISEL_BASE" 0x1004 (bits 15 0) 0 2 0x20,
   rw "ISEL_ALT" 0x1008 (bits 15 0) 0 2 0x20, rw "FLAGSEL" 0x100C (bits 5 0 + bits 13 8) 0 2 0x20,
   rw "PERIOD_A" 0x1010 (bits 31 0) 0 2 0x20, rw "PERIOD_B" 0x1014 (bits 31 0) 0 2 0x20,
   rw "CTL" 0x1100 3, rw "BANK" 0x1104 (bits 23 8), rw "MUX" 0x1108 (bits 1 0), ro "STAT" 0x110C, reg "STICKY" 0x1110 0 (bits 13 0),
   ro "LEVEL" 0x1114, ro "VIEW" 0x1118, ro "VIEW_STICKY" 0x111C, wo "TXD" 0x1120, ro "RXD" 0x1124, wo "TAQ_LO" 0x1128,
   wo "TAQ_HI" 0x112C, reg64 "CMP" 0x1130 0, reg64 "NOW" 0x1138 0, ro "CFLAG" 0x1140, ro "DFLAG" 0x1144, wo "CFLAG_SET" 0x1148,
   wo "CFLAG_CLR" 0x114C, wo "DFLAG_SET" 0x1150, wo "DFLAG_CLR" 0x1154, cnt "POSITION" 0x1160 0x18, reg64 "POS_TICK" 0x1168 0,
   reg64 "POS_PRESET" 0x1170 (bits 63 0),
   rw "DIAG_CFG" 0x1200 (bits 12 0 + bits 19 16 + bits 27 20) (2 ^ 8 + 2 ^ 11 + 3 * 2 ^ 16 + 2 * 2 ^ 20 + 1 * 2 ^ 24 + 2 * 2 ^ 26),
   rw "OW_CFG" 0x1204 (bits 19 0) (10 + 20 * 2 ^ 8 + 3 * 2 ^ 16), rw "REV_CFG" 0x1208 (bits 19 0) (100 + 3 * 2 ^ 16),
   rw "INV" 0x120C (bits 3 0), ro "DIAG_STAT" 0x1210, rw "LEG" 0x1220 (bits 11 10) (2 * 2 ^ 8) 4,
   cnt "CNT" 0x1300 0x80 7]

/-- PCH (chapter 06): the 256 channels. -/
def pchMap : List Region := [⟨"PCH[n]", 0, 256, 0x4000, pchRows⟩]

/-- One CAN controller's window (chapter 07). STAT, ERRC, TXQ, NEW and RXF are worked out by Machine/Can.lean. -/
def canRows : List RegRow :=
  [rw "CTL" 0x0000 (bits 5 0 + bits 8 7) 0x20, rw "NBT" 0x0004 (bits 22 0 + bits 30 24),
   rw "DBT" 0x0008 (bits 4 0 + bits 12 8 + bits 19 16 + bits 27 24), rw "TDC" 0x000C (bits 6 0), ro "STAT" 0x0010, ro "ERRC" 0x0014,
   reg "STICKY" 0x0018 0 (bits 9 0), rw "RETRY_CNT" 0x001C (bits 31 0), ro "TXQ" 0x0020, wo "TX_REQ" 0x0024, wo "TX_CXL" 0x0028,
   ro "NEW" 0x0030 0 2, ro "VIEW_NEW" 0x0038 0 2, ro "RXF" 0x0040, wo "RXF_POP" 0x0044, wo "NEW_CLR" 0x0048,
   cnt "CNT" 0x0100 0x80 10,
   rw "FILTER_ID" 0x0400 (bits 31 0) 0 128 16, rw "FILTER_MASK" 0x0404 (bits 28 0) 0 128 16,
   rw "FILTER_ACTION" 0x0408 (bits 1 0 + bits 13 8) 0 128 16, ro "FILTER_RSV" 0x040C 0 128 16,
   ro "BSTAT" 0x0C00 0 64, ro "TXSTAT" 0x0D00 0 32,
   rw "SLOT_ID" 0x1000 (bits 30 0) 0 32 128, rw "SLOT_CTL" 0x1004 (bits 5 0 + bits 14 8) 0 32 128,
   rw "SLOT_STAMP" 0x1008 (bits 31 0) 0 32 128, ro "SLOT_RSV" 0x100C 0 32 128]

/-- The data words and reserved words of the transmit slots. -/
def canSlotRows : List RegRow :=
  (List.range 16).map (fun i => rw "SLOT_DATA" (0x1010 + 4 * i) (bits 31 0) 0 32 128) ++
    (List.range 12).map (fun i => ro "SLOT_RSV" (0x1050 + 4 * i) 0 32 128)

/-- CAN (chapter 07): the 32 controllers. -/
def canMap : List Region :=
  [⟨"CAN[k]", 0, 32, 0x8000, canRows ++ canSlotRows ++ [ro "BUFFERS" 0x2000 0 2048, ro "RXF_HEAD" 0x4000 0 32]⟩]

/-- One port's window (chapter 08). LINK, SHARE and PAUSE_STAT are worked out by Machine/Port.lean. -/
def portRows : List RegRow :=
  [rw "PCS" 0x0000 (bits 5 0 + bits 7 7) 0x28, ro "LINK" 0x0004, rw "MAC" 0x0008 (bits 1 0 + bits 29 16) (0x5F2 * 2 ^ 16),
   reg "STICKY" 0x000C 0 (bits 5 0), rw "SERDES" 0x0010 (bits 4 0), rw "PAUSE_CFG" 0x0100 (bits 11 0 + bits 31 16) 0xFFFF0000,
   rw "PAUSE_REFRESH" 0x0104 (bits 15 0) 0x8000, rw "LINK_HI" 0x0108 (bits 16 0) 0x400, rw "LINK_LO" 0x010C (bits 16 0) 0x200,
   rw "PFC_HI" 0x0110 (bits 16 0) 0x400 8, rw "PFC_LO" 0x0130 (bits 16 0) 0x200 8, ro "SHARE" 0x0150, ro "PFC_SHARE" 0x0160 0 8,
   ro "PAUSE_STAT" 0x0180, cnt "CNT" 0x1000 0x800 20, wo "SEG_SUBMIT" 0x3000, ro "SEG_STAT" 0x3004, ro "SEG_LAST_TAG" 0x3008,
   cnt "SEG_CNT" 0x3010 0x100 3]

/-- PORT (chapter 08): the 40 windows and the MDIO page. -/
def portMap : List Region :=
  [⟨"PORT[p]", 0, 40, 0x10000, portRows⟩,
   ⟨"MDIO", 0x3F0000, 1, 0x1000, [rw "MDIO_CMD" 0 (bits 29 0), rw "MDIO_DATA" 4 (bits 15 0)]⟩]

/-- SW (chapters 09 and 10). Lengths, levels and depths are worked out by Machine/SwPath.lean, as are the shadows that stand outside the
repetitions below. AUDIT_CNT has its shadow in State.snaps, and no address for it (R4, R14, log entry 140). -/
def swMap : List Region :=
  [⟨"SW", 0, 1, 0x1000,
    [rw "CTL" 0x0000 1, rw "HASH_SEED" 0x0010 (bits 31 0) 0 7, rw "AGE_PERIOD" 0x0030 (bits 15 0) 300,
     rw "LEARN_ACT" 0x0034 (bits 31 22 + bits 20 20 + bits 18 17 + bits 15 0) 0x100000]⟩,
   ⟨"PCFG[p]", 0x1000, 48, 16, [rw "PCFG0" 0 (bits 27 0) 1, rw "PCP_MAP" 4 (bits 23 0) 0xFAC688]⟩,
   ⟨"PT", 0x2000, 1, 0x1000,
    [rw "PT_CMD" 0x00 (bits 2 0 + bits 26 16), ro "PT_RESULT" 0x04, rw "PT_BUF" 0x40 (bits 31 0) 0 16]⟩,
   ⟨"PAIR[i]", 0x4000, 16, 0x40,
    [rw "CFG" 0x00 (bits 5 0 + bits 13 8 + bits 18 16 + bits 23 20), ro "SEQ" 0x04, rw "DUP_AGE" 0x08 (bits 15 0) 400,
     rw "NODE_MAC" 0x0C (bits 31 0), rw "NODE_MAC" 0x10 (bits 15 0), cnt "CNT" 0x18 0x200 4]⟩,
   ⟨"MIR[r]", 0x5000, 4, 0x40,
    [rw "BASE" 0x00 (bits 22 6), rw "SIZE" 0x04 (bits 14 0), ro "WR" 0x08, rw "RD" 0x0C (bits 14 0), rw "EN" 0x10 1,
     cnt "CAP_CNT" 0x18 0x10, cnt "DROP_CNT" 0x20 0x10]⟩,
   ⟨"FWD", 0x8000, 1, 0x1000, [cnt "CNT" 0 0x100 9]⟩,
   ⟨"BUF", 0x9000, 1, 0x1000,
    [rw "BUF_CTL" 0x00 1 1, rw "RED_SEED" 0x04 (bits 31 0) 1, reg "LEDGER_STAT" 0x08 0 1, ro "FREE_CELLS" 0x10 65536,
     ro "QUEUED_CELLS" 0x14, ro "INFLIGHT_CELLS" 0x18, ro "OPEN_FRAMES" 0x1C, ro "FOLDED_FRAMES" 0x20, ro "OPEN_SNAP" 0x24,
     cnt "AUDIT_CNT" 0x28 0, reg64 "FAIL_A" 0x30 0, reg64 "FAIL_B" 0x38 0, reg64 "FAIL_TICK" 0x40 0,
     cnt "FRAME_CNT" 0x80 0x200 3, cnt "DROP_CNT" 0x108 0x200 18]⟩,
   ⟨"PORTDROP[e]", 0xA000, 48, 0x100, [ro "NONE" 0x08 0 16, cnt "PORTDROP" 0x48 0x4000 10]⟩,
   ⟨"HASHED", 0x100000, 1, 0x70000, [ro "HASHED" 0 0 114688]⟩,
   ⟨"MASKED", 0x200000, 1, 0x20000, [ro "MASKED" 0 0 32768]⟩,
   ⟨"VLAN[v]", 0x300000, 4096, 8, [rw "MEMBER_LO" 0 (bits 31 0), rw "MEMBER_HI" 4 (bits 9 0)]⟩,
   ⟨"Q[q]", 0x400000, 384, 0x40,
    [rw "CFG" 0x00 (bits 2 0 + bits 7 4 + bits 31 16) (1 + 4 * 16 + 62500 * 2 ^ 16), rw "QLIM" 0x04 (bits 16 0) 1024,
     rw "MIN_MAX" 0x08 (bits 31 0) 0 3 8, rw "MAXP" 0x0C (bits 7 0) 0 3 8, rw "SHAPE_RATE" 0x20 (bits 23 0),
     rw "SHAPE_BURST" 0x24 (bits 23 0) 9236, ro "DEPTH" 0x28, ro "AVG" 0x2C, ro "COPIES" 0x30, ro "SHAPE_LEVEL" 0x34 9236]⟩,
   ⟨"METER[m]", 0x500000, 4096, 0x20,
    [rw "CFG" 0x00 (bits 3 0), rw "CIR" 0x04 (bits 23 0), rw "PIR" 0x08 (bits 23 0), rw "CBS" 0x0C (bits 23 0),
     rw "PBS" 0x10 (bits 23 0), ro "LEVEL_C" 0x14, ro "LEVEL_P" 0x18]⟩,
   ⟨"METER_CNT[m]", 0x580000, 4096, 0x20, [cnt "CNT" 0 0x40000 3]⟩]

/-- ROPE (chapter 12). -/
def ropeMap : List Region :=
  [⟨"ROPE", 0, 1, 0x1000, [rw "ETYPE" 0x00 (bits 15 0) 0x88B5, cnt "SLOT_CNT" 0x10 0x100 3, ro "SLOT_OPEN" 0x28]⟩,
   ⟨"CTX[r]", 0x1000, 4, 0x400,
    [rw "CFG" 0x000 (bits 27 0), rw "CYCLE" 0x004 (bits 10 0) 1, rw "PORTS_LO" 0x008 (bits 31 0), rw "PORTS_HI" 0x00C (bits 7 0),
     rw "APORTS_LO" 0x010 (bits 31 0), rw "APORTS_HI" 0x014 (bits 7 0), rw "COLDP_LO" 0x018 (bits 31 0), rw "COLDP_HI" 0x01C (bits 7 0),
     rw "QUEUES" 0x020 (bits 2 0 + bits 6 4 + bits 10 8) 0x567, rw "GUARD" 0x024 (bits 7 0) 5, rw "KEY_BASE" 0x028 (bits 11 0),
     rw "ENGINE" 0x02C (bits 4 0), rw "REF_DA_LO" 0x030 (bits 31 0), rw "REF_DA_HI" 0x034 (bits 15 0), rw "SRC_MAC_LO" 0x038 (bits 31 0),
     rw "SRC_MAC_HI" 0x03C (bits 15 0), ro "STAT" 0x040, rw "LOCK" 0x044 1, reg64 "CYCLE_NO" 0x048 0, reg "STICKY" 0x050 0 (bits 7 0),
     rw "BANK" 0x054 2, rw "SWITCH_CYCLE" 0x058 (bits 31 0), rw "LEADS" 0x060 (bits 31 0) 0xFFFFFFFF 2, ro "POLL_IN" 0x080 0 32,
     rw "POLL_OUT" 0x100 (bits 31 0) 0 32, rw "ACK_OUT" 0x180 (bits 0 0 + bits 31 8) 0 8, cnt "CNT" 0x200 0x80 8]⟩,
   ⟨"APORT[p]", 0x8000, 40, 0x80, [ro "STAT" 0x00, wo "CTL" 0x04, cnt "CNT" 0x10 0x40 4]⟩,
   ⟨"RX_LAST", 0x20000, 4, 0x1000, [ro "RX_LAST" 0 0xFFFFFFFF 1024]⟩,
   ⟨"NODEPORT", 0x30000, 4, 0x1000, [rw "NODEPORT" 0 (bits 5 0 + bits 7 7) 0 1024]⟩,
   ⟨"SCHED", 0x100000, 8, 0x10000,
    [rw "KIND" 0 (bits 2 0 + bits 25 16) 0 4096 16, rw "START" 4 (bits 26 0) 0 4096 16, rw "LEN" 8 (bits 26 0) 0 4096 16,
     ro "RSV" 12 0 4096 16]⟩]

/-- The registers of one axis (chapter 13). STAT, POS, VEL, the ratio in force and GEAR_Q_LEVEL are worked out by Machine/TravRegs.lean. -/
def axisRows : List RegRow :=
  [rw "CFG" 0x000 (bits 21 0) 0x1000, rw "STEP_W" 0x004 (bits 8 0) 50, rw "DIR_SETUP" 0x008 (bits 8 0) 50, rw "VMAX" 0x00C (bits 31 0),
   rw "AMAX_SDEC" 0x010 (bits 31 0) 1 2, reg64 "POS_MIN" 0x018 (bits 63 0) (2 ^ 63), reg64 "POS_MAX" 0x020 (bits 63 0) (2 ^ 63 - 1),
   rw "SEG_CFG" 0x028 (bits 12 0 + bits 29 16) (128 * 2 ^ 16), ro "SEG_PTR" 0x02C, wo "CMD" 0x030, reg64 "TARGET" 0x038 (bits 63 0),
   ro "STAT" 0x040, reg "STICKY" 0x044 0 (bits 10 0), reg64 "POS" 0x048 0, ro "VEL" 0x050, reg64 "OVERSHOOT" 0x058 0,
   rw "LIMCFG" 0x060 (bits 5 0 + bits 13 8 + bits 21 16 + bits 28 24) 0x3F3F3F, rw "HOME_VEL" 0x064 (bits 31 0),
   reg64 "HOME_POS" 0x068 (bits 63 0), rw "GEAR_SRC" 0x070 (bits 9 0), rw "GEAR_NUM_DEN" 0x074 (bits 31 0) 1 2,
   reg64 "MVAL_POS" 0x080 (bits 63 0), rw "MVAL_VEL" 0x088 (bits 31 0), reg64 "GEAR_Q_POS" 0x090 (bits 63 0),
   rw "GEAR_Q_NUM_DEN" 0x098 (bits 31 0) 1 2, wo "GEAR_Q_PUSH" 0x0A0, ro "GEAR_Q_LEVEL" 0x0A4, rw "WATCH" 0x0A8 (bits 15 0),
   wo "KICK" 0x0AC, cnt "CNT" 0x100 0x80 5]

/-- TRAV (chapter 13). -/
def travMap : List Region :=
  [⟨"TRAV", 0, 1, 0x100, [rw "CTL" 0x00 1, ro "SP_TICK" 0x04]⟩,
   ⟨"AXIS[a]", 0x10000, 64, 0x200, axisRows⟩,
   ⟨"GROUP[g]", 0x20000, 8, 0x100,
    [reg64 "AXES" 0x00 (bits 63 0), wo "CTL" 0x08, reg "STAT" 0x0C 0 2, reg64 "TGT" 0x40 (bits 63 0) 0 8]⟩,
   ⟨"SP[a]", 0x30000, 64, 0x20, [reg64 "POS" 0x00 0, ro "VEL" 0x08, ro "STATE" 0x0C]⟩,
   ⟨"SEG[i]", 0x100000, 8192, 16, [rw "END_POS_VEL" 0 (bits 31 0) 0 3, rw "DUR_EVT" 0xC (bits 28 0)]⟩]

/-- The register regions of each block. -/
def mapOf : Block → List Region
  | .sys => sysMap
  | .tick => tickMap
  | .flt => fltMap
  | .mgt => mgtMap
  | .time => timeMap
  | .host => hostMap
  | .mbx => mbxMap
  | .mem => memMap
  | .pec => pecMap
  | .pch => pchMap
  | .can => canMap
  | .port => portMap
  | .sw => swMap
  | .rope => ropeMap
  | .trav => travMap
  | _ => []

/-- What stands at a device address, if it is a register. -/
def cellAt (a : Nat) : Option RegCell :=
  match blockOf a with
  | none => none
  | some (b, o) => regionsCell (a - o) o (mapOf b)

/-- Reset values that depend on the index of the register: AUTO_POL and AUTO_SWAP of the G-ports, HASH_SEED[b], and the members of
VLAN 1, and SEG_BASE of the axes. -/
def resetSpecial (a : Nat) : Option Nat :=
  if portBase + 0x80010 ≤ a ∧ a < portBase + 0x280000 ∧ (a - portBase) % 0x10000 = 0x10 then some 0xC
  else if swBase + 0x10 ≤ a ∧ a < swBase + 0x2C then some (0x1D0F0000 + (a - swBase - 0x10) / 4)
  else if travBase + 0x10000 ≤ a ∧ a < travBase + 0x18000 ∧ (a - travBase) % 0x200 = 0x28 then
    some (128 * ((a - travBase - 0x10000) / 0x200) + 128 * 2 ^ 16)
  else if a = swBase + 0x300008 then some 0xFFFFFFFF
  else if a = swBase + 0x30000C then some 0x3FF
  else none

/-- The reset value of the register word at a device address. -/
def regReset (a : Nat) : Word :=
  match resetSpecial a with
  | some v => word v
  | none =>
    match cellAt a with
    | some (.word _ _ d) => word d
    | some (.wideLo _ d) => word d
    | some (.wideHi _ d) => word d
    | _ => 0

/-- Engine n's register group in PEC (R47). -/
def peGroup (n : Nat) : Nat := pecBase + 0x10000 + n * 0x400
/-- PEC.BIND[L]. -/
def bindAddr (l : Nat) : Nat := pecBase + 0x2000 + l * 0x100
/-- PEC.IMG[i]. -/
def imgAddr (i : Nat) : Nat := pecBase + 0x6000 + i * 0x20
/-- The window of pin channel n. -/
def pchAddr (n : Nat) : Nat := pchBase + n * 0x4000
/-- The window of CAN controller k (R176). -/
def canAddr (k : Nat) : Nat := canBase + k * 0x8000

/-- The window of port p (R198). -/
def portAddr (p : Nat) : Nat := portBase + p * 0x10000
/-- Rope context r. -/
def ctxAddr (r : Nat) : Nat := ropeBase + 0x1000 + 0x400 * r

end Sys2Proof.Machine
end

