-- ==== Sys2Proof/Machine/Tab.lean ====
section
/-!
DEFINITION. A sparse table: a list of (number, value) pairs in one canonical form, with a value `d k` that every key `k`
which is not listed stands for. The keys rise strictly and no listed value equals its key's default, so equal tables are
equal data. All of the machine's numbered state (registers, counters, units, entries) is held in such tables, and memory is
one whose values are bytes.
-/
namespace Sys2Proof.Machine

/-- A sparse table from numbers to `α`. -/
abbrev Tab (α : Type) := List (Nat × α)

/-- The value at key `k`; `d k` where the key is not listed. -/
def Tab.get {α : Type} (d : Nat → α) : Tab α → Nat → α
  | [], k => d k
  | (k', v) :: t, k => if k' = k then v else Tab.get d t k

/-- Put the pair (k, v) in front of the first key above `k`, leaving out any pair with key `k`. -/
def Tab.put {α : Type} : Tab α → Nat → α → Tab α
  | [], k, v => [(k, v)]
  | (k', v') :: t, k, v =>
    if k' = k then (k, v) :: t
    else if k < k' then (k, v) :: (k', v') :: t
    else (k', v') :: Tab.put t k v

/-- Leave out every pair with key `k`. -/
def Tab.drop {α : Type} : Tab α → Nat → Tab α
  | [], _ => []
  | (k', v') :: t, k => if k' = k then Tab.drop t k else (k', v') :: Tab.drop t k

/-- Set the value at key `k`: a value equal to the default is not listed. -/
def Tab.set {α : Type} [DecidableEq α] (d : Nat → α) (t : Tab α) (k : Nat) (v : α) : Tab α :=
  if v = d k then Tab.drop t k else Tab.put t k v

/-- The table is canonical from key `lo` upwards: keys rise strictly and no listed value is its key's default. -/
def Tab.wfFrom {α : Type} [DecidableEq α] (d : Nat → α) : Nat → Tab α → Bool
  | _, [] => true
  | lo, (k, v) :: t => decide (lo ≤ k) && decide (v ≠ d k) && Tab.wfFrom d (k + 1) t

/-- The canonical form. -/
def Tab.wf {α : Type} [DecidableEq α] (d : Nat → α) (t : Tab α) : Bool := Tab.wfFrom d 0 t

/-- The keys that are listed. -/
def Tab.keys {α : Type} (t : Tab α) : List Nat := t.map Prod.fst

end Sys2Proof.Machine
end

