-- ==== Sys2Proof/Machine/Units.lean ====
section
/-!
DEFINITION. The parts of the state that the numbered units hold beyond their register words: pin channels, CAN controllers, ports
and the switch, Ropeline, Traverse and the Pydin cores. Plain data; `reset` gives each part after reset.
-/
namespace Sys2Proof.Machine

/-! ## Pin channels (chapter 06) -/

/-- A pin channel: its sequencer core, FIFOs, compare unit, timed-action queue, output registers and captured view
(R144 to R172). -/
structure Chan where
  /-- The 5-bit state and the shift count (R144, R152). -/
  state : Nat
  count : Nat
  sr : Word
  /-- The compare unit (R155): MATCH, ARMED and CMP with its 8 fraction bits. -/
  matched : Bool
  armed : Bool
  cmp : Nat
  /-- The output register: levels and enables of pins A to D (R159). -/
  out : Nat
  oe : Nat
  /-- The active bank (false: A) and PENDING (R162). -/
  active : Bool
  pending : Bool
  /-- The input-select set of the next step (R148). -/
  isel : Bool
  /-- The FIFOs, oldest word first (R153). -/
  tx : List Word
  rx : List Word
  /-- The timed-action queue: time in P units and second word, in order of arrival (R157); and the last TAQ_LO of each master. -/
  taq : List (Nat × Word)
  taqLo : Tab Word
  /-- A forced swap waits for the next step, and the TIME cycle at which a pending swap is forced (R163). -/
  force : Bool
  swapAt : Option Nat
  /-- LUT entries (512 × bank + entry) whose words are not to be used, as bits: the core is stopped while any is (R171, R173). -/
  bad : Nat
  /-- The core that a requested copy goes to, the TIME cycle of the request, and whether the copy is forced (R171, R172). -/
  copy : Option Nat
  copyAt : Nat
  copyForced : Bool
  /-- INV has been corrected since the active bank last became active (R168). -/
  corrected : Bool
  /-- The channel's own F2 finding holds its pads at safe level (R169, R387). -/
  localSafe : Bool
  /-- One more than the number of the last step taken and the TIME cycle of the last timed action, and the pins that this action
  wrote (R157, R159); 0 before the first. -/
  stepAt : Nat
  taqAt : Nat
  pinsAt : Nat
  /-- The input view (R38): receive count, the captured entries still in the FIFO, pin levels and sticky flags; and POS_TICK. -/
  viewRx : Nat
  viewLeft : Nat
  viewPin : Nat
  viewSticky : Word
  posTick : DWord
  /-- Consecutive samples of each pin that speak against its OPEN bit, the TIME cycle of its last open-wire test or of the instant from which it is
  tested, and the level of its pad that the sequencer and the view see until a TIME cycle during such a test (R167). -/
  openRuns : Tab Nat
  owAt : Tab (Option Nat)
  owHold : Tab (Option (Nat × Bool))
  /-- A copy into a spare core has met an uncorrectable error: the pads stay at safe level until the banks are rewritten (R171). -/
  held : Bool
  /-- The TIME cycle at which each pin's output register last changed its level or was enabled (R166), and the edges driven on each pin since its
  STRENGTH was last averaged (R170). -/
  outAt : Tab Nat
  edges : Tab Nat
  /-- The reversal check (R168): RUN has become 1 since reset; the levels that each pin has shown since it last did, and the TIME cycle at which it
  last showed each, both keyed 2 × pin + level. -/
  ran : Bool
  shown : Nat
  shownAt : Tab Nat
  /-- The TIME cycle at which XF_PIN last showed another level than XF_ACT (R169). -/
  xfOffAt : Nat
  deriving DecidableEq, Repr

/-- A shared flag (R160): the step `opStep` of its last operations, its values in that step and the one before, what was asked of it in
the step (by sequencers: set, pulse, clear; by registers: set, clear), and whether its value in the step is a pulse. -/
structure SharedFlag where
  opStep : Nat
  was : Bool
  prev : Bool
  set : Bool
  pulse : Bool
  clear : Bool
  regSet : Bool
  regClear : Bool
  pulsed : Bool
  /-- How often the flag's value has changed up to step `opStep`. -/
  changes : Nat
  /-- Register writes that change the flag in later steps, by step: the step, and whether the write sets the flag. -/
  later : List (Nat × Bool)
  deriving DecidableEq, Repr

/-- The pin channels and their shared flags: cluster flag f of cluster c under 32 × c + f, device-wide flag f under 512 + f. -/
structure PchSt where
  chans : Tab Chan
  flags : Tab SharedFlag
  deriving DecidableEq, Repr

/-- A channel after reset. -/
def Chan.reset : Chan :=
  { state := 0, count := 0, sr := 0, matched := false, armed := false, cmp := 0, out := 0, oe := 0, active := false, pending := false,
    isel := false, tx := [], rx := [], taq := [], taqLo := [], force := false, swapAt := none, bad := 0, copy := none, copyAt := 0,
    copyForced := false, corrected := false, localSafe := false, stepAt := 0, taqAt := 0, pinsAt := 0, viewRx := 0, viewLeft := 0,
    viewPin := 0, viewSticky := 0, posTick := 0, openRuns := [], owAt := [], owHold := [], held := false, outAt := [], edges := [],
    ran := false, shown := 0, shownAt := [], xfOffAt := 0 }

/-- A flag after reset. -/
def SharedFlag.reset : SharedFlag := ⟨0, false, false, false, false, false, false, false, false, 0, []⟩

/-- The channels after reset. -/
def PchSt.reset : PchSt := ⟨[], []⟩

/-! ## CAN controllers (chapter 07) -/

/-- An entry of a transmit queue: the slot, whether it is eligible (R185), and whether an attempt of it has been made (R187). -/
structure CanEntry where
  slot : Nat
  eligible : Bool
  tried : Bool
  deriving DecidableEq, Repr

/-- A CAN controller beyond its register words (R175 to R196). -/
structure CanSt where
  /-- The mode in force, and the mode that waits for the end of the frame on the bus (R179). -/
  mode : Nat
  pend : Option Nat
  /-- Integrated and taking part in the bus (STAT.SYNC). -/
  sync : Bool
  busOff : Bool
  /-- BO_REC has been written since the entry into bus-off (R189). -/
  boGo : Bool
  tec : Nat
  rec' : Nat
  ackRun : Nat
  lec : Nat
  /-- The transmit queue, head first; whether the head is being attempted, whether a cancel arrived meanwhile, and the device time
  in ns and the TIME cycle of its SOF (R183, R187, R188, R192). -/
  queue : List CanEntry
  attempt : Bool
  cancelled : Bool
  sofAt : Nat
  sofCyc : Nat
  /-- The receive FIFO as records of 32 words, oldest first, and the captured count with what is left of it (R196). -/
  rxf : List (List Word)
  viewRxf : Nat
  viewLeft : Nat
  /-- The writes to the acceptance filters since the last frame, newest first: the TIME cycle, the register's offset and the word it held before
  (R192). -/
  filterLog : List (Nat × Nat × Word)
  deriving DecidableEq, Repr

/-- A controller after reset. -/
def CanSt.reset : CanSt := ⟨0, none, false, false, false, 0, 0, 0, 0, [], false, false, 0, 0, [], 0, 0, []⟩

/-! ## Ports, switch and buffers (chapters 05, 08, 09, 10) -/

/-- A copy of a frame (R237): its frame, its egress port, the logical engine it is for on ports 41 to 47 (32: the MCP), whether it is
cut through, whether the egress removes the HSR tag that the frame brought and what it adds (0: nothing, 1: a PRP trailer, 2: an HSR tag)
with the pair and its sequence number, and the TICK_CNT value that a frame of an engine waits to pass (R42). -/
structure Copy where
  frame : Nat
  egress : Nat
  l : Nat
  ct : Bool
  strip : Bool
  form : Nat
  pair : Nat
  seq : Nat
  after : Option Nat
  deriving DecidableEq, Repr

/-- A frame in the buffer (R247): the bytes from DA that are stored, never its FCS, its ingress port and sender, its ingress
stamp in 2^−32 ns, and what classification, folding and the ledgers keep with it. -/
structure Frame where
  bytes : List Byte
  ingress : Nat
  sender : Option Nat
  stamp : Nat
  arriving : Bool
  /-- The frame has ended bad, or its later bytes are discarded (R203, R248). -/
  bad : Bool
  classed : Bool
  tc : Nat
  granule : Nat
  /-- The fold kind 0 to 4 and the dictionary entry (R250, R251). -/
  kind : Nat
  entry : Nat
  cells : Nat
  /-- ENTRY and HITF of R244, and the ACT word of the chosen action. -/
  hit : Option Nat
  act : Word
  /-- The drop reason that the frame itself took (1 to 8, 12), that of its first failed copy, and whether a copy has left (R238). -/
  reason : Nat
  failed : Nat
  left : Bool
  /-- Meters and colours of its copies, debited when the frame ends good (R257). -/
  debits : List (Nat × Nat)
  /-- The copies to be offered while an anchor's shared window is undecided (R308), and whether the frame still waits for it. -/
  waits : Bool
  /-- The anchor's end limit in ns and its port's context, for a frame that an anchor admitted (R309). -/
  limit : Option (Nat × Nat)
  /-- It has passed that limit while its shared window was undecided. -/
  late : Bool
  /-- Word 0x3FE8 of its slot (R320). -/
  tag : Word
  deriving DecidableEq, Repr

/-- A transmission in progress: the copy, the credits it holds (R255), what is written into its bytes in flight (offsets and new bytes:
R281, R301, R312), its queue and the bytes debited to the queue's shaper so far, at how many bytes of its frame a halt of forwarding has ended it
(R265), and the egress stamp of a cut-through copy whose PTP message is still to be dealt with. -/
structure Tx where
  copy : Copy
  credits : Nat
  edits : List (Nat × List Byte)
  queue : Nat
  debited : Nat
  stomped : Option Nat
  stamp : Option Nat
  deriving DecidableEq, Repr

/-- A reception in progress (R203): the bytes received, the frame that holds them in the buffer (none where none enters), and whether an
ingress capture is still to be taken (R243). -/
structure Rx where
  bytes : List Byte
  frame : Option Nat
  capture : Bool
  deriving DecidableEq, Repr

/-- A capture that waits for the mirror writer (R243): its frame and ring, LENGTH, COMPLETE and BAD at capture, the egress port (0x3F for
an ingress capture), and the first bytes of the frame. -/
structure Capture where
  frame : Nat
  ring : Nat
  length : Nat
  complete : Bool
  bad : Bool
  egress : Nat
  header : List Byte
  deriving DecidableEq, Repr

/-- A bucket (R256): its level in grains, and the CORE cycle to which it is brought up. -/
structure Bucket where
  level : Int
  at' : Nat
  deriving DecidableEq, Repr

/-- An entry of a duplicate table (R242): SA, sequence number, and the TIME cycle at which it entered. -/
structure Dup where
  sa : List Byte
  seq : Nat
  at' : Nat
  deriving DecidableEq, Repr

/-- A segmentation job (R212): the scratchpad address of its descriptor, its queue, its submitter's switch port and logical engine, and
the TICK_CNT value its segments wait to pass; once started, how many segments were enqueued and refused, and the RESULT. -/
structure SegJob where
  addr : Nat
  queue : Nat
  ingress : Nat
  master : Nat
  sender : Option Nat
  after : Option Nat
  started : Bool
  enqueued : Nat
  refused : Nat
  result : Nat
  deriving DecidableEq, Repr

/-- A slot of a logical engine's frame unit (R92): the received frame it holds, whether it is a transmit slot, after how
many bytes the copy in it was ended before its frame (R265), whether that copy loses its frame's HSR tag (R241), and the bytes of a transmit
slot. -/
structure Slot where
  rx : Option Nat
  tx : Bool
  cut : Option Nat
  strip : Bool
  data : List Byte
  deriving DecidableEq, Repr

/-- A slot of the free set. -/
def Slot.empty : Slot := ⟨none, false, none, false, []⟩

/-- A map entry of an on-the-fly unit (R140): logical start address, length, direction (true: the master writes), and the address of its
data in the scratchpad. -/
structure OtfEntry where
  start : Nat
  length : Nat
  writes : Bool
  at' : Nat
  deriving DecidableEq, Repr

/-- Ports, switch and buffers beyond their registers. -/
structure SwSt where
  frames : Tab (Option Frame)
  nextFrame : Nat
  /-- The copies of the 384 queues, head first. -/
  queues : Tab (List Copy)
  txs : Tab (Option Tx)
  rxs : Tab (Option Rx)
  /-- The free list's length, and the ports that hold their pre-allocated cell, as bits (R248). -/
  free : Nat
  pre : Nat
  /-- Egress credits out of each port's scheduler (R255), and the terms of the cell, frame and fold ledgers that are kept apart from what they
  describe (R262). -/
  creditsOut : Tab Nat
  queuedCells : Nat
  inflightCells : Nat
  openFrames : Nat
  foldedFrames : Nat
  /-- Whether the audit of the tick is still to be made, and the TIME cycle of the last audit (R264). -/
  auditDue : Bool
  auditAt : Nat
  /-- The LFSR of R259 when it last started, and the CORE cycle of that start. -/
  lfsr : Word
  lfsrAt : Nat
  /-- The TIME cycle of the last visit of the ageing sweep to a hashed entry, plus 1 (R232). -/
  swept : Tab Nat
  /-- The fold dictionary: template (kind byte first) and REFS (R251). -/
  dict : Tab (List Byte × Nat)
  captures : List Capture
  /-- Frames to be learned (R231): ingress port, SA and VID. -/
  learns : List (Nat × Nat × Nat)
  /-- Buckets C and P of the meters that are on, the shapers that are on, and the terms of the token ledger (R262). -/
  meters : Tab (Option (Bucket × Bucket))
  shapers : Tab (Option Bucket)
  added : Nat
  spent : Nat
  capped : Nat
  retired : Int
  /-- Averages in 17.16 fixed point (R259), and the ageing granule counter (R260). -/
  avgs : Tab Nat
  granule : Nat
  /-- The number, plus 1, of the 256 CORE cycles in which the averages were last updated (R259). -/
  redNo : Nat
  /-- The TIME cycle at which a received pause of a queue ends (R210); stops in force and pause frames to be sent per port as bits (8: link,
  0 to 7: priorities), and the TIME cycle of the last stop frame of each (R208), keyed 16 × port + bit. -/
  holdUntil : Tab Nat
  xoff : Tab Nat
  pauseDue : Tab Nat
  stopAt : Tab Nat
  /-- Duplicate tables of the pairs, oldest entry first (R242). -/
  dups : Tab (List Dup)
  /-- Slots keyed 32 × L + slot, and the slots that hold received frames, oldest first, by L (32: the MCP). -/
  slots : Tab Slot
  waiting : Tab (List Nat)
  segs : Tab (List SegJob)
  /-- Polarity correction and exchanged lanes of the ports (R201, R202), the TIME cycle before which a restarted negotiation cannot complete
  (R200), and the TIME cycle of the last exchange or restart of the lane search. -/
  polFix : Tab Bool
  swapped : Tab Bool
  anUntil : Tab Nat
  swapAt : Tab Nat
  /-- Whether code-group synchronisation is achieved (R202). -/
  synced : Tab Bool
  /-- What each port last put on its line: preamble, start delimiter, the frame and its FCS. -/
  wire : Tab (List Byte)
  /-- Slots whose ONCE entry has been found late (R286). -/
  onceLate : Tab Bool
  /-- Map entries of the on-the-fly units, keyed 32 × pair + entry (length 0: not used); and by pair the data that the last good frame with
  written data left, to be presented at the next tick start, with its scratchpad addresses (R140, R141). -/
  otfMap : Tab OtfEntry
  otfData : Tab (List (Nat × Byte))
  /-- PT_RESULT of the path-table command in progress (R229). -/
  ptDone : Word
  deriving DecidableEq, Repr

/-- Ports, switch and buffers after reset. -/
def SwSt.reset : SwSt :=
  { frames := [], nextFrame := 0, queues := [], txs := [], rxs := [], free := 65536, pre := 0, creditsOut := [], queuedCells := 0, inflightCells := 0,
    openFrames := 0, foldedFrames := 0, auditDue := false, auditAt := 0, lfsr := 1, lfsrAt := 0, swept := [], dict := [], captures := [], learns := [],
    meters := [], shapers := [], added := 0, spent := 0, capped := 0, retired := 0, avgs := [], granule := 0, redNo := 0, holdUntil := [], xoff := [],
    pauseDue := [], stopAt := [], dups := [], slots := [], waiting := [], segs := [], polFix := [], swapped := [], anUntil := [],
    swapAt := [], synced := [], wire := [], onceLate := [], otfMap := [], otfData := [], ptDone := 0 }

/-! ## Ropeline (chapter 12) -/

/-- A window of an anchor that is open (R307, R313): its slot (4,096 for a cold window; 8,192 more in the cycle before, 16,384 more in the next), the cycle, whether its token is used, and the
frames that compete for it (R308). -/
structure RopeWin where
  slot : Nat
  cycle : Nat
  used : Bool
  rivals : List Nat
  deriving DecidableEq, Repr

/-- What a context keeps of a REF that is to take effect (R304): POLL (128 bytes), LEADS (4 identities), RANK, NEXT_BANK, SWITCH_CYCLE,
the cycle, and whether it is the part's own. -/
structure RopeRef where
  poll : List Byte
  leads : List Nat
  rank : Nat
  nextBank : Bool
  switchAt : Nat
  cycle : Nat
  own : Bool
  deriving DecidableEq, Repr

/-- What a context holds of a cycle that is over while its REF has still to take effect: when, in ns, and what was heard (R304). -/
structure RefCarry where
  due : Nat
  heard : Option RopeRef
  heardAnch : Option RopeRef
  own : Option RopeRef
  sent : Bool
  deriving DecidableEq, Repr

/-- A rope context beyond its registers. -/
structure CtxSt where
  /-- The REF heard and valid in this cycle for the station and for the anchor, and the station's own; and the REF in force. -/
  heard : Option RopeRef
  heardAnch : Option RopeRef
  own : Option RopeRef
  inForce : Option RopeRef
  /-- The start of the present cycle in ns (C_c), and whether it has started. -/
  start : Nat
  running : Bool
  /-- The start and the bank of the cycle before, and its references that have still to take effect. -/
  prev : Option (Nat × Bool)
  carry : Option RefCarry
  /-- A valid REF took effect in this cycle; its REF slot has been closed. -/
  took : Bool
  closed : Bool
  /-- The instant X in ns of the reference built last, and whether it has left (R302). -/
  buildX : Option Nat
  sent : Bool
  /-- COLD references sent without an answer, and the TIME cycle of the entry into LISTEN (R305, R314). -/
  colds : Nat
  listenAt : Nat
  /-- The last slot that has released a frame or passed without one in this cycle, one more than its number; and the slot that station ports
  have had nothing to release in, one more than its number, with those ports as bits (R301). -/
  released : Nat
  triedSlot : Nat
  triedPorts : Nat
  /-- The X of the last reference that each port of the context took from LQ, plus 1 (R300). -/
  lqAt : Tab Nat
  /-- The windows that are open, and the slots whose windows have ended (R313). -/
  wins : List RopeWin
  ended : List Nat
  /-- Cycles without a REF from LOCK_PORT (R311), and whether one came in this cycle. -/
  lockMiss : Nat
  lockSeen : Bool
  deriving DecidableEq, Repr

/-- A context after reset. -/
def CtxSt.reset : CtxSt :=
  { heard := none, heardAnch := none, own := none, inForce := none, start := 0, running := false, prev := none, carry := none, took := false, closed := false,
    buildX := none, sent := false, colds := 0, listenAt := 0, released := 0, triedSlot := 0, triedPorts := 0, lqAt := [],
    wins := [], ended := [], lockMiss := 0, lockSeen := false }

/-! ## Traverse (chapter 13) -/

/-- A segment in execution (R331): position in 1/65,536 count and velocity in 2^−16 count per ms at its start and end, its length and its
start in ns of motion time (R328), whether it came from the ring, and its EVT bit. -/
structure MotionSeg where
  p0 : Int
  v0 : Int
  p1 : Int
  v1 : Int
  len : Nat
  start : Int
  ring : Bool
  evt : Bool
  deriving DecidableEq, Repr

/-- A queued ratio change (R344): master position X (modulo 2^64), ratio and permitted directions (1 rising, 2 falling, 3 either). -/
structure GearChange where
  x : Nat
  num : Int
  den : Nat
  dir : Nat
  deriving DecidableEq, Repr

/-- An action of a step output that is not yet written (R339): its instant in ns of motion time, its TAQ_HI word, and the step that it
is the rising edge of (1, −1; 0 for another action). -/
structure StepAct where
  at' : Int
  word : Word
  step : Int
  deriving DecidableEq, Repr

/-- An axis beyond its registers (R327). -/
structure AxisSt where
  /-- STAT.STATE, the commanded position and velocity at the last grid point, and the segment in execution. -/
  state : Nat
  p : Int
  v : Int
  seg : Option MotionSeg
  /-- How many of the queued segments the unit itself has planned (R341, R345), and the state that a stop ends in. -/
  own : Nat
  after : Nat
  homed : Bool
  /-- The position captured in homing (R349). -/
  captured : Option Int
  /-- Gearing (R343, R344): S_ref, M_ref, the master at the last grid point, the ratio in force, and the queued changes. -/
  sref : Int
  mref : Nat
  mlast : Nat
  num : Int
  den : Nat
  changes : List GearChange
  /-- An MVAL write waits for its grid point, and the motion time t_a of the last one applied. -/
  mvalNew : Bool
  mvalAt : Int
  /-- TICK_CNT at the last KICK or start of motion (R351); the pads of STEP_CH were at safe level at the last grid point (R352). -/
  kick : Nat
  safe : Bool
  /-- How often each limit flag had changed by the last grid point (R347, R348). -/
  posSeen : Nat
  negSeen : Nat
  /-- The step output (R339): position that steps are issued up to, in counts issued and in counts written; the end of the last line
  (R338); the direction that DIR_PIN shows (true: negative) and since when; the last rising and the last other action; the delay of
  later actions; and the actions not yet written. -/
  out : Int
  wrote : Int
  line : Int
  dirNeg : Bool
  dirAt : Int
  rise : Int
  fall : Int
  lag : Nat
  acts : List StepAct
  deriving DecidableEq, Repr

/-- An axis after reset. -/
def AxisSt.reset : AxisSt :=
  { state := 0, p := 0, v := 0, seg := none, own := 0, after := 0, homed := false, captured := none, sref := 0, mref := 0, mlast := 0,
    num := 1, den := 1, changes := [], mvalNew := false, mvalAt := 0, kick := 0, safe := false, posSeen := 0, negSeen := 0, out := 0,
    wrote := 0, line := 0, dirNeg := false, dirAt := 0, rise := -1000000, fall := -1000000, lag := 0, acts := [] }

/-- A busy group (R345): its members with their start positions and distances, and the longest distance Λ. -/
structure GroupPlan where
  members : List (Nat × Int × Int)
  span : Nat
  deriving DecidableEq, Repr

/-- What takes effect on the axes at the next grid point (R329): a command to an axis, its OP with the value of AXIS.TARGET; a write of
SEG_WR; a word of segment memory; a GO to a group, with its members and their targets. -/
inductive TravOrder where
  | cmd (a op : Nat) (target : Int)
  | segWr (a n : Nat)
  | seg (addr : Nat) (d : Word)
  | go (g : Nat) (targets : List (Nat × Int))
  deriving DecidableEq, Repr

/-- What SP[a] is to show for a tick (R336): the state of the axis at the tick's start, and its position and velocity for the tick's end; in
FAULT these hold. -/
structure Setpoint where
  axis : Nat
  state : Nat
  vals : Option (Int × Int)
  deriving DecidableEq, Repr

/-- Traverse beyond its registers. -/
structure TravSt where
  axes : Tab AxisSt
  groups : Tab (Option GroupPlan)
  /-- What takes effect at the next grid point, in the order issued (R329). -/
  cmds : List TravOrder
  /-- The sum of the applied time steps in ns: device time less motion time (R328). -/
  skew : Int
  /-- The motion time of the last grid point in ns. -/
  grid : Option Int
  /-- The setpoints evaluated at the start of the present tick, while the view is still to be written (R336). -/
  spNew : Option (List Setpoint)
  deriving DecidableEq, Repr

/-- Traverse after reset. -/
def TravSt.reset : TravSt := ⟨[], [], [], 0, none, none⟩

/-! ## Pydin cores (chapter 03) -/

/-- A far transaction in flight (R82, R83): its trigger, the trigger value, the value of the unit's operand socket, its place in the
core's order of issue, the bundle and slot of its move, and what it has returned, where it has completed and its result waits for room in
LSU.FQ. -/
structure FarOp where
  trig : Nat
  arg : Word
  data : Word
  seq : Nat
  bundle : Nat
  slot : Nat
  vals : Option (List Word)
  /-- For a load of a CAN controller's RXF_HEAD: the RXF_POP writes for it that the core had issued in the tick before (R196). -/
  popped : Nat
  deriving DecidableEq, Repr

/-- An output that an engine has staged (R23): a register write at a device address, or a frame in a transmit slot. -/
inductive Staged where
  | write (addr : Nat) (data : Word)
  | send (slot len : Nat)
  deriving DecidableEq, Repr

/-- A Pydin core: one of the 36 engines, or the MCP (number 36), beyond its memories and registers. -/
structure Core where
  /-- The core issues bundles; its next bundle; the cycles since the tick start, which are the budget counter (R46); and the bundles
  issued since then, by which results become readable (R66). -/
  running : Bool
  pc : Nat
  cyc : Nat
  iss : Nat
  /-- Values of the sockets that hold one, by socket address; and the writes to Gn of the last bundle, which are not readable yet (R65). -/
  sock : Tab Word
  late : List (Nat × Word)
  /-- Jumps taken: how many bundles still issue before each, and its target (R95). -/
  jumps : List (Nat × Nat)
  /-- Operations in progress with the bundle, by its number in the tick, from which their result is readable (R66): products, the division (quotient, remainder,
  DIV.V), local loads. -/
  mul : List (Nat × DWord)
  div : Option (Nat × Word × Word × Bool)
  lsu : List (Nat × Word)
  /-- The far return queue LSU.FQ, the outstanding far loads and the posted-store buffer, oldest first (R82, R83). -/
  fq : List Word
  far : List FarOp
  posted : List FarOp
  seq : Nat
  /-- Stall cycles that the present bundle still has to serve, once that is settled (R67); and the far transactions and the tick-state
  lines of the bundle whose stall cycles have been settled. -/
  stall : Option Nat
  paid : Nat × List Nat
  /-- The core waits in CTL.T.WAIT (R98), with the cycle at which the timeout passes. -/
  wait : Option (Option Nat)
  /-- What the engine has staged in the tick (R23, R39): outputs; pops of receive FIFOs by channel and by controller; NEW_CLR writes;
  released frames; transmit slots allocated; and the received frames taken by FRM.T.RXPOP. -/
  staged : List Staged
  rxPops : Tab Nat
  rxfPops : Tab Nat
  newClrs : List (Nat × Word)
  frees : List Nat
  allocs : List Nat
  rxPopped : Nat
  deriving DecidableEq, Repr

/-- A core after reset. -/
def Core.reset : Core :=
  { running := false, pc := 0, cyc := 0, iss := 0, sock := [], late := [], jumps := [], mul := [], div := none, lsu := [], fq := [], far := [],
    posted := [], seq := 0, stall := none, paid := (0, []), wait := none, staged := [], rxPops := [], rxfPops := [], newClrs := [], frees := [],
    allocs := [], rxPopped := 0 }

end Sys2Proof.Machine
end

