-- ==== Sys2Proof/Machine/State.lean ====
section
/-!
DEFINITION. The state of the NM2560 as plain data: every register, memory byte, counter, FIFO, queue and mode the spec gives
the device, the queue of waiting commands, and the state after reset.
-/
namespace Sys2Proof.Machine

/-- Why the machine stops: it never does, since the spec gives every command an effect. -/
inductive Fault where
  deriving DecidableEq, Repr

/-- Why a command has no meaning. -/
inductive Refusal where
  /-- Raised by the dispatcher alone, for a command whose meaning is not written yet. Stopping is safe. -/
  | notModelled (mnemonic : String)
  deriving DecidableEq, Repr

/-! ## Faults, events and the Cairn (chapter 15) -/

/-- A fault or event on its way from its source to the Cairn (R383, R399, R406, R490): source, class, CAUSE, the cluster's
fault vector (R384), the BROKEN and INJ marks, the record TYPE, the device time and TICK.INDEX at detection, DETAIL, and whether the PEC holds it. -/
structure Event where
  src : Nat
  cls : Nat
  cause : Nat
  vector : Word
  broken : Bool
  inj : Bool
  kind : Nat
  time : Nat
  tick : DWord
  detail : List Byte
  /-- The PEC holds the event until the outcome of the takeover it starts is known (R399, R126). -/
  waits : Bool
  deriving DecidableEq, Repr

/-- The part of a source's tally that its TALLY registers do not hold (R402): the device times and CAUSE values of its first
and last events, and the TIME cycle of its last tally record. -/
structure Tally where
  firstTime : Nat
  lastTime : Nat
  firstCause : Nat
  lastCause : Nat
  written : Option Nat
  deriving DecidableEq, Repr

/-- The 1 ms window in which a source's events are counted against SRC_BURST (R401): its number and the events in it. -/
structure Burst where
  window : Nat
  events : Nat
  deriving DecidableEq, Repr

/-- An injection in progress (R397): its line, its mode, the TIME cycles at which it starts and ends, whether the
collector has observed it, and whether a real fault has cleared its test tag (R398). -/
structure Injection where
  src : Nat
  cls : Nat
  mode : Nat
  starts : Nat
  ends : Nat
  seen : Bool
  real : Bool
  missed : Bool
  deriving DecidableEq, Repr

/-- The fault collector and the Cairn controller, beyond their registers. -/
structure FltSt where
  /-- Lines in real fault now, keyed 8 × source + class (R385, R395). -/
  live : Tab Bool
  /-- Lines broken, keyed 8 × source + class (R385). -/
  broken : Tab Bool
  /-- Lines that failed the last path test (R386). -/
  missed : Tab Bool
  /-- F2 to F4 faults detected at their sources and not yet taken by the collector (R387). -/
  detected : List Event
  /-- Engine faults whose events the PEC holds until the takeover's outcome is known (R399). -/
  held : List Event
  /-- Events on the event bus that have not yet entered the event queue (R399). -/
  bus : List Event
  /-- The event queue (R399). -/
  queue : List Event
  tally : Tab Tally
  burst : Tab Burst
  /-- A device fault (F3) is in force (R383). -/
  f3 : Bool
  /-- The grave latch of the AON domain (R383). -/
  f4 : Bool
  /-- The level of the ALIVE timer's square wave (R391). -/
  alive : Bool
  /-- The last key written to HEARTBEAT; 0 for none (R392). -/
  hbKey : Nat
  /-- The TIME cycle of the last heartbeat that counted (R392). -/
  hbAt : Option Nat
  /-- The loss of HB_OK has been reported since the last heartbeat (R392). -/
  hbLost : Bool
  /-- The TIME cycle of the last kick, or of the enabling, of the host watchdog (R393). -/
  kickAt : Nat
  wdogExpired : Bool
  /-- The safe state of R394 is asserted. -/
  nsafe : Bool
  /-- The TIME cycle until which the FLT interrupt is held off, and whether a bit was set meanwhile (R404). -/
  intUntil : Option Nat
  intWaits : Bool
  injection : Option Injection
  /-- The tick generator reports a fault (R391). -/
  tickFault : Bool
  /-- VDD_NVM is below its power-fail threshold (R408). -/
  powerFail : Bool
  /-- The block being scrubbed (R410). -/
  scrub : Option Nat
  /-- Units whose release has reached its boundary (R389). -/
  relReady : Tab Bool
  /-- The BOOT count of the directory, which outlives every reset (R405, R407). -/
  boot : Nat
  /-- The CORE cycles in which the first-fault capture and the grave capture were taken (R396). -/
  ffAt : Nat
  gfAt : Nat
  /-- The TIME cycle of the last path test of each line, plus 1 (R386), keyed as `live`. -/
  testAt : Tab Nat
  /-- The number, plus 1, of the 500 µs instant at which ALIVE was last considered (R391). -/
  aliveAt : Nat
  /-- How many bit errors a 64-byte block of MRAM holds, where it holds any (R409). -/
  mramBad : Tab Nat
  /-- SEQ of the last event record of each source since reset (R440). -/
  seqOf : Tab Nat
  /-- The TIME cycle in which nSAFE returns high after its latest assertion (R394, log entry 162). -/
  nsafeAt : Nat
  deriving DecidableEq, Repr

/-! ## The base tick (chapter 02) and the time base (chapter 11) -/

/-- The tick generator beyond its registers: the device time in ns of the next boundary (or of the end of the last tick),
whether ticks stop there (R34), the period T in force in µs (R35), the exact start of the current tick in ns (R36), whether
a snapshot is requested, and whether one is due in the current tick (R14, R54). -/
structure TickSt where
  next : Option Nat
  stopping : Bool
  inForce : Nat
  start : Nat
  snapReq : Bool
  snapDue : Bool
  deriving DecidableEq, Repr

/-- An entry of a transmit stamp queue or of a capture queue (R280, R289): its first word and its stamp, a device time in
2^−32 ns. -/
structure Stamp where
  info : Word
  time : Nat
  deriving DecidableEq, Repr

/-- The time base beyond its registers. -/
structure TimeSt where
  /-- The captured 128-bit times of R270, per master and path, in 2^−32 ns. -/
  now : Tab Nat
  /-- The offset in ns of a requested step (R271). -/
  step : Option Int
  /-- The TIME cycle at which HOLD_AGE last restarted (R273). -/
  holdFrom : Nat
  /-- Transmit stamp queues of ports 0 to 39 (R280), and the stamp captured for each master and path. -/
  txts : Tab (List Stamp)
  txtsHold : Tab Nat
  /-- Capture queues of PPS_IN_A and PPS_IN_B (R289), and the stamp captured for each master and path. -/
  caps : Tab (List Stamp)
  capsHold : Tab Nat
  /-- The reference monitors run (R274); each reference (0: A, 1: B) has been declared bad; the TIME cycle from which it may have run without
  fault, and since which it has been good (R274, R275). -/
  monitors : Bool
  refBad : Tab Bool
  refFrom : Tab Nat
  refGoodAt : Tab Nat
  /-- The PPS outputs (R288): a pulse is in progress, the grid instant (a trigger) that was pulsed or passed over last, and
  the ns of device time at which the pulse ends. -/
  ppsHigh : Tab Bool
  ppsAt : Tab (Option Nat)
  ppsEnd : Tab Nat
  /-- A SERVO_UPD has been written since reset (R273). -/
  everUpd : Bool
  /-- The SerDes PLLs take SDREF_B; SDREF_A has been declared bad, SDREF_B is good, and the TIME cycle since which SDREF_A has been good
  (R471). -/
  sdB : Bool
  sdABad : Bool
  sdBGood : Bool
  sdAGoodAt : Nat
  deriving DecidableEq, Repr

/-! ## Management, start-up and service life (chapter 16) -/

/-- A boot header of the flash (R430): SEQ, the active slot, the slot on trial and the tries left. -/
structure BootHeader where
  seq : Nat
  active : Bool
  trial : Option Bool
  tries : Nat
  deriving DecidableEq, Repr

/-- Where the device stands between supplies and service (R421, R424, R426). -/
inductive Phase where
  /-- Held in reset, until the start-up that POWER_GOOD begins (R421; log entries 35 and 36). -/
  | held
  /-- VDD_AON is absent. -/
  | unpowered
  /-- Start-up has ended in service. -/
  | service
  /-- Waiting for a host-delivered bundle. -/
  | waitHost
  /-- Bivouac. -/
  | bivouac
  deriving DecidableEq, Repr

/-- Management and system control beyond their registers. -/
structure MgtSt where
  phase : Phase
  /-- PORST_N is low (R466 to R468). -/
  porstLow : Bool
  /-- The fuse array (R435, R436). -/
  fuses : Fuses
  /-- The MCP is halted by a lockstep mismatch or a trap (R415, R102). -/
  mcpHalted : Bool
  /-- The fused state to be taken at the next start-up (R436). -/
  lcNext : Option Nat
  /-- The append point of BUNDLE_DATA (R424). -/
  append : Nat
  /-- The two copies of the boot header in the flash (R430), the header that counts, and what the slots A and B hold. -/
  bootCopies : Tab (List Byte)
  header : BootHeader
  slotA : BundleFacts
  slotB : BundleFacts
  /-- The bundle that runs, and the slot it came from (none: a host or serial boot). -/
  running : BundleFacts
  runSlot : Option Bool
  /-- The TIME cycle of power-good, and of the start of service. -/
  powerAt : Nat
  serviceAt : Nat
  /-- An F2 post, an F3 or an F4 has occurred since the start of service (R432). -/
  troubled : Bool
  /-- AON selection bit: the spare system PLL is in service (R421, R438). -/
  pllB : Bool
  /-- Spares brought in by kind, units mapped out by kind as bits, and the entries of the spare map, oldest first, with its SEQ (R438,
  R440). -/
  sparesUsed : Tab Nat
  mappedOut : Tab Nat
  spareMap : List (List Byte)
  spareSeq : Nat
  /-- The power-on hours (R441) of each engine's F2 faults that were not judged image faults, and those in which each reference was declared bad
  (R438). -/
  engineF2 : Tab (List Nat)
  refBadAt : Tab (List Nat)
  /-- The fault conditions that each sensor reading showed at the last sample (R418). -/
  sensorSeen : Tab Nat
  /-- Bytes that have reached the MCP console (R462). -/
  console : List Byte
  /-- The number, plus 1, of the millisecond of the last sensor sample (R417). -/
  sensorAt : Nat
  /-- AON: a tamper post waits for the MCP to run (R437). -/
  tamperDue : Bool
  /-- The hours since power-good that are counted in POWER_ON_HOURS, and the highest TEMP of the present one in 0.125 °C (R441). -/
  hourAt : Nat
  hourMax : Option Int
  /-- The MCP has posted an image of a forbidden key slot (R416). -/
  forbidden : Bool
  /-- The bytes that the device drove in the last transaction of the two-wire bus (R420). -/
  twbOut : List Byte
  deriving DecidableEq, Repr

/-! ## The host interface (chapter 17) -/

/-- The host interface beyond its registers. -/
structure HostSt where
  /-- How often each MSI-X vector has been raised (R458). -/
  vectors : Tab Nat
  /-- The holdoff of each moderated vector: the TIME cycle at which it ends, and whether a completion waits (R459). -/
  holdUntil : Tab Nat
  holdWaits : Tab Bool
  /-- The TAIL up to which each ring is processed: ring r transmit, ring 8 + r receive (R454). -/
  taken : Tab Nat
  /-- The transmit ring served last (R455). -/
  lastTx : Nat
  /-- What the device last wrote into host memory: address and bytes (R455, R457). -/
  hostWrites : List (Nat × List Byte)
  /-- The transmit descriptor of KIND 0 whose bytes are not all read: its ring, and its frame where it was accepted (R452). -/
  txOpen : Option (Nat × Option Nat)
  /-- The MSI-X table by its words, the pending-bit array, and how often each vector's message has been sent (R449, R458). -/
  msix : Tab Word
  msixPend : Nat
  sent : Tab Nat
  /-- The TIME cycle at which the reply of the UART's read service will have been sent (R462). -/
  uartUntil : Nat
  deriving DecidableEq, Repr

/-! ## Mailboxes and memory control (chapter 14) -/

/-- Mailboxes and memory control beyond their registers. -/
structure MbxSt where
  /-- The TIME cycle at which an endpoint's running wait timer expires (R362). -/
  waitAt : Tab Nat
  /-- The correction log CE_LOG, oldest first (R373). -/
  ceLog : List Word
  /-- 8-byte words that hold an uncorrectable error, by address (R374). -/
  bad : Tab Bool
  /-- The next region of each background tester (0: packet buffer, 1: scratchpad, 2 + n: lane n), and the lanes that have
  completed the present sweep (R377, R378). -/
  bgtNext : Tab Nat
  bgtDone : Tab Bool
  /-- Spare rows and columns used, keyed 256 × class + array (R381). -/
  rowsUsed : Tab Nat
  colsUsed : Tab Nat
  /-- The TIME cycle of each tester's last region test, plus 1, keyed as `bgtNext` (R377). -/
  bgtAt : Tab Nat
  deriving DecidableEq, Repr

/-! ## Engine control and bindings (chapter 04) -/

/-- A load that waits at the loader or is served by it (R121): the engine it loads, the logical engine, and whether a takeover
(rather than a binding) started it. -/
structure Load where
  engine : Nat
  l : Nat
  takeover : Bool
  deriving DecidableEq, Repr

/-- A takeover in progress (R120): the failed engine and its CAUSE, the chosen spare, and whether the spare re-executes the
present tick (otherwise it runs from the next one, R49, R124). -/
structure Takeover where
  failed : Nat
  cause : Nat
  chosen : Nat
  reexec : Bool
  deriving DecidableEq, Repr

/-- Engine control beyond its registers. -/
structure PecSt where
  /-- GO and HALT requests that wait for the next tick boundary (R111, R112), by logical engine. -/
  goPend : Tab Bool
  haltPend : Tab Bool
  /-- The 256 tick-state selectors of each logical engine as bits: 1 names the upper copy (R114). -/
  selectors : Tab Nat
  /-- The tick-state lines that the serving engine has written in the tick, as bits (R43). -/
  written : Tab Nat
  /-- Image directory entries under check (R108). -/
  checking : Tab Bool
  /-- The loads at the loader, in order of start (R121), and the engines whose load has ended well. -/
  loads : List Load
  loaded : Tab Bool
  takeovers : Tab (Option Takeover)
  /-- Logical engines that have missed the commit of the present tick (R48, R49), that committed it, that make no commit in it
  (R44), and that lost their engine after the commit and wait for a spare (R49). -/
  missed : Tab Bool
  committed : Tab Bool
  barred : Tab Bool
  standing : Tab Bool
  /-- Frames waiting for each logical engine in the present input view (R38). -/
  framesSeen : Tab Nat
  /-- What each logical engine's last commit released and is still to be transferred (R42), with the engine that committed and the
  TICK_CNT value of its tick; and the transferred writes that wait for the next boundary (R147), with the engine's identity. -/
  released : Tab (List Staged)
  releasedBy : Tab (Nat × Nat)
  atBoundary : List (Nat × Nat × Word)
  /-- Requests that the last boundary has made due, by logical engine: bit 0 a GO, bit 1 a HALT, bit 2 a spare to be taken (R111, R112,
  R124). -/
  due : Tab Nat
  /-- The engines' start of the tick (t0 + 40 ns) and its commit deadline are still to come (R37). -/
  startDue : Bool
  deadlineDue : Bool
  /-- The CAN input view of the tick (t0 + 25 ns at the latest) is still to be captured (R37, R185). -/
  canDue : Bool
  /-- The 8-byte granule that each master holds reserved, by address / 8 (R89). -/
  reserved : Tab (Option Nat)
  deriving DecidableEq, Repr

/-! ## The machine -/

/-- The state of the device. -/
structure State where
  /-- The commands that wait, first in, first out. -/
  pending : List Instr
  /-- How often a free value has been taken: the model's own field (Config). -/
  freeCtr : Nat
  /-- What the last access returned: its words, and whether it was a bus error (R446). -/
  reply : List Word
  replyErr : Bool
  /-- The bytes the device last sent on the host serial link or the management UART (R460 to R462, R425). -/
  line : List Byte
  /-- The device time (R268) in 2^−32 ns since the epoch, and the TIME cycles since power-on. -/
  time : Nat
  cyc : Nat
  /-- The addressed memories: scratchpad, secure memory, engine windows, MRAM, and the MCP's RAM. -/
  mem : List Host.Cell
  /-- Register words, table entries and message buffers, by device address. -/
  regs : Tab Word
  /-- The 64-bit event counters and their snapshot shadows, by the device address of the counter's low word (R4, R14). -/
  cnts : Tab DWord
  snaps : Tab DWord
  /-- The holding registers of R10: the address of the captured register's low word, and its high word. -/
  hold : Tab (Option (Nat × Word))
  /-- The fault collector and the Cairn controller (R382 to R413). -/
  flt : FltSt
  /-- The tick generator (R32 to R37) and the time base (R268 to R289). -/
  tick : TickSt
  tb : TimeSt
  /-- Management and start-up (R414 to R442). -/
  mgt : MgtSt
  /-- The host interface (R448 to R459). -/
  host : HostSt
  /-- Mailboxes and memory control (R354 to R381). -/
  mbx : MbxSt
  /-- Engine control (R103 to R127). -/
  pec : PecSt
  /-- The 256 pin channels (R143 to R173), the 32 CAN controllers (R174 to R198). -/
  pch : PchSt
  can : Tab CanSt
  /-- Ports, switch and buffers (R199 to R267). -/
  sw : SwSt
  /-- The four rope contexts (R290 to R326), and Traverse (R327 to R352). -/
  rope : Tab CtxSt
  trav : TravSt
  /-- The 36 engines, and the MCP as number 36. -/
  cores : Tab Core
  deriving DecidableEq, Repr

/-- No bundle: nothing that the checks of R431 accept. -/
def noBundle : BundleFacts := ⟨[], 0, 0, [], [], [], []⟩

/-- The fault collector after reset. -/
def FltSt.reset : FltSt :=
  ⟨[], [], [], [], [], [], [], [], [], false, false, false, 0, none, false, 0, false, false, none, false, none, false, false, none,
    [], 0, 0, 0, [], 0, [], [], 0⟩

/-- The tick generator after reset. -/
def TickSt.reset : TickSt := ⟨none, false, 1000, 0, false, false⟩

/-- The time base after reset. -/
def TimeSt.reset : TimeSt := ⟨[], none, 0, [], [], [], [], false, [], [], [], [], [], [], false, false, false, false, 0⟩

/-- Management after the first application of power (log entry 2 names the values the spec does not give). -/
def MgtSt.reset : MgtSt :=
  ⟨.held, true, ⟨0, false, 0, 0, 0, [], []⟩, false, none, 0, [], ⟨0, false, none, 0⟩, noBundle, noBundle, noBundle, none, 0, 0, false,
    false, [], [], [], 0, [], [], [], [], 0, false, 0, none, false, []⟩

/-- The host interface after reset. -/
def HostSt.reset : HostSt := ⟨[], [], [], [], 7, [], none, [], 0, [], 0⟩

/-- Mailboxes and memory control after reset. -/
def MbxSt.reset : MbxSt := ⟨[], [], [], [], [], [], [], []⟩

/-- Engine control after reset. -/
def PecSt.reset : PecSt := ⟨[], [], [], [], [], [], [], [], [], [], [], [], [], [], [], [], [], false, false, false, []⟩

/-- The machine right after reset: every register at the value of its table, every memory with nothing listed, every queue
empty. -/
def State.reset : State :=
  { pending := [], freeCtr := 0, reply := [], replyErr := false, line := [], time := 0, cyc := 0, mem := [], regs := [],
    cnts := [], snaps := [], hold := [], flt := .reset, tick := .reset, tb := .reset, mgt := .reset, host := .reset, mbx := .reset, pec := .reset,
    pch := .reset, can := [], sw := .reset, rope := [], trav := .reset, cores := [] }

end Sys2Proof.Machine
end

