-- ==== Sys2Proof/Machine/Ops.lean ====
section
/-!
DEFINITION. The named operations on the state that every unit uses: registers and their fields, counters and their shadows,
memory bytes, the device time, raising a fault or an event at its source, and the interrupt vectors of the host.
-/
namespace Sys2Proof.Machine

/-! ## Bit fields -/

/-- `w` with bits `[lo + len - 1 : lo]` replaced by `n`. -/
def setBits (w : Word) (lo len n : Nat) : Word :=
  word (w.toNat - fieldOf w lo len * 2 ^ lo + n % 2 ^ len * 2 ^ lo)

/-- The number `n` of `len` bits read in two's complement. -/
def signed (n len : Nat) : Int := if n % 2 ^ len < 2 ^ (len - 1) then Int.ofNat (n % 2 ^ len) else Int.ofNat (n % 2 ^ len) - 2 ^ len

/-- The integer `i` modulo 2^len. -/
def wrapInt (i : Int) (len : Nat) : Nat := (i % (2 ^ len : Int)).toNat

/-- The little-endian number of a list of bytes (R9). -/
def leNat : List Byte → Nat
  | [] => 0
  | b :: bs => b.toNat + 256 * leNat bs

/-- The `n` little-endian bytes of a number. -/
def leBytes : Nat → Nat → List Byte
  | 0, _ => []
  | n + 1, v => BitVec.ofNat 8 v :: leBytes n (v / 256)

/-- The big-endian number of a list of bytes: the order of network frames (R11). -/
def beNat (bs : List Byte) : Nat := leNat bs.reverse

/-- The `n` big-endian bytes of a number. -/
def beBytes (n v : Nat) : List Byte := (leBytes n v).reverse

/-- `bs` with the bytes from position `i` replaced by `new`, as far as they reach. -/
def splice (bs : List Byte) (i : Nat) (new : List Byte) : List Byte :=
  bs.take i ++ new.take (bs.length - i) ++ bs.drop (i + new.length)

/-- The bytes of `bs` from position `i`, `n` of them, zero past the end. -/
def bytesAt (bs : List Byte) (i n : Nat) : List Byte :=
  ((bs.drop i).take n) ++ List.replicate (n - ((bs.drop i).take n).length) 0

/-! ## Check codes -/

/-- One bit of a reflected CRC with polynomial `poly`. -/
def crcBit (poly : Nat) (c : Nat) : Nat := if c % 2 = 1 then (c / 2) ^^^ poly else c / 2

/-- One byte of a reflected CRC. -/
def crcByte (poly c : Nat) (b : Byte) : Nat :=
  crcBit poly (crcBit poly (crcBit poly (crcBit poly (crcBit poly (crcBit poly (crcBit poly (crcBit poly (c ^^^ b.toNat))))))))

/-- The CRC-32 with the parameters of CODE_CRC (R105), which is also that of the Ethernet FCS. -/
def crc32 (bs : List Byte) : Nat := (bs.foldl (crcByte 0xEDB88320) 0xFFFFFFFF) ^^^ 0xFFFFFFFF

/-- One bit of a CRC-8 that goes from the most significant bit. -/
def crc8Bit (c : Nat) : Nat := if 128 ≤ c then (c * 2 % 256) ^^^ 0x07 else c * 2

/-- The CRC-8 of R460: polynomial 0x07, initial value 0, no final XOR. -/
def crc8 (bs : List Byte) : Nat :=
  bs.foldl (fun c b => crc8Bit (crc8Bit (crc8Bit (crc8Bit (crc8Bit (crc8Bit (crc8Bit (crc8Bit (c ^^^ b.toNat))))))))) 0

/-! ## Registers -/

/-- The register word at a device address. -/
def State.reg (s : State) (a : Nat) : Word := Tab.get regReset s.regs a

/-- Set the register word at a device address. -/
def State.setReg (s : State) (a : Nat) (w : Word) : State := { s with regs := Tab.set regReset s.regs a w }

/-- A field of the register at a device address. -/
def State.fld (s : State) (a lo len : Nat) : Nat := fieldOf (s.reg a) lo len

/-- Set a field of the register at a device address. -/
def State.setFld (s : State) (a lo len n : Nat) : State := s.setReg a (setBits (s.reg a) lo len n)

/-- A bit of the register at a device address. -/
def State.bit (s : State) (a i : Nat) : Bool := bitOf (s.reg a) i

/-- Set a bit of the register at a device address. -/
def State.setBit (s : State) (a i : Nat) (b : Bool) : State := s.setFld a i 1 (bit01 b)

/-- A 64-bit register: the low word at the lower address (R9). -/
def State.reg64 (s : State) (a : Nat) : Nat := (s.reg a).toNat + 2 ^ 32 * (s.reg (a + 4)).toNat

/-- Set a 64-bit register. -/
def State.setReg64 (s : State) (a n : Nat) : State := (s.setReg a (word n)).setReg (a + 4) (word (n / 2 ^ 32))

/-- Clear the bits of `w` that are 1 in `data` (W1C, R6). -/
def clearBits (w data : Word) : Word := w &&& ~~~data

/-! ## Counters -/

/-- The event counter whose low word stands at a device address. -/
def State.count (s : State) (a : Nat) : DWord := Tab.get (fun _ => 0) s.cnts a

/-- The shadow of that counter. -/
def State.snap (s : State) (a : Nat) : DWord := Tab.get (fun _ => 0) s.snaps a

/-- Add `n` to an event counter, modulo 2^64 (R12). -/
def State.bumpBy (s : State) (a n : Nat) : State :=
  { s with cnts := Tab.set (fun _ => 0) s.cnts a (s.count a + dword n) }

/-- Count one event. -/
def State.bump (s : State) (a : Nat) : State := s.bumpBy a 1

/-! ## Memory -/

/-- The value of a byte that nothing has written (log entry 1). -/
def memDefault : Nat → Byte := fun _ => 0

/-- The canonical form of memory. -/
def Memory.wf (m : List Host.Cell) : Bool := Tab.wf memDefault m

/-- The byte at an address of a list of cells. -/
def Memory.read (m : List Host.Cell) (a : Nat) : Byte := Tab.get memDefault m a

/-- Store a byte at an address of a list of cells. -/
def Memory.write (m : List Host.Cell) (a : Nat) (b : Byte) : List Host.Cell := Tab.set memDefault m a b

/-- The byte of memory at an address. -/
def State.byte (s : State) (a : Nat) : Byte := Memory.read s.mem a

/-- Store a byte. -/
def State.setByte (s : State) (a : Nat) (b : Byte) : State := { s with mem := Memory.write s.mem a b }

/-- The `n` bytes from an address. -/
def State.bytes (s : State) (a : Nat) : Nat → List Byte
  | 0 => []
  | n + 1 => s.byte a :: s.bytes (a + 1) n

/-- Store bytes from an address upwards. -/
def State.store (s : State) (a : Nat) : List Byte → State
  | [] => s
  | b :: bs => (s.setByte a b).store (a + 1) bs

/-- The little-endian word at an address. -/
def State.loadWord (s : State) (a : Nat) : Word := word (leNat (s.bytes a 4))

/-! ## Device time (R268) -/

/-- One nanosecond in the units of `State.time`. -/
def nsUnit : Nat := 2 ^ 32

/-- The device time in whole nanoseconds since the epoch. -/
def State.ns (s : State) : Nat := s.time / nsUnit

/-- SEC of a device time in 2^−32 ns. -/
def secOf (t : Nat) : Nat := t / nsUnit / 1000000000
/-- NS of a device time in 2^−32 ns. -/
def nsOf (t : Nat) : Nat := t / nsUnit % 1000000000
/-- FRAC of a device time in 2^−32 ns. -/
def fracOf (t : Nat) : Nat := t % nsUnit

/-- TIME cycles in a microsecond and in a millisecond (R27). -/
def cycUs : Nat := 500
def cycMs : Nat := 500000

/-- A time trigger X, named by the low 32 bits of its seconds and its nanoseconds, in ns modulo 2^32 seconds (R276). -/
def trigger (sec ns : Nat) : Nat := (sec % 2 ^ 32) * 1000000000 + ns

/-- The span after which triggers wrap: 2^32 seconds in ns (R276). -/
def trigSpan : Nat := 2 ^ 32 * 1000000000

/-- How far the device time is past the trigger X, modulo the span. -/
def State.past (s : State) (x : Nat) : Nat := (s.ns % trigSpan + trigSpan - x % trigSpan) % trigSpan

/-- The trigger X is reached (R276). -/
def State.reached (s : State) (x : Nat) : Bool := decide (s.past x < trigSpan / 2)

/-! ## Free values -/

/-- The next free value takes the next counter value. -/
def State.free (s : State) : State := { s with freeCtr := s.freeCtr + 1 }

/-! ## Engines and the logical engines they serve (PE_STATE, chapter 04) -/

/-- PE_STATE of engine n. -/
def peStateAddr (n : Nat) : Nat := peGroup n + 0x004

/-- The engine of a master identity (R443). -/
def engineOf (master : Nat) : Option Nat := if 0x10 ≤ master ∧ master ≤ 0x33 then some (master - 0x10) else none

/-- The logical engine that engine n serves. -/
def State.logicalOf (s : State) (n : Nat) : Option Nat :=
  if s.bit (peStateAddr n) 13 then some (s.fld (peStateAddr n) 8 5) else none

/-- The logical engine that a master serves, where it is an engine. -/
def State.logicalOfMaster (s : State) (master : Nat) : Option Nat :=
  match engineOf master with
  | some n => s.logicalOf n
  | none => none

/-- BIND[L].STATE (R109): 0 UNBOUND, 1 LOADING, 2 RUNNING, 3 TAKEOVER, 4 WAIT_SPARE, 5 HALTED. -/
def State.bindState (s : State) (l : Nat) : Nat := s.fld (bindAddr l + 4) 0 4

/-- The first number below `n` from `i` on for which `p` holds. -/
def findFrom (p : Nat → Bool) : Nat → Nat → Option Nat
  | 0, _ => none
  | n + 1, i => if p i then some i else findFrom p n (i + 1)

/-- Does the binding of L grant output unit o: channel o below 256, CAN controller o − 256 above (PCH_OWN, CAN_OWN)? -/
def State.ownsUnit (s : State) (l o : Nat) : Bool :=
  if o < 256 then s.bit (bindAddr l + 0x40 + 4 * (o / 32)) (o % 32) else s.bit (bindAddr l + 0x60) (o - 256)

/-- The bound logical engine that holds output unit o (R146, R176). -/
def State.holderOf (s : State) (o : Nat) : Option Nat :=
  findFrom (fun l => s.bindState l != 0 && s.ownsUnit l o) 32 0

/-- The key under which state is kept for each master identity and path (R10, R444). -/
def whoKey (w : Who) : Nat :=
  w.master * 4 + match w.path with
    | .internal => 0
    | .pcie => 1
    | .pciePair => 1
    | .pcieOdd => 1
    | .bar4 => 1
    | .hsl => 2
    | .uart => 3

/-- The host (R443). -/
def isHost (w : Who) : Bool := w.master == 0x00
/-- The management processor (R443). -/
def isMcp (w : Who) : Bool := w.master == 0x01
/-- The host or the management processor. -/
def hostOrMcp (w : Who) : Bool := isHost w || isMcp w

/-- The MCP as the origin of what the device does for it. -/
def mcpWho : Who := ⟨0x01, .internal⟩

/-! ## Interrupt vectors of the host (R458) -/

/-- A word of the MSI-X table: after reset every vector is masked (R458; the PCI Express specification, log entry 198). -/
def State.msixWord (s : State) (i : Nat) : Word := Tab.get (fun i => word (bit01 (i % 4 == 3))) s.host.msix i

/-- The message of vector v is sent. -/
def State.sendVector (s : State) (v : Nat) : State :=
  { s with host := { s.host with sent := Tab.set (fun _ => 0) s.host.sent v (Tab.get (fun _ => 0) s.host.sent v + 1) } }

/-- An MSI-X vector is raised: its message is sent, or its pending bit set while the vector is masked (R458). -/
def State.raiseVector (s : State) (v : Nat) : State :=
  let s1 := { s with host := { s.host with vectors := Tab.set (fun _ => 0) s.host.vectors v (Tab.get (fun _ => 0) s.host.vectors v + 1) } }
  if bitOf (s.msixWord (4 * v + 3)) 0 then { s1 with host := { s1.host with msixPend := s1.host.msixPend ||| 2 ^ v } } else s1.sendVector v

/-! ## Faults and events at their source (R383, R399, R490) -/

/-- The registers of the fault collector by their offset. -/
def fltReg (o : Nat) : Nat := fltBase + o

/-- An event of source `src` as its source detects it: the device time and TICK.INDEX are those of the detection. -/
def State.newEvent (s : State) (src cls cause : Nat) (vector : Word) (detail : List Byte) : Event :=
  { src := src, cls := cls, cause := cause, vector := vector, broken := false, inj := false, kind := 1, time := s.time,
    tick := dword (s.reg64 (tickBase + 0x10)), detail := detail, waits := false }

/-- Put an event on the event bus (F0, F1), from where it enters the event queue within 1 µs (R384, R399). -/
def State.onBus (s : State) (e : Event) : State := { s with flt := { s.flt with bus := s.flt.bus ++ [e] } }

/-- A source drives its line of an F2, F3 or F4: the collector takes the fault next (R384, R387). -/
def State.detect (s : State) (e : Event) : State := { s with flt := { s.flt with detected := s.flt.detected ++ [e] } }

/-- A source raises a fault or event of its class: F0 and F1 travel on the event bus, the others on their lines. -/
def State.raise (s : State) (src cls cause : Nat) (vector : Word := 0) (detail : List Byte := []) : State :=
  if cls ≤ 1 then s.onBus (s.newEvent src cls cause vector detail) else s.detect (s.newEvent src cls cause vector detail)

/-- A line of the collector, by source and class. -/
def lineKey (src cls : Nat) : Nat := 8 * src + cls

end Sys2Proof.Machine
end

