-- ==== Sys2Proof/Machine/CanUnit.lean ====
section
/-!
DEFINITION. The parts of a CAN controller that the fault collector acts on (R190): breaking off an attempt when the controller goes
to safe level, and integrating anew when it is released.
-/
namespace Sys2Proof.Machine

/-- Controller k. -/
def State.canc (s : State) (k : Nat) : CanSt := Tab.get (fun _ => CanSt.reset) s.can k

/-- Set controller k. -/
def State.setCanc (s : State) (k : Nat) (c : CanSt) : State := { s with can := Tab.set (fun _ => CanSt.reset) s.can k c }

/-- A register of controller k by its offset. -/
def canReg (k o : Nat) : Nat := canAddr k + o

/-- TXSTAT[j] of controller k; a slot number has five bits. -/
def txStat (k j : Nat) : Nat := canReg k (0x0D00 + 4 * (j % 32))

/-- The attempt of controller k ends without success: a slot whose cancel arrived becomes CANCEL_LATE and leaves the queue, any other
returns to QUEUED at the head (R188, R190). -/
def State.canFailed (s : State) (k : Nat) : State :=
  let c := s.canc k
  match c.queue with
  | e :: q =>
    if c.cancelled then
      (s.setCanc k { c with queue := q, attempt := false, cancelled := false }).setReg (txStat k e.slot) 5
    else (s.setCanc k { c with attempt := false }).setReg (txStat k e.slot) 1
  | [] => s

/-- The controller goes to safe level: an attempt in progress is broken off, and counts in nothing (R190). -/
def State.canBreak (s : State) (k : Nat) : State := if (s.canc k).attempt then s.canFailed k else s

/-- The controller is released: it integrates before it takes part in the bus again (R190). -/
def State.canRelease (s : State) (k : Nat) : State := s.setCanc k { s.canc k with sync := false }

end Sys2Proof.Machine
end

