-- ==== Sys2Proof/Machine/Access.lean ====
section
/-!
DEFINITION. What a unit answers to an access of one of its registers, and the plain meaning of the access codes (R6 to R8):
a unit's own handler says what is special about a register, and the plain meaning covers the rest.
-/
namespace Sys2Proof.Machine

/-- A unit's answer to a write: carried out, refused with a bus error (the state may still gain a flag that the rule names),
or nothing special about it. -/
inductive WRes where
  | done (s : State)
  | err (s : State)
  | plain

/-- A unit's answer to a read: a word, a bus error, the low or the high word of a 64-bit register whose value the unit
computes, or nothing special. -/
inductive RRes where
  | val (s : State) (v : Word)
  | err (s : State)
  | low (s : State) (v : Nat)
  | high (s : State) (v : Nat)
  | plain

/-- Refuse a write unless a condition holds. -/
def WRes.unless (ok : Bool) (s : State) (r : WRes) : WRes := if ok then r else .err s

/-- The plain write of a register word (R6): RW bits store, W1C bits clear where 1 is written, all others ignore it. -/
def plainWord (s : State) (a rwMask w1cMask : Nat) (d : Word) : State :=
  s.setReg a (clearBits ((s.reg a &&& ~~~(word rwMask)) ||| (d &&& word rwMask)) (d &&& word w1cMask))

/-- The plain write of what stands at an address: a bus error where nothing does (R8). -/
def plainWrite (s : State) (a : Nat) (d : Word) : WRes :=
  match cellAt a with
  | some (.word rwm w1c _) => .done (plainWord s a rwm w1c d)
  | some (.wideLo rwm _) => .done (plainWord s a rwm 0 d)
  | some (.wideHi rwm _) => .done (plainWord s a rwm 0 d)
  | some _ => .done s
  | none => .err s

/-- A write with the unit's answer, or the plain one. -/
def WRes.orPlain (r : WRes) (s : State) (a : Nat) (d : Word) : WRes :=
  match r with
  | .plain => plainWrite s a d
  | r => r

/-- The plain read (R6, R8): the stored word, a half of a counter or of its shadow, zero where no register is defined. The
low words of 64-bit registers are told apart for R10. -/
def plainRead (s : State) (a : Nat) : RRes :=
  match cellAt a with
  | some (.word _ _ _) => .val s (s.reg a)
  | some (.wideLo _ _) => .low s (s.reg64 a)
  | some (.wideHi _ _) => .high s (s.reg64 (a - 4))
  | some (.countLo k) => .low s (s.count k).toNat
  | some (.countHi k) => .high s (s.count k).toNat
  | some (.snapLo k) => .low s (s.snap k).toNat
  | some (.snapHi k) => .high s (s.snap k).toNat
  | none => .val s 0

/-- A read with the unit's answer, or the plain one. -/
def RRes.orPlain (r : RRes) (s : State) (a : Nat) : RRes :=
  match r with
  | .plain => plainRead s a
  | r => r

/-- The state after a write, and whether it was a bus error. -/
def WRes.state (s : State) : WRes → State × Bool
  | .done s' => (s', false)
  | .err s' => (s', true)
  | .plain => (s, false)

end Sys2Proof.Machine
end

