-- ==== Sys2Proof/WellFormed.lean ====
section
/-!
DEFINITION. Which commands are well formed: the numbers of the units they name exist, and the origin of an access is a master of the device on a
path that it has (R443, R444). A command that is not well formed names nothing the device has, and faults.
-/
namespace Sys2Proof

/-- The master identities that the device assigns (R443). -/
def isMaster (m : Nat) : Bool := decide (m ≤ 5) || (decide (0x10 ≤ m) && decide (m ≤ 0x33))

/-- The origin of an access: the host on one of its three paths, any other master on an internal one (R444). -/
def Who.ok (w : Who) : Bool := isMaster w.master && ((w.master == 0) == (w.path != .internal))

/-- The numbers of the units. -/
def isEngine (n : Nat) : Bool := decide (n < 36)
def isCore (n : Nat) : Bool := decide (n < 37)
def isLogical (l : Nat) : Bool := decide (l < 32)
def isImage (i : Nat) : Bool := decide (i < 128)
def isPair (j : Nat) : Bool := decide (j < 16)
def isChan (n : Nat) : Bool := decide (n < 256)
def isPin (p : Nat) : Bool := decide (p < 4)
def isCan (k : Nat) : Bool := decide (k < 32)
def isPort (p : Nat) : Bool := decide (p < 40)
def isEgress (p : Nat) : Bool := decide (p < 48)
def isQueue (q : Nat) : Bool := decide (q < 384)
def isPathEntry (i : Nat) : Bool := decide (i < 14336)
def isMirror (r : Nat) : Bool := decide (r < 4)
def isMeter (m : Nat) : Bool := decide (m < 4096)
def isLaunch (n : Nat) : Bool := decide (n < 1024)
def isLaunchQueue (q : Nat) : Bool := decide (q < 320)
def isPps (o : Nat) : Bool := decide (o < 2)
def isCtx (r : Nat) : Bool := decide (r < 4)
def isSlot (i : Nat) : Bool := decide (i < 4096)
def isWindow (i : Nat) : Bool := decide (i ≤ 4096)
def isAxis (a : Nat) : Bool := decide (a < 64)
def isAxisGroup (g : Nat) : Bool := decide (g < 8)
def isEp (e : Nat) : Bool := decide (e ≤ 3) || (decide (0x10 ≤ e) && decide (e ≤ 0x33))
def isMailbox (i : Nat) : Bool := decide (i < 16)
def isLock (n : Nat) : Bool := decide (n < 256)
def isTester (cls pe : Nat) : Bool := decide (cls < 2) || (cls == 2 && isEngine pe)
def isSource (src : Nat) : Bool := decide (src ≤ 0x6C)
def isLine (src cls : Nat) : Bool := isSource src && decide (cls ≤ 4)
def isUnit (o : Nat) : Bool := decide (o < 288)
def isTamper (i : Nat) : Bool := decide (i < 7)
def isRing (r : Nat) : Bool := decide (r < 8)
def isVector (v : Nat) : Bool := decide (v < 16)

/-- Is the command well formed? -/
def Instr.wf : Instr → Bool
  | .registerWrite w a _ => w.ok && decide (a < 2 ^ 40)
  | .lowWordRead w a => w.ok && decide (a < 2 ^ 40)
  | .highWordRead w a => w.ok && decide (a < 2 ^ 40)
  | .snapReq w _ => w.ok
  | .snapshotCopy => true
  | .scratchpadWrite w a bs => w.ok && decide (a + bs.length ≤ 0x800000)
  | .tickBoundary => true
  | .tickRunStart w => w.ok
  | .tickRunStop w => w.ok
  | .tickPeriodWrite w _ => w.ok
  | .engineTickStart => true
  | .stagedOutputTransfer l => isLogical l
  | .budgetExhausted pe => isEngine pe
  | .commitDeadline => true
  | .takeoverStart l => isLogical l
  | .loaderLoadComplete _ => true
  | .spareTakeup l => isLogical l
  | .bundleIssue n _ => isCore n
  | .mulResult n _ => isCore n
  | .divResult n _ => isCore n
  | .lsuLoadResult n => isCore n
  | .farResult n _ => isCore n
  | .postedWriteComplete n => isCore n
  | .ctlWaitEnd n => isCore n
  | .lockstepMismatch => true
  | .imgVerifyStart w i => w.ok && isImage i
  | .imgCheckComplete i => isImage i
  | .imgWithdraw w i => w.ok && isImage i
  | .imgAddrLenWrite w i _ _ => w.ok && isImage i
  | .bindGo w l _ => w.ok && isLogical l
  | .binding l => isLogical l
  | .bindHalt w l _ => w.ok && isLogical l
  | .unbind l => isLogical l
  | .tsAreaWrite w l _ => w.ok && isLogical l
  | .otfFrame j _ _ _ => isPair j
  | .otfModeWrite w p _ => w.ok && isPort p
  | .sequencerStep n _ => isChan n
  | .compareMatch n => isChan n
  | .taqHiWrite w n _ => w.ok && isChan n
  | .timedActionExecute n => isChan n
  | .txdWrite w n _ => w.ok && isChan n
  | .rxdRead w n => w.ok && isChan n
  | .swapRequest w n _ => w.ok && isChan n
  | .forcedSwapRequest w n _ => w.ok && isChan n
  | .swapTakeEffect n => isChan n
  | .swapTimeout n => isChan n
  | .forcedSwapApply n => isChan n
  | .cflagSet w n _ => w.ok && isChan n
  | .cflagClr w n _ => w.ok && isChan n
  | .dflagSet w n _ => w.ok && isChan n
  | .dflagClr w n _ => w.ok && isChan n
  | .muxCanAbWrite w n _ => w.ok && isChan n
  | .muxTravWrite w n _ => w.ok && isChan n
  | .spareCoreSteer w n _ => w.ok && isChan n
  | .coreSteerBack w n _ => w.ok && isChan n
  | .coreCopyComplete n _ => isChan n
  | .shortDetect n p => isChan n && isPin p
  | .openWireTest n p _ => isChan n && isPin p
  | .reversalDetect n => isChan n
  | .xcvrFaultDetect n => isChan n
  | .bringIn w n p _ => w.ok && isChan n && isPin p
  | .legExchangeComplete n p => isChan n && isPin p
  | .canModeWrite w k _ => w.ok && isCan k
  | .canModeChange k => isCan k
  | .canIntegrationComplete k => isCan k
  | .boRec w k _ => w.ok && isCan k
  | .busOffRecoveryComplete k => isCan k
  | .canTxReq w k _ => w.ok && isCan k
  | .canTxCxl w k _ => w.ok && isCan k
  | .canNewClr w k _ => w.ok && isCan k
  | .canRxfPop w k _ => w.ok && isCan k
  | .canViewCapture => true
  | .canAttemptStart k => isCan k
  | .canAttemptEnd k _ => isCan k
  | .canFrameReceived k _ _ => isCan k
  | .pcsModeWrite w p _ => w.ok && isPort p
  | .anRestart w p _ => w.ok && isPort p
  | .linkUp p _ => isPort p
  | .linkDown p => isPort p.port
  | .polarityCorrection p => isPort p
  | .laneSwapExchange p => isPort p
  | .serdesSwapWrite w p _ => w.ok && isPort p
  | .serdesRxInvWrite w p _ => w.ok && isPort p
  | .frameHeadClassified p _ => isPort p
  | .macFrameEnd p _ _ => isPort p
  | .pauseHoldExpiry q => isQueue q
  | .pauseFrameSend p => isPort p
  | .pauseRefresh p prio => isPort p && decide (prio ≤ 8)
  | .frameTxStart p _ => isEgress p
  | .frameTxEnd p _ => isEgress p
  | .segSubmit w p _ => w.ok && isPort p
  | .segJobStart p => isPort p
  | .segJobComplete p => isPort p
  | .mdioGo w _ => w.ok
  | .mdioComplete _ => true
  | .ptInsert w _ => w.ok
  | .ptDelete w _ => w.ok
  | .ptLookup w _ => w.ok
  | .ptWriteMasked w _ => w.ok
  | .ptClearLearned w _ => w.ok
  | .ptCommandComplete => true
  | .sourceLearn => true
  | .addressAgeVisit i => isPathEntry i
  | .mirrorRecordWrite => true
  | .mirEnWrite w r _ => w.ok && isMirror r
  | .redAverageUpdate => true
  | .redSeedWrite w _ => w.ok
  | .ageGranule => true
  | .meterEnable w m _ => w.ok && isMeter m
  | .ledgerAudit => true
  | .restartSwitch w _ => w.ok
  | .rateWrite w _ => w.ok
  | .stepGo w _ => w.ok
  | .stepApply => true
  | .nowNsRead w => w.ok
  | .servoUpd w _ => w.ok
  | .holdoverEntry => true
  | .ownerWrite w _ => w.ok
  | .referenceBad _ => true
  | .referenceGood _ => true
  | .referenceRevert => true
  | .refSelWrite w _ => w.ok
  | .sdrefSwitch _ => true
  | .txtsInfoRead w p => w.ok && isPort p
  | .gateWindowOpen n => isLaunch n
  | .gateWindowClose n => isLaunch n
  | .launchOnceEligible n => isLaunch n
  | .launchArm w n _ => w.ok && isLaunch n
  | .lqModeWrite w q _ => w.ok && isLaunchQueue q
  | .ppsOutPulse o => isPps o
  | .ppsOutPulseEnd o => isPps o
  | .ppsInCapture i _ => isPps i
  | .capInfoRead w i => w.ok && isPps i
  | .ropeContextEnable w r _ => w.ok && isCtx r
  | .ropeContextDisable w r _ => w.ok && isCtx r
  | .refBuild r => isCtx r
  | .slotRelease r i p => isCtx r && isSlot i && isPort p
  | .refTakeEffect r => isCtx r
  | .refSlotClose r => isCtx r
  | .coldEntry r => isCtx r
  | .anchorWindowOpen r i => isCtx r && isWindow i
  | .sharedWindowDecision r => isCtx r
  | .anchorTruncation p => isPort p
  | .anchorWindowEnd r i => isCtx r && isWindow i
  | .anchorLockTimeout r => isCtx r
  | .reconnect w p _ => w.ok && isPort p
  | .gridPoint => true
  | .homeCapture a => isAxis a
  | .setpointView => true
  | .travRun w a => w.ok && isAxis a
  | .travTarget w a => w.ok && isAxis a
  | .travStop w a => w.ok && isAxis a
  | .travHome w a => w.ok && isAxis a
  | .travGear w a => w.ok && isAxis a
  | .travClear w a => w.ok && isAxis a
  | .segWrWrite w a _ => w.ok && isAxis a
  | .gearQPush w a _ => w.ok && isAxis a
  | .groupGo w g _ => w.ok && isAxisGroup g
  | .kick w a _ => w.ok && isAxis a
  | .travWatchdogExpiry a => isAxis a
  | .mbSend w e i _ => w.ok && isEp e && isMailbox i
  | .mbRecv w e i => w.ok && isEp e && isMailbox i
  | .dbSet w e _ => w.ok && isEp e
  | .dbMaskWrite w e _ => w.ok && isEp e
  | .dbTake w e => w.ok && isEp e
  | .waitTmrWrite w e _ => w.ok && isEp e
  | .waitTmrExpiry e => isEp e
  | .lockTestAndSet w n => w.ok && isLock n
  | .lockRelease w n => w.ok && isLock n
  | .ceLogRead w => w.ok
  | .wipeGo w _ => w.ok
  | .wipeComplete => true
  | .bgtRegionTest cls pe _ _ => isTester cls pe
  | .marchGo w _ => w.ok
  | .marchComplete _ => true
  | .repairGo w _ => w.ok
  | .repairComplete => true
  | .faultTaken src cls _ _ => isLine src cls
  | .pathBroken src cls => isLine src cls
  | .pathTest src cls _ => isLine src cls
  | .eventEnqueue => true
  | .cairnRecordWrite => true
  | .tallyRecordWrite src => isSource src
  | .intHoldoffEnd => true
  | .outRel w _ => w.ok
  | .unitRelease o => isUnit o
  | .aliveToggle => true
  | .heartbeat w _ => w.ok
  | .heartbeatLoss => true
  | .wdogKick w _ => w.ok
  | .wdogExpiry => true
  | .nsafeAssert => true
  | .nsafeClear => true
  | .injGo w _ => w.ok
  | .injMissed => true
  | .injEnd => true
  | .f3Clr w _ => w.ok
  | .cairnScanComplete => true
  | .powerFailThreshold => true
  | .scrubGo w _ => w.ok
  | .scrubComplete _ => true
  | .post w _ => w.ok
  | .powerGood _ => true
  | .porstAssert => true
  | .vddAonApply _ => true
  | .vddAonRemoval => true
  | .softReset w _ => w.ok
  | .confirm w => w.ok
  | .trialAutoConfirm => true
  | .revoke w slot signer _ => w.ok && decide (slot < 4) && decide (signer < 4)
  | .load w _ => w.ok
  | .bivouacReq w _ => w.ok
  | .hostBundleWrite w _ => w.ok
  | .bundleData w _ => w.ok
  | .uartBundleFrame _ _ _ _ _ => true
  | .lcCmd w _ _ => w.ok
  | .tamperTrip i => isTamper i
  | .sensorSample _ _ _ => true
  | .twbGo w _ => w.ok
  | .twbComplete _ => true
  | .functionLevelReset => true
  | .busMasterDisable => true
  | .dmaDoorbellTake i => decide (i < 16)
  | .txDescriptor r _ _ _ _ => isRing r
  | .rxDescriptorComplete r _ => isRing r
  | .ringDisable w _ r _ => w.ok && isRing r
  | .imodHoldoffEnd v => isVector v
  | .hslReadWord cmd _ _ => cmd != 0x02
  | .hslWriteWord cmd _ _ _ => cmd == 0x02
  | .uartReadRequest _ _ _ => true
  | .uartConsoleByte _ => true
  | .canReceiveError k _ => isCan k
  | .systemPllLossOfLock => true
  | .coreCopyForce n => isChan n
  | .logicBistComplete pe _ => isEngine pe
  | .sparePreloadDeal => true
  | .ingressCellTaken p _ => isPort p
  | .ingressOversizeByte p _ => isPort p
  | .ingressCapturePoint p _ => isPort p

end Sys2Proof
end

