-- ==== Sys2Proof/Machine/Mbx.lean ====
section
/-!
DEFINITION. Mailboxes, doorbells, wait timers and lock words (chapter 14, R354 to R368).
-/
namespace Sys2Proof.Machine

/-- The window of endpoint e, and registers in it. -/
def epAddr (e : Nat) : Nat := mbxBase + 0x200 * e
def mbStat (e i : Nat) : Nat := epAddr e + 0x040 + 4 * i
def mbWord (e i : Nat) : Nat := epAddr e + 0x0C0 + 4 * i
def dbPend (e : Nat) : Nat := epAddr e + 0x100
def dbMask (e : Nat) : Nat := epAddr e + 0x108
def waitTmr (e : Nat) : Nat := epAddr e + 0x110
def epRedir (e : Nat) : Nat := epAddr e + 0x11C
/-- LOCK_VIEW[n], which holds HELD and OWNER of lock word n (R365). -/
def lockView (n : Nat) : Nat := mbxBase + 0x10400 + 4 * n

/-- Follow at most `k` redirections from endpoint e: a spare that has failed in its turn is redirected too (R364). -/
def State.epHop (s : State) : Nat → Nat → Nat
  | 0, e => e
  | k + 1, e => if s.bit (epRedir e) 0 then s.epHop k (s.fld (epRedir e) 8 6) else e

/-- The endpoint that sends and rings to endpoint e reach (R364). -/
def State.epTarget (s : State) (e : Nat) : Nat := s.epHop 36 e

/-- PE_STATE.STATE of engine n. -/
def State.peState (s : State) (n : Nat) : Nat := s.fld (peStateAddr n) 0 4

/-- Does endpoint e answer sends and rings: a defined number, and for an engine's one that is not OFF, TEST or SPARE
(R354, R358)? -/
def State.epReachable (s : State) (e : Nat) : Bool :=
  isEp e && match engineOf (s.epTarget e) with
    | some n => decide (3 ≤ s.peState n)
    | none => true

/-- The master that owns endpoint e's mailboxes (R354). -/
def mailOwner (e : Nat) (w : Who) : Bool :=
  if e = 1 then isMcp w else if e ≤ 3 then isHost w else w.master == e

/-- May the master empty endpoint e's mailboxes (R357)? -/
def State.mayEmpty (s : State) (e : Nat) (w : Who) : Bool :=
  mailOwner e w || (isMcp w && (e == 2 || e == 3 || match engineOf e with
    | some n => !(s.peState n == 3 || s.peState n == 4 || s.peState n == 5)
    | none => false))

/-- May the master use the owner-only doorbell registers of endpoint e (R354, R360, R362)? -/
def dbOwner (e : Nat) (w : Who) : Bool :=
  isMcp w || (if e = 0 ∨ e = 3 then isHost w else if e = 1 ∨ e = 2 then false else w.master == e)

/-- A send of a word to mailbox i of endpoint e by a master (R355, R356, R358): the state, whether it was accepted. -/
def State.mbSend (s : State) (master e i : Nat) (d : Word) : State × Bool :=
  let t := s.epTarget e
  if s.bit (mbStat t i) 0 then (s.bump (epAddr t + 0x128), false)
  else (((s.setReg (mbWord t i) d).setReg (mbStat t i) (word (1 + master * 256))).bump (epAddr t + 0x120), true)

/-- Empty mailbox i of endpoint e: its word (R357). -/
def State.mbEmpty (s : State) (e i : Nat) : State × Word :=
  if s.bit (mbStat e i) 0 then
    ((s.setReg (mbWord e i) 0).setReg (mbStat e i) 0, s.reg (mbWord e i))
  else (s, 0)

/-- Pending unmasked doorbells of endpoint e (R360). -/
def State.doorbells (s : State) (e : Nat) : Word := s.reg (dbPend e) &&& ~~~(s.reg (dbMask e))

/-- Doorbells of endpoint e have become pending and unmasked: endpoint 0x00 raises vector 18 (R360, R458). -/
def State.dbNotify (s : State) (e : Nat) (newBits : Word) : State :=
  if e = 0 ∧ newBits ≠ 0 then s.raiseVector 18 else s

/-- How many bits of a word are 1. -/
def popCount (w : Word) : Nat := ((List.range 32).filter (fun i => bitOf w i)).length

/-- Ring the doorbells `d` of endpoint e (R360): each ring counts, a pending bit stays pending. -/
def State.ring (s : State) (e : Nat) (d : Word) : State :=
  let t := s.epTarget e
  ((s.setReg (dbPend t) (s.reg (dbPend t) ||| d)).bumpBy (epAddr t + 0x130) (popCount d)).dbNotify t (d &&& ~~~(s.reg (dbPend t)) &&& ~~~(s.reg (dbMask t)))

/-- A write of DB_MASK (R360): unmasking a pending doorbell acts as a ring that finds it unmasked. -/
def State.dbSetMask (s : State) (e : Nat) (d : Word) : State :=
  (s.setReg (dbMask e) d).dbNotify e (s.reg (dbPend e) &&& s.reg (dbMask e) &&& ~~~d)

/-- Take the pending unmasked doorbells of endpoint e, clearing them (R361). -/
def State.dbTake (s : State) (e : Nat) : State × Word :=
  (s.setReg (dbPend e) (clearBits (s.reg (dbPend e)) (s.doorbells e)), s.doorbells e)

/-- A write of WAIT_TMR (R362). -/
def State.waitStart (s : State) (e : Nat) (d : Word) : State :=
  let us := fieldOf d 0 24
  let s1 := s.setReg (waitTmr e) (word (us + fieldOf d 24 5 * 2 ^ 24 + bit01 (decide (us ≠ 0)) * 2 ^ 31))
  { s1 with mbx := { s1.mbx with waitAt := Tab.set (fun _ => 0) s1.mbx.waitAt e (if us = 0 then 0 else s1.cyc + us * cycUs) } }

/-- The wait timer of endpoint e expires (R362). -/
def State.waitExpire (s : State) (e : Nat) : State :=
  if s.bit (waitTmr e) 31 && decide (Tab.get (fun _ => 0) s.mbx.waitAt e ≤ s.cyc) then
    (s.setBit (waitTmr e) 31 false).ring e (word (2 ^ s.fld (waitTmr e) 24 5))
  else s

/-- The mailboxes, doorbells, masks and wait timer of endpoint `a` move to endpoint `b`, and `a` is redirected (R364). -/
def State.epMove (s : State) (a b : Nat) : State :=
  let copy := fun (st : State) (o : Nat) => (st.setReg (epAddr b + o) (s.reg (epAddr a + o))).setReg (epAddr a + o) 0
  let offs := (List.range 16).map (fun i => 0x040 + 4 * i) ++ (List.range 16).map (fun i => 0x0C0 + 4 * i) ++ [0x100, 0x108, 0x110]
  let s1 := offs.foldl copy s
  let s2 := { s1 with mbx := { s1.mbx with
    waitAt := Tab.set (fun _ => 0) (Tab.set (fun _ => 0) s1.mbx.waitAt b (Tab.get (fun _ => 0) s1.mbx.waitAt a)) a 0 } }
  s2.setReg (epRedir a) (word (1 + b * 256))

/-- A binding by GO clears the endpoint of the engine it chooses (R364). -/
def State.epClear (s : State) (e : Nat) : State :=
  let offs := (List.range 16).map (fun i => 0x040 + 4 * i) ++ (List.range 16).map (fun i => 0x0C0 + 4 * i) ++ [0x100, 0x108, 0x110]
  offs.foldl (fun st o => st.setReg (epAddr e + o) 0) s

/-- A test-and-set of lock word n by a master: HELD before (R366). -/
def State.lockTas (s : State) (master n : Nat) : State × Word :=
  if s.bit (lockView n) 0 then (s, 1) else (s.setReg (lockView n) (word (1 + master * 256)), 0)

/-- A release of lock word n by a master (R367). -/
def State.lockRelease (s : State) (master n : Nat) : State :=
  if s.bit (lockView n) 0 then
    let s1 := s.setBit (lockView n) 0 false
    if s.fld (lockView n) 8 8 = master then s1 else s1.bump (mbxBase + 0x10800)
  else s

/-- The device releases every lock whose owner is the engine with identity `master` (R368). -/
def State.lockReclaim (s : State) (master : Nat) : State :=
  (List.range 256).foldl (fun st n =>
    if st.bit (lockView n) 0 && st.fld (lockView n) 8 8 == master then (st.setBit (lockView n) 0 false).bump (mbxBase + 0x10808)
    else st) s

/-- FULL_SUM of endpoint e. -/
def State.fullSum (s : State) (e : Nat) : Nat :=
  (List.range 16).foldl (fun n i => n + bit01 (s.bit (mbStat e i) 0) * 2 ^ i) 0

/-- A write at offset `o` of MBX. -/
def mbxWrite (s : State) (w : Who) (o : Nat) (d : Word) : WRes :=
  let e := o / 0x200
  let r := o % 0x200
  if 0x10000 ≤ o ∧ o < 0x10400 then .done (if bitOf d 0 then s else s.lockRelease w.master ((o - 0x10000) / 4))
  else if 0x10000 ≤ o then .plain
  else if !isEp e then .err s
  else if r < 0x040 then
    if !s.epReachable e then .err s
    else
      let (s1, ok) := s.mbSend w.master e (r / 4) d
      if ok then .done s1 else .err s1
  else if r = 0x104 then (if s.epReachable e then .done (s.ring e d) else .err s)
  else if r = 0x100 then (if dbOwner e w then .plain else .err s)
  else if r = 0x108 then (if dbOwner e w then .done (s.dbSetMask e d) else .err s)
  else if r = 0x110 then (if dbOwner e w then .done (s.waitStart e d) else .err s)
  else .plain

/-- A read at offset `o` of MBX. -/
def mbxRead (s : State) (w : Who) (o : Nat) : RRes :=
  let e := o / 0x200
  let r := o % 0x200
  if 0x10000 ≤ o ∧ o < 0x10400 then 
    .val (s.lockTas w.master ((o - 0x10000) / 4)).1 (s.reg (lockView ((o - 0x10000) / 4)))
  else if 0x10000 ≤ o ∨ !isEp e then .plain
  else if 0x080 ≤ r ∧ r < 0x0C0 then
    if s.mayEmpty e w then let (s1, v) := s.mbEmpty e ((r - 0x080) / 4); .val s1 v else .val s 0
  else if r = 0x10C then (if dbOwner e w then let (s1, v) := s.dbTake e; .val s1 v else .val s 0)
  else if r = 0x118 then .val s (word (s.fullSum e))
  else .plain

end Sys2Proof.Machine
end

