-- ==== Sys2Proof/Machine/Mem.lean ====
section
/-!
DEFINITION. Memory control (chapter 14, R373 to R381, R439): error correction and its log, uncorrectable errors, the wipe of the
secure memory, the background testers, March C− and soft repair.
-/
namespace Sys2Proof.Machine

/-- A register of MEM by its offset. -/
def memReg (o : Nat) : Nat := memBase + o

/-- The MCP's RAM is held in memory from this address: it has no device address of its own (R102; log entry 7). -/
def mcpRamBase : Nat := 2 ^ 40

/-- The memories of R439, in the encoding of REPAIR_CLASS, with the array and the row of an address: the scratchpad, the
secure memory, the MCP memory and the engine memories. -/
def arrayOf (a : Nat) : Nat × Nat × Nat :=
  if a < 0x00800000 then (1, a / 0x10000, a / 0x400 % 64)
  else if secureBase ≤ a ∧ a < secureBase + 0x40000 then (2, (a - secureBase) / 0x10000, a / 0x400 % 64)
  else if mcpRamBase ≤ a then (3, (a - mcpRamBase) / 0x10000, a / 0x400 % 64)
  else
    let n := (a - peBase) / 0x40000
    let o := (a - peBase) % 0x40000
    (4, 3 * n + (if o < 0x10000 then 0 else if o < 0x20000 then 1 else 2), o / 0x400 % 64)

/-- A correction enters CE_LOG, which holds 64 entries (R373). -/
def State.ceLogPush (s : State) (cls array row : Nat) : State :=
  if s.mbx.ceLog.length < 64 then
    { s with mbx := { s.mbx with ceLog := s.mbx.ceLog ++ [word (array + row * 2 ^ 8 + cls * 2 ^ 16 + 2 ^ 31)] } }
  else s.bump (memReg 0x170)

/-- An event of source 0x63 of class F1, with the DETAIL that every event of it carries: UE_ADDR and UE_INFO.MASTER (R406). -/
def State.raiseMem (s : State) (cause : Nat) : State :=
  s.raise 0x63 1 cause 0 (leBytes 8 (s.reg64 (memReg 0x28)) ++ leBytes 1 (s.fld (memReg 0x30) 0 8))

/-- The correction counter of a memory class and the source and CAUSE of its F1 (R373, R490). For an engine memory `part` is
1 IM, 2 LDM, 3 register file. -/
def State.corrected (s : State) (a : Nat) : State :=
  let (cls, array, row) := arrayOf a
  let s1 := s.ceLogPush cls array row
  if cls = 1 then (s1.bump (memReg 0x100)).raiseMem (cls * 256 + 1)
  else if cls = 2 then (s1.bump (memReg 0x110)).raiseMem (cls * 256 + 1)
  else if cls = 3 then (s1.bump (memReg 0x120)).raiseMem (cls * 256 + 1)
  else (s1.bump (peGroup (array / 3) + 0x90)).raise (array / 3) 1 (if array % 3 = 0 then 1 else 2)

/-- A corrected error of the packet buffer (R373): counted, logged, and an F1 of the switch, whose own CAUSE is 0xFE (R490).
The buffer has no device address: `array` and `row` are those of the cell. -/
def State.correctedPacket (s : State) (array row : Nat) : State :=
  ((s.ceLogPush 0 array row).bump (memReg 0x160)).raise 0x5D 1 0xFE

/-- The first uncorrectable error is captured (R374). -/
def State.ueCapture (s : State) (a master : Nat) : State :=
  if s.bit (memReg 0x30) 8 then s
  else (s.setReg64 (memReg 0x28) a).setReg (memReg 0x30) (word (master + 256))

/-- DETAIL of an event of source 0x63 (R406): UE_ADDR and the master. -/
def ueDetail (a master : Nat) : List Byte := leBytes 8 a ++ [BitVec.ofNat 8 master]

/-- The 8-byte word at an address holds an uncorrectable error. -/
def State.isBad (s : State) (a : Nat) : Bool := Tab.get (fun _ => false) s.mbx.bad (a / 8)

/-- The 8-byte word at an address holds an uncorrectable error from now on, or no longer. -/
def State.setBad (s : State) (a : Nat) (b : Bool) : State :=
  { s with mbx := { s.mbx with bad := Tab.set (fun _ => false) s.mbx.bad (a / 8) b } }

/-- The counter of uncorrectable errors of the memory at an address. -/
def ueCounter (a : Nat) : Nat :=
  memReg (if a < 0x00800000 then 0x108 else if a < mcpRamBase then 0x118 else 0x128)

/-- The word at an address shows an uncorrectable error to a read of a master: captured and counted (R374). -/
def State.ueNoted (s : State) (a master : Nat) : State := ((s.setBad a true).ueCapture a master).bump (ueCounter a)

/-- The fault of a memory at an address in a class. -/
def State.ueRaise (s : State) (cls a master : Nat) : State := s.raise 0x63 cls ((arrayOf a).1 * 256 + 2) 0 (ueDetail a master)

/-- Store bytes under R374: a write that covers all 8 bytes of a bad word ends its error; the caller has refused a narrower
one. -/
def State.storeEnding (s : State) (a : Nat) (bs : List Byte) : State :=
  let s1 := s.store a bs
  (List.range ((bs.length + 14) / 8)).foldl (fun st i =>
    let w := (a / 8 + i) * 8
    if a ≤ w ∧ w + 8 ≤ a + bs.length then st.setBad w false else st) s1

/-- Would a write of `n` bytes from an address touch a bad word without covering it (R374)? -/
def State.narrowOnBad (s : State) (a n : Nat) : Bool :=
  (List.range ((n + 14) / 8)).any (fun i =>
    let w := (a / 8 + i) * 8
    decide (w < a + n) && s.isBad w && !(decide (a ≤ w) && decide (w + 8 ≤ a + n)))

/-! ## The wipe of the secure memory (R376) -/

/-- Every byte of a range of addresses is zero. -/
def State.zeroRange (s : State) (lo n : Nat) : State :=
  { s with mem := s.mem.filter (fun c => !(decide (lo ≤ c.1) && decide (c.1 < lo + n))) }

/-- Is a wipe of the secure memory in progress (R376)? -/
def State.wiping (s : State) : Bool := s.bit (memReg 0x20) 1

/-- A wipe starts. -/
def State.wipeStart (s : State) : State := s.setBit (memReg 0x20) 1 true

/-- A memory is left at zero with valid check bits. -/
def State.zeroMemory (s : State) (lo n : Nat) : State :=
  let s1 := s.zeroRange lo n
  { s1 with mbx := { s1.mbx with bad := s1.mbx.bad.filter (fun c => !(decide (lo / 8 ≤ c.1) && decide (c.1 < (lo + n) / 8))) } }

/-- A wipe ends: every word of the secure memory is zero with valid check bits. -/
def State.wipeEnd (s : State) : State :=
  if s.bit (memReg 0x20) 1 then
    let s2 := s.zeroMemory secureBase 0x40000
    ((s2.setBit (memReg 0x20) 1 false).setBit (memReg 0x20) 2 true).bump (memReg 0x150)
  else s

/-! ## March C− (R380) -/

/-- Is a device address one of the Ropeline schedule tables, 512 KiB (R380)? -/
def isSched (a : Nat) : Bool := decide (ropeBase + 0x100000 ≤ a) && decide (a < ropeBase + 0x180000)

/-- May a March C− request start? `rope` says that a rope context is enabled, `tags` that a context has TAG_TX or TAG_REQ. -/
def State.marchAllowed (s : State) (d : Word) (rope tags : Bool) : Bool :=
  let target := fieldOf d 0 2
  if bitOf d 2 then !(target == 2 && rope) && !(target == 0 && tags)
  else !(target == 1 && s.bit (mgtBase + 0) 1)

/-- A destructive run over a memory is in progress: other accesses are bus errors. -/
def State.marchHolds (s : State) (target : Nat) : Bool :=
  s.bit (memReg 0x10) 31 && !s.bit (memReg 0x10) 2 && s.fld (memReg 0x10) 0 2 == target

/-- The memory class of a March C− target in R490's CAUSE; free for the two targets that REPAIR_CLASS does not number
(log entry 22). -/
def State.marchClass (s : State) (target : Nat) : Nat :=
  if target = 0 then 2 else if target = 1 then 3 else (freeValue 3 s.freeCtr).toNat

/-- A March C− run ends: a destructive one leaves its memory at zero; the first failing address is recorded. -/
def State.marchEnd (s : State) (failAddr : Option Nat) : State :=
  if s.bit (memReg 0x10) 31 then
    let target := s.fld (memReg 0x10) 0 2
    let s1 := if s.bit (memReg 0x10) 2 then s
      else if target = 0 then s.zeroMemory secureBase 0x40000
      else if target = 1 then s.zeroMemory mcpRamBase 0x100000
      else if target = 2 then { s with regs := s.regs.filter (fun c => !isSched c.1) }
      else s
    let s2 := (s1.setBit (memReg 0x10) 31 false).setBit (memReg 0x14) 0 true
    match failAddr with
    | none => s2
    | some a => (((s2.setBit (memReg 0x14) 1 true).setReg64 (memReg 0x18) (a % 2 ^ 40)).raiseMem (s2.marchClass target * 256 + 4)).free
  else s

/-! ## Soft repair (R381, R439) -/

/-- How many arrays a memory class has (R439). -/
def arraysOf (cls : Nat) : Nat :=
  if cls = 0 then 256 else if cls = 1 then 128 else if cls = 2 then 4 else if cls = 3 then 16 else if cls = 4 then 108 else 0

/-- The key of an array in the tables of used spares. -/
def arrayKey (cls array : Nat) : Nat := 256 * cls + array

/-- ROWS_LEFT and COLS_LEFT of an array. -/
def State.rowsLeft (s : State) (k : Nat) : Nat := 8 - Tab.get (fun _ => 0) s.mbx.rowsUsed k
def State.colsLeft (s : State) (k : Nat) : Nat := 2 - Tab.get (fun _ => 0) s.mbx.colsUsed k

/-- Is a column repair of the array permitted now (R381)? -/
def State.columnAllowed (s : State) (cls array : Nat) : Bool :=
  (cls == 2 && s.marchHolds 0) || (cls == 3 && s.marchHolds 1) || (cls == 4 && s.peState (array / 3) == 2)

/-- A write of REPAIR_CMD with GO = 1: refused where no spare is left or the repair is not permitted. -/
def State.repairStart (s : State) (d : Word) : State :=
  let s1 := s.setReg (memReg 0x40) (word (fieldOf d 0 15))
  let cls := s.fld (memReg 0x48) 0 3
  let array := fieldOf d 0 8
  let k := arrayKey cls array
  let ok := decide (array < arraysOf cls) &&
    (if bitOf d 14 then decide (0 < s.colsLeft k) && s.columnAllowed cls array else decide (0 < s.rowsLeft k))
  if ok then s1.setBit (memReg 0x40) 31 true else s1.setBit (memReg 0x44) 8 true

/-- A spare row or column of the array with a key is used. -/
def State.useSpareLine (s : State) (column : Bool) (k : Nat) : State :=
  if column then { s with mbx := { s.mbx with colsUsed := Tab.set (fun _ => 0) s.mbx.colsUsed k (Tab.get (fun _ => 0) s.mbx.colsUsed k + 1) } }
  else { s with mbx := { s.mbx with rowsUsed := Tab.set (fun _ => 0) s.mbx.rowsUsed k (Tab.get (fun _ => 0) s.mbx.rowsUsed k + 1) } }

/-- The array of REPAIR_CMD. -/
def State.repairKey (s : State) : Nat := arrayKey (s.fld (memReg 0x48) 0 3) (s.fld (memReg 0x40) 0 8)

/-- A repair ends: the spare stands in the row's or the column's place. -/
def State.repairEnd (s : State) : State :=
  if s.bit (memReg 0x40) 31 then
    ((s.setBit (memReg 0x40) 31 false).bump (memReg 0x158)).useSpareLine (s.bit (memReg 0x40) 14) s.repairKey
  else s

/-! ## The background testers (R377 to R379) -/

/-- Regions of a tester's memory: packet buffer, scratchpad, one engine's IM and LDM. -/
def bgtRegions (cls : Nat) : Nat := if cls = 0 then 262144 else if cls = 1 then 131072 else 3072

/-- The address of a region: a device address, or the byte offset in the packet buffer, which has none. -/
def bgtAddr (cls pe i : Nat) : Nat := if cls = 2 then peBase + pe * 0x40000 + 64 * i else 64 * i

/-- The tester's position advances; a completed sweep is counted, the engine lanes' when every lane has swept. -/
def State.bgtAdvance (s : State) (cls pe : Nat) : State :=
  let key := if cls = 2 then 2 + pe else cls
  let i := Tab.get (fun _ => 0) s.mbx.bgtNext key
  if i + 1 < bgtRegions cls then
    { s with mbx := { s.mbx with bgtNext := Tab.set (fun _ => 0) s.mbx.bgtNext key (i + 1) } }
  else
    let s1 := { s with mbx := { s.mbx with bgtNext := Tab.set (fun _ => 0) s.mbx.bgtNext key 0 } }
    if cls = 0 then s1.bump (memReg 0x130)
    else if cls = 1 then s1.bump (memReg 0x138)
    else
      let done := Tab.set (fun _ => false) s1.mbx.bgtDone pe true
      if (List.range 36).all (fun n => Tab.get (fun _ => false) done n || s1.peState n == 0) then
        ({ s1 with mbx := { s1.mbx with bgtDone := [] } }).bump (memReg 0x140)
      else { s1 with mbx := { s1.mbx with bgtDone := done } }

/-- A pattern reads back wrong (R379): the first failed region is recorded, and an F1 raised. -/
def State.bgtFail (s : State) (cls a : Nat) : State :=
  let s1 := if s.bit (memReg 0x04) 0 then s else s.setReg64 (memReg 0x08) a
  let memClass := if cls = 0 then 0 else if cls = 1 then 1 else 4
  ((s1.setBit (memReg 0x04) 0 true).bump (memReg 0x148)).raiseMem (memClass * 256 + 3)

/-! ## The register window of MEM -/

/-- A write at offset `o` of MEM: the MCP alone writes it. `rope` and `tags` are as in `marchAllowed`. -/
def memWrite (s : State) (w : Who) (o : Nat) (d : Word) (rope tags : Bool) : WRes :=
  if !isMcp w then .err s
  else if o = 0x00 then WRes.unless (decide (fieldOf d 16 16 ≠ 0)) s .plain
  else if o = 0x10 then
    if s.bit (memReg 0x10) 31 then .err s
    else if bitOf d 3 then
      WRes.unless (s.marchAllowed d rope tags) s (.done (s.setReg (memReg 0x10) (word (fieldOf d 0 3 + 2 ^ 31))))
    else .plain
  else if o = 0x20 then
    let s1 := plainWord s (memReg 0x20) 0 4 d
    .done (if bitOf d 0 then s1.wipeStart else s1)
  else if o = 0x40 then
    if s.bit (memReg 0x40) 31 then .err s
    else if bitOf d 30 then .done (s.repairStart d) else .plain
  else if o = 0x48 then WRes.unless (decide (fieldOf d 0 3 ≤ 4)) s .plain
  else .plain

/-- A read at offset `o` of MEM. -/
def memRead (s : State) (o : Nat) : RRes :=
  if o = 0x44 then
    let k := arrayKey (s.fld (memReg 0x48) 0 3) (s.fld (memReg 0x40) 0 8)
    .val s (word (s.rowsLeft k + s.colsLeft k * 16 + bit01 (s.bit (memReg 0x44) 8) * 256))
  else if o = 0x50 then
    match s.mbx.ceLog with
    | [] => .val s 0
    | e :: q => .val { s with mbx := { s.mbx with ceLog := q } } e
  else .plain

end Sys2Proof.Machine
end

