-- ==== Sys2Proof/Machine/Flt.lean ====
section
/-!
DEFINITION. The fault collector and the Cairn (chapter 15): sources and classes, output units and their reason bits, captures,
the event queue and tallies, ALIVE and the watchdogs, injection, and the records in MRAM.
-/
namespace Sys2Proof.Machine

/-- STICKY of FLT. -/
def fltSticky : Nat := fltReg 0x04

/-! ## Sources (R384) -/

/-- The F2 to F4 classes that a source can raise over its lines, and F0 and F1 over the event bus (R384). -/
def canRaise (src cls : Nat) : Bool :=
  if src ≤ 0x23 then cls == 1 || cls == 2
  else if src ≤ 0x43 then cls == 2
  else if src ≤ 0x53 then cls ≤ 2
  else if src ≤ 0x5C then cls == 0 || cls == 1 || cls == 3
  else if src = 0x5D then cls == 1 || cls == 3
  else if src = 0x5E ∨ src = 0x5F then cls == 0 || cls == 3
  else if src = 0x60 ∨ src = 0x62 then cls == 3
  else if src = 0x61 ∨ src = 0x64 then cls == 0 || cls == 1 || cls == 3
  else if src = 0x63 then cls == 1 || cls == 2 || cls == 3
  else if src = 0x65 then cls == 3 || cls == 4
  else if src = 0x66 then cls == 1 || cls == 3
  else if src = 0x67 then cls == 0 || cls == 1 || cls == 3 || cls == 4
  else if src = 0x68 ∨ src = 0x69 then cls == 4
  else if src = 0x6A then cls == 2
  else if src = 0x6B then cls == 1 || cls == 3
  else if src = 0x6C then cls ≤ 4
  else false

/-- Does a pin channel still show a finding of class F2: a live bit of DIAG_STAT in that class, or an uncorrectable LUT entry (R166 to R169,
R173)? -/
def State.chanFaulty (s : State) (n : Nat) : Bool :=
  let live := s.reg (pchAddr n + 0x1210)
  let cls := fun i => s.fld (pchAddr n + 0x1200) i 2 == 2
  decide ((Tab.get (fun _ => Chan.reset) s.pch.chans n).bad ≠ 0) || (fieldOf live 0 8 != 0 && cls 20) || (fieldOf live 8 4 != 0 && cls 22) ||
    (bitOf live 16 && cls 24) || (bitOf live 17 && cls 26)

/-- Does a memory class hold a word with an uncorrectable error that a read has found (R374)? -/
def State.memoryBad (s : State) (p : Nat → Bool) : Bool := s.mbx.bad.any (fun c => c.2 && p (arrayOf (8 * c.1)).1)

/-- Does the state itself show that the fault of a line still stands (R395): the finding of a channel of a cluster (R398, worked injection), an
uncorrectable word in a memory (R374), a sensor beyond its limit (R418), the MCP halted by a trap (R414), or the tick generator stopped by its
own fault (R391)? -/
def State.faultStands (s : State) (src cls : Nat) : Bool :=
  if 0x44 ≤ src ∧ src ≤ 0x53 then cls == 2 && (List.range 16).any (fun i => s.chanFaulty (16 * (src - 0x44) + i))
  else if src = 0x63 then (cls == 2 && s.memoryBad (fun c => c == 1)) || (cls == 3 && s.memoryBad (fun c => c == 2 || c == 3))
  else if src = 0x60 then cls == 3 && s.flt.tickFault
  else if src = 0x65 then cls == 3 && s.mgt.mcpHalted && s.bit mgtBase 0
  else if src = 0x67 then cls == 3 && s.mgt.sensorSeen.any (fun c => c.2 == 1 && (if c.1 < 1024 then c.1 % 8 == 2 else c.1 % 8 == 1))
  else false

/-- Is a line of the source in real fault now (SRC_LIVE, R395)? -/
def State.lineLive (s : State) (src cls : Nat) : Bool :=
  Tab.get (fun _ => false) s.flt.live (lineKey src cls) || s.faultStands src cls

/-- Is a line broken (R385)? -/
def State.lineBroken (s : State) (src cls : Nat) : Bool := Tab.get (fun _ => false) s.flt.broken (lineKey src cls)

/-- A line shows a real fault, or returns to (0,1). -/
def State.setLive (s : State) (src cls : Nat) (b : Bool) : State :=
  { s with flt := { s.flt with live := Tab.set (fun _ => false) s.flt.live (lineKey src cls) b } }

/-- A line is broken. -/
def State.setBroken (s : State) (src cls : Nat) : State :=
  { s with flt := { s.flt with broken := Tab.set (fun _ => false) s.flt.broken (lineKey src cls) true } }

/-- Is some F3 source live (R383)? -/
def State.f3Live (s : State) : Bool := (List.range 0x6D).any (fun src => s.lineLive src 3 || s.lineLive src 4)

/-! ## The FLT interrupt and sticky flags (R395, R404) -/

/-- The FLT interrupt: vector 16 and doorbell 31 of endpoint 0x01, at most once per INT_HOLDOFF (R404). -/
def State.fltInterrupt (s : State) : State :=
  let held := match s.flt.intUntil with
    | some t => decide (s.cyc < t)
    | none => false
  if held then { s with flt := { s.flt with intWaits := true } }
  else
    let s1 := (s.raiseVector 16).ring 0x01 (word (2 ^ 31))
    { s1 with flt := { s1.flt with intUntil := some (s1.cyc + s1.fld (fltReg 0x08) 16 16 * cycUs), intWaits := false } }

/-- Set a bit of STICKY or SRC_STICKY; a newly set one raises the FLT interrupt (R404). -/
def State.setSticky (s : State) (a i : Nat) : State :=
  if s.bit a i then s else (s.setBit a i true).fltInterrupt

/-- Set several such bits, given by register and number, at one instant: they are signalled together (R404). -/
def State.setStickies (s : State) (bs : List (Nat × Nat)) : State :=
  let s1 := bs.foldl (fun (st : State) b => st.setBit b.1 b.2 true) s
  if bs.any (fun b => !s.bit b.1 b.2) then s1.fltInterrupt else s1

/-- INT_HOLDOFF_END (R404): bits set during the holdoff are signalled at its end. -/
def State.intHoldoffEnd (s : State) : State :=
  match s.flt.intUntil with
  | some t =>
    if t ≤ s.cyc then
      let s1 := { s with flt := { s.flt with intUntil := none, intWaits := false } }
      if s.flt.intWaits then s1.fltInterrupt else s1
    else s
  | none => s

/-! ## Output units (R388, R389) -/

/-- OUT_SAFE[o]. -/
def outSafe (o : Nat) : Nat := fltReg (0x2000 + 4 * o)

/-- The reason bits of a unit by their number: 0 INIT, 1 ENGINE, 2 LOCAL, 3 NSAFE, 4 DEVICE. -/
def State.reasons (s : State) (o : Nat) : Nat := s.fld (outSafe o) 0 5

/-- Is the unit at safe level (R388)? -/
def State.unitSafe (s : State) (o : Nat) : Bool := s.bit (outSafe o) 5

/-- Set a reason bit of a unit: it goes to safe level, and a waiting release is cancelled (R388, R389). -/
def State.setReason (s : State) (o r : Nat) : State :=
  let s1 := ((s.setBit (outSafe o) r true).setBit (outSafe o) 5 true).setBit (outSafe o) 6 false
  let s2 := { s1 with flt := { s1.flt with relReady := Tab.set (fun _ => false) s1.flt.relReady o false } }
  if 256 ≤ o then s2.canBreak (o - 256) else s2

/-- Clear a reason bit of a unit (R388). With the last reason gone its release waits: for the next tick boundary while ticks run,
which REL_PEND shows, or for at most 1 µs otherwise (R389). -/
def State.clearReason (s : State) (o r : Nat) : State :=
  if s.bit (outSafe o) r then
    let s1 := s.setBit (outSafe o) r false
    if s1.reasons o = 0 ∧ s1.bit (tickBase + 8) 0 = true then s1.setBit (outSafe o) 6 true else s1
  else s

/-- Set a reason on every unit of a list. -/
def State.setReasons (s : State) (us : List Nat) (r : Nat) : State := us.foldl (fun st o => st.setReason o r) s

/-- Clear a reason on every unit of a list. -/
def State.clearReasons (s : State) (us : List Nat) (r : Nat) : State := us.foldl (fun st o => st.clearReason o r) s

/-- The 288 output units. -/
def allUnits : List Nat := List.range 288

/-- The units of logical engine L (R384). -/
def State.unitsOf (s : State) (l : Nat) : List Nat := allUnits.filter (fun o => s.ownsUnit l o)

/-- A tick boundary makes the waiting releases due (R389). -/
def State.releasesDue (s : State) : State :=
  allUnits.foldl (fun st o =>
    if st.unitSafe o && decide (st.reasons o = 0) then
      { st with flt := { st.flt with relReady := Tab.set (fun _ => false) st.flt.relReady o true } } else st) s

/-- May unit o be released now (R389)? -/
def State.releaseDue (s : State) (o : Nat) : Bool :=
  s.unitSafe o && decide (s.reasons o = 0) &&
    (!s.bit (tickBase + 8) 0 || Tab.get (fun _ => false) s.flt.relReady o)

/-- The unit is released: it leaves its safe level (R389); a controller integrates (R190). -/
def State.releaseUnit (s : State) (o : Nat) : State :=
  let s1 := (s.setBit (outSafe o) 5 false).setBit (outSafe o) 6 false
  let s2 := { s1 with flt := { s1.flt with relReady := Tab.set (fun _ => false) s1.flt.relReady o false } }
  if 256 ≤ o then s2.canRelease (o - 256)
  else
    let c := Tab.get (fun _ => Chan.reset) s2.pch.chans o
    { s2 with pch := { s2.pch with chans := Tab.set (fun _ => Chan.reset) s2.pch.chans o { c with localSafe := false } } }

/-- A write of OUT_REL (R388). -/
def State.outRelWrite (s : State) (d : Word) : WRes :=
  let o := fieldOf d 0 9
  if 288 ≤ o then .err s
  else if bitOf d 9 && s.bit (outSafe o) 2 && decide (o < 256) && s.lineBroken (0x44 + o / 16) 2 then .err s
  else
    let s1 := if bitOf d 9 then s.clearReason o 2 else s
    .done (if bitOf d 10 && (s1.holderOf o).isNone then s1.clearReason o 0 else s1)

/-! ## Captures (R396) -/

/-- The word FF_INFO or GF_INFO of an event. -/
def captureInfo (e : Event) : Word :=
  word (e.src + e.cls * 2 ^ 8 + bit01 e.broken * 2 ^ 11 + bit01 e.inj * 2 ^ 12 + 2 ^ 15 + e.cause % 2 ^ 16 * 2 ^ 16)

/-- May event e be captured at INFO, whose capture was taken in cycle `t`: none is valid there, or one of the same CORE cycle that ranks
below e (R396)? -/
def State.mayCapture (s : State) (e : Event) (info t : Nat) : Bool :=
  !s.bit (fltReg info) 15 || (t == s.cyc &&
    (decide (s.fld (fltReg info) 8 3 < e.cls) || (s.fld (fltReg info) 8 3 == e.cls && decide (e.src < s.fld (fltReg info) 0 8))))

/-- Record a capture at the registers `info`, `ns`, `sec` and `tick`. -/
def State.capture (s : State) (e : Event) (info ns sec tick : Nat) : State :=
    (((s.setReg (fltReg info) (captureInfo e)).setReg (fltReg ns) (word (nsOf e.time))).setReg64 (fltReg sec) (secOf e.time)).setReg64
      (fltReg tick) e.tick.toNat

/-- The first-fault capture and the grave capture of R396. -/
def State.captures (s : State) (e : Event) : State :=
  let s1 := if s.fld (fltReg 0x08) 0 3 ≤ e.cls ∧ s.mayCapture e 0x10 s.flt.ffAt = true then
      { s.capture e 0x10 0x14 0x18 0x20 with flt := { s.flt with ffAt := s.cyc } } else s
  if 3 ≤ e.cls ∧ s1.mayCapture e 0x30 s1.flt.gfAt = true then
    { s1.capture e 0x30 0x34 0x38 0x40 with flt := { s1.flt with gfAt := s1.cyc } } else s1

/-- What the collector notes of every real event: the sticky flags of its class and source, and at the same instant those bits of STICKY that
`more` names, its count and its captures (R383, R395, R396). -/
def State.noteReal (s : State) (e : Event) (more : List Nat) : State :=
  ((s.setStickies ((fltSticky, e.cls) :: (fltReg (0x110 + 4 * (e.src / 32)), e.src % 32) :: more.map (fun i => (fltSticky, i)))).bump
    (fltReg (0x3000 + 8 * e.cls))).captures e

/-! ## ALIVE, heartbeat and watchdog (R391 to R393) -/

/-- HB_OK (R392). -/
def State.hbOk (s : State) : Bool :=
  match s.flt.hbAt with
  | some t => decide (s.cyc ≤ t + s.fld (fltReg 0x54) 0 10 * cycMs)
  | none => false

/-- TICKS_OK (R391). -/
def State.ticksOk (s : State) : Bool := s.bit (tickBase + 8) 0 && !s.flt.tickFault

/-- All the conditions under which ALIVE toggles hold (R391). -/
def State.aliveOk (s : State) : Bool :=
  s.ticksOk && s.hbOk && !s.flt.f3 && !s.flt.f4 && !s.bit mgtBase 2 && !s.flt.wdogExpired

/-- When a condition fails, ALIVE is driven low and stays low (R391). -/
def State.aliveCheck (s : State) : State :=
  if s.aliveOk then s else { s with flt := { s.flt with alive := false } }

/-- ALIVE_TOGGLE (R391): once at each 500 µs instant of its timer the output toggles while all conditions hold; from low it
resumes with a rising edge. -/
def State.aliveToggle (s : State) : State :=
  let i := s.cyc / (500 * cycUs) + 1
  if s.flt.aliveAt = i then s.aliveCheck
  else { s with flt := { s.flt with alive := s.aliveOk && !s.flt.alive, aliveAt := i } }

/-- The level of the ALIVE ball (R391): high impedance without VDD_AON (R468). -/
def State.alivePin (s : State) : Option Bool :=
  if s.mgt.phase = .unpowered then none else some (!s.mgt.porstLow && s.flt.alive && s.aliveOk)

/-- A write of HEARTBEAT (R392): a key that repeats the previous one does not count and sets HB_LOST. -/
def State.heartbeat (s : State) (key : Nat) : State :=
  if key = 0x5A ∨ key = 0xA5 then
    if key = s.flt.hbKey then s.setSticky fltSticky 6
    else { s.aliveCheck with flt := { s.aliveCheck.flt with hbKey := key, hbAt := some s.cyc, hbLost := false } }
  else s

/-- HEARTBEAT_LOSS (R392). -/
def State.heartbeatLoss (s : State) : State :=
  if s.flt.hbAt.isSome && !s.hbOk && !s.flt.hbLost then
    let s1 := { s with flt := { s.flt with hbLost := true } }
    ((s1.setSticky fltSticky 6).raise 0x6B 1 6).aliveCheck
  else s

/-- A write of 1 to WDOG_KICK (R393): the watchdog starts anew, and its line returns to (0,1) (log entry 23). -/
def State.wdogKick (s : State) : State :=
  ({ s with flt := { s.flt with kickAt := s.cyc, wdogExpired := false } }).setLive 0x6B 3 false

/-- WDOG_EXPIRY (R393). -/
def State.wdogExpiry (s : State) : State :=
  if s.bit (fltReg 0x58) 0 && !s.flt.wdogExpired && decide (s.flt.kickAt + s.fld (fltReg 0x58) 16 16 * cycMs ≤ s.cyc) then
    let s1 := { s with flt := { s.flt with wdogExpired := true } }
    ((s1.setSticky fltSticky 7).raise 0x6B 3 7).aliveCheck
  else s

/-! ## The event queue and tallies (R399 to R403) -/

/-- Is an event of a class tallied at a queue level (R400)? -/
def tallied (level cls : Nat) : Bool :=
  decide (4096 ≤ level) || (decide (4032 ≤ level) && decide (cls ≤ 2)) || (decide (3072 ≤ level) && decide (cls ≤ 1)) ||
    (decide (2048 ≤ level) && decide (cls = 0))

/-- TALLY[s] of FLT. -/
def tallyAddr (src : Nat) : Nat := fltReg (0x4000 + 0x20 * src)

/-- The tally of a source beyond its registers. -/
def State.tallyOf (s : State) (src : Nat) : Tally := Tab.get (fun _ => ⟨0, 0, 0, 0, none⟩) s.flt.tally src

/-- Is anything tallied for a source? -/
def State.tallyAny (s : State) (src : Nat) : Bool := (List.range 5).any (fun c => s.reg (tallyAddr src + 4 * c) != 0)

/-- Fold an event into its source's tally (R402): a count stops at its maximum and sets its SAT bit (R13). -/
def State.tallyEvent (s : State) (e : Event) : State :=
  let a := tallyAddr e.src + 4 * e.cls
  let first := !s.tallyAny e.src
  let t := s.tallyOf e.src
  let s1 := if (s.reg a).toNat = 0xFFFFFFFF then s.setBit (tallyAddr e.src + 0x14) e.cls true
    else s.setReg a (word ((s.reg a).toNat + 1))
  let s1 := if (s1.reg a).toNat = 0xFFFFFFFF then s1.setBit (tallyAddr e.src + 0x14) e.cls true else s1
  let t' : Tally := ⟨if first then e.time else t.firstTime, e.time, if first then e.cause else t.firstCause, e.cause, t.written⟩
  let s2 := { s1 with flt := { s1.flt with tally := Tab.set (fun _ => ⟨0, 0, 0, 0, none⟩) s1.flt.tally e.src t' } }
  (s2.setSticky fltSticky 9).bump (fltReg 0x3030)

/-- The event enters the queue (R399); PEAK follows. -/
def State.queueEvent (s : State) (e : Event) : State :=
  let s1 := { s with flt := { s.flt with queue := s.flt.queue ++ [e] } }
  let n := s1.flt.queue.length
  let s2 := if s1.fld (fltReg 0x80) 16 13 < n then s1.setFld (fltReg 0x80) 16 13 n else s1
  if n = 4096 then s2.setSticky fltSticky 10 else s2

/-- Count an F0, F1 or F2 event in its source's 1 ms window (R401); answers how many of the window came before it. -/
def State.burstCount (s : State) (src : Nat) : State × Nat :=
  let w := s.cyc / cycMs
  let b := Tab.get (fun _ => ⟨0, 0⟩) s.flt.burst src
  let n := if b.window = w then b.events else 0
  ({ s with flt := { s.flt with burst := Tab.set (fun _ => ⟨0, 0⟩) s.flt.burst src ⟨w, n + 1⟩ } }, n)

/-- Does the line of an event return to (0,1) when its event has entered the queue, unless the state shows that its fault stands: a cluster, a post,
the memories, and an F3 of any block but the watchdog? The line of every other source stays in fault until the rules end it (log entry 24). -/
def pulseEvent (e : Event) : Bool :=
  (decide (0x44 ≤ e.src) && decide (e.src ≤ 0x53)) || e.src == 0x6C || e.src == 0x63 || (e.cls == 3 && e.src != 0x6B)

/-- EVENT_ENQUEUE (R399 to R401): the oldest event of the bus enters the queue or a tally. Real F0 and F1 events are noted
here; F2 to F4 were when their line was taken. -/
def State.eventEnqueue (s : State) : State :=
  match s.flt.bus with
  | [] => s
  | e :: rest =>
    let s0 := { s with flt := { s.flt with bus := rest } }
    let s1 := if e.inj then s0.bump (fltReg 0x3028) else if e.cls ≤ 1 then s0.noteReal e [] else s0
    let s2 := if 2 ≤ e.cls ∧ e.inj = false ∧ pulseEvent e = true then s1.setLive e.src e.cls false else s1
    let (s3, before) := if e.cls ≤ 2 then s2.burstCount e.src else (s2, 0)
    let burst := decide (e.cls ≤ 2) && decide (s3.fld (fltReg 0x08) 8 8 ≤ before)
    if burst || tallied s3.flt.queue.length e.cls then s3.tallyEvent e else s3.queueEvent e

/-! ## Records in MRAM (R405 to R408) -/

/-- The device address of an MRAM offset in the Cairn read window (R411). -/
def mramAddr (o : Nat) : Nat := cairnBase + o

/-- How many bit errors block b of MRAM holds (R409). -/
def State.blockErrors (s : State) (b : Nat) : Nat := Tab.get (fun _ => 0) s.flt.mramBad b
/-- Set it. -/
def State.setBlockErrors (s : State) (b n : Nat) : State :=
  { s with flt := { s.flt with mramBad := Tab.set (fun _ => 0) s.flt.mramBad b n } }

/-- Bytes are written into MRAM: the blocks that they touch get fresh check bits (R409). -/
def State.mramPut (s : State) (o : Nat) (bs : List Byte) : State :=
  (List.range (bs.length / 64 + 2)).foldl (fun (st : State) i =>
    if 64 * (o / 64 + i) < o + bs.length then st.setBlockErrors (o / 64 + i) 0 else st) (s.store (mramAddr o) bs)

/-- A read of block b (R409): one of up to 4 bit errors is corrected and counted, and one of more is reported. -/
def State.blockSeen (s : State) (b : Nat) : State :=
  if s.blockErrors b = 0 then s
  else if s.blockErrors b ≤ 4 then s.bump (fltReg 0x8030)
  else (s.setSticky fltSticky 11).raise 0x66 1 0x000B

/-- A read of the word at an address of the Cairn window (R411). -/
def State.cairnWord (s : State) (a : Nat) : RRes := .val (s.blockSeen ((a - cairnBase) / 64)) (s.loadWord a)

/-- Bytes 0x00 to 0x7B of a record with its CRC (R406). -/
def recordBytes (seq kind clsByte src cause boot time : Nat) (tick : DWord) (detail : List Byte) (rep : Nat) : List Byte :=
  let body := leBytes 8 seq ++ leBytes 1 kind ++ leBytes 1 clsByte ++ leBytes 2 src ++ leBytes 2 cause ++ leBytes 2 0 ++
    leBytes 4 boot ++ leBytes 4 (nsOf time) ++ leBytes 8 (secOf time) ++ leBytes 8 tick.toNat ++ bytesAt detail 0 64 ++
    leBytes 4 rep ++ leBytes 16 0
  body ++ leBytes 4 (crc32 body)

/-- The record that a slot of MRAM holds, if its CRC is valid (R407). -/
def State.slotSeq (s : State) (o : Nat) : Option (Nat × Nat) :=
  let bs := s.bytes (mramAddr o) 128
  if leNat (bytesAt bs 0x7C 4) = crc32 (bs.take 0x7C) then some (leNat (bytesAt bs 0 8), leNat (bytesAt bs 8 1)) else none

/-- The first permanent slot without a valid record (R405, R407). -/
def State.firstFree (s : State) : Nat :=
  match findFrom (fun i => (s.slotSeq (0x40000 + 128 * i)).isNone) 256 0 with
  | some i => i
  | none => 256

/-- Write a record: an F3 or F4 one to the next free permanent slot while one remains and always to the recent grave ring, any
other to the event ring (R405). -/
def State.writeRecord (s : State) (grave tallyGrave : Bool) (bytes : List Byte) : State :=
  let perm := s.firstFree
  let rec' := s.fld (fltReg 0x8018) 0 8
  let ring := s.fld (fltReg 0x8010) 0 15
  let s1 := if grave && decide (perm < 256) then
      (s.mramPut (0x40000 + 128 * perm) bytes).setReg (fltReg 0x8014) (word (s.fld (fltReg 0x8014) 0 9 + 1)) else s
  let s2 := if grave || tallyGrave then
      (s1.mramPut (0x48000 + 128 * rec') bytes).setReg (fltReg 0x8018) (word ((rec' + 1) % 256)) else s1
  let s3 := if grave then s2
    else (s2.mramPut (0x60000 + 128 * ring) bytes).setReg (fltReg 0x8010) (word ((ring + 1) % 29696))
  (s3.setReg64 (fltReg 0x8008) (s.reg64 (fltReg 0x8008) + 1)).bump (fltReg 0x3038)

/-- DETAIL of an event whose source's status words no chapter names: 64 free bytes (R406, log entry 186). -/
def freeDetail (c : Nat) : List Byte := (List.range 64).map (fun i => freeValue 8 (c + i))

/-- Has an event a DETAIL that the rules give (R406)? -/
def givenDetail (e : Event) : Bool := e.kind != 1 || !e.detail.isEmpty

/-- The record of an event (R406). -/
def State.eventRecord (s : State) (e : Event) : List Byte :=
  recordBytes (s.reg64 (fltReg 0x8008) + 1) e.kind (e.cls + bit01 e.inj * 8 + bit01 e.broken * 16) e.src e.cause
    (s.reg (fltReg 0x801C)).toNat e.time e.tick (if givenDetail e then e.detail else freeDetail s.freeCtr) 1

/-- May the Cairn controller write records (R407, R408)? -/
def State.cairnWrites (s : State) : Bool := s.bit (fltReg 0x8000) 0 && !s.flt.powerFail

/-- CAIRN_RECORD_WRITE (R399, R405, R406): the oldest event of the queue is written. -/
def State.cairnRecordWrite (s : State) : State :=
  match s.flt.queue with
  | [] => s
  | e :: rest =>
    if s.cairnWrites then
      ({ s with
        flt := { s.flt with queue := rest, seqOf := Tab.set (fun _ => 0) s.flt.seqOf e.src (s.reg64 (fltReg 0x8008) + 1) },
        freeCtr := if givenDetail e then s.freeCtr else s.freeCtr + 64 }).writeRecord (decide (3 ≤ e.cls)) false (s.eventRecord e)
    else s

/-- Events counted in a source's tally. -/
def State.tallySum (s : State) (src : Nat) : Nat :=
  (List.range 5).foldl (fun n c => n + (s.reg (tallyAddr src + 4 * c)).toNat) 0

/-- DETAIL of a tally record (R406). -/
def State.tallyDetail (s : State) (src : Nat) : List Byte :=
  let t := s.tallyOf src
  ((List.range 5).flatMap (fun c => leBytes 4 (s.reg (tallyAddr src + 4 * c)).toNat)) ++
    leBytes 4 (nsOf t.firstTime) ++ leBytes 8 (secOf t.firstTime) ++ leBytes 4 (nsOf t.lastTime) ++ leBytes 8 (secOf t.lastTime) ++
    leBytes 2 t.firstCause ++ leBytes 2 t.lastCause ++ leBytes 1 (s.reg (tallyAddr src + 0x14)).toNat

/-- TALLY_RECORD_WRITE (R402): a non-zero tally is written, at most once per second for each source and when fewer than
1,024 entries stand in the queue, and then cleared. CLASS, CAUSE and REPEAT of a tally record are not stated: they are free
(log entry 25). -/
def State.tallyRecordWrite (s : State) (src : Nat) : State :=
  let t := s.tallyOf src
  let due := match t.written with
    | some c => decide (c + 1000 * cycMs ≤ s.cyc)
    | none => true
  if s.tallyAny src && due && decide (s.flt.queue.length < 1024) && s.cairnWrites then
    let bytes := recordBytes (s.reg64 (fltReg 0x8008) + 1) 2 (freeBetween 0 4 s.freeCtr) src (freeValue 16 s.freeCtr).toNat
      (s.reg (fltReg 0x801C)).toNat s.time (dword (s.reg64 (tickBase + 0x10))) (s.tallyDetail src) (freeValue 32 s.freeCtr).toNat
    let grave := s.reg (tallyAddr src + 12) != 0 || s.reg (tallyAddr src + 16) != 0
    let s1 := (s.writeRecord false grave bytes).free
    let s2 := (List.range 6).foldl (fun st c => st.setReg (tallyAddr src + 4 * c) 0) s1
    { s2 with flt := { s2.flt with tally := Tab.set (fun _ => ⟨0, 0, 0, 0, none⟩) s2.flt.tally src ⟨0, 0, 0, 0, some s2.cyc⟩ } }
  else s

/-- The slots of a region that hold anything: their numbers, each once. A slot of zeros holds no record (log entry 26). -/
def State.usedSlots (s : State) (base n : Nat) : List Nat :=
  s.mem.foldl (fun l c =>
    if mramAddr base ≤ c.1 ∧ c.1 < mramAddr (base + 128 * n) then
      let i := (c.1 - mramAddr base) / 128
      if l.head? = some i then l else i :: l
    else l) []

/-- The slot with the highest valid SEQ of a region: (slot, SEQ, TYPE). -/
def State.newestIn (s : State) (base n : Nat) : Option (Nat × Nat × Nat) :=
  (s.usedSlots base n).foldl (fun best i =>
    match s.slotSeq (base + 128 * i), best with
    | some (q, k), some (_, q', _) => if q' < q then some (i, q, k) else best
    | some (q, k), none => some (i, q, k)
    | none, _ => best) none

/-- Did some used slot of a region fail its CRC (R407)? -/
def State.tornIn (s : State) (base n : Nat) : Bool := (s.usedSlots base n).any (fun i => (s.slotSeq (base + 128 * i)).isNone)

/-- How many permanent slots hold a valid record (PERM_USED). -/
def State.permUsed (s : State) : Nat := ((s.usedSlots 0x40000 256).filter (fun i => (s.slotSeq (0x40000 + 128 * i)).isSome)).length

/-- SEQ and TYPE of the newest record of a region; zero where it has none. -/
def newestSeq (x : Option (Nat × Nat × Nat)) : Nat :=
  match x with
  | some (_, q, _) => q
  | none => 0

def newestKind (x : Option (Nat × Nat × Nat)) : Nat :=
  match x with
  | some (_, _, k) => k
  | none => 0

/-- The slot after the newest record of a ring of `n` slots. -/
def nextSlot (x : Option (Nat × Nat × Nat)) (n : Nat) : Nat :=
  match x with
  | some (i, _, _) => (i + 1) % n
  | none => 0

/-- The TYPE of the newest of three regions' newest records. -/
def newestOf (p g r : Option (Nat × Nat × Nat)) : Nat :=
  if newestSeq p ≤ newestSeq r ∧ newestSeq g ≤ newestSeq r then newestKind r
  else if newestSeq p ≤ newestSeq g then newestKind g else newestKind p

/-- A copy of the directory (R405): its format, BOOT and a CRC. No rule gives the places or the number of the format (log entry 63). -/
def directoryBytes (boot c : Nat) : List Byte :=
  let body := leBytes 4 (freeValue 32 c).toNat ++ leBytes 4 boot
  body ++ leBytes 4 (crc32 body)

/-- BOOT is counted, and the older copy of the directory rewritten. -/
def State.bootCounted (s : State) : State :=
  let boot := (s.flt.boot + 1) % 2 ^ 32
  let s1 := (s.setReg (fltReg 0x801C) (word boot)).mramPut (0x8000 * (boot % 2)) (directoryBytes boot s.freeCtr)
  ({ s1 with flt := { s1.flt with boot := boot } }).free

/-- The scan's registers: the last SEQ, the next slots and BOOT. -/
def State.scanRegs (s : State) (last ring perm rec' : Nat) : State :=
  let s1 := (s.setReg64 (fltReg 0x8008) last).setReg (fltReg 0x8010) (word ring)
  ((s1.setReg (fltReg 0x8014) (word perm)).setReg (fltReg 0x8018) (word rec')).bootCounted

/-- The blocks with bit errors that a scan reads (R409). -/
def State.scanBlocks (s : State) : State := (Tab.keys s.flt.mramBad).foldl (fun (st : State) b => st.blockSeen b) s

/-- CAIRN_SCAN_COMPLETE (R407, R408): the last SEQ, the next slots, BOOT, TORN, POWER_FAIL_SEEN and CAIRN_READY. -/
def State.cairnScan (s : State) : State :=
  if s.bit (fltReg 0x8000) 0 then s
  else
    let p := s.newestIn 0x40000 256
    let g := s.newestIn 0x48000 256
    let r := s.newestIn 0x60000 29696
    let s2 := s.scanBlocks.scanRegs (max (newestSeq p) (max (newestSeq g) (newestSeq r))) (nextSlot r 29696) s.permUsed (nextSlot g 256)
    let s3 := if s.tornIn 0x40000 256 || s.tornIn 0x48000 256 || s.tornIn 0x60000 29696 then s2.setSticky fltSticky 13 else s2
    let s4 := if newestOf p g r = 4 then s3.setSticky fltSticky 12 else s3
    s4.setBit (fltReg 0x8000) 0 true

/-- Events detected that no record holds yet, tallies apart: those that wait at the collector, at the PEC, on the event bus and in the queue (R403). -/
def State.waitingEvents (s : State) : Nat :=
  s.flt.queue.length + s.flt.bus.length + s.flt.held.length + s.flt.detected.length

/-- POWER_FAIL_THRESHOLD (R408): no new record starts, and one POWER_FAIL record is written. Its SOURCE is taken to be the controller's; its
CLASS, CAUSE and REPEAT are not stated and are free (log entry 25). Before CAIRN_READY it is written where the scan would have it continue
(log entry 187). -/
def State.powerFail (s : State) : State :=
  if s.flt.powerFail then s
  else
    let s0 := if s.bit (fltReg 0x8000) 0 then s else s.cairnScan
    let inTallies := (List.range 128).foldl (fun n src => n + s0.tallySum src) 0
    let bytes := recordBytes (s0.reg64 (fltReg 0x8008) + 1) 4 (freeBetween 0 4 s0.freeCtr) 0x66 (freeValue 16 s0.freeCtr).toNat
      (s0.reg (fltReg 0x801C)).toNat s0.time (dword (s0.reg64 (tickBase + 0x10)))
      (leBytes 4 s0.waitingEvents ++ leBytes 4 inTallies) (freeValue 32 s0.freeCtr).toNat
    let s1 := (s0.writeRecord false false bytes).free
    { s1 with flt := { s1.flt with powerFail := true } }

/-- A write of SCRUB_CMD (R410). -/
def State.scrubWrite (s : State) (d : Word) : WRes :=
  if s.bit (fltReg 0x8000) 1 then .err s
  else
    let s1 := s.setReg (fltReg 0x8020) (word (fieldOf d 0 16))
    .done (if bitOf d 31 then ({ s1 with flt := { s1.flt with scrub := some (fieldOf d 0 16) } }).setBit (fltReg 0x8000) 1 true else s1)

/-- Block b cannot be corrected: it returns its raw bits, which are free, sets CAIRN_UE and raises an F1 (R409). -/
def State.blockLost (s : State) (b : Nat) : State :=
  let raw := freeDetail s.freeCtr
  ((({ s with freeCtr := s.freeCtr + 64 }).store (mramAddr (64 * b)) raw).setBlockErrors b 5).blockSeen b

/-- SCRUB_COMPLETE (R409, R410): the block is rewritten with its content unchanged and fresh check bits; up to 4 bit errors are corrected and
counted. -/
def State.scrubEnd (s : State) (bitErrors : Nat) : State :=
  if s.bit (fltReg 0x8000) 1 then
    let b := s.flt.scrub.getD 0
    let s1 := (({ s with flt := { s.flt with scrub := none } }).setBit (fltReg 0x8000) 1 false).bump (fltReg 0x8028)
    if 4 < bitErrors then s1.blockLost b
    else ((s1.setBlockErrors b bitErrors).blockSeen b).setBlockErrors b 0
  else s

/-! ## Posts (R412) -/

/-- Is a post still in progress: has its event not yet entered the queue? -/
def State.postBusy (s : State) : Bool := s.flt.bus.any (fun e => e.src == 0x6C && e.kind == 5) || s.flt.detected.any (fun e => e.src == 0x6C && e.kind == 5)

/-- POST_DATA as bytes. -/
def State.postData (s : State) : List Byte := (List.range 16).flatMap (fun i => leBytes 4 (s.reg (fltReg (0xC0 + 4 * i))).toNat)

/-- A post of source 0x6C with a class, CAUSE and 64 bytes of DETAIL (R412, R413). An F2 or above also means trouble for a
trial (R432). -/
def State.postEvent (s : State) (cls cause : Nat) (detail : List Byte) : State :=
  let e := { s.newEvent 0x6C cls cause 0 detail with kind := 5 }
  let s1 := if cls ≤ 1 then s.onBus e else s.detect e
  if 2 ≤ cls then { s1 with mgt := { s1.mgt with troubled := true } } else s1

/-- The DETAIL that the MCP composes for a post (R413). -/
def postDetail (topic kind unit result : Nat) : List Byte := leBytes 1 topic ++ leBytes 1 kind ++ leBytes 2 unit ++ leBytes 4 result

/-- A write of POST_CTL (R412). -/
def State.postWrite (s : State) (d : Word) : WRes :=
  if s.postBusy ∨ 4 < fieldOf d 0 3 then .err s
  else
    let s1 := plainWord s (fltReg 0x90) (bits 2 0 + bits 31 16) 0 d
    .done (if bitOf d 8 then s1.postEvent (fieldOf d 0 3) (fieldOf d 16 16) s1.postData else s1)

/-! ## Injection (R397) -/

/-- Does the MCP run: it is out of reset and not halted? -/
def State.mcpRuns (s : State) : Bool := !s.mgt.mcpHalted && s.mgt.phase != .held && s.mgt.phase != .unpowered

/-- Is the device powered and out of reset? -/
def State.awake (s : State) : Bool := s.mgt.phase != .unpowered && !s.mgt.porstLow

/-- Does the life-cycle state accept an injection of a mode and class (R397, R435; log entry 27)? -/
def State.injAccepted (s : State) (mode cls : Nat) : Bool :=
  if s.mgt.fuses.lcState = 2 then mode == 1 && cls == 2
  else s.mgt.fuses.lcState != 4

/-- A write of INJ_CTL (R397). -/
def State.injWrite (s : State) (d : Word) : WRes :=
  let src := fieldOf d 0 7
  let cls := fieldOf d 8 3
  let mode := fieldOf d 12 2
  if s.flt.injection.isSome ∨ cls < 2 ∨ 4 < cls ∨ canRaise src cls = false then .err s
  else if bitOf d 30 && !s.injAccepted mode cls then .err s
  else
    let s1 := plainWord s (fltReg 0x70) (bits 6 0 + bits 10 8 + bits 13 12) 0 d
    if bitOf d 30 then
      let i : Injection := ⟨src, cls, mode, s1.cyc, s1.cyc + s1.fld (fltReg 0x74) 0 20 * cycUs, false, false, false⟩
      .done (({ s1 with flt := { s1.flt with injection := some i } }).setBit (fltReg 0x78) 0 true)
    else .done s1

/-- INJ_END (R397, R398): the injection's time is over, and the line shows the source's real state. -/
def State.injEnd (s : State) : State :=
  match s.flt.injection with
  | some i =>
    if i.ends ≤ s.cyc then ({ s with flt := { s.flt with injection := none } }).setBit (fltReg 0x78) 0 false else s
  | none => s

/-! ## The register window of FLT -/

/-- Does FLT take a write at this offset from this master (R382)? -/
def fltMayWrite (w : Who) (o : Nat) : Bool :=
  isMcp w || (isHost w && (o == 0x04 || o == 0x10 || o == 0x30 || o == 0x5C || o == 0x78 || o == 0x2800 ||
    (decide (0x110 ≤ o) && decide (o < 0x120))))

/-- Is a value inside the range that the register table states for an offset? -/
def fltInRange (o : Nat) (d : Word) : Bool :=
  if o = 0x08 then
    decide (1 ≤ fieldOf d 0 3) && decide (fieldOf d 0 3 ≤ 4) && decide (1 ≤ fieldOf d 8 8) && decide (1 ≤ fieldOf d 16 16)
  else if o = 0x54 ∨ o = 0x64 then decide (1 ≤ fieldOf d 0 10) && decide (fieldOf d 0 10 ≤ 1000)
  else if o = 0x58 then decide (1 ≤ fieldOf d 16 16)
  else if o = 0x60 then decide (fieldOf d 0 10 ≤ 1000)
  else if o = 0x74 then decide (1 ≤ fieldOf d 0 20) && decide (fieldOf d 0 20 ≤ 1000000)
  else if 0x1000 ≤ o ∧ o < 0x1100 then (List.range 16).all (fun j => fieldOf d (2 * j) 2 != 3)
  else true

/-- A write at offset `o` of FLT; F3_CLR stands in Machine/Reaction.lean. -/
def fltWrite (s : State) (w : Who) (o : Nat) (d : Word) : WRes :=
  if !fltMayWrite w o then .err s
  else if !fltInRange o d then .err s
  else if o = 0x50 then .done (s.heartbeat (fieldOf d 0 8))
  else if o = 0x58 then
    let s1 := plainWord s (fltReg 0x58) (1 + bits 31 16) 0 d
    .done (if bitOf d 0 && !s.bit (fltReg 0x58) 0 then { s1 with flt := { s1.flt with kickAt := s1.cyc } } else s1)
  else if o = 0x5C then .done (if bitOf d 0 then s.wdogKick else s)
  else if o = 0x70 then s.injWrite d
  else if o = 0x90 then s.postWrite d
  else if o = 0x2800 then s.outRelWrite d
  else if o = 0x8020 then s.scrubWrite d
  else .plain

/-- STATUS of FLT. -/
def State.fltStatus (s : State) : Nat :=
  bit01 s.flt.f3 + bit01 s.flt.f4 * 2 + bit01 s.aliveOk * 4 + bit01 s.hbOk * 8 + bit01 s.flt.nsafe * 16 +
    bit01 s.flt.wdogExpired * 32 + bit01 s.flt.injection.isSome * 64 + bit01 (s.bit (fltReg 0x8000) 0) * 128 + bit01 s.ticksOk * 256

/-- Word w of SRC_LIVE or SRC_BROKEN; `line` says of which lines. -/
def srcWord (line : Nat → Nat → Bool) (w : Nat) : Nat :=
  (List.range 32).foldl (fun n b => n + bit01 ((List.range 5).any (fun c => line (32 * w + b) c)) * 2 ^ b) 0

/-- A read at offset `o` of FLT. -/
def fltRead (s : State) (o : Nat) : RRes :=
  if o = 0x00 then .val s (word s.fltStatus)
  else if o = 0x80 then .val s (word (s.flt.queue.length + s.fld (fltReg 0x80) 16 13 * 2 ^ 16))
  else if 0x100 ≤ o ∧ o < 0x110 then .val s (word (srcWord s.lineLive ((o - 0x100) / 4)))
  else if 0x120 ≤ o ∧ o < 0x130 then .val s (word (srcWord s.lineBroken ((o - 0x120) / 4)))
  else .plain

end Sys2Proof.Machine
end

