-- ==== Sys2Proof/Machine/Mgt.lean ====
section
/-!
DEFINITION. Management (chapter 16) as far as it stands alone: the fused registers, the sensors and their events, the two-wire
bus, tamper, the life cycle and the key slots, and the trial of a bundle. Start-up, Bivouac and resets stand in
Machine/Startup.lean.
-/
namespace Sys2Proof.Machine

/-- Registers of MGT and SYS by their offset. -/
def mgtReg (o : Nat) : Nat := mgtBase + o
def sysReg (o : Nat) : Nat := sysBase + o

/-! ## Fuses (R435) -/

/-- Does the life-cycle state accept key slot k (R435)? -/
def lcAccepts (lc k : Nat) : Bool :=
  if lc = 0 then k == 0
  else if lc = 1 then decide (k ≤ 3)
  else if lc = 2 then decide (k ≤ 2)
  else if lc = 3 then k == 0 || k == 3
  else false

/-- Is key slot k accepted: present, not revoked, and accepted by the state? -/
def fusesAccept (f : Fuses) (k : Nat) : Bool :=
  f.keyPresent.testBit k && !f.keyRevoked.testBit k && lcAccepts f.lcState k

/-- KEYSLOT. -/
def fusesKeyslot (f : Fuses) : Nat :=
  f.keyPresent % 16 + f.keyRevoked % 16 * 16 +
    ((List.range 4).foldl (fun n k => n + bit01 (fusesAccept f k) * 2 ^ k) 0) * 256

/-- Does the life-cycle state open the MCP console on the UART (R435)? -/
def lcConsole (lc : Nat) : Bool := lc == 0 || lc == 1 || lc == 3

/-- Does the life-cycle state run images (R435)? -/
def lcRuns (lc : Nat) : Bool := lc == 1 || lc == 2 || lc == 3

/-- The digest of the public key of slot k. -/
def fusesDigest (f : Fuses) (k : Nat) : BitVec 384 := (f.keyDigests[k]?).getD 0

/-! ## The counters region of MRAM (R441) -/

/-- Copy i of the counter of `n` bytes at offset `o` of the counters region. -/
def State.counterCopy (s : State) (o n i : Nat) : Nat := leNat (s.bytes (mramAddr (0x10000 + 0x4000 * i + o)) n)

/-- Do no two of the three copies agree? -/
def State.counterSplit (s : State) (o n : Nat) : Bool :=
  s.counterCopy o n 0 != s.counterCopy o n 1 && s.counterCopy o n 0 != s.counterCopy o n 2 && s.counterCopy o n 1 != s.counterCopy o n 2

/-- The value of a counter: the one that two copies agree on, else the highest. -/
def State.counterVal (s : State) (o n : Nat) : Nat :=
  let a := s.counterCopy o n 0
  let b := s.counterCopy o n 1
  let c := s.counterCopy o n 2
  if a = b then a else if a = c then a else if b = c then b else max a (max b c)

/-- The three copies of a counter are written, one after the other. -/
def State.mramThree (s : State) (o : Nat) (bs : List Byte) : State :=
  ((s.mramPut (0x10000 + o) bs).mramPut (0x14000 + o) bs).mramPut (0x18000 + o) bs

/-- The MCP reads a counter: where no two copies agree it rewrites them with the highest and posts an F1, whose topic no rule states (log entry
189). -/
def State.counterMend (s : State) (o n : Nat) : State :=
  if s.counterSplit o n then
    ((s.mramThree o (leBytes n (s.counterVal o n))).postEvent 1 0 (postDetail (freeBetween 1 9 s.freeCtr) 0 0 1)).free
  else s

/-- A counter becomes `v`. -/
def State.counterPut (s : State) (o n v : Nat) : State := (s.counterMend o n).mramThree o (leBytes n (v % 2 ^ (8 * n)))

/-- POWER_ON_HOURS. -/
def State.powerOnHours (s : State) : Nat := s.counterVal 0x100 8

/-- ANTI_RB[k] (R433). -/
def State.antiRb (s : State) (k : Nat) : Nat := s.counterVal (4 * k) 4

/-! ## The checks of a bundle (R431) -/

/-- The first check of R431 that a bundle fails, by its place in the rule: 1 signature, 2 key slot, 3 SEC_VERSION, 4 silicon revision and part, 5
digests; 0 for none (the numbers are the model's: log entry 190). -/
def State.bundleCheck (s : State) (b : BundleFacts) : Nat :=
  let f := s.mgt.fuses
  if b.items.isEmpty || !b.items.all (fun i => i.signed && i.keyDigest == fusesDigest f i.slot) then 1
  else if !b.items.all (fun i => fusesAccept f i.slot) then 2
  else if !b.items.all (fun i => decide (s.antiRb i.slot ≤ i.version)) then 3
  else if b.rev ≠ 0xB0 ∨ b.part ≠ 0x2560 then 4
  else if !b.items.all (fun i => i.digestOk) then 5
  else 0

/-- The highest SEC_VERSION among a bundle's items of key slot k (R433). -/
def versionOf (b : BundleFacts) (k : Nat) : Nat := ((b.items.filter (fun i => i.slot == k)).map BundleItem.version).foldl max 0

/-! ## The boot header (R430) -/

/-- A copy of the boot header; the widths of its fields but SEQ and their places are presumed (log entry 191). -/
def headerBytes (h : BootHeader) : List Byte :=
  let trial := match h.trial with
    | none => 0xFF
    | some b => bit01 b
  let body := leBytes 4 0x4E4D4248 ++ leBytes 4 h.seq ++ leBytes 1 (bit01 h.active) ++ leBytes 1 trial ++ leBytes 1 h.tries
  body ++ leBytes 4 (crc32 body)

/-- What a copy of the boot header says, if it is valid. -/
def headerOf (bs : List Byte) : Option BootHeader :=
  if leNat (bs.take 4) = 0x4E4D4248 ∧ leNat (bytesAt bs 11 4) = crc32 (bs.take 11) then
    let t := leNat (bytesAt bs 9 1)
    some ⟨leNat (bytesAt bs 4 4), leNat (bytesAt bs 8 1) == 1, if t = 0xFF then none else some (t == 1), leNat (bytesAt bs 10 1)⟩
  else none

/-- Copy i of the boot header in the flash. -/
def State.headerCopy (s : State) (i : Nat) : Option BootHeader := headerOf (Tab.get (fun _ => []) s.mgt.bootCopies i)

/-- The copy that counts: the valid one with the higher SEQ. -/
def State.headerCounts (s : State) : Nat :=
  match s.headerCopy 0, s.headerCopy 1 with
  | some a, some b => bit01 (decide (a.seq < b.seq))
  | none, some _ => 1
  | _, none => 0

/-- The header that counts is read; with no valid copy slot A is active (log entry 191). -/
def State.readHeader (s : State) : State :=
  { s with mgt := { s.mgt with header := (s.headerCopy s.headerCounts).getD ⟨0, false, none, 0⟩ } }

/-- The MCP writes the other copy, with the next SEQ. -/
def State.writeHeader (s : State) (active : Bool) (trial : Option Bool) (tries : Nat) : State :=
  let h : BootHeader := ⟨(s.mgt.header.seq + 1) % 2 ^ 32, active, trial, tries⟩
  let i := if (s.headerCopy s.headerCounts).isSome then 1 - s.headerCounts else 0
  { s with mgt := { s.mgt with header := h, bootCopies := Tab.set (fun _ => []) s.mgt.bootCopies i (headerBytes h) } }

/-! ## Sensors (R417, R418) -/

/-- The operating range in mV of the supply that voltage monitor i watches (R417, R464): lowest and highest. A bank supply may be
at 1.8 V or at 3.3 V. -/
def vmonInRange (i mv : Nat) : Bool :=
  if i ≤ 15 then (decide (1710 ≤ mv) && decide (mv ≤ 1890)) || (decide (3135 ≤ mv) && decide (mv ≤ 3465))
  else if i ≤ 17 then decide (720 ≤ mv) && decide (mv ≤ 780)
  else if i = 18 then decide (820 ≤ mv) && decide (mv ≤ 880)
  else if i = 19 then decide (870 ≤ mv) && decide (mv ≤ 930)
  else if i = 20 then decide (1160 ≤ mv) && decide (mv ≤ 1240)
  else if i = 21 then decide (1710 ≤ mv) && decide (mv ≤ 1890)
  else decide (1620 ≤ mv) && decide (mv ≤ 1980)

/-- Is VDD_CORE or VDD_SRAM below its brown-out level (R418, R464)? -/
def vmonBrownOut (i mv : Nat) : Bool :=
  (decide (16 ≤ i) && decide (i ≤ 17) && decide (mv < 680)) || (i == 18 && decide (mv < 780))

/-- Note a sensor condition: an event of source 0x67 when it newly holds (R418). `key` numbers the condition. -/
def State.sensorCond (s : State) (key cls cause : Nat) (holds : Bool) : State :=
  let was := Tab.get (fun _ => 0) s.mgt.sensorSeen key
  let s1 := { s with mgt := { s.mgt with sensorSeen := Tab.set (fun _ => 0) s.mgt.sensorSeen key (bit01 holds) } }
  if holds && was == 0 then s1.raise 0x67 cls cause else s1

/-- The MCP posts a sensor condition that newly holds: a warning, or above the high limit (R416). -/
def State.sensorPost (s : State) (key cls unit : Nat) (holds : Bool) : State :=
  if holds && Tab.get (fun _ => 0) s.mgt.sensorSeen key == 0 && s.mcpRuns then s.postEvent cls 0 (postDetail 6 0 unit 1) else s

/-- One temperature reading: [15:0] signed in 0.125 °C (R417, R418). -/
def State.tempReading (s : State) (i : Nat) (d : Word) : State :=
  let t := signed (fieldOf d 0 16) 16
  let above := fun (o : Nat) => decide (signed (s.fld (mgtReg o) 0 16) 16 < t)
  let s1 := s.setReg (mgtReg (0x400 + 4 * i)) (word (fieldOf d 0 16 + 2 ^ 16))
  let s2 := (s1.sensorPost (8 * i) 0 i (above 0x480)).sensorCond (8 * i) 0 (i * 256 + 1) (above 0x480)
  let s3 := (s2.sensorPost (8 * i + 1) 1 i (above 0x484)).sensorCond (8 * i + 1) 1 (i * 256 + 2) (above 0x484)
  s3.sensorCond (8 * i + 2) 3 (i * 256 + 3) (above 0x488)

/-- One voltage reading in mV. -/
def State.voltReading (s : State) (i : Nat) (d : Word) : State :=
  let mv := fieldOf d 0 12
  let s1 := s.setReg (mgtReg (0x500 + 4 * i)) (word (mv + 2 ^ 16))
  let s2 := (s1.sensorPost (1024 + 8 * i) 0 i (!vmonInRange i mv)).sensorCond (1024 + 8 * i) 1 (i * 256 + 4) (!vmonInRange i mv)
  s2.sensorCond (1024 + 8 * i + 1) 3 (i * 256 + 5) (vmonBrownOut i mv)

/-- Apply `f` to the elements of a list of readings with their numbers below `n`. -/
def readings {α : Type} (f : State → Nat → α → State) (n : Nat) : Nat → List α → State → State
  | _, [], s => s
  | i, d :: ds, s => if i < n then readings f n (i + 1) ds (f s i d) else s

/-- STRENGTH of the driver of pin i % 4 of channel i / 4. -/
def State.legReading (s : State) (i : Nat) (d : Byte) : State := s.setFld (pchBase + 0x4000 * (i / 4) + 0x1220 + 4 * (i % 4)) 0 8 d.toNat

/-- SENSOR_SAMPLE (R417), once in a millisecond: every sensor is sampled. -/
def State.sensorSample (s : State) (temps volts : List Word) (slow : SlowReadings) : State :=
  if s.mgt.sensorAt = s.cyc / cycMs + 1 then s
  else
  let s1 := readings State.tempReading 32 0 temps { s with mgt := { s.mgt with sensorAt := s.cyc / cycMs + 1 } }
  let s2 := readings State.voltReading 24 0 volts s1
  let s3 := readings (fun st i d => st.setReg (mgtReg (0x600 + 4 * i)) (word (fieldOf d 0 24))) 48 0 slow.ages s2
  readings State.legReading 1024 0 slow.legs s3

/-- The slowing of ageing monitor i in ppm: (AGE_REF − AGE) / AGE_REF (R417). -/
def State.slowingPpm (s : State) (i : Nat) : Int :=
  let r : Int := ((s.mgt.fuses.ageRef[i]?).getD 0).toNat
  (r - (s.fld (mgtReg (0x600 + 4 * i)) 0 24 : Int)) * 1000000 / r

/-! ## The two-wire management bus (R420) -/

/-- A write of TWB_CMD. -/
def State.twbWrite (s : State) (d : Word) : WRes :=
  if s.bit (mgtReg 0x804) 31 then .err s
  else if fieldOf d 16 4 < 1 ∨ 8 < fieldOf d 16 4 then .err s
  else
    let go := bitOf d 30 && s.bit (mgtReg 0x800) 0
    .done (s.setReg (mgtReg 0x804) (word (fieldOf d 0 22 + bit01 go * 2 ^ 31)))

/-- Fields of TWB_CMD: a read, and the packet error code. -/
def State.twbRead (s : State) : Bool := s.bit (mgtReg 0x804) 7
def State.twbPec (s : State) : Bool := s.bit (mgtReg 0x804) 21

/-- The bytes that the device drives before any packet error code of its own: the addresses, the command byte, and the data of a write. -/
def State.twbHead (s : State) : List Byte :=
  let a := s.fld (mgtReg 0x804) 0 7
  let reg := leBytes 1 (s.fld (mgtReg 0x804) 8 8)
  let bare := s.bit (mgtReg 0x804) 20
  if s.twbRead then (if bare then [] else leBytes 1 (2 * a) ++ reg) ++ leBytes 1 (2 * a + 1)
  else leBytes 1 (2 * a) ++ (if bare then [] else reg) ++ (leBytes 8 (s.reg64 (mgtReg 0x810))).take (s.fld (mgtReg 0x804) 16 4)

/-- All bytes that the device drives in a transaction that runs to its end: a write with PEC adds the packet error code. -/
def State.twbDrives (s : State) : List Byte :=
  if s.twbPec && !s.twbRead then s.twbHead ++ leBytes 1 (crc8 s.twbHead) else s.twbHead

/-- The bytes of a read that have come in whole when a transaction ends after `k` bytes on the bus (none: at its end). -/
def State.twbIn (s : State) (o : TwbOutcome) : List Byte :=
  let all := o.data.take (s.fld (mgtReg 0x804) 16 4)
  match o.early with
  | some (_, k) => all.take (k - s.twbHead.length)
  | none => all

/-- Does a transaction end early as `o` says? A target refuses bytes that the device drives only. -/
def State.twbStops (s : State) (o : TwbOutcome) : Option TwbStop :=
  match o.early with
  | some (.nack, k) => if k < s.twbDrives.length then some .nack else none
  | some (e, _) => some e
  | none => none

/-- TWB_COMPLETE (R420): the bytes that were driven, the data of a read with byte 0 lowest (those past LEN keep their value), and the flags of the
outcome. A packet error code that is received is checked over every byte of the transaction. -/
def State.twbEnd (s : State) (o : TwbOutcome) : State :=
  if s.bit (mgtReg 0x804) 31 then
    let stop := s.twbStops o
    let o' := { o with early := if stop.isSome then o.early else none }
    let sent := match o'.early with
      | some (.nack, k) => s.twbDrives.take (k + 1)
      | some (_, k) => s.twbDrives.take k
      | none => s.twbDrives
    let s1 := if s.twbRead then s.setReg64 (mgtReg 0x810) (leNat (splice (leBytes 8 (s.reg64 (mgtReg 0x810))) 0 (s.twbIn o'))) else s
    let pecErr := s.twbRead && s.twbPec && stop.isNone && o.pec.toNat != crc8 (s.twbHead ++ s.twbIn o')
    let flags := 1 + bit01 (stop == some .nack) * 2 + bit01 (stop == some .arbLost) * 4 + bit01 (stop == some .stretchTo) * 8 + bit01 pecErr * 16
    let s2 := { s1 with mgt := { s1.mgt with twbOut := sent } }
    (s2.setReg (mgtReg 0x808) (s2.reg (mgtReg 0x808) ||| word flags)).setBit (mgtReg 0x804) 31 false
  else s

/-! ## Tamper (R437) and the life cycle (R436) -/

/-- Does a detector act: an input that is enabled, the voltage detector while PORST_N is high, and each while VDD_AON is present (R437)? -/
def State.tamperActs (s : State) (bit : Nat) : Bool :=
  s.mgt.phase != .unpowered && !(decide (bit < 4) && !s.bit (mgtReg 0x220) bit) && !(bit == 4 && s.mgt.porstLow)

/-- The tamper post of R437, once the MCP runs. Its class and RESULT are not stated: they are free (log entry 161). -/
def State.tamperPost (s : State) : State :=
  if s.mgt.tamperDue && s.mcpRuns then
    (({ s with mgt := { s.mgt with tamperDue := false } }).postEvent (freeBetween 0 4 s.freeCtr) 0
      (postDetail 0x05 0 0 (freeValue 32 s.freeCtr).toNat)).free
  else s

/-- TAMPER_TRIP: TAMPER_STAT, the wipe, F4 of source 0x68 and the post (R437). -/
def State.tamperTrip (s : State) (bit : Nat) : State :=
  if s.tamperActs bit then
    let s1 := (s.setBit (mgtReg 0x224) bit true).wipeStart
    let s2 := { s1 with flt := { s1.flt with f4 := true }, mgt := { s1.mgt with tamperDue := true } }
    (s2.raise 0x68 4 bit).tamperPost
  else s

/-- The life-cycle state as the fuses hold it, a state burnt since the last start among them (R436). -/
def State.lcBurnt (s : State) : Nat := s.mgt.lcNext.getD s.mgt.fuses.lcState

/-- A write of LC_CMD (R436): forward only, and to RETURN only with an authorisation of slot 0. -/
def State.lcWrite (s : State) (d : Word) (authorised : Bool) : WRes :=
  let t := fieldOf d 0 3
  if fieldOf d 16 16 = 0x4C43 ∧ s.lcBurnt < t ∧ t ≤ 4 ∧ (t = 3 → authorised = true) then
    let s1 := s.wipeStart
    let s2 := { s1 with mgt := { s1.mgt with lcNext := some t } }
    .done (s2.postEvent 0 0 (postDetail 0x04 0 0 0))
  else .err s

/-- A write of TAMPER_CFG (R437): ignored once LOCK is 1; LOCK takes a 1 only. -/
def State.tamperCfg (s : State) (d : Word) : State :=
  if s.bit (mgtReg 0x220) 31 then s
  else s.setReg (mgtReg 0x220) (word (fieldOf d 0 8 + bit01 (bitOf d 31) * 2 ^ 31))

/-! ## Trial and confirmation (R432, R433, R441) -/

/-- Raise ANTI_RB of each key slot to the highest SEC_VERSION of the confirmed bundle, where that is higher (R433). -/
def State.raiseAntiRb (s : State) (b : BundleFacts) : State :=
  (List.range 4).foldl (fun st k => if st.antiRb k < versionOf b k then st.counterPut (4 * k) 4 (versionOf b k) else st) s

/-- The trial is confirmed (R432): ACTIVE := TRIAL, TRIAL := 0xFF, ANTI_RB raised; UPDATE_CNT counts it (R441, log entry 192). -/
def State.confirmTrial (s : State) : State :=
  match s.mgt.header.trial with
  | some t =>
    if s.mgt.runSlot = some t then
      let s1 := (s.writeHeader t none 0).setBit (mgtReg 0x300) 4 false
      ((s1.raiseAntiRb s1.mgt.running).counterPut 0x300 4 (s1.counterVal 0x300 4 + 1)).postEvent 0 0 (postDetail 0x03 0 0 0)
    else s
  | none => s

/-- CONFIRM is acted on after the first tick (R432). -/
def State.confirm (s : State) : State := if s.count (tickBase + 0x30) = 0 then s else s.confirmTrial

/-- TRIAL_AUTO_CONFIRM (R432): AUTO_CONFIRM is set and 600 s have passed without an F2 post, an F3 or an F4. -/
def State.autoConfirm (s : State) : State :=
  if s.bit (mgtReg 0x14) 0 && !s.mgt.troubled && !s.flt.f3 && !s.flt.f4 && s.mgt.phase == .service &&
      decide (s.mgt.serviceAt + 600000 * cycMs ≤ s.cyc) then s.confirmTrial
  else s

/-- REVOKE (R435): the REVOKED fuse of a slot is written on a request signed with the key of another slot: slot 0 or
slot 1 (log entry 28). -/
def State.revokeKey (s : State) (slot signer : Nat) (ok : Bool) : State :=
  if ok && decide (slot < 4) && signer != slot && decide (signer ≤ 1) &&
      s.mgt.fuses.keyPresent.testBit signer && !s.mgt.fuses.keyRevoked.testBit signer && !s.mgt.fuses.keyRevoked.testBit slot then
    { s with mgt := { s.mgt with fuses := { s.mgt.fuses with keyRevoked := s.mgt.fuses.keyRevoked + 2 ^ slot } } }
  else s

/-! ## Reads -/

/-- A read at offset `o` of MGT. -/
def mgtRead (s : State) (o : Nat) : RRes :=
  if o = 0x200 then .val s (word s.mgt.fuses.lcState)
  else if o = 0x210 then .val s (word (fusesKeyslot s.mgt.fuses))
  else .plain

/-- A read at offset `o` of SYS. -/
def sysRead (s : State) (o : Nat) : RRes :=
  if o = 0x00 then .val s (word (0x2560B0 + bit01 s.mgt.fuses.marine * 2 ^ 24))
  else if o = 0x08 then .low s s.mgt.fuses.deviceId.toNat
  else if o = 0x0C then .high s s.mgt.fuses.deviceId.toNat
  else .plain

end Sys2Proof.Machine
end

