-- ==== Sys2Proof/Machine/Pec.lean ====
section
/-!
DEFINITION. Images, the image directory, the binding table, the tick-state areas and the choice of spares (chapter 04,
R103 to R116, R121 to R123). Running engines stand in Machine/Engine.lean, takeovers in Machine/Runtime.lean.
-/
namespace Sys2Proof.Machine

/-! ## Images (R104 to R106) -/

/-- The little-endian field of `n` bytes at offset `o` of the image at scratchpad address `a`. -/
def State.img (s : State) (a o n : Nat) : Nat := leNat (s.bytes (a + o) n)

/-- Fields of an image header by name (R105). -/
def State.imgCodeBase (s : State) (a : Nat) : Nat := s.img a 0x14 2
def State.imgBundles (s : State) (a : Nat) : Nat := s.img a 0x16 2
def State.imgEntry (s : State) (a : Nat) : Nat := s.img a 0x18 2
def State.imgRate (s : State) (a : Nat) : Nat := 2 ^ s.img a 0x1A 1
def State.imgPhase (s : State) (a : Nat) : Nat := s.img a 0x1C 2
def State.imgMode (s : State) (a : Nat) : Nat := s.img a 0x1E 1
def State.imgBudget (s : State) (a : Nat) : Nat := s.img a 0x20 4
def State.imgMinPeriod (s : State) (a : Nat) : Nat := s.img a 0x24 4
def State.imgLdmBase (s : State) (a : Nat) : Nat := s.img a 0x28 4
def State.imgLdmSize (s : State) (a : Nat) : Nat := s.img a 0x2C 4
def State.imgTsOffset (s : State) (a : Nat) : Nat := s.img a 0x30 4
def State.imgTsSize (s : State) (a : Nat) : Nat := s.img a 0x34 4
def State.imgTrapEn (s : State) (a : Nat) : Nat := s.img a 0x38 2
def State.imgFlags (s : State) (a : Nat) : Nat := s.img a 0x3A 2
def State.imgNres (s : State) (a : Nat) : Nat := s.img a 0x44 2

/-- The scratchpad address of the code of an image. -/
def State.imgCodeAt (s : State) (a : Nat) : Nat := a + 128 + 8 * s.imgNres a

/-- A resource descriptor: TYPE, FIRST, COUNT, and whether its reserved bytes are zero (R106). -/
def State.imgRes (s : State) (a j : Nat) : Nat × Nat × Nat × Bool :=
  let d := s.img a (128 + 8 * j) 8
  (bitsOf d 0 8, bitsOf d 16 16, bitsOf d 32 16, bitsOf d 8 8 == 0 && bitsOf d 48 16 == 0)

/-- The number past the last unit of a resource type; zero for a type that is rejected. -/
def resLimit (t : Nat) : Nat :=
  if t = 1 then 256 else if t = 2 then 32 else if t = 3 then 40 else if t = 4 then 0x10000 else 0

/-- Is a resource descriptor well formed (R106)? -/
def resOk (r : Nat × Nat × Nat × Bool) : Bool :=
  let (t, first, count, zeros) := r
  zeros && decide (1 ≤ count) && decide (first + count ≤ resLimit t)

/-- Does the header keep the ranges of R105? -/
def State.headerOk (s : State) (a : Nat) : Bool :=
  s.img a 0x00 4 == 0x4E4D5049 && s.img a 0x04 2 == 1 && s.img a 0x06 2 == 0x80 &&
  decide (s.imgCodeBase a ≤ 4095) && decide (1 ≤ s.imgBundles a) && decide (s.imgCodeBase a + s.imgBundles a ≤ 4096) &&
  decide (s.imgCodeBase a ≤ s.imgEntry a) && decide (s.imgEntry a < s.imgCodeBase a + s.imgBundles a) &&
  decide (s.img a 0x1A 1 ≤ 10) && s.img a 0x1B 1 == 0 && decide (s.imgPhase a < s.imgRate a) &&
  decide (s.imgMode a ≤ 1) && decide (s.img a 0x1F 1 < 16) &&
  decide (1 ≤ s.imgBudget a) && decide (s.imgBudget a ≤ 800000000) &&
  decide (10 ≤ s.imgMinPeriod a) && decide (s.imgMinPeriod a ≤ 1000000) &&
  s.imgLdmBase a % 64 == 0 && decide (s.imgLdmBase a + s.imgLdmSize a ≤ 0x20000) &&
  s.imgTsOffset a % 64 == 0 && s.imgTsSize a % 64 == 0 && decide (s.imgTsSize a ≤ 16384) &&
  decide (s.imgTrapEn a < 1024) && decide (s.imgFlags a < 4) && decide (s.imgNres a ≤ 64) &&
  decide (s.img a 0x46 1 ≤ 3) && s.img a 0x47 1 == 0 &&
  s.img a 0x10 4 == 128 + 8 * s.imgNres a + 16 * s.imgBundles a + 96

/-- The CODE_CRC of an image is that of its code bundles. -/
def State.codeCrcOk (s : State) (a : Nat) : Bool := s.img a 0x40 4 == crc32 (s.bytes (s.imgCodeAt a) (16 * s.imgBundles a))

/-- The check of R108 on directory entry i. -/
def State.imgCheck (s : State) (i : Nat) : Bool :=
  let a := s.fld (imgAddr i) 0 23
  let len := s.fld (imgAddr i + 4) 0 17
  a % 64 == 0 && decide (a + len ≤ 0x800000) && s.headerOk a &&
    (List.range (s.imgNres a)).all (fun j => resOk (s.imgRes a j)) && len == s.img a 0x10 4 && s.codeCrcOk a

/-! ## The image directory (R108) -/

/-- The status word of directory entry i. -/
def imgStat (i : Nat) : Nat := imgAddr i + 0x0C

/-- Is entry i VERIFIED? -/
def State.imgVerified (s : State) (i : Nat) : Bool := s.bit (imgStat i) 0

/-- Run-list position j of L: the directory index, where it is VALID (R109). -/
def State.runList (s : State) (l j : Nat) : Option Nat :=
  if s.bit (bindAddr l + 0x20 + 4 * j) 7 then some (s.fld (bindAddr l + 0x20 + 4 * j) 0 7) else none

/-- The directory indexes of L's run list in order. -/
def State.images (s : State) (l : Nat) : List Nat := (List.range 8).filterMap (fun j => s.runList l j)

/-- The scratchpad addresses of L's images in order. -/
def State.imageAddrs (s : State) (l : Nat) : List Nat := (s.images l).map (fun i => s.fld (imgAddr i) 0 23)

/-- Does the run list of a binding other than UNBOUND name entry i (R108)? -/
def State.imgNamed (s : State) (i : Nat) : Bool := (List.range 32).any (fun l => s.bindState l != 0 && (s.images l).contains i)

/-- Is the check of entry i running? -/
def State.imgChecking (s : State) (i : Nat) : Bool := Tab.get (fun _ => false) s.pec.checking i

/-- The check of entry i runs, or no longer. -/
def State.setChecking (s : State) (i : Nat) (b : Bool) : State :=
  { s with pec := { s.pec with checking := Tab.set (fun _ => false) s.pec.checking i b } }

/-- Entry i is VERIFIED no longer, and the copy of its code that a spare may hold is no preload of it any more (R108, R123). -/
def State.imgDrop (s : State) (i : Nat) : State := (s.setBit (imgStat i) 0 false).setBit (imgStat i) 14 false

/-- A write of VERIFIED (R108): 1 starts the check, 0 withdraws the entry or abandons its check. -/
def State.imgStatWrite (s : State) (i : Nat) (d : Word) : WRes :=
  if bitOf d 0 then
    .done (if s.imgVerified i || s.imgChecking i then s else ((s.imgDrop i).setBit (imgStat i) 1 false).setChecking i true)
  else if s.imgVerified i && s.imgNamed i then .err s
  else .done ((s.imgDrop i).setChecking i false)

/-- The check of entry i ends (R108). It judges ADDR, LEN and the bytes of the copy as they stand at its end, and finds no error of the memory
(log entry 171). -/
def State.imgCheckEnd (s : State) (i : Nat) : State :=
  if s.imgChecking i then
    let s1 := s.setChecking i false
    let a := s.fld (imgAddr i) 0 23
    if s.imgCheck i then
      ((s1.setBit (imgStat i) 0 true).setReg (imgAddr i + 8) (word (s.img a 8 4))).setFld (imgStat i) 16 4 (s.img a 0x1F 1)
    else s1.setBit (imgStat i) 1 true
  else s

/-- A write of ADDR or LEN of entry i (R108): an entry that a run list names keeps its place; otherwise a verified entry is
withdrawn and the value stored. -/
def State.imgPlaceWrite (s : State) (i o : Nat) (d : Word) : WRes :=
  if s.imgVerified i && s.imgNamed i then .err s
  else .done ((s.imgDrop i).setReg (imgAddr i + o) (d &&& word (if o = 0 then bits 22 0 else bits 16 0)))

/-- Verified entries whose copy covers a byte of the `n` bytes from scratchpad address `a`. -/
def State.copiesAt (s : State) (a n : Nat) : List Nat :=
  (List.range 128).filter (fun i =>
    s.imgVerified i && decide (s.fld (imgAddr i) 0 23 < a + n) && decide (a < s.fld (imgAddr i) 0 23 + s.fld (imgAddr i + 4) 0 17))

/-! ## The tick-state areas (R114, R115) -/

/-- TS_BASE × 32 KiB and TS_LINES of L. -/
def State.tsBase (s : State) (l : Nat) : Nat := s.fld (bindAddr l + 8) 0 8 * 0x8000
def State.tsLines (s : State) (l : Nat) : Nat := s.fld (bindAddr l + 8) 8 9

/-- The selector of line i of L: true names the upper copy. -/
def State.selector (s : State) (l i : Nat) : Bool := (Tab.get (fun _ => 0) s.pec.selectors l).testBit i

/-- Has the serving engine written line i of L in the tick? -/
def State.lineWritten (s : State) (l i : Nat) : Bool := (Tab.get (fun _ => 0) s.pec.written l).testBit i

/-- Every selector of L names the lower copy. -/
def State.resetSelectors (s : State) (l : Nat) : State :=
  { s with pec := { s.pec with selectors := Tab.set (fun _ => 0) s.pec.selectors l 0 } }

/-- No line of L has been written in the tick. -/
def State.clearWritten (s : State) (l : Nat) : State :=
  { s with pec := { s.pec with written := Tab.set (fun _ => 0) s.pec.written l 0 } }

/-- The commit flips the selector of every line written in the tick (R116). -/
def State.flipSelectors (s : State) (l : Nat) : State :=
  let sel := Tab.get (fun _ => 0) s.pec.selectors l ^^^ Tab.get (fun _ => 0) s.pec.written l
  ({ s with pec := { s.pec with selectors := Tab.set (fun _ => 0) s.pec.selectors l sel } }).clearWritten l

/-- The logical engine in whose nominal tick-state range scratchpad address `a` lies, by its lines. -/
def State.tsAreaOf (s : State) (a : Nat) : Option Nat :=
  findFrom (fun l => decide (s.tsBase l ≤ a) && decide (a < s.tsBase l + 64 * s.tsLines l)) 32 0

/-- Does `a` lie in the upper copy of a bound logical engine that has a tick-state area (R115)? -/
def State.tsUpper (s : State) (a : Nat) : Bool :=
  (List.range 32).any (fun l => s.bindState l != 0 && decide (0 < s.tsLines l) &&
    decide (s.tsBase l + 0x4000 ≤ a) && decide (a < s.tsBase l + 0x8000))

/-- The physical address of the copy of line i of L that `upper` names, for nominal address `a`. -/
def tsCopy (a : Nat) (upper : Bool) : Nat := if upper then a + 0x4000 else a

/-- Does engine n serve L, in a state in which it runs? -/
def State.serves (s : State) (master l : Nat) : Bool := s.logicalOfMaster master == some l

/-- The physical address of the committed copy that scratchpad address `a` names; none in an upper copy (R115). -/
def State.spCommitted (s : State) (a : Nat) : Option Nat :=
  if s.tsUpper a then none
  else match s.tsAreaOf a with
    | none => some a
    | some l => some (tsCopy a (s.selector l ((a - s.tsBase l) / 64)))

/-- The physical address that a read of scratchpad address `a` by a master reaches; none for a bus error (R115). -/
def State.spReadAddr (s : State) (master a : Nat) : Option Nat :=
  if s.tsUpper a then none
  else match s.tsAreaOf a with
    | none => some a
    | some l =>
      let i := (a - s.tsBase l) / 64
      if s.serves master l && s.lineWritten l i then some (tsCopy a (!s.selector l i)) else some (tsCopy a (s.selector l i))

/-- Zero both copies of L's area and reset its selectors (R111, R114): the whole 16 KiB of each copy, whatever TS_LINES is (log entry 65). -/
def State.tsClear (s : State) (l : Nat) : State := (s.zeroRange (s.tsBase l) 0x8000).resetSelectors l

/-! ## Conditions of a binding (R111) -/

/-- Are the ranges (first, length) of a list pairwise disjoint? Empty ranges are disjoint from all. -/
def disjoint : List (Nat × Nat) → Bool
  | [] => true
  | (a, n) :: rs => rs.all (fun r => n == 0 || r.2 == 0 || decide (a + n ≤ r.1) || decide (r.1 + r.2 ≤ a)) && disjoint rs

/-- Does a register grant of L cover page x (R110)? -/
def State.grantsPage (s : State) (l x : Nat) : Bool :=
  (List.range 4).any (fun g =>
    decide (s.fld (bindAddr l + 0x70 + 4 * g) 0 16 ≤ x) &&
      decide (x < s.fld (bindAddr l + 0x70 + 4 * g) 0 16 + s.fld (bindAddr l + 0x70 + 4 * g) 16 16))

/-- Does the binding of L grant the PORT block of port p? -/
def State.ownsPort (s : State) (l p : Nat) : Bool :=
  if p < 32 then s.bit (bindAddr l + 0x64) p else s.bit (bindAddr l + 0x68) (p - 32)

/-- Does L's entry grant unit x of a resource type (R106)? -/
def State.grantsRes (s : State) (l t x : Nat) : Bool :=
  if t = 1 then s.ownsUnit l x else if t = 2 then s.ownsUnit l (256 + x) else if t = 3 then s.ownsPort l x else s.grantsPage l x

/-- Is every resource of the image covered by L's grants? -/
def State.resCovered (s : State) (l a : Nat) : Bool :=
  (List.range (s.imgNres a)).all (fun j =>
    let (t, first, count, _) := s.imgRes a j
    (List.range count).all (fun x => s.grantsRes l t (first + x)))

/-- Does another bound logical engine hold a channel, controller or PORT block that L's entry grants? -/
def State.grantClash (s : State) (l : Nat) : Bool :=
  (List.range 32).any (fun m => m != l && s.bindState m != 0 &&
    ((List.range 8).any (fun w => s.reg (bindAddr l + 0x40 + 4 * w) &&& s.reg (bindAddr m + 0x40 + 4 * w) != 0) ||
      s.reg (bindAddr l + 0x60) &&& s.reg (bindAddr m + 0x60) != 0 ||
      s.reg (bindAddr l + 0x64) &&& s.reg (bindAddr m + 0x64) != 0 ||
      s.reg (bindAddr l + 0x68) &&& s.reg (bindAddr m + 0x68) != 0))

/-- The engines in SPARE in ascending number. -/
def State.spares (s : State) : List Nat := (List.range 36).filter (fun n => s.peState n == 2)

/-- The first condition of R111 that fails for L: its ERR_CODE; 0 for none. -/
def State.goError (s : State) (l : Nat) : Nat :=
  let as := s.imageAddrs l
  if s.images l = [] ∨ (s.images l).all (fun i => s.imgVerified i) = false then 1
  else if !disjoint (as.map (fun a => (s.imgCodeBase a, s.imgBundles a))) then 2
  else if !disjoint (as.map (fun a => (s.imgLdmBase a, s.imgLdmSize a))) then 3
  else if !as.all (fun a => s.imgMode a == s.imgMode (as.headD 0)) then 4
  else if !as.all (fun a => s.resCovered l a) then 5
  else if s.grantClash l then 6
  else if !(as.all (fun a => decide (s.imgTsOffset a + s.imgTsSize a ≤ 64 * s.tsLines l)) &&
      disjoint (as.map (fun a => (s.imgTsOffset a, s.imgTsSize a))) && decide (s.tsBase l + 0x8000 ≤ 0x800000)) then 7
  else if !as.all (fun a => decide (s.imgMinPeriod a ≤ s.fld (tickBase + 4) 0 20)) then 8
  else if !as.all (fun a => !(s.imgFlags a).testBit 1 || decide (1 ≤ s.fld (bindAddr l + 0x0C) 16 8)) then 9
  else if s.spares = [] then 10
  else 0

/-! ## Budgets (R46) -/

/-- Is an image due in the tick of index k (R45)? -/
def State.imgDue (s : State) (a k : Nat) : Bool := k % s.imgRate a == s.imgPhase a

/-- The images of L that are due in tick k. -/
def State.dueImages (s : State) (l k : Nat) : List Nat := (s.imageAddrs l).filter (fun a => s.imgDue a k)

/-- The effective budget of L in tick k, clamped (R46). -/
def State.effBudget (s : State) (l k : Nat) : Nat := min ((s.dueImages l k).foldl (fun n a => n + s.imgBudget a) 0) 0xFFFFFFFF

/-- The largest effective budget over all values of k mod 1,024. -/
def State.worstBudget (s : State) (l : Nat) : Nat := (List.range 1024).foldl (fun n k => max n (s.effBudget l k)) 0

/-- HALF_TICK_WARN at the present T (R51): the limit is (T − 20 µs)/2 at 800 cycles per µs. It reads 0 for a logical engine that is UNBOUND,
whatever WORST still holds (log entry 173). -/
def State.halfTickWarn (s : State) (l : Nat) : Bool :=
  decide ((s.tick.inForce - 20) * 400 < (s.reg (bindAddr l + 0x10)).toNat) && s.bindState l != 0

/-- The shortest period that the images of every bound logical engine allow (R35). -/
def State.minPeriod (s : State) : Nat :=
  (List.range 32).foldl (fun n l =>
    if s.bindState l = 0 then n else (s.imageAddrs l).foldl (fun m a => max m (s.imgMinPeriod a)) n) 0

/-! ## Spares, loading and preloads (R121 to R123) -/

/-- Does engine n hold directory entry i preloaded? -/
def State.preloaded (s : State) (n i : Nat) : Bool := s.bit (imgStat i) 14 && s.fld (imgStat i) 8 6 == n

/-- The bytes of L's run list that engine n holds preloaded. -/
def State.preBytes (s : State) (l n : Nat) : Nat :=
  (s.images l).foldl (fun t i => if s.preloaded n i then t + 16 * s.imgBundles (s.fld (imgAddr i) 0 23) else t) 0

/-- The spare chosen for L (R122): the one whose preloads cover most, the lower number on a tie. -/
def State.chooseSpare (s : State) (l : Nat) : Option Nat :=
  s.spares.foldl (fun best n =>
    match best with
    | none => some n
    | some m => if s.preBytes l m < s.preBytes l n then some n else some m) none

/-- The chosen spare's preload records for images of other logical engines are cleared (R122). -/
def State.dropPreloads (s : State) (l n : Nat) : State :=
  (List.range 128).foldl (fun st i => if st.preloaded n i && !(s.images l).contains i then st.setBit (imgStat i) 14 false else st) s

/-- Engine n is no spare, or no spare any more: what it holds is no preload (PRE_VALID). -/
def State.forgetPreloads (s : State) (n : Nat) : State :=
  (List.range 128).foldl (fun st i => if st.preloaded n i then st.setBit (imgStat i) 14 false else st) s

/-- The IM and LDM windows of engine n (R26). -/
def imBase (n : Nat) : Nat := peBase + n * 0x40000
def ldmBase (n : Nat) : Nat := peBase + n * 0x40000 + 0x10000

/-- The MCP's record of the load of the image at scratchpad address `a`: IMAGE_ID, SEC_VERSION and BUILD_INFO (R105, R406, R412). Its class is
F0 (log entry 132). -/
def State.loadRecord (s : State) (a : Nat) : State :=
  s.onBus { s.newEvent 0x6C 0 0 0 (s.bytes (a + 8) 8 ++ s.bytes (a + 0x48) 56) with kind := 3 }

/-- The code of the image at scratchpad address `a` is copied into the IM of engine n, and the load is recorded. -/
def State.loadCode (s : State) (n a : Nat) : State :=
  (s.store (imBase n + 16 * s.imgCodeBase a) (s.bytes (s.imgCodeAt a) (16 * s.imgBundles a))).loadRecord a

/-- The first word of the code of directory entry i that holds an uncorrectable error, which the loader's read finds (R121, R374). -/
def State.codeBad (s : State) (i : Nat) : Option Nat :=
  let a := s.imgCodeAt (s.fld (imgAddr i) 0 23)
  (findFrom (fun j => s.isBad (a + 8 * j)) (2 * s.imgBundles (s.fld (imgAddr i) 0 23)) 0).map (fun j => a + 8 * j)

/-- The loader loads the images of L that engine n does not hold (R121). -/
def State.loadImages (s : State) (l n : Nat) : State :=
  (s.images l).foldl (fun st i => if st.preloaded n i then st else st.loadCode n (st.fld (imgAddr i) 0 23)) s

/-- The images of all bound run lists by descending AFFINITY, then ascending logical engine, then position (R123). An entry that a HALTED
binding names and that is not VERIFIED holds no image (R108). -/
def State.dealOrder (s : State) : List Nat :=
  let all := (List.range 32).flatMap (fun l => if s.bindState l = 0 then [] else (s.images l).filter s.imgVerified)
  ((List.range 16).reverse.flatMap (fun aff => all.filter (fun i => s.fld (imgStat i) 16 4 == aff))).eraseDups

/-- Can engine n take entry i beside the entries that `held` says it has been dealt? -/
def State.canHold (s : State) (held : List (Nat × Nat)) (n i : Nat) : Bool :=
  let a := s.fld (imgAddr i) 0 23
  (held.filter (fun p => p.1 == n)).all (fun p =>
    let b := s.fld (imgAddr p.2) 0 23
    disjoint [(s.imgCodeBase a, s.imgBundles a), (s.imgCodeBase b, s.imgBundles b)])

/-- Deal the images one by one over the spares, each from the spare after the one that took the previous image (R123). -/
def State.dealOver (s : State) : List Nat → List Nat → List (Nat × Nat) → List (Nat × Nat)
  | [], _, held => held
  | i :: is, ring, held =>
    match ring.findIdx? (fun n => s.canHold held n i) with
    | some j => s.dealOver is (ring.drop (j + 1) ++ ring.take (j + 1)) (held ++ [((ring[j]?).getD 0, i)])
    | none => s.dealOver is ring held

/-! ## The register window of PEC -/

/-- Set PE_STATE.STATE of engine n. -/
def State.setPeState (s : State) (n st : Nat) : State := s.setFld (peStateAddr n) 0 4 st

/-- Engine n serves L, or no logical engine. -/
def State.setServes (s : State) (n : Nat) (l : Option Nat) : State :=
  match l with
  | some l => (s.setFld (peStateAddr n) 8 5 l).setBit (peStateAddr n) 13 true
  | none => (s.setFld (peStateAddr n) 8 5 0).setBit (peStateAddr n) 13 false

/-- Set BIND[L].STATE. -/
def State.setBindState (s : State) (l st : Nat) : State := s.setFld (bindAddr l + 4) 0 4 st

/-- A write to BIND[L] at offset r (R109, R111, R112, R127). TS_LINES above 256 is stored as written (log entry 158). -/
def State.bindWrite (s : State) (l r : Nat) (d : Word) : WRes :=
  let st := s.bindState l
  let free := st == 0 || st == 5
  if st = 3 then .err s
  else if r = 0x10 ∨ (0x80 ≤ r ∧ r < 0xA0) then .plain
  else if r = 0 then
    let s1 := if free then s.setReg (bindAddr l) (d &&& 4) else s
    let s2 := if bitOf d 0 && free then { s1 with pec := { s1.pec with goPend := Tab.set (fun _ => false) s1.pec.goPend l true } } else s1
    .done (if bitOf d 1 && (st == 2 || st == 4 || st == 5) then
      { s2 with pec := { s2.pec with haltPend := Tab.set (fun _ => false) s2.pec.haltPend l true } } else s2)
  else if r = 4 then .plain
  else if !free then .err s
  else if r = 8 then .done ((s.setReg (bindAddr l + 8) (d &&& word (bits 16 0))).resetSelectors l)
  else .plain

/-- A write at offset `o` of PEC (R64, R103, R109). -/
def pecWrite (s : State) (w : Who) (o : Nat) (d : Word) : WRes :=
  if 0x2000 ≤ o ∧ o < 0x4000 then
    if isMcp w then s.bindWrite ((o - 0x2000) / 0x100) ((o - 0x2000) % 0x100) d else .err s
  else if 0x6000 ≤ o ∧ o < 0x7000 then
    let i := (o - 0x6000) / 0x20
    let r := (o - 0x6000) % 0x20
    if !isMcp w then .err s
    else if r = 0x0C then s.imgStatWrite i d
    else if r = 0 ∨ r = 4 then s.imgPlaceWrite i r d
    else .plain
  else if 0x10000 ≤ o ∧ o < 0x10000 + 36 * 0x400 ∧ (o - 0x10000) % 0x400 = 0 then
    if s.bit (peStateAddr ((o - 0x10000) / 0x400)) 13 then .err s else .plain
  else .plain

/-- A read at offset `o` of PEC: HALF_TICK_WARN is worked out at the present period. -/
def pecRead (s : State) (o : Nat) : RRes :=
  if 0x2000 ≤ o ∧ o < 0x4000 ∧ (o - 0x2000) % 0x100 = 4 then
    .val s (setBits (s.reg (pecBase + o)) 16 1 (bit01 (s.halfTickWarn ((o - 0x2000) / 0x100))))
  else .plain

end Sys2Proof.Machine
end

