-- ==== Sys2Proof/Machine/Sp.lean ====
section
/-!
DEFINITION. Accesses to the scratchpad (chapters 03, 04 and 14): the protections of image copies and tick-state areas, the shadow lines
of the serving engine, uncorrectable words, and the loss of reservations (R43, R89, R108, R114, R115, R374).
-/
namespace Sys2Proof.Machine

/-- The granule that a master holds reserved. -/
def State.reservation (s : State) (master : Nat) : Option Nat := Tab.get (fun _ => none) s.pec.reserved master

/-- Set a master's reservation. -/
def State.setReservation (s : State) (master : Nat) (g : Option Nat) : State :=
  { s with pec := { s.pec with reserved := Tab.set (fun _ => none) s.pec.reserved master g } }

/-- A write by a master to granule g ends every other master's reservation of it (R89). -/
def State.endReservations (s : State) (master g : Nat) : State :=
  (Tab.keys s.pec.reserved).foldl (fun st m => if m ≠ master ∧ st.reservation m = some g then st.setReservation m none else st) s

/-- The first write of the serving engine in a tick to a line copies it into the shadow copy (R43). -/
def State.shadowLine (s : State) (l i : Nat) : State :=
  if s.lineWritten l i then s
  else
    let a := s.tsBase l + 64 * i
    let s1 := s.store (tsCopy a (!s.selector l i)) (s.bytes (tsCopy a (s.selector l i)) 64)
    { s1 with pec := { s1.pec with
      written := Tab.set (fun _ => 0) s1.pec.written l (Tab.get (fun _ => 0) s1.pec.written l + 2 ^ i) } }

/-- Where a write to scratchpad address `a` by a master lands, and the state with any line it shadows (R115); none for a bus error. -/
def State.spWriteAddr (s : State) (master a : Nat) : Option (State × Nat) :=
  if s.tsUpper a then none
  else
    match s.tsAreaOf a with
    | none => some (s, a)
    | some l =>
      let i := (a - s.tsBase l) / 64
      if s.serves master l && s.bindState l != 0 && s.bindState l != 5 then
        let s1 := s.shadowLine l i
        some (s1, tsCopy a (!s1.selector l i))
      else if master = 0x01 ∧ (s.bindState l = 0 ∨ s.bindState l = 5) then some (s, tsCopy a (s.selector l i))
      else none

/-- Write-protection of image copies (R108): the MCP's write withdraws copies that no run list names. -/
def State.copyGuard (s : State) (master a n : Nat) : Option State :=
  let cs := s.copiesAt a n
  if cs.isEmpty then some s
  else if master ≠ 0x01 ∨ cs.any s.imgNamed = true then none
  else some (cs.foldl (fun st i => st.imgDrop i) s)

/-- A write of bytes that lie in one 8-byte word of the scratchpad. -/
def State.spStorePiece (s : State) (master a : Nat) (bs : List Byte) : WRes :=
  if 0x800000 < a + bs.length then .err s
  else
    match s.spWriteAddr master a with
    | none => .err s
    | some (s1, b) =>
      if s1.narrowOnBad b bs.length then .err s
      else
        match s1.copyGuard master a bs.length with
        | none => .err s
        | some s2 => .done ((s2.storeEnding b bs).endReservations master (a / 8))

/-- A write of any bytes, in pieces of one 8-byte word each: the state, and the bytes that were written before the first refused piece.
`fuel` bounds the pieces. -/
def State.spStore (s : State) (master : Nat) : Nat → Nat → List Byte → State × Nat × Bool
  | 0, _, _ => (s, 0, true)
  | _ + 1, _, [] => (s, 0, true)
  | fuel + 1, a, bs =>
    let n := min bs.length (8 - a % 8)
    match s.spStorePiece master a (bs.take n) with
    | .done s1 =>
      let (s2, m, ok) := s1.spStore master fuel (a + n) (bs.drop n)
      (s2, n + m, ok)
    | _ => (s, 0, false)

/-- A burst whose pieces are judged one by one: a refused piece is discarded, the others are written. -/
def State.spBurst (s : State) (master : Nat) : Nat → Nat → List Byte → State × Bool
  | 0, _, _ => (s, true)
  | _ + 1, _, [] => (s, true)
  | fuel + 1, a, bs =>
    let n := min bs.length (8 - a % 8)
    match s.spStorePiece master a (bs.take n) with
    | .done s1 => s1.spBurst master fuel (a + n) (bs.drop n)
    | _ =>
      let (s1, _) := s.spBurst master fuel (a + n) (bs.drop n)
      (s1, false)

/-- What a read within one 8-byte word of the scratchpad meets: its bytes, a refusal, or a word that holds an uncorrectable error, which is
answered as a bus error (R374). -/
inductive SpGot where
  | bytes (bs : List Byte)
  | refused
  | bad (a : Nat)

/-- The bytes that a master reads from scratchpad address `a`, up to 8 in one word. Past the scratchpad no memory is defined, and reads return
zero (R8, R445). -/
def State.spLoadPiece (s : State) (master a n : Nat) : SpGot :=
  if 0x800000 ≤ a then .bytes (List.replicate n 0)
  else
    match s.spReadAddr master a with
    | none => .refused
    | some b => if s.isBad b then .bad b else .bytes (s.bytes b n)

/-- The bytes of a longer read, whether it was answered to its end, and the uncorrectable word at which it stopped, if it did. -/
def State.spLoad (s : State) (master : Nat) : Nat → Nat → Nat → List Byte × Bool × Option Nat
  | 0, _, _ => ([], true, none)
  | _ + 1, _, 0 => ([], true, none)
  | fuel + 1, a, n =>
    let k := min n (8 - a % 8)
    match s.spLoadPiece master a k with
    | .bytes bs =>
      let (rest, ok, bad) := s.spLoad master fuel (a + k) (n - k)
      (bs ++ rest, ok, bad)
    | .refused => ([], false, none)
    | .bad b => ([], false, some b)

/-- May a whole range be written by a master: does no piece meet a bus error? -/
def State.spMayWrite (s : State) (master a n : Nat) : Bool := (s.spStore master (n + 1) a (List.replicate n 0)).2.2

end Sys2Proof.Machine
end

