-- ==== Sys2Proof/Machine/Atomic.lean ====
section
/-!
DEFINITION. The operations of the ATM and MBX units of a core (R88 to R93, R365 to R368), which take effect at once and are not staged (R91):
locks, reservations, mailboxes and doorbells.
-/
namespace Sys2Proof.Machine

/-- The number of the MCP among the cores. -/
def mcpCore : Nat := 36

/-- The master identity of a core (R443). -/
def coreMaster (n : Nat) : Nat := if n = mcpCore then 0x01 else 0x10 + n

/-- The lock word at a far address (R365). -/
def lockAt (a : Nat) : Option Nat := if 0x10510000 ≤ a ∧ a < 0x10510400 then some ((a - 0x10510000) / 4) else none

/-- Does either copy of a tick-state area of a logical engine that is not UNBOUND hold scratchpad address `a` (R88, R114)? -/
def State.inTickState (s : State) (a : Nat) : Bool :=
  (List.range 32).any (fun l => s.bindState l != 0 && decide (s.tsBase l ≤ a) && decide (a < s.tsBase l + 0x8000) &&
    decide ((a - s.tsBase l) % 0x4000 < 64 * s.tsLines l))

/-- May a core use ATM.T.LR and ATM.T.SC at scratchpad address `a` (R88)? The MCP has no binding to place an area. -/
def State.atomicAllowed (s : State) (n a : Nat) : Bool :=
  decide (a < 0x800000) && !s.inTickState a &&
    (n == mcpCore || match s.logicalOf n with
      | some l =>
        let b := s.fld (bindAddr l + 0x0C) 0 11 * 4096
        decide (b ≤ a) && decide (a < b + s.fld (bindAddr l + 0x0C) 16 8 * 4096)
      | none => false)

/-- What a far operation returns: the state, its words, and whether it was a bus error. -/
structure FarVal where
  s : State
  vals : List Word
  err : Bool

/-- A refused operation delivers 0xFFFFFFFF. -/
def farError (s : State) : FarVal := ⟨s, [0xFFFFFFFF], true⟩

/-- ATM.T.SC: the word is written if the reservation holds; any SC ends it (R89). -/
def State.storeConditional (s : State) (n a : Nat) (d : Word) : FarVal :=
  if !s.atomicAllowed n a then farError (s.setReservation (coreMaster n) none)
  else
    let s1 := s.setReservation (coreMaster n) none
    if s.reservation (coreMaster n) = some (a / 8) then
      match s1.spBurst (coreMaster n) 2 a (leBytes 4 d.toNat) with
      | (s2, true) => ⟨s2, [0], false⟩
      | (s2, false) => farError s2
    else ⟨s1, [1], false⟩

/-- MBX.T.SEND and MBX.T.RECV (R93). -/
def State.boxSend (s : State) (n : Nat) (op : FarOp) : FarVal :=
  let e := fieldOf op.arg 0 6
  if !s.epReachable e then farError s
  else
    let (s1, ok) := s.mbSend (coreMaster n) e (fieldOf op.arg 8 4) op.data
    ⟨s1, [word (bit01 (!ok))], false⟩
def State.boxRecv (s : State) (n i : Nat) : FarVal :=
  let st := s.reg (mbStat (coreMaster n) i)
  let (s1, v) := s.mbEmpty (coreMaster n) i
  ⟨s1, [word (fieldOf st 0 1 * 2 ^ 31 + fieldOf st 8 8), v], false⟩

/-- A value-returning operation of the ATM or MBX unit reaches its target, ATM.T.LR apart: none for another trigger. -/
def State.atomicDone (s : State) (n : Nat) (op : FarOp) : Option FarVal :=
  let a := op.arg.toNat / 4 * 4
  if op.trig = 0x188 then
    match lockAt a with
    | some i => let (s1, v) := s.lockTas (coreMaster n) i; some ⟨s1, [v], false⟩
    | none => some (farError s)
  else if op.trig = 0x18B then some (s.storeConditional n a op.data)
  else if op.trig = 0x1B8 then some (s.boxSend n op)
  else if op.trig = 0x1B9 then some (s.boxRecv n (fieldOf op.arg 0 4))
  else if op.trig = 0x1BB then
    let (s1, v) := s.dbTake (coreMaster n)
    some ⟨s1, [v], false⟩
  else none

/-- ATM.T.CLR and MBX.T.RING reach the MBX block: none for another trigger. True: a bus error. -/
def State.atomicPosted (s : State) (n : Nat) (op : FarOp) : Option (State × Bool) :=
  if op.trig = 0x189 then
    match lockAt (op.arg.toNat / 4 * 4) with
    | some i => some (s.lockRelease (coreMaster n) i, false)
    | none => some (s, true)
  else if op.trig = 0x1BA then
    let e := fieldOf op.arg 0 6
    some (if s.epReachable e then (s.ring e (word (2 ^ fieldOf op.arg 8 5)), false) else (s, true))
  else none

end Sys2Proof.Machine
end

