-- ==== Sys2Proof/Machine/Pch.lean ====
section
/-!
DEFINITION. Pin channels (chapter 06): pads and inputs, the sequencer step with its FIFOs, shift register, compare unit, flags and
position, timed actions, bank swaps, multiplexing, spare cores, electrical diagnostics, and the register window.
-/
namespace Sys2Proof.Machine

/-! ## The parts of a channel -/

/-- Channel n. -/
def State.chan (s : State) (n : Nat) : Chan := Tab.get (fun _ => Chan.reset) s.pch.chans n

/-- Set channel n. -/
def State.setChan (s : State) (n : Nat) (c : Chan) : State :=
  { s with pch := { s.pch with chans := Tab.set (fun _ => Chan.reset) s.pch.chans n c } }

/-- A register of channel n by its offset. -/
def pchReg (n o : Nat) : Nat := pchAddr n + o

/-- The configuration registers of a bank of channel n. -/
def pchCfg (n : Nat) (bankB : Bool) (o : Nat) : Nat := pchReg n (0x1000 + bit01 bankB * 0x20 + o)

/-- STICKY of channel n by its bit: 0 UNDERRUN, 1 OVERFLOW, 2 LATE, 3 STAGE_DROP, 4 ABORTED_SHIFT, 5 PROG_ERR, 6 LUT_RSV, 7 LUT_ECC, 8 SHORT,
9 OPEN, 10 REVERSED, 11 XCVR_FAULT, 12 ILIM, 13 SWAP_TIMEOUT. -/
def State.chanSticky (s : State) (n i : Nat) : State := s.setBit (pchReg n 0x1110) i true

/-- Set a sticky flag and count its event in the counter at offset `o`. -/
def State.chanEvent (s : State) (n i o : Nat) : State := (s.chanSticky n i).bump (pchReg n o)

/-- The pin time P: the device time in 2 ns units modulo 2^48 (R155). -/
def State.pinTime (s : State) : Nat := s.ns / 2 % 2 ^ 48

/-- The pin time X is reached (R155). -/
def State.pinReached (s : State) (x : Nat) : Bool := decide ((s.pinTime + 2 ^ 48 - x % 2 ^ 48) % 2 ^ 48 < 2 ^ 47)

/-- How far P is past X. -/
def State.pinPast (s : State) (x : Nat) : Nat := (s.pinTime + 2 ^ 48 - x % 2 ^ 48) % 2 ^ 48

/-- The number of the sequencer step in progress: one every second TIME cycle (R144). -/
def State.stepNo (s : State) : Nat := s.cyc / 2

/-- A finding of channel n is reported to the collector by its cluster, in a class (R169, R490). -/
def State.chanFinding (s : State) (n cls stickyBit : Nat) : State :=
  s.raise (0x44 + n / 16) cls (n % 16 * 256 + stickyBit) (word (2 ^ (n % 16)))

/-- An F2 of channel n also puts its pads at safe level at once (R169, R387). -/
def State.chanF2 (s : State) (n stickyBit : Nat) : State :=
  (s.setChan n { s.chan n with localSafe := true }).chanFinding n 2 stickyBit

/-! ## Pads (R159, R165, R390, R489) -/

/-- The pads of channel n show the safe level (STAT.SAFE); after a copy that met an uncorrectable error they do until the banks are rewritten
(R171). -/
def State.padsSafe (s : State) (n : Nat) : Bool := s.unitSafe n || (s.chan n).localSafe || (s.chan n).held

/-- CAN_AB of channel n. -/
def State.canAB (s : State) (n : Nat) : Bool := s.bit (pchReg n 0x1108) 0

/-- INV of a pin. -/
def State.pinInv (s : State) (n p : Nat) : Bool := s.bit (pchReg n 0x120C) p

/-- SAFE_LVL of a pin (R390). -/
def State.safeLvl (s : State) (n p : Nat) : Nat := s.fld (fltReg (0x1000 + 4 * ((4 * n + p) / 16))) (2 * ((4 * n + p) % 16)) 2

/-- Does CAN controller k hold its transmit output recessive: at safe level, or in a mode or state in which it sends no bit (R165, R178, R189,
R190)? -/
def State.canQuiet (s : State) (k : Nat) : Bool :=
  let c := s.canc k
  s.unitSafe (256 + k) || c.mode != 1 || !c.sync || c.busOff

/-- Are the channel pins at high impedance: VDD_AON absent, or PORST_N low (R468)? -/
def State.padsFloat (s : State) : Bool := s.mgt.phase == .unpowered || s.mgt.porstLow

/-- The level that the device drives on a pad; none for a pad it leaves at high impedance. Pin A of a CAN channel carries the controller's
transmit output after INV, recessive (1, log entry 134) while the controller is quiet and a free bit within a frame, whose bits the model
does not hold; pin B stays an input (R165, R390). The bank supplies stand whenever the device is powered (R468, log entry 177). -/
def State.padDriven (s : State) (n p : Nat) : Option Bool :=
  if s.padsFloat then none
  else if s.canAB n && decide (p < 2) then
    if p = 1 then none else some ((s.padsSafe n || s.canQuiet (n / 8) || freeBool (s.freeCtr + p)) != s.pinInv n p)
  else if s.padsSafe n then
    if s.safeLvl n p = 1 then some false else if s.safeLvl n p = 2 then some true else none
  else if (s.chan n).oe.testBit p then some ((s.chan n).out.testBit p != s.pinInv n p) else none

/-- The level at a pad (R489; log entry 30). The board's drivers are free; where the device drives, its level stands unless the board's is the
stronger or the two settle between the thresholds, which is free as well. -/
def State.padLevel (s : State) (n p : Nat) : Bool :=
  match s.padDriven n p with
  | some b => if freeBool (s.freeCtr + 4 + p) then freeBool (s.freeCtr + p) else b
  | none => freeBool (s.freeCtr + p)

/-- Is an open-wire test of pin p on: OW_EN = 1 and OE = 0 (R167)? -/
def State.owOn (s : State) (n p : Nat) : Bool := s.bit (pchReg n 0x1200) (4 + p) && !(s.chan n).oe.testBit p

/-- The TIME cycle at which the pulse of the next open-wire test of pin p ends: PERIOD after the last test, or after the instant from which the
pin is tested (log entry 176); now, where no such instant is known. -/
def State.owEnd (s : State) (n p : Nat) : Nat :=
  match Tab.get (fun _ => none) (s.chan n).owAt p with
  | some t => t + s.fld (pchReg n 0x1204) 0 8 * cycMs
  | none => s.cyc

/-- Is an open-wire test of pin p at its end (R167)? -/
def State.owDue (s : State) (n p : Nat) : Bool := s.owOn n p && decide (s.owEnd n p ≤ s.cyc)

/-- The level that an open-wire test of pin p holds for the sequencer and the view now: to 200 ns past the end of its pulse (R167). -/
def State.owLevel (s : State) (n p : Nat) : Option Bool :=
  match Tab.get (fun _ => none) (s.chan n).owHold p with
  | some (t, b) => if decide (s.cyc < t) || s.owDue n p then some b else none
  | none => none

/-- The level at a pin's pad, after INV: what STAT.PIN shows (R489). -/
def State.padIn (s : State) (n p : Nat) : Bool := s.padLevel n p != s.pinInv n p

/-- The input level of a pin as the sequencer and the view see it (R489, R167). -/
def State.pinIn (s : State) (n p : Nat) : Bool := (s.owLevel n p).getD (s.padLevel n p) != s.pinInv n p

/-- Four levels, by pin, as four bits. -/
def pinBits (f : Nat → Bool) : Nat := bit01 (f 0) + 2 * bit01 (f 1) + 4 * bit01 (f 2) + 8 * bit01 (f 3)

/-- The input levels of pins A to D as four bits. -/
def State.pinsIn (s : State) (n : Nat) : Nat := pinBits (s.pinIn n)

/-- The pads have been sampled: the next sample takes fresh free levels. -/
def State.sampled (s : State) : State := { s with freeCtr := s.freeCtr + 8 }

/-- A sample in the pulse of an open-wire test of pin p that is on its way: the level that stood before it is held to 200 ns past the pulse's
end (R167). The pulse's length is in units of 100 ns. -/
def State.owWatch (s : State) (n p : Nat) (level : Bool) : State :=
  if s.owOn n p && decide (s.owEnd n p ≤ s.cyc + 50 * s.fld (pchReg n 0x1204) 8 8) && (s.owLevel n p).isNone then
    s.setChan n { s.chan n with owHold := Tab.set (fun _ => none) (s.chan n).owHold p (some (s.owEnd n p + 100, level)) }
  else s

/-- The key of a level of a pin in the reversal check. -/
def shownKey (p : Nat) (level : Bool) : Nat := 2 * p + bit01 level

/-- The TIME cycle at which pin p last showed a level since RUN became 1. -/
def State.shownLast (s : State) (n p : Nat) (level : Bool) : Nat := Tab.get (fun _ => 0) (s.chan n).shownAt (shownKey p level)

/-- A sample of pin p is noted for the reversal check (R168). -/
def State.noteShown (s : State) (n p : Nat) (level : Bool) : State :=
  let c := s.chan n
  s.setChan n { c with
    shown := c.shown ||| 2 ^ shownKey p level, shownAt := Tab.set (fun _ => 0) c.shownAt (shownKey p level) s.cyc }

/-- REV_PIN and the level REV_IDLE of channel n. -/
def State.revPin (s : State) (n : Nat) : Nat := s.fld (pchReg n 0x1200) 8 2
def State.revIdle (s : State) (n : Nat) : Bool := s.bit (pchReg n 0x1200) 11

/-- The length of a window of the reversal check in TIME cycles: WIN is in units of 100 µs. -/
def State.revWindow (s : State) (n : Nat) : Nat := s.fld (pchReg n 0x1208) 0 16 * 50000

/-- Samples of all pins once RUN has become 1, and the end of REVERSED after a window at REV_IDLE (R168). -/
def State.revWatch (s : State) (n : Nat) : State :=
  if (s.chan n).ran then
    let s1 := (List.range 4).foldl (fun st p => st.noteShown n p (s.padIn n p)) s
    if s1.bit (pchReg n 0x1200) 10 && s1.bit (pchReg n 0x1210) 16 && s.padIn n (s.revPin n) == s.revIdle n &&
        decide (s1.shownLast n (s.revPin n) (!s.revIdle n) + s.revWindow n ≤ s.cyc) then
      s1.setBit (pchReg n 0x1210) 16 false
    else s1
  else s

/-- A sample of XF_PIN (R169): XF ends with another level than XF_ACT. -/
def State.xfWatch (s : State) (n : Nat) (act : Bool) : State :=
  if act then s else (s.setChan n { s.chan n with xfOffAt := s.cyc }).setBit (pchReg n 0x1210) 17 false

/-- A sample of a pin that is declared short (R166): the live bits end once the pad agrees with OUT. -/
def State.shortWatch (s : State) (n p : Nat) (level : Bool) : State :=
  if level = ((s.chan n).out.testBit p != s.pinInv n p) then
    (s.setBit (pchReg n 0x1210) p false).setBit (pchReg n 0x1210) (4 + p) false
  else s

/-- The pads of channel n are sampled, and what its diagnostics watch in them is noted (R166 to R169). -/
def State.sense (s : State) (n : Nat) : State :=
  let s1 := s.sampled
  let cfg := s.reg (pchReg n 0x1200)
  let s2 := if fieldOf cfg 4 4 = 0 then s1 else (List.range 4).foldl (fun st p => st.owWatch n p (s.padLevel n p)) s1
  let s3 := s2.revWatch n
  let s4 := if bitOf cfg 18 then s3.xfWatch n (s.padIn n (fieldOf cfg 16 2) == bitOf cfg 19) else s3
  (List.range 4).foldl (fun st p =>
    if s.bit (pchReg n 0x1210) p || s.bit (pchReg n 0x1210) (4 + p) then st.shortWatch n p (s.padLevel n p) else st) s4

/-! ## Shared flags (R160) -/

/-- The key of the flag that a FLAGSEL value names for a channel. -/
def flagKey (n sel : Nat) : Nat := if sel < 32 then 32 * (n / 16) + sel else 512 + (sel - 32)

/-- What a flag becomes in the step after its operations. -/
def SharedFlag.next (f : SharedFlag) : Bool :=
  if f.set || f.pulse then true
  else if f.clear then false
  else if f.regSet then true
  else if f.regClear || f.pulsed then false
  else f.was

/-- A flag's value in step `k`, as the operations of its record leave it. -/
def SharedFlag.shown (f : SharedFlag) (k : Nat) : Bool :=
  if k < f.opStep then f.prev
  else if k = f.opStep then f.was
  else if k = f.opStep + 1 then f.next
  else if f.pulse && !f.set then false else f.next

/-- How often a flag's value has changed up to step `k`, likewise. -/
def SharedFlag.changesShown (f : SharedFlag) (k : Nat) : Nat :=
  f.changes + (if f.opStep < k then bit01 (f.shown (f.opStep + 1) != f.was) else 0) +
    (if f.opStep + 1 < k then bit01 (f.shown (f.opStep + 2) != f.shown (f.opStep + 1)) else 0)

/-- A flag with its record moved to step `k`. -/
def SharedFlag.carried (f : SharedFlag) (k : Nat) : SharedFlag :=
  if k ≤ f.opStep then f
  else { f with
    opStep := k, was := f.shown k, prev := f.shown (k - 1), set := false, pulse := false, clear := false, regSet := false, regClear := false,
    pulsed := decide (k = f.opStep + 1) && f.pulse && !f.set, changes := f.changesShown k }

/-- A register write is noted in its own step. -/
def SharedFlag.noteWrite (f : SharedFlag) (x : Nat × Bool) : SharedFlag := { f.carried x.1 with regSet := x.2, regClear := !x.2 }

/-- A flag with its register writes noted in the writes' own steps, as far as step `k` has reached them. -/
def SharedFlag.due (f : SharedFlag) (k : Nat) : SharedFlag :=
  { (f.later.filter (fun x => decide (x.1 ≤ k))).foldl SharedFlag.noteWrite f with
    later := f.later.filter (fun x => decide (k < x.1)) }

/-- A register write waits for its step, behind those that come before it. -/
def SharedFlag.await (f : SharedFlag) (x : Nat × Bool) : SharedFlag :=
  { f with later := f.later.filter (fun y => decide (y.1 ≤ x.1)) ++ x :: f.later.filter (fun y => decide (x.1 < y.1)) }

/-- A flag's value in step `k`. -/
def SharedFlag.at (f : SharedFlag) (k : Nat) : Bool := (f.due k).shown k

/-- How often a flag's value has changed up to step `k`. -/
def SharedFlag.changesAt (f : SharedFlag) (k : Nat) : Nat := (f.due k).changesShown k

/-- A flag with its record moved to step `k`, where operations are about to be noted. -/
def SharedFlag.moved (f : SharedFlag) (k : Nat) : SharedFlag := (f.due k).carried k

/-- The record of a shared flag. -/
def State.sharedFlag (s : State) (k : Nat) : SharedFlag := Tab.get (fun _ => SharedFlag.reset) s.pch.flags k

/-- Change the record of a shared flag in the present step. -/
def State.onFlag (s : State) (k : Nat) (f : SharedFlag → SharedFlag) : State :=
  { s with pch := { s.pch with
    flags := Tab.set (fun _ => SharedFlag.reset) s.pch.flags k (f ((s.sharedFlag k).moved s.stepNo)) } }

/-- The value of a flag as channels see it in the present step: a device-wide flag one step later than a cluster flag. -/
def State.flagSeen (s : State) (k : Nat) : Bool := (s.sharedFlag k).at (if k < 512 then s.stepNo else s.stepNo - 1)

/-- A sequencer's operation on a flag: 1 clear, 2 set, 3 pulse. -/
def State.flagOp (s : State) (k op : Nat) : State :=
  if op = 1 then s.onFlag k (fun f => { f with clear := true })
  else if op = 2 then s.onFlag k (fun f => { f with set := true })
  else if op = 3 then s.onFlag k (fun f => { f with pulse := true })
  else s

/-- The step in which a register write changes a flag: the first that begins after the write, or for a staged one the first at or after its
boundary (R160). A step begins in every second TIME cycle. -/
def State.flagStep (s : State) (staged : Bool) : Nat := if staged && s.cyc % 2 == 0 then s.stepNo else s.stepNo + 1

/-- A register write sets or clears the flags from key `k` whose bits are 1 in `d`, `m` of them. -/
def State.flagWrite (s : State) (k m : Nat) (d : Word) (b staged : Bool) : State :=
  (List.range m).foldl (fun st i =>
    if bitOf d i then st.onFlag (k + i) (fun f => f.await (s.flagStep staged, b)) else st) s

/-- The flags from key `k`, `m` of them, as a word. -/
def State.flagWord (s : State) (k m : Nat) : Word :=
  word ((List.range m).foldl (fun v i => v + bit01 (s.flagSeen (k + i)) * 2 ^ i) 0)

/-! ## FIFOs (R152, R153) -/

/-- A word enters the receive FIFO, or is lost to a full one. -/
def State.rxPush (s : State) (n : Nat) (w : Word) : State :=
  let c := s.chan n
  if 16 ≤ c.rx.length then s.chanEvent n 1 0x1308 else s.setChan n { c with rx := c.rx ++ [w] }

/-- The configuration of the active bank. -/
def State.srLen (s : State) (n : Nat) : Nat := s.fld (pchCfg n (s.chan n).active 0) 0 6
def State.msbFirst (s : State) (n : Nat) : Bool := s.bit (pchCfg n (s.chan n).active 0) 8

/-- The word that a push takes from SR (R152). -/
def pushWord (msb : Bool) (sr : Word) (count : Nat) : Word :=
  if msb then word (sr.toNat % 2 ^ count) else if count = 0 then 0 else sr >>> (32 - count)

/-- A pop of the transmit FIFO into SR (R152, R153). -/
def State.txPop (s : State) (n : Nat) : State :=
  let c := s.chan n
  match c.tx with
  | w :: q =>
    s.setChan n { c with tx := q, count := 0, sr := if s.msbFirst n then w <<< (32 - s.srLen n) else w }
  | [] =>
    (s.setChan n { c with count := 0, sr := if s.bit (pchCfg n c.active 0) 11 then 0xFFFFFFFF else 0 }).chanEvent n 0 0x1300

/-- SOUT: the output-end bit of SR. -/
def State.sout (s : State) (n : Nat) : Bool := if s.msbFirst n then bitOf (s.chan n).sr 31 else bitOf (s.chan n).sr 0

/-- One shift with the level `sin` (R152). -/
def State.shiftOne (s : State) (n : Nat) (sin : Bool) : State :=
  let c := s.chan n
  let sr := if s.msbFirst n then (c.sr <<< 1) ||| word (bit01 sin) else (c.sr >>> 1) ||| word (bit01 sin * 2 ^ 31)
  s.setChan n { c with sr := sr, count := min (c.count + 1) 32 }

/-! ## Output registers (R159, R166) -/

/-- LEG[p] of channel n. -/
def legReg (n p : Nat) : Nat := pchReg n (0x1220 + 4 * p)

/-- An edge is driven on pin p: each 1,024 of them give STRENGTH a new average, whose value the spec does not state (R170). -/
def State.edgeDriven (s : State) (n p : Nat) : State :=
  let c := s.chan n
  let k := Tab.get (fun _ => 0) c.edges p + 1
  let s1 := s.setChan n { c with edges := Tab.set (fun _ => 0) c.edges p (k % 1024) }
  if k % 1024 = 0 then s1.free.setFld (legReg n p) 0 8 (freeValue 8 s.freeCtr).toNat else s1

/-- Pin p is tested for an open wire from now on, where it was not (R167). -/
def State.owFrom (s : State) (n p : Nat) (before : Bool) : State :=
  if !before && s.owOn n p then
    s.setChan n { s.chan n with owAt := Tab.set (fun _ => none) (s.chan n).owAt p (some s.cyc) }
  else s

/-- Does the output register of pin p reach its pad: neither safe level nor a CAN controller stands between (R165, R390)? -/
def State.reachesPad (s : State) (n p : Nat) : Bool := !s.padsFloat && !s.padsSafe n && !(s.canAB n && decide (p < 2))

/-- Write a pin's output register; a short that the new level agrees with is over (R166). -/
def State.pinWrite (s : State) (n p : Nat) (lvl en : Bool) : State :=
  let c := s.chan n
  let put := fun (m : Nat) (b : Bool) => m - bit01 (m.testBit p) * 2 ^ p + bit01 b * 2 ^ p
  let turns := c.out.testBit p != lvl
  let s1 := s.setChan n { c with
    out := put c.out lvl, oe := put c.oe en,
    outAt := if turns || (en && !c.oe.testBit p) then Tab.set (fun _ => 0) c.outAt p s.cyc else c.outAt }
  let s2 := (s1.setBit (pchReg n 0x1210) (if lvl != s.pinInv n p then 4 + p else p) false).owFrom n p (s.owOn n p)
  if turns && en && c.oe.testBit p && s.reachesPad n p then s2.edgeDriven n p else s2

/-- A LUT step writes pin p as POUT says; a PINS action of the same TIME cycle prevails (R159). -/
def State.poutPin (s : State) (n p : Nat) (pout : Nat) (en sout : Bool) : State :=
  let c := s.chan n
  if pout = 0 ∨ (c.taqAt = s.cyc + 1 ∧ c.pinsAt.testBit p) then s
  else s.pinWrite n p (if pout = 1 then false else if pout = 2 then true else sout) en

/-! ## The compare unit (R155) -/

/-- Set CMP and arm. -/
def State.arm (s : State) (n cmp : Nat) : State :=
  s.setChan n { s.chan n with cmp := cmp % 2 ^ 56, armed := true, matched := false }

/-- The TIMER operations. -/
def State.timerOp (s : State) (n op : Nat) : State :=
  let c := s.chan n
  let pa := (s.reg (pchCfg n c.active 0x10)).toNat
  let pb := (s.reg (pchCfg n c.active 0x14)).toNat
  if op = 1 then s.arm n (c.cmp + pa)
  else if op = 2 then s.arm n (c.cmp + pb)
  else if op = 3 then s.arm n (s.pinTime * 256 + pa)
  else if op = 4 then s.arm n (s.pinTime * 256 + pb)
  else if op = 5 then s.setChan n { c with armed := false, matched := false }
  else if op = 6 then s.rxPush n (word s.pinTime)
  else if op = 7 then s.chanSticky n 6
  else s

/-- COMPARE_MATCH: MATCH becomes 1 once the integer part of CMP is reached while armed. -/
def State.compareMatch (s : State) (n : Nat) : State :=
  let c := s.chan n
  if c.armed && s.pinReached (c.cmp / 256) then s.setChan n { c with matched := true } else s

/-! ## Bank swaps (R162 to R164) -/

/-- The active bank changes, at state 0 with input-select set 0. -/
def State.changeBank (s : State) (n : Nat) : State :=
  let c := s.chan n
  s.setChan n { c with
    active := !c.active, pending := false, swapAt := none, force := false, state := 0, isel := false,
    corrected := false }

/-- A normal swap takes effect. -/
def State.swapNormal (s : State) (n : Nat) : State := s.changeBank n

/-- A forced swap takes effect. -/
def State.swapForced (s : State) (n : Nat) : State :=
  let s1 := s.changeBank n
  (s1.setChan n { s1.chan n with sr := 0, count := 0, tx := [], rx := [], armed := false, matched := false, viewLeft := 0 }).chanEvent n 4 0x1328

/-- Does the core of channel n step: RUN, no bad word, and no copy under way (R145, R171, R173)? -/
def State.coreSteps (s : State) (n : Nat) : Bool :=
  let c := s.chan n
  s.bit (pchReg n 0x1100) 0 && decide (c.bad = 0) &&
    !(c.copy.isSome && (c.copyForced || (c.state == 0 && c.count == 0)))

/-- The swap that is due at the start of the next step takes effect. -/
def State.swapDue (s : State) (n : Nat) : State :=
  let c := s.chan n
  if c.force then s.swapForced n
  else if c.pending && c.state == 0 && c.count == 0 then s.swapNormal n
  else s

/-- A normal swap request (R162, R163): one made while a swap is pending has no further effect. -/
def State.swapRequest (s : State) (n : Nat) : State :=
  let c := s.chan n
  let t := s.fld (pchReg n 0x1104) 8 16
  if c.pending then s
  else s.setChan n { c with pending := true, swapAt := if t = 0 then none else some (s.cyc + t * cycUs) }

/-- Does channel n's core begin a step now: it steps, and has not taken the step in progress? -/
def State.stepBegins (s : State) (n : Nat) : Bool := s.coreSteps n && decide ((s.chan n).stepAt ≤ s.stepNo)

/-- A forced swap request (R163). -/
def State.swapForce (s : State) (n : Nat) : State := s.setChan n { s.chan n with force := true }

/-- SWAP_TIMEOUT: a pending swap reaches its limit and is forced (R163). -/
def State.swapTimeout (s : State) (n : Nat) : State :=
  match (s.chan n).swapAt with
  | some t => if (s.chan n).pending && decide (t ≤ s.cyc) && !(s.chan n).force then (s.swapForce n).chanSticky n 13 else s
  | none => s

/-! ## The sequencer step (R148 to R151) -/

/-- The input that a 4-bit code selects (R150). -/
def State.seqInput (s : State) (n pins code : Nat) : Bool :=
  let c := s.chan n
  if code < 4 then pins.testBit code
  else if code = 4 then s.flagSeen (flagKey n (s.fld (pchCfg n c.active 0x0C) 0 6))
  else if code = 5 then s.flagSeen (flagKey n (s.fld (pchCfg n c.active 0x0C) 8 6))
  else if code = 6 then c.matched
  else if code = 7 then c.tx.isEmpty
  else if code = 8 then decide (c.rx.length = 16)
  else if code = 9 then decide (s.srLen n ≤ c.count)
  else if code = 10 then s.sout n
  else if code = 11 then c.taq.isEmpty
  else code == 13

/-- The input-select set of the step. -/
def State.inputSet (s : State) (n : Nat) : Nat :=
  s.fld (pchCfg n (s.chan n).active (if (s.chan n).isel then 8 else 4)) 0 16

/-- The number of the LUT entry of the step (R148). -/
def State.lutIndex (s : State) (n pins : Nat) : Nat :=
  let set := s.inputSet n
  (s.chan n).state * 16 + bit01 (s.seqInput n pins (bitsOf set 12 4)) * 8 + bit01 (s.seqInput n pins (bitsOf set 8 4)) * 4 +
    bit01 (s.seqInput n pins (bitsOf set 4 4)) * 2 + bit01 (s.seqInput n pins (bitsOf set 0 4))

/-- Does the set select a reserved input code? -/
def setReserved (set : Nat) : Bool := [0, 4, 8, 12].any (fun i => decide (14 ≤ bitsOf set i 4))

/-- The FIFO field: pushes and pops (R151). -/
def State.fifoOp (s : State) (n op : Nat) : State :=
  let s1 := if 2 ≤ op then s.rxPush n (pushWord (s.msbFirst n) (s.chan n).sr (s.chan n).count) else s
  if op % 2 = 1 then s1.txPop n else s1

/-- The SHIFT field. -/
def State.shiftOp (s : State) (n op : Nat) (sin : Bool) : State :=
  if op = 1 then s.shiftOne n sin
  else if op = 2 then s.setChan n { s.chan n with count := 0 }
  else if op = 3 then s.chanSticky n 6
  else s

/-- The CNT field (R149, R161). -/
def State.cntOp (s : State) (n op : Nat) : State :=
  let a := pchReg n 0x1160
  if op = 1 then s.bumpBy a 1
  else if op = 2 then s.bumpBy a (2 ^ 64 - 1)
  else if op = 3 then { s with cnts := Tab.set (fun _ => 0) s.cnts a (dword (s.reg64 (pchReg n 0x1170))) }
  else s

/-- The effects of an entry, in the order of R151. -/
def State.execEntry (s : State) (n : Nat) (e : Word) (pins : Nat) : State :=
  let sel := s.reg (pchCfg n (s.chan n).active 0x0C)
  let s1 := s.fifoOp n (fieldOf e 19 2)
  let out := s1.sout n
  let s2 := s1.shiftOp n (fieldOf e 17 2) (pins.testBit (s.fld (pchCfg n (s.chan n).active 0) 9 2))
  let s3 := (List.range 4).foldl (fun st p => st.poutPin n p (fieldOf e (5 + 2 * p) 2) (bitOf e (13 + p)) out) s2
  let s4 := (s3.flagOp (flagKey n (fieldOf sel 0 6)) (fieldOf e 21 2)).flagOp (flagKey n (fieldOf sel 8 6)) (fieldOf e 23 2)
  let s5 := (s4.timerOp n (fieldOf e 25 3)).cntOp n (fieldOf e 30 2)
  let s6 := if bitOf e 29 then s5.chanEvent n 5 0x1320 else s5
  s6.setChan n { s6.chan n with state := fieldOf e 0 5, isel := bitOf e 28 }

/-- What the check bits of the entry at index `i` of the active bank find (R173): answers whether the step is executed. -/
def State.lutEcc (s : State) (n i : Nat) (ecc : EccFinding) : State × Bool :=
  match ecc with
  | .clean => (s, true)
  | .single => ((s.chanSticky n 7).chanFinding n 1 7, true)
  | .double =>
    let c := s.chan n
    (((s.setChan n { c with bad := c.bad ||| 2 ^ (512 * bit01 c.active + i) }).chanSticky n 7).chanF2 n 7, false)

/-- SEQUENCER_STEP: one step of channel n's core (R151). A core steps at most once in each step of the common enable. A core that an
uncorrectable entry has stopped finds it again once its pads have been released (R388). -/
def State.seqStep (s : State) (n : Nat) (ecc : EccFinding) : State :=
  if s.stepBegins n then
    let pins := s.pinsIn n
    let s0 := (s.sense n).swapDue n
    let s1 := s0.setChan n { s0.chan n with stepAt := s.stepNo + 1 }
    let i := s1.lutIndex n pins
    let s2 := if setReserved (s1.inputSet n) then s1.chanSticky n 6 else s1
    let (s3, ok) := s2.lutEcc n i ecc
    if ok then s3.execEntry n (s3.reg (pchReg n (0x800 * bit01 (s3.chan n).active + 4 * i))) pins else s3
  else if s.bit (pchReg n 0x1100) 0 && decide ((s.chan n).bad ≠ 0) && (s.chan n).copy.isNone && !s.padsSafe n then
    (s.chanSticky n 7).chanF2 n 7
  else s

/-! ## Timed actions (R156 to R158) -/

/-- The effect of an action with the second word `w` at time `t`. -/
def State.actionEffect (s : State) (n t : Nat) (w : Word) : State :=
  let op := fieldOf w 16 4
  let pins := fun (st : State) => (List.range 4).foldl (fun st p =>
    if bitOf w (20 + p) then st.pinWrite n p (bitOf w (24 + p)) (bitOf w (28 + p)) else st)
      (st.setChan n { st.chan n with pinsAt := fieldOf w 20 4 })
  if op = 0 then pins s
  else if op = 1 then s.setChan n { s.chan n with matched := true }
  else if op = 2 then s.arm n (t * 256)
  else if op = 3 then (pins s).setChan n { (pins s).chan n with matched := true }
  else s.swapRequest n

/-- TIMED_ACTION_EXECUTE: the head entry, once its time is reached; at most one in a TIME cycle. -/
def State.timedAction (s : State) (n : Nat) : State :=
  let c := s.chan n
  match c.taq with
  | [] => s
  | (t, w) :: q =>
    if s.pinReached t && decide (c.taqAt ≤ s.cyc) && !(c.copy.isSome && (c.copyForced || decide (c.bad ≠ 0) || (c.state == 0 && c.count == 0))) then
      let s1 := s.setChan n { c with taq := q, taqAt := s.cyc + 1, pinsAt := 0 }
      if 8 < s.pinPast t then
        let s2 := s1.chanEvent n 2 0x1310
        if s.bit (pchReg n 0x1100) 1 then s2 else s2.actionEffect n t w
      else s1.actionEffect n t w
    else s

/-- An entry joins the queue: false where the queue is full. -/
def State.taqPush (s : State) (n t : Nat) (w : Word) : State × Bool :=
  let c := s.chan n
  if 16 ≤ c.taq.length then (s, false) else (s.setChan n { c with taq := c.taq ++ [(t % 2 ^ 48, w)] }, true)

/-! ## Spare cores (R171, R172) -/

/-- MUX.CORE of channel n. -/
def State.muxCore (s : State) (n : Nat) : Nat := s.fld (pchReg n 0x1108) 8 4

/-- Is spare core i in use: does it serve a channel, or is one being copied into it? -/
def State.spareCoreUsed (s : State) (i : Nat) : Bool :=
  (List.range 256).any (fun n => s.muxCore n == i + 1 || (s.chan n).copy == some (i + 1))

/-- May the copy of channel n take place now: the core is in an F2 fault, or stands at state 0 with count 0, or is forced? -/
def State.copyReady (s : State) (n : Nat) : Bool :=
  let c := s.chan n
  c.copy.isSome && (decide (c.bad ≠ 0) || c.copyForced || (c.state == 0 && c.count == 0))

/-- CORE_COPY_FORCE: after 10 ms of waiting the copy takes place regardless (R171). -/
def State.copyForce (s : State) (n : Nat) : State :=
  let c := s.chan n
  if c.copy.isSome && !s.copyReady n && decide (c.copyAt + 10 * cycMs ≤ s.cyc) then
    (s.setChan n { c with copyForced := true }).chanSticky n 4
  else s

/-- CORE_COPY_COMPLETE (R171, R172): the target core continues from the copied state, in input-select set 0 (R148), unless an
uncorrectable error was met; a word that is known to hold one is met. An error that the copy corrects shows as any other (R373). -/
def State.copyEnd (s : State) (n : Nat) (ecc : EccFinding) : State :=
  if s.copyReady n then
    let c := s.chan n
    let t := c.copy.getD 0
    let c1 := { c with copy := none, copyForced := false }
    if ecc = .double ∨ c.bad ≠ 0 then
      if t = 0 then s.setChan n c1
      else
        (((s.setChan n { c1 with bad := 2 ^ 1024 - 1, isel := false, held := true }).setFld (pchReg n 0x1108) 8 4 t).chanSticky n 7).chanF2 n 7
    else
      let s1 := (s.setChan n { c1 with isel := false }).setFld (pchReg n 0x1108) 8 4 t
      if ecc = .single then (s1.chanSticky n 7).chanFinding n 1 7 else s1
  else s

/-! ## Electrical diagnostics (R166 to R170) -/

/-- A finding of R166 to R169: its sticky bit, its count, and its report in the class that DIAG_CFG names at bit `clsAt`. -/
def State.diagFinding (s : State) (n stickyBit clsAt : Nat) : State :=
  let cls := s.fld (pchReg n 0x1200) clsAt 2
  let s1 := s.chanEvent n stickyBit 0x1330
  if cls = 2 then s1.chanF2 n stickyBit else s1.chanFinding n cls stickyBit

/-- Does a finding that still stands recur: its class, at bit `clsAt` of DIAG_CFG, is F2, and the channel's pads have been released (R388)? -/
def State.recurs (s : State) (n clsAt : Nat) : Bool := s.fld (pchReg n 0x1200) clsAt 2 == 2 && !s.padsSafe n

/-- Is pin p declared short? -/
def State.pinShort (s : State) (n p : Nat) : Bool := s.bit (pchReg n 0x1210) p || s.bit (pchReg n 0x1210) (4 + p)

/-- SHORT_DETECT (R166) on a pin with RB_EN = 1 and OE = 1: the pad has disagreed with OUT for 1 µs of OE = 1 in which OUT did not change. A pin
that drives into a short sits in current limit (R473). -/
def State.shortDetect (s : State) (n p : Nat) : State :=
  let c := s.chan n
  if s.bit (pchReg n 0x1200) p && c.oe.testBit p && (!s.pinShort n p || s.recurs n 20) &&
      decide (Tab.get (fun _ => 0) c.outAt p + cycUs ≤ s.cyc) then
    let hi := c.out.testBit p != s.pinInv n p
    let s1 := s.setBit (pchReg n 0x1210) (if hi then p else 4 + p) true
    let s2 := if (s.padDriven n p).isSome then s1.chanSticky n 12 else s1
    s2.diagFinding n 8 20
  else s

/-- A read of DIAG_STAT (R166 to R169): the live bits as a sample leaves them, and ILIM of the pins whose drivers drive, which sets its sticky flag
where it shows: 1 in a standing short (R473), free otherwise. -/
def State.diagStat (s : State) (n : Nat) : State × Word :=
  let s1 := s.sense n
  let lim := pinBits (fun p => (s.padDriven n p).isSome && (s1.pinShort n p || freeBool (s1.freeCtr + p)))
  let s2 := { s1 with freeCtr := s1.freeCtr + 4 }
  (s2.setBit (pchReg n 0x1110) 12 (s2.bit (pchReg n 0x1110) 12 || lim != 0), setBits (s1.reg (pchReg n 0x1210)) 12 4 lim)

/-- The run of consecutive samples of pin p that speak against its OPEN bit. -/
def State.openRun (s : State) (n p : Nat) : Nat := Tab.get (fun _ => 0) (s.chan n).openRuns p

/-- Set that run. -/
def State.setOpenRun (s : State) (n p k : Nat) : State :=
  s.setChan n { s.chan n with openRuns := Tab.set (fun _ => 0) (s.chan n).openRuns p k }

/-- The test is noted, and the level from before its pulse is held for 200 ns more. -/
def State.owDone (s : State) (n p : Nat) : State :=
  let c := s.chan n
  let level := (s.owLevel n p).getD (freeBool s.freeCtr)
  s.free.setChan n { c with
    owAt := Tab.set (fun _ => none) c.owAt p (some s.cyc), owHold := Tab.set (fun _ => none) c.owHold p (some (s.cyc + 100, level)) }

/-- OPEN_WIRE_TEST (R167) at the end of the pulse: `followed` says that the pin followed the pull. -/
def State.openWireTest (s : State) (n p : Nat) (followed : Bool) : State :=
  if s.owDue n p then
    let s0 := s.owDone n p
    if followed = s.bit (pchReg n 0x1210) (8 + p) then
      if followed && s.recurs n 22 then (s0.setOpenRun n p 0).diagFinding n 9 22 else s0.setOpenRun n p 0
    else
      let k := s.openRun n p + 1
      if s.fld (pchReg n 0x1204) 16 4 ≤ k then
        let s1 := (s0.setOpenRun n p 0).setBit (pchReg n 0x1210) (8 + p) followed
        if followed then s1.diagFinding n 9 22 else s1
      else s0.setOpenRun n p k
  else s

/-- Has REV_PIN shown an edge since RUN last became 1, and then stood for three windows against REV_IDLE (R168)? -/
def State.reversed (s : State) (n : Nat) : Bool :=
  let p := s.revPin n
  s.bit (pchReg n 0x1200) 10 && (s.chan n).shown.testBit (2 * p) && (s.chan n).shown.testBit (2 * p + 1) &&
    decide (s.shownLast n p (s.revIdle n) + 3 * s.revWindow n ≤ s.cyc)

/-- REVERSAL_DETECT (R168): with AUTO_INV, INV is corrected once for each time the active bank becomes active. -/
def State.reversalDetect (s : State) (n : Nat) : State :=
  if s.reversed n && (!s.bit (pchReg n 0x1210) 16 || s.recurs n 24) then
    let s1 := (s.setBit (pchReg n 0x1210) 16 true).diagFinding n 10 24
    if s.bit (pchReg n 0x1200) 12 && !(s.chan n).corrected then
      let inv := s1.fld (pchReg n 0x120C) 0 4 ^^^ s1.fld (pchReg n 0x1208) 16 4
      (s1.setReg (pchReg n 0x120C) (word inv)).setChan n { s1.chan n with corrected := true }
    else s1
  else s

/-- XCVR_FAULT_DETECT (R169): XF_PIN has shown XF_ACT for 1 µs. -/
def State.xcvrFault (s : State) (n : Nat) : State :=
  if s.bit (pchReg n 0x1200) 18 && (!s.bit (pchReg n 0x1210) 17 || s.recurs n 26) && decide ((s.chan n).xfOffAt + cycUs ≤ s.cyc) then
    (s.setBit (pchReg n 0x1210) 17 true).diagFinding n 11 26
  else s

/-- LEG_EXCHANGE_COMPLETE (R170). -/
def State.legEnd (s : State) (n p : Nat) : State :=
  if s.bit (legReg n p) 13 then (s.setBit (legReg n p) 13 false).setFld (legReg n p) 8 2 3 else s

/-! ## The register window (R145 to R147, R165) -/

/-- Is the channel held, and by which bound logical engine (R146)? -/
def State.pchHeld (s : State) (n : Nat) : Bool := (s.holderOf n).isSome

/-- A write of MUX (R165, R171, R172); a controller that gains its channel integrates (R175). -/
def State.muxWrite (s : State) (n : Nat) (d : Word) : WRes :=
  let core := fieldOf d 8 4
  let other := (List.range 8).any (fun i => 8 * (n / 8) + i != n && s.canAB (8 * (n / 8) + i))
  let now := s.muxCore n
  if 8 < core ∨ (bitOf d 0 && other) then .err s
  else if core ≠ now ∧ core ≠ 0 ∧ (s.chan n).copy ≠ some core ∧ s.spareCoreUsed (core - 1) then .err s
  else
    let s0 := plainWord s (pchReg n 0x1108) 3 0 d
    let s1 := if bitOf d 0 && !s.canAB n then s0.canRelease (n / 8) else s0
    let c := s1.chan n
    if core = now then .done (s1.setChan n { c with copy := none, copyForced := false })
    else if c.copy = some core then .done s1
    else .done (s1.setChan n { c with copy := some core, copyAt := s1.cyc, copyForced := false })

/-- A write of a LEG register: BRING_IN is the MCP's (R170). -/
def State.legWrite (s : State) (w : Who) (n p : Nat) (d : Word) : WRes :=
  let retire := fieldOf d 10 2
  let reserve := s.fld (legReg n p) 8 2
  if bitOf d 12 then
    if !isMcp w || reserve == 3 || retire == reserve || retire == 3 || s.bit (legReg n p) 13 then .err s
    else .done ((s.setFld (legReg n p) 10 2 retire).setBit (legReg n p) 13 true)
  else .done (s.setFld (legReg n p) 10 2 retire)

/-- The value checks that do not depend on the channel's state. -/
def pchInRange (o : Nat) (d : Word) : Bool :=
  if o = 0x1000 ∨ o = 0x1020 then decide (1 ≤ fieldOf d 0 6) && decide (fieldOf d 0 6 ≤ 32)
  else if o = 0x100C ∨ o = 0x102C then decide (fieldOf d 0 6 < 48) && decide (fieldOf d 8 6 < 48)
  else if o = 0x112C then decide (fieldOf d 16 4 ≤ 4)
  else if o = 0x1200 then [20, 22, 24, 26].all (fun i => fieldOf d i 2 != 3)
  else if o = 0x1204 then decide (1 ≤ fieldOf d 0 8) && decide (1 ≤ fieldOf d 8 8) && decide (1 ≤ fieldOf d 16 4)
  else if o = 0x1208 then decide (1 ≤ fieldOf d 0 16)
  else true

/-- Is the bank of offset `o` closed to writes (R164)? -/
def State.bankClosed (s : State) (n o : Nat) : Bool :=
  let c := s.chan n
  let bankB := if o < 0x1000 then decide (0x800 ≤ o) else decide (0x1020 ≤ o)
  s.bit (pchReg n 0x1100) 0 && (bankB == c.active || c.pending)

/-- A write of CTL: the reversal check starts anew where RUN becomes 1 (R168). -/
def State.chanCtl (s : State) (n : Nat) (d : Word) : WRes :=
  let c := s.chan n
  if bitOf d 0 && !s.bit (pchReg n 0x1100) 0 then
    plainWrite (s.setChan n { c with
      ran := true, shown := 0, shownAt := (List.range 8).foldl (fun t k => Tab.set (fun _ => 0) t k s.cyc) [], xfOffAt := s.cyc })
      (pchReg n 0x1100) d
  else .plain

/-- A write of DIAG_CFG: open-wire tests of further pins are taken up (R167). -/
def State.diagCfg (s : State) (n : Nat) (d : Word) : WRes :=
  let now := plainWord s (pchReg n 0x1200) (bits 12 0 + bits 19 16 + bits 27 20) 0 d
  .done ((List.range 4).foldl (fun st p => st.owFrom n p (s.owOn n p)) now)

/-- A written LUT entry is good again; with the last one the pads may leave the safe level of a failed copy (R171, R173). -/
def State.entryWritten (s : State) (n o : Nat) (d : Word) : State :=
  let c := s.chan n
  let bad := c.bad &&& (2 ^ 1024 - 1 - 2 ^ (o / 4))
  (s.setReg (pchReg n o) d).setChan n { c with bad := bad, held := c.held && decide (bad ≠ 0) }

/-- Apply a write to the window of channel n whose access rights are settled: `trav` says that Traverse writes, `staged` that the write
comes from staging. -/
def State.pchApply (s : State) (w : Who) (n o : Nat) (d : Word) (trav : Bool := false) (staged : Bool := false) : WRes :=
  let c := s.chan n
  if !pchInRange o d then .err s
  else if o < 0x1040 then
    if s.bankClosed n o then .err s
    else if o < 0x1000 then .done (s.entryWritten n o d)
    else .plain
  else if o = 0x1100 then s.chanCtl n d
  else if o = 0x1200 then s.diagCfg n d
  else if o = 0x1104 then
    let s1 := plainWord s (pchReg n 0x1104) (bits 23 8) 0 d
    .done (if bitOf d 1 then (if bitOf d 2 then s1.swapForce n else s1.swapRequest n) else s1)
  else if o = 0x1120 then
    if 16 ≤ c.tx.length then .err s else .done (s.setChan n { c with tx := c.tx ++ [d] })
  else if o = 0x1128 ∨ o = 0x112C then
    if s.bit (pchReg n 0x1108) 1 && !trav then .err s
    else if o = 0x1128 then .done (s.setChan n { c with taqLo := Tab.set (fun _ => 0) c.taqLo w.master d })
    else
      let (s1, ok) := s.taqPush n ((Tab.get (fun _ => 0) c.taqLo w.master).toNat + fieldOf d 0 16 * 2 ^ 32) d
      if ok then .done s1 else .err s
  else if o = 0x1148 then .done (s.flagWrite (32 * (n / 16)) 32 d true staged)
  else if o = 0x114C then .done (s.flagWrite (32 * (n / 16)) 32 d false staged)
  else if o = 0x1150 then .done (s.flagWrite 512 16 d true staged)
  else if o = 0x1154 then .done (s.flagWrite 512 16 d false staged)
  else if 0x1220 ≤ o ∧ o < 0x1230 then s.legWrite w n ((o - 0x1220) / 4) d
  else .plain

/-- A direct write to the window of channel n (R146). -/
def State.pchWrite (s : State) (w : Who) (n o : Nat) (d : Word) : WRes :=
  if o = 0x1108 then (if isMcp w then s.muxWrite n d else .err s)
  else if s.pchHeld n || !hostOrMcp w then .err s
  else s.pchApply w n o d

/-- A staged write of the serving engine is applied at the boundary (R147): one that a direct write would have had refused is
discarded, with STAGE_DROP. -/
def State.pchStaged (s : State) (w : Who) (n o : Nat) (d : Word) : State :=
  match (if o = 0x1108 then WRes.err s else s.pchApply w n o d false true).orPlain s (pchReg n o) d with
  | .done s1 => s1
  | _ => s.chanEvent n 3 0x1318

/-- STAT (R145). -/
def State.chanStat (s : State) (n : Nat) : Word :=
  let c := s.chan n
  word (c.state + c.count * 2 ^ 5 + bit01 c.matched * 2 ^ 11 + bit01 c.armed * 2 ^ 12 + pinBits (s.padIn n) * 2 ^ 13 + c.out * 2 ^ 17 + c.oe * 2 ^ 21 +
    bit01 (s.padsSafe n) * 2 ^ 25)

/-- Does a read come from the engine that serves the channel's holder? -/
def State.pchEngine (s : State) (w : Who) (n : Nat) : Bool :=
  match s.holderOf n with
  | some l => s.logicalOfMaster w.master == some l
  | none => false

/-- A read of the window of channel n: `popped` is the number of RXD reads that the serving engine has made in the tick
(R146, R154). -/
def State.pchRead (s : State) (w : Who) (n o popped : Nat) : RRes :=
  let c := s.chan n
  if o = 0x1104 then .val s (s.reg (pchReg n o) ||| word (bit01 c.active + bit01 c.pending * 8))
  else if o = 0x110C then .val (s.sense n) (s.chanStat n)
  else if o = 0x1114 then .val s (word (c.tx.length + c.rx.length * 2 ^ 8 + c.taq.length * 2 ^ 16))
  else if o = 0x1118 then .val s (word (c.viewRx + c.viewPin * 2 ^ 8))
  else if o = 0x111C then .val s c.viewSticky
  else if o = 0x1124 then
    if s.pchEngine w n then .val s (if popped < c.viewLeft then (c.rx[popped]?).getD 0 else 0)
    else if s.pchHeld n || !hostOrMcp w then .val s 0
    else
      match c.rx with
      | [] => .val s 0
      | v :: q => .val (s.setChan n { c with rx := q }) v
  else if o = 0x1130 then .low s c.cmp
  else if o = 0x1134 then .high s c.cmp
  else if o = 0x1138 then .low s s.pinTime
  else if o = 0x113C then .high s s.pinTime
  else if o = 0x1140 then .val s (s.flagWord (32 * (n / 16)) 32)
  else if o = 0x1144 then .val s (s.flagWord 512 16)
  else if o = 0x1168 then .low s c.posTick.toNat
  else if o = 0x116C then .high s c.posTick.toNat
  else if o = 0x1210 then .val (s.diagStat n).1 (s.diagStat n).2
  else .plain

/-! ## The tick (R38, R39, R161) -/

/-- The channel's part of the input view at a tick start. -/
def State.chanView (s : State) (n : Nat) : State :=
  let s1 := s.sense n
  let c := s1.chan n
  s1.setChan n { c with
    viewRx := c.rx.length, viewLeft := c.rx.length, viewPin := s.pinsIn n,
    viewSticky := s.reg (pchReg n 0x1110), posTick := s.count (pchReg n 0x1160) }

/-- The commit removes `k` captured words from the receive FIFO (R39, R154). -/
def State.chanPops (s : State) (n k : Nat) : State :=
  let c := s.chan n
  let m := min k c.viewLeft
  s.setChan n { c with rx := c.rx.drop m, viewLeft := c.viewLeft - m }

end Sys2Proof.Machine
end

