-- ==== Sys2Proof/Machine/Can.lean ====
section
/-!
DEFINITION. CAN FD controllers (chapter 07): modes, the transmit queue and its attempts, error counting, acceptance filters, message
buffers and the receive FIFO, and the register window.
-/
namespace Sys2Proof.Machine

/-! ## Status -/

/-- Is controller k attached: has a channel of its group CAN_AB = 1 (R175)? -/
def State.canAttached (s : State) (k : Nat) : Bool := (List.range 8).any (fun i => s.canAB (8 * k + i))

/-- Does what happens on the bus count for the controller: is it attached, or does it use no pins in LOOPBACK (R175)? -/
def State.canOnBus (s : State) (k : Nat) : Bool := s.canAttached k || (s.canc k).mode == 3

/-- SUSP (R190): the controller's unit is at safe level. -/
def State.canSusp (s : State) (k : Nat) : Bool := s.unitSafe (256 + k)

/-- Does the controller count errors: MONITOR and SUSP leave TEC and REC unchanged (R178, R190)? -/
def State.canCounts (s : State) (k : Nat) : Bool := (s.canc k).mode != 2 && !s.canSusp k

/-- ESTATE (R189): 0 error active, 1 error passive, 2 bus-off. -/
def CanSt.estate (c : CanSt) : Nat := if c.busOff then 2 else if 128 ≤ c.tec ∨ 128 ≤ c.rec' then 1 else 0

/-- Set a STICKY bit of controller k. -/
def State.canSticky (s : State) (k i : Nat) : State := s.setBit (canReg k 0x18) i true

/-- A sticky bit whose event is also an F0 of the controller's source (R490). -/
def State.canEvent (s : State) (k i : Nat) : State := (s.canSticky k i).raise (0x54 + k / 8) 0 (k % 8 * 256 + i)

/-- Store a controller whose error counters have changed: entering error passive sets PASSIVE (R189). -/
def State.canErrors (s : State) (k : Nat) (c : CanSt) : State :=
  let s1 := s.setCanc k c
  if (s.canc k).estate = 0 ∧ c.estate = 1 then s1.canEvent k 1 else s1

/-! ## Modes (R178, R179) -/

/-- The conditions for leaving CONFIG. -/
def State.canTimingOk (s : State) (k : Nat) : Bool :=
  let n := s.reg (canReg k 4)
  let d := s.reg (canReg k 8)
  decide (80 ≤ (fieldOf n 0 8 + 1) * (3 + fieldOf n 8 8 + fieldOf n 16 7)) &&
    decide (10 ≤ (fieldOf d 0 5 + 1) * (3 + fieldOf d 8 5 + fieldOf d 16 4)) &&
    decide (fieldOf n 24 7 ≤ fieldOf n 16 7) && decide (fieldOf d 24 4 ≤ fieldOf d 16 4)

/-- A mode takes effect: a change into a mode on the bus is followed by integration; leaving CONFIG needs its conditions. -/
def State.canSetMode (s : State) (k m : Nat) : State :=
  let c := { s.canc k with pend := none }
  if c.mode = 0 ∧ m ≠ 0 ∧ s.canTimingOk k = false then ((s.setCanc k c).setFld (canReg k 0) 0 2 0).canSticky k 7
  else if m = c.mode then s.setCanc k c
  else s.setCanc k { c with mode := m, sync := false }

/-- May controller k be receiving a frame: one in LOOPBACK does so only under SUSP, where it acts as in MONITOR (R190)? Whether it is, is left
free, since no command tells when a received frame starts (log entry 31). -/
def State.canReceiving (s : State) (k : Nat) : Bool :=
  let c := s.canc k
  c.sync && !c.attempt && (c.mode != 3 || s.canSusp k) && s.canAttached k && freeBool s.freeCtr

/-- Is a frame on the bus of an integrated controller, its own attempt or one that it receives (R179)? -/
def State.canFrameOnBus (s : State) (k : Nat) : Bool := ((s.canc k).sync && (s.canc k).attempt) || s.canReceiving k

/-- The MODE field of a CTL write (R179). -/
def State.canModeWrite (s : State) (k m : Nat) : State :=
  let c := s.canc k
  if m = c.mode then s.setCanc k { c with pend := none }
  else if c.pend.isSome || s.canFrameOnBus k then (s.setCanc k { c with pend := some m }).free
  else (s.canSetMode k m).free

/-- A write of CTL (R178, R179, R189). -/
def State.canCtlWrite (s : State) (k : Nat) (d : Word) : State :=
  let c := s.canc k
  let keep := c.mode != 0 && (fieldOf d 2 2 != s.fld (canReg k 0) 2 2)
  let s1 := plainWord s (canReg k 0) (bits 5 0 + bits 8 7 - (if c.mode != 0 then bits 3 2 else 0)) 0 d
  let s2 := if keep then s1.canSticky k 7 else s1
  let s3 := if bitOf d 6 && c.busOff then s2.setCanc k { s2.canc k with boGo := true } else s2
  s3.canModeWrite k (fieldOf d 0 2)

/-- CAN_MODE_CHANGE: the frame on the bus has ended. -/
def State.canModeChange (s : State) (k : Nat) : State :=
  let c := s.canc k
  match c.pend with
  | some m => if c.attempt then s else s.canSetMode k m
  | none => s

/-- CAN_INTEGRATION_COMPLETE: 11 recessive bits have been seen (R178). -/
def State.canIntegrated (s : State) (k : Nat) : State :=
  let c := s.canc k
  if c.mode ≠ 0 ∧ c.sync = false ∧ c.busOff = false then s.setCanc k { c with sync := true } else s

/-- BUS_OFF_RECOVERY_COMPLETE: 128 occurrences of 11 recessive bits have been seen (R189). -/
def State.canRecovered (s : State) (k : Nat) : State :=
  let c := s.canc k
  if c.busOff && c.mode != 0 && s.canCounts k && s.canOnBus k && (c.boGo || s.bit (canReg k 0) 5) then
    s.setCanc k { c with busOff := false, boGo := false, tec := 0, rec' := 0, sync := true }
  else s

/-! ## The message record (R181) -/

/-- The data length of a record's control word: 0 to 64 bytes for an FD frame, at most 8 for a classic one. -/
def canLength (rtr : Bool) (ctl : Word) : Nat :=
  let dlc := fieldOf ctl 0 4
  if rtr then 0
  else if dlc ≤ 8 ∨ bitOf ctl 4 = false then min dlc 8
  else if dlc = 9 then 12 else if dlc = 10 then 16 else if dlc = 11 then 20 else if dlc = 12 then 24
  else if dlc = 13 then 32 else if dlc = 14 then 48 else 64

/-- The first word of a record of a received frame: a base identifier has [17:0] zero, and an FD frame no RTR (R181). -/
def recordId (f : CanFrame) : Word :=
  f.idWord &&& word ((if bitOf f.idWord 29 then bits 28 0 else bits 28 18) + 2 ^ 29 + bit01 (!bitOf f.ctlWord 4) * 2 ^ 30)

/-- The low bits of its second word: a classic frame has neither BRS nor ESI (R181). -/
def recordCtl (f : CanFrame) : Nat := fieldOf f.ctlWord 0 4 + (if bitOf f.ctlWord 4 then fieldOf f.ctlWord 4 3 * 16 else 0)

/-- The 32 words of a received record; data bytes beyond the length are free (R181). -/
def recordWords (ctr : Nat) (f : CanFrame) (filter : Nat) (stamp : Word) : List Word :=
  let n := canLength (bitOf f.idWord 30) f.ctlWord
  let bs := bytesAt (f.data.take n) 0 n ++ (List.range (64 - n)).map (fun i => freeValue 8 (ctr + i))
  [recordId f, word (recordCtl f + filter * 256), stamp, 0] ++
    (List.range 16).map (fun i => word (leNat (bytesAt bs (4 * i) 4))) ++ List.replicate 12 0

/-- Store the words of a record from an address. -/
def State.putWords (s : State) (a : Nat) : List Word → State
  | [] => s
  | w :: ws => (s.setReg a w).putWords (a + 4) ws

/-! ## The transmit queue (R182 to R188) -/

/-- STATE of slot j. -/
def State.slotState (s : State) (k j : Nat) : Nat := s.fld (txStat k j) 0 3

/-- Transmit slot j. -/
def slotAddr (k j : Nat) : Nat := canReg k (0x1000 + 128 * (j % 32))

/-- A request for slot j (R182): queued at the tail, or discarded with TX_DROP. -/
def State.canRequest (s : State) (k : Nat) (direct : Bool) (j : Nat) : State :=
  let fdf := s.bit (slotAddr k j + 4) 4
  let st := s.slotState k j
  if st = 1 ∨ st = 2 ∨ (fdf && (!s.bit (canReg k 0) 2 || s.bit (slotAddr k j) 30)) then s.canSticky k 8
  else
    let c := s.canc k
    (s.setCanc k { c with queue := c.queue ++ [⟨j, direct, false⟩] }).setReg (txStat k j) 1

/-- A cancel of slot j (R188). -/
def State.canCancel (s : State) (k j : Nat) : State :=
  let c := s.canc k
  if s.slotState k j = 1 then
    (s.setCanc k { c with queue := c.queue.filter (fun e => e.slot != j) }).setReg (txStat k j) 4
  else if s.slotState k j = 2 then s.setCanc k { c with cancelled := true }
  else s

/-- The requests of controller k that a tick staged and that are not eligible yet leave its queue; their slots show CANCELLED (R49, R188; log
entry 133). -/
def State.canDropStaged (s : State) (k : Nat) : State :=
  ((s.canc k).queue.filter (fun e => !e.eligible)).foldl (fun (st : State) (e : CanEntry) => st.canCancel k e.slot) s

/-- The slots named by the bits of a word, ascending. -/
def slotsOf (d : Word) : List Nat := (List.range 32).filter (fun j => bitOf d j)

/-- RETRY_CNT counts an attempt after the first; on reaching its maximum it sets RETRY_SAT and raises an F0 (R187, R13). -/
def State.canRetry (s : State) (k : Nat) : State :=
  let n := (s.reg (canReg k 0x1C)).toNat
  if n = 0xFFFFFFFF then s
  else
    let s1 := s.setReg (canReg k 0x1C) (word (n + 1))
    if n + 1 = 0xFFFFFFFF then s1.canEvent k 3 else s1

/-- May controller k start an attempt, as far as it is concerned (R175, R179, R183, R185, R190)? -/
def State.canMayStart (s : State) (k : Nat) : Bool :=
  let c := s.canc k
  (c.mode == 3 || (c.mode == 1 && s.canAttached k)) && c.pend.isNone && c.sync && !c.busOff && !s.canSusp k && !c.attempt &&
    match c.queue with
    | e :: _ => e.eligible
    | [] => false

/-- CAN_ATTEMPT_START: SOF of the head entry; ESI of an FD frame tells an error-passive controller (R181, R187). -/
def State.canStart (s : State) (k : Nat) : State :=
  let c := s.canc k
  if s.canMayStart k then
    match c.queue with
    | e :: q =>
      let c1 := { c with queue := { e with tried := true } :: q, attempt := true, cancelled := false, sofAt := s.ns, sofCyc := s.cyc, filterLog := [] }
      let s1 := (s.setCanc k c1).setReg (txStat k e.slot) 2
      let s2 := s1.setBit (slotAddr k e.slot + 4) 6 (s1.bit (slotAddr k e.slot + 4) 4 && c.estate == 1)
      if e.tried then s2.canRetry k else s2
    | [] => s
  else s

/-- The transmit error counter rises by 8: above 255 the controller goes bus-off (R189). -/
def State.tecUp (s : State) (k : Nat) : State :=
  let c := s.canc k
  if 255 < c.tec + 8 then
    ((s.setCanc k { c with tec := 256, busOff := true, sync := false, boGo := false }).canEvent k 0).bump (canReg k 0x130)
  else s.canErrors k { c with tec := c.tec + 8 }

/-- ACK_RUN counts an acknowledgement error; 128 makes the node LONELY (R191). -/
def State.ackRunUp (s : State) (k : Nat) : State :=
  let c := s.canc k
  if 128 ≤ c.ackRun then s
  else
    let s1 := s.setCanc k { c with ackRun := c.ackRun + 1 }
    if c.ackRun + 1 = 128 then s1.canEvent k 2 else s1

/-- The code of LEC. -/
def lecOf : CanErr → Nat
  | .stuff => 1
  | .form => 2
  | .ack => 3
  | .bit1 => 4
  | .bit0 => 5
  | .crc => 6

/-- May an exception of the standard leave TEC unchanged: an ACK error of an error-passive transmitter, or a stuff error during
arbitration (R189)? -/
def exemptFits (c : CanSt) (e : CanErr) : Bool := (e == .ack && c.estate == 1) || e == .stuff

/-- `n` further steps of 8 (R189): the controller that goes bus-off sends no more of its flag. -/
def State.tecMore (s : State) (k : Nat) : Nat → State
  | 0 => s
  | n + 1 => if (s.canc k).busOff then s else (s.tecUp k).tecMore k n

/-- The attempt ended in an error: `more` further steps of TEC follow while it is flagged. A controller that has lost its pins keeps TEC and
ACK_RUN (R175). -/
def State.canTxError (s : State) (k : Nat) (e : CanErr) (exempt : Bool) (more : Nat) : State :=
  let c := s.canc k
  let s1 := (s.setCanc k { c with lec := lecOf e }).bump (canReg k 0x118)
  if !s.canOnBus k then (if e = .ack then s1.bump (canReg k 0x120) else s1).canFailed k
  else
    let s2 := if e = .ack then (s1.bump (canReg k 0x120)).ackRunUp k else s1.setCanc k { s1.canc k with ackRun := 0 }
    let s3 := if exempt && exemptFits c e then s2 else s2.tecUp k
    (s3.tecMore k more).canFailed k

/-- The transmitter loop delay measured in a frame sent with BRS = 1 is left free (R180). -/
def State.tdcMeasure (s : State) (k j : Nat) : State :=
  if s.bit (canReg k 0) 8 && s.bit (canReg k 0) 3 && s.bit (slotAddr k j + 4) 4 && s.bit (slotAddr k j + 4) 5 then
    (s.setFld (canReg k 0x0C) 16 7 (freeValue 7 s.freeCtr).toNat).free
  else s

/-- The slot's STAMP: P[31:0] between 4 ns and 30 ns after the SOF edge (R181). -/
def State.sofStamp (s : State) (k : Nat) : Word := word (((s.canc k).sofAt + freeBetween 4 30 s.freeCtr) / 2 % 2 ^ 48)

/-! ## Receiving (R192 to R197) -/

/-- A filter register of controller k as it stood at a SOF in TIME cycle `sof`: later writes to it, and those of that cycle, are undone (R192, log
entry 178). -/
def State.filterReg (s : State) (k sof o : Nat) : Word :=
  match ((s.canc k).filterLog.filter (fun x => decide (sof ≤ x.1) && x.2.1 == o)).getLast? with
  | some x => x.2.2
  | none => s.reg (canReg k o)

/-- A write of a filter register is noted (R192). -/
def State.filterNote (s : State) (k o : Nat) (was : Word) : State :=
  s.setCanc k { s.canc k with filterLog := (s.cyc, o, was) :: (s.canc k).filterLog }

/-- Does filter f of controller k match a frame whose SOF came in TIME cycle `sof` (R192)? -/
def State.filterMatches (s : State) (k sof : Nat) (id : Word) (f : Nat) : Bool :=
  let o := 0x400 + 16 * f
  let x := s.filterReg k sof o
  fieldOf (s.filterReg k sof (o + 8)) 0 2 != 0 && bitOf x 29 == bitOf id 29 &&
    (x ^^^ id) &&& s.filterReg k sof (o + 4) &&& word (bits 28 0) == 0 && (!bitOf x 31 || bitOf x 30 == bitOf id 30)

/-- What becomes of a valid frame: the action (2: receive FIFO, 3: discarded, 1: buffer), its buffer, and the filter index
(0x7F: none). -/
def State.canFate (s : State) (k sof : Nat) (id : Word) : Nat × Nat × Nat :=
  match findFrom (fun f => s.filterMatches k sof id f) 128 0 with
  | some f =>
    let x := s.filterReg k sof (0x408 + 16 * f)
    (fieldOf x 0 2, fieldOf x 8 6, f)
  | none => (if s.bit (canReg k 0) 7 then 2 else 3, 0, 0x7F)

/-- BSTAT[b] of controller k. -/
def bufStat (k b : Nat) : Nat := canReg k (0x0C00 + 4 * b)

/-- A record is stored in buffer b (R193). -/
def State.bufStore (s : State) (k b : Nat) (ws : List Word) : State :=
  let was := s.bit (bufStat k b) 0
  let s1 := (s.putWords (canReg k (0x2000 + 128 * b)) ws).setFld (bufStat k b) 8 8 (s.fld (bufStat k b) 8 8 + 1)
  let s2 := s1.setBit (bufStat k b) 0 true
  if was then ((s2.setBit (bufStat k b) 2 true).canSticky k 6).bump (canReg k 0x140) else s2

/-- A record enters the receive FIFO, or is lost to a full one (R196). -/
def State.rxfStore (s : State) (k : Nat) (ws : List Word) : State :=
  let c := s.canc k
  if 64 ≤ c.rxf.length then (s.canSticky k 5).bump (canReg k 0x138) else s.setCanc k { c with rxf := c.rxf ++ [ws] }

/-- A valid frame whose SOF came in TIME cycle `sof` is filtered and stored (R192, R197). The filters of later SOFs need no older writes. -/
def State.canStore (s : State) (k sof : Nat) (f : CanFrame) (stamp : Word) : State :=
  let (act, buf, filter) := s.canFate k sof (recordId f)
  let ws := recordWords s.freeCtr f filter stamp
  let s1 := { s with freeCtr := s.freeCtr + 64 }
  let s2 := (s1.setCanc k { s1.canc k with filterLog := (s1.canc k).filterLog.filter (fun x => decide (sof ≤ x.1)) }).bump (canReg k 0x108)
  if act = 1 then s2.bufStore k buf ws
  else if act = 2 then s2.rxfStore k ws
  else s2.bump (canReg k 0x148)

/-- REC after a valid frame: one less, or a value from 119 to 127 that the standard leaves open. -/
def recDown (r ctr : Nat) : Nat := if r = 0 then 0 else if r ≤ 127 then r - 1 else freeBetween 119 127 ctr

/-- Does the controller receive what the bus carries? Under SUSP one in LOOPBACK acts as in MONITOR (R190). -/
def State.canReceives (s : State) (k : Nat) : Bool :=
  let c := s.canc k
  (c.mode == 1 || c.mode == 2 || (c.mode == 3 && s.canSusp k)) && c.sync && !c.busOff && !c.attempt && s.canAttached k

/-- CAN_FRAME_RECEIVED (R192): a valid frame whose SOF lies `lag` units of P before now. -/
def State.canReceived (s : State) (k : Nat) (f : CanFrame) (lag : Nat) : State :=
  let c := s.canc k
  if s.canReceives k && (!bitOf f.ctlWord 4 || s.bit (canReg k 0) 2) then
    let s1 := s.canStore k (s.cyc - lag) f (word (s.pinTime + 2 ^ 48 - lag % 2 ^ 48))
    let s2 := s1.setCanc k { s1.canc k with ackRun := 0 }
    if s.canCounts k then (s2.canErrors k { s2.canc k with rec' := recDown c.rec' s2.freeCtr }).free else s2
  else s

/-- REC rises, saturating at 255 with REC_SAT (R189, R13). -/
def State.recUp (s : State) (k n : Nat) : State :=
  let c := s.canc k
  if 255 ≤ c.rec' then s
  else
    let s1 := s.canErrors k { c with rec' := min (c.rec' + n) 255 }
    if 255 ≤ c.rec' + n then s1.canEvent k 4 else s1

/-- `n` further steps of 8 (R189). -/
def State.recMore (s : State) (k : Nat) : Nat → State
  | 0 => s
  | n + 1 => (s.recUp k 8).recMore k n

/-- CAN_RECEIVE_ERROR (R189): a protocol exception is one only where CTL.PEX selects it, and a form error otherwise. -/
def State.canRxError (s : State) (k : Nat) (how : CanRxErr) : State :=
  if s.canReceives k then
    match how with
    | .protocolException =>
      if s.bit (canReg k 0) 4 then (s.setCanc k { s.canc k with sync := false }).canSticky k 9
      else
        let s1 := (s.setCanc k { s.canc k with lec := lecOf .form }).bump (canReg k 0x128)
        if s.canCounts k then s1.recUp k 1 else s1
    | .error e eight more =>
      let s1 := (s.setCanc k { s.canc k with lec := lecOf e }).bump (canReg k 0x128)
      if s.canCounts k then (s1.recUp k (if eight then 8 else 1)).recMore k more else s1
  else s

/-- The frame of slot j as it was sent: BRS only in an FD frame and with BRSE = 1. -/
def State.sentFrame (s : State) (k j : Nat) : CanFrame :=
  let a := slotAddr k j
  let ctl := s.reg (a + 4)
  ⟨s.reg a, if s.bit (canReg k 0) 3 then ctl else setBits ctl 5 1 0, (List.range 16).flatMap (fun i => leBytes 4 (s.reg (a + 16 + 4 * i)).toNat)⟩

/-- The attempt succeeded (R187, R188): the slot is SENT and stamped; TEC falls by 1, and rises by 8 for each of `more` findings in an overload flag
that follows (R189); in LOOPBACK the frame is also received. A controller that has lost its pins keeps TEC and ACK_RUN (R175). -/
def State.canTxOk (s : State) (k more : Nat) : State :=
  let c := s.canc k
  match c.queue with
  | [] => s
  | e :: q =>
    let stamp := s.sofStamp k
    let on := s.canOnBus k
    let s1 := (s.setReg (txStat k e.slot) (word (3 + bit01 c.cancelled * 8))).setReg (slotAddr k e.slot + 8) stamp
    let s2 := (s1.setCanc k { c with
      queue := q, attempt := false, cancelled := false, ackRun := if on then 0 else c.ackRun }).bump (canReg k 0x100)
    let s3 := s2.free.canErrors k { s2.canc k with tec := if on then c.tec - 1 else c.tec }
    let s4 := if c.mode = 3 then s3.canStore k c.sofCyc (s3.sentFrame k e.slot) stamp else s3
    if on then s4.tecMore k more else s4

/-- The bits of an attempt drive pin A of the controller's channel; how many edges they make the model does not hold, and the average that
STRENGTH then shows is free (R165, R170). -/
def State.canEdges (s : State) (k : Nat) : State :=
  (List.range 8).foldl (fun st i =>
    if st.canAB (8 * k + i) && !st.padsFloat && (st.canc k).mode == 1 then
      st.free.setFld (legReg (8 * k + i) 0) 0 8 (freeValue 8 st.freeCtr).toNat
    else st) s

/-- CAN_ATTEMPT_END (R187 to R191, R197). -/
def State.canEnd (s : State) (k : Nat) (how : CanEnd) : State :=
  let c := s.canc k
  match c.attempt, c.queue with
  | true, e :: _ =>
    match how with
    | .success more => ((s.tdcMeasure k e.slot).canTxOk k more).canEdges k
    | .arbitrationLost =>
      (((s.setCanc k { c with ackRun := if s.canOnBus k then 0 else c.ackRun }).bump (canReg k 0x110)).canFailed k).canEdges k
    | .error kind exempt more => ((s.tdcMeasure k e.slot).canTxError k kind exempt more).canEdges k
  | _, _ => s

/-! ## The register window (R176, R177) -/

/-- Is the controller held (R176)? -/
def State.canHeld (s : State) (k : Nat) : Bool := (s.holderOf (256 + k)).isSome

/-- A write of NEW_CLR (R194). -/
def State.canNewClr (s : State) (k : Nat) (d : Word) : State :=
  let a := bufStat k (fieldOf d 0 6)
  if s.fld a 8 8 = fieldOf d 8 8 then (s.setBit a 0 false).setBit a 2 false else s

/-- The commit removes `n` captured records from the receive FIFO (R39, R196). -/
def State.canPops (s : State) (k n : Nat) : State :=
  let c := s.canc k
  let m := min n c.viewLeft
  s.setCanc k { c with rxf := c.rxf.drop m, viewLeft := c.viewLeft - m }

/-- Apply a write to the window of controller k whose access rights are settled. -/
def State.canApply (s : State) (k o : Nat) (d : Word) (direct : Bool) : WRes :=
  let c := s.canc k
  if o = 0 then .done (s.canCtlWrite k d)
  else if o = 4 ∨ o = 8 ∨ o = 0x0C then (if c.mode = 0 then .plain else .err (s.canSticky k 7))
  else if o = 0x24 then .done ((slotsOf d).foldl (fun st j => st.canRequest k direct j) s)
  else if o = 0x28 then .done ((slotsOf d).foldl (fun st j => st.canCancel k j) s)
  else if o = 0x44 then
    .done (if bitOf d 0 then s.setCanc k { c with rxf := c.rxf.drop 1, viewLeft := c.viewLeft - 1 } else s)
  else if o = 0x48 then .done (s.canNewClr k d)
  else if 0x400 ≤ o ∧ o < 0xC00 then
    match plainWrite s (canReg k o) d with
    | .done s1 => .done (s1.filterNote k o (s.reg (canReg k o)))
    | r => r
  else if 0x1000 ≤ o ∧ o < 0x2000 then
    let st := s.slotState k ((o - 0x1000) / 128)
    if st = 1 ∨ st = 2 then .done (s.canSticky k 8) else .plain
  else if 0x2000 ≤ o ∧ o < 0x4080 then .err s
  else .plain

/-- A direct write to the window of controller k (R176). -/
def State.canWrite (s : State) (w : Who) (k o : Nat) (d : Word) : WRes :=
  if s.canHeld k || !hostOrMcp w then .err s else s.canApply k o d true

/-- A staged write of the serving engine is applied (R177): a discarded one sets its flag. -/
def State.canStaged (s : State) (k o : Nat) (d : Word) : State :=
  ((s.canApply k o d false).orPlain s (canReg k o) d).state s |>.1

/-- STAT. -/
def State.canStat (s : State) (k : Nat) : Word :=
  let c := s.canc k
  word (c.estate + bit01 c.sync * 4 + bit01 c.attempt * 8 + bit01 (s.canReceiving k) * 16 + bit01 (decide (128 ≤ c.ackRun)) * 32 +
    bit01 (s.canSusp k) * 64 + bit01 c.pend.isSome * 128 + c.lec * 256 + bit01 (!s.canAttached k) * 2048 + c.ackRun * 2 ^ 24)

/-- NEW bits of 32 buffers from `b`. -/
def State.newBits (s : State) (k b : Nat) : Word :=
  word ((List.range 32).foldl (fun v i => v + bit01 (s.bit (bufStat k (b + i)) 0) * 2 ^ i) 0)

/-- Word `i` of entry `j` of the receive FIFO. -/
def State.rxfWord (s : State) (k j i : Nat) : Word := ((((s.canc k).rxf[j]?).getD [])[i]?).getD 0

/-- Does a read come from the engine that serves the controller's holder? -/
def State.canEngine (s : State) (w : Who) (k : Nat) : Bool :=
  match s.holderOf (256 + k) with
  | some l => s.logicalOfMaster w.master == some l
  | none => false

/-- A read of the window of controller k; `popped` is the number of RXF_POP writes that the serving engine has issued in the tick
(R176, R196). -/
def State.canRead (s : State) (w : Who) (k o popped : Nat) : RRes :=
  let c := s.canc k
  if o = 0x10 then .val s.free (s.canStat k)
  else if o = 0x14 then .val s (word (c.tec + c.rec' * 2 ^ 16))
  else if o = 0x20 then .val s (word (c.queue.length + (match c.queue with | e :: _ => e.slot | [] => 0) * 2 ^ 8))
  else if o = 0x30 ∨ o = 0x34 then .val s (s.newBits k ((o - 0x30) * 8))
  else if o = 0x40 then .val s (word (c.rxf.length + c.viewRxf * 2 ^ 8))
  else if 0x4000 ≤ o ∧ o < 0x4080 then
    if s.canEngine w k then .val s (if popped < c.viewLeft then s.rxfWord k popped ((o - 0x4000) / 4) else 0)
    else if s.canHeld k then .val s 0
    else .val s (s.rxfWord k 0 ((o - 0x4000) / 4))
  else .plain

/-- The controller's part of CAN_VIEW_CAPTURE (R38, R185). -/
def State.canView (s : State) (k : Nat) : State :=
  let c := s.canc k
  let s1 := (s.setReg (canReg k 0x38) (s.newBits k 0)).setReg (canReg k 0x3C) (s.newBits k 32)
  s1.setCanc k { c with
    viewRxf := c.rxf.length, viewLeft := c.rxf.length, queue := c.queue.map (fun e => { e with eligible := true }) }

end Sys2Proof.Machine
end

