-- ==== Sys2Proof/Machine/Aes.lean ====
section
/-!
DEFINITION. AES-CMAC (R318): the cipher of FIPS 197 with keys of 128 and 256 bits, and the code of RFC 4493 over it. Blocks are lists of
16 numbers below 256, first byte first.
-/
namespace Sys2Proof.Machine

/-- The substitution table of FIPS 197: byte i is the value of i. -/
def sboxBits : Nat :=
  0x16bb54b00f2d99416842e6bf0d89a18cdf2855cee9871e9b948ed9691198f8e19e1dc186b95735610ef6034866b53e708a8bbd4b1f74dde8c6b4a61c2e2578ba * 2 ^ 1536 +
    0x08ae7a65eaf4566ca94ed58d6d37c8e779e4959162acd3c25c2406490a3a32e0db0b5ede14b8ee4688902a22dc4f816073195d643d7ea7c41744975fec130ccd * 2 ^ 1024 +
    0xd2f3ff1021dab6bcf5389d928f40a351a89f3c507f02f94585334d43fbaaefd0cf584c4a39becb6a5bb1fc20ed00d153842fe329b3d63b52a05a6e1b1a2c8309 * 2 ^ 512 +
    0x75b227ebe28012079a059618c323c7041531d871f1e5a534ccf73f362693fdb7c072a49cafa2d4adf04759fa7dc982ca76abd7fe2b670130c56f6bf27b777c63

/-- The substitution of one byte. -/
def sbox (b : Nat) : Nat := bitsOf sboxBits (8 * b) 8

/-- Multiplication by x in the field. -/
def xtime (b : Nat) : Nat := if b < 128 then 2 * b else (2 * b - 256) ^^^ 0x1B

/-- Element i of a block. -/
def elem (b : List Nat) (i : Nat) : Nat := (b[i]?).getD 0

/-- The exclusive or of two lists. -/
def xorList (a b : List Nat) : List Nat := List.zipWith (· ^^^ ·) a b

/-- The row shifts of a block held column by column. -/
def shiftRows (b : List Nat) : List Nat := (List.range 16).map (fun k => elem b (k % 4 + 4 * ((k / 4 + k % 4) % 4)))

/-- The mixing of one column. -/
def mixColumn (c : List Nat) : List Nat :=
  (List.range 4).map (fun i =>
    xtime (elem c i) ^^^ (xtime (elem c ((i + 1) % 4)) ^^^ elem c ((i + 1) % 4)) ^^^ elem c ((i + 2) % 4) ^^^ elem c ((i + 3) % 4))

/-- The mixing of a block. -/
def mixColumns (b : List Nat) : List Nat := (List.range 4).flatMap (fun j => mixColumn ((b.drop (4 * j)).take 4))

/-- The round constant i. -/
def rcon : Nat → Nat
  | 0 => 1
  | i + 1 => xtime (rcon i)

/-- Word i of the expanded key, given the words before it, for a key of `nk` words. -/
def keyWord (nk i : Nat) (ws : List (List Nat)) : List Nat :=
  let prev := (ws[i - 1]?).getD []
  let t :=
    if i % nk = 0 then xorList ((prev.drop 1 ++ prev.take 1).map sbox) [rcon (i / nk - 1), 0, 0, 0]
    else if 6 < nk ∧ i % nk = 4 then prev.map sbox
    else prev
  xorList ((ws[i - nk]?).getD []) t

/-- The expanded key: 4 words for each round and 4 before the first. -/
def expandKey (key : List Nat) : List (List Nat) :=
  let nk := key.length / 4
  (List.range' nk (4 * (nk + 7) - nk)).foldl (fun ws i => ws ++ [keyWord nk i ws])
    ((List.range nk).map (fun j => (key.drop (4 * j)).take 4))

/-- Round key r. -/
def roundKey (ws : List (List Nat)) (r : Nat) : List Nat := ((ws.drop (4 * r)).take 4).flatten

/-- One block enciphered. -/
def aes (key block : List Nat) : List Nat :=
  let ws := expandKey key
  let nr := key.length / 4 + 6
  let b := (List.range (nr - 1)).foldl (fun b r => xorList (mixColumns (shiftRows (b.map sbox))) (roundKey ws (r + 1)))
    (xorList block (roundKey ws 0))
  xorList (shiftRows (b.map sbox)) (roundKey ws nr)

/-- The numbers of bytes, and back. -/
def natsOf (bs : List Byte) : List Nat := bs.map (·.toNat)
def bytesOf (ns : List Nat) : List Byte := ns.map (BitVec.ofNat 8)

/-- A block doubled in the field of RFC 4493. -/
def dbl (b : List Nat) : List Nat :=
  let n := beNat (bytesOf b)
  natsOf (beBytes 16 ((n * 2 % 2 ^ 128) ^^^ (if n < 2 ^ 127 then 0 else 0x87)))

/-- The chaining over the blocks of a message, `fuel` bounding them. -/
def cmacChain (key k1 k2 : List Nat) : Nat → List Nat → List Nat → List Nat
  | 0, x, _ => x
  | fuel + 1, x, m =>
    if m.length < 16 then aes key (xorList x (xorList (m ++ [0x80] ++ List.replicate (15 - m.length) 0) k2))
    else if m.length = 16 then aes key (xorList x (xorList m k1))
    else cmacChain key k1 k2 fuel (aes key (xorList x (m.take 16))) (m.drop 16)

/-- The AES-CMAC of a message. -/
def cmac (key m : List Byte) : List Byte :=
  let k := natsOf key
  let k1 := dbl (aes k (List.replicate 16 0))
  bytesOf (cmacChain k k1 (dbl k1) (m.length + 1) (List.replicate 16 0) (natsOf m))

end Sys2Proof.Machine
end

