-- ==== Sys2Proof/Machine/Time.lean ====
section
/-!
DEFINITION. The time base (chapter 11): the servo registers and their owner, holdover, the reference clocks, the stamp and
capture queues, launch entries as registers, and the PPS outputs and inputs.
-/
namespace Sys2Proof.Machine

/-- A register of TIME by its offset. -/
def timeReg (o : Nat) : Nat := timeBase + o

/-- TIME.STATUS and TIME.STICKY. -/
def timeStatus : Nat := timeReg 0x40
def timeSticky : Nat := timeReg 0x44

/-! ## The counter (R268, R269) -/

/-- The increment of the counter in one TIME cycle, in 2^−32 ns (R269). -/
def State.inc (s : State) : Nat := (Int.ofNat 0x200000000 + 2 * signed (s.reg (timeReg 0x10)).toNat 32).toNat

/-- One TIME cycle passes: the counter adds INC (R269). -/
def State.timeCycle (s : State) : State := { s with time := s.time + s.inc, cyc := s.cyc + 1 }

/-! ## Capture of the time by its readers (R270) -/

/-- Capture the time for a reading master and path (R270). -/
def State.captureNow (s : State) (w : Who) : State :=
  { s with tb := { s.tb with now := Tab.set (fun _ => 0) s.tb.now (whoKey w) s.time } }

/-- The captured time of a reading master and path; zero before its first capture. -/
def State.capturedNow (s : State) (w : Who) : Nat := Tab.get (fun _ => 0) s.tb.now (whoKey w)

/-! ## The servo (R271 to R273) -/

/-- May the writer write the servo registers (R272)? `stg` is the logical engine of a staged write, checked again when it is
applied; a direct write is judged by its master. -/
def State.servoOwner (s : State) (w : Who) (stg : Option Nat) : Bool :=
  let who := s.fld (timeReg 0x30) 0 6
  match stg with
  | some l => who == l
  | none =>
    if who = 0x20 then isMcp w
    else if who = 0x21 then isHost w
    else decide (who < 0x20) && decide (s.logicalOfMaster w.master = some who)

/-- HOLD_AGE: milliseconds of TIME cycles since the last update, saturating (R273). -/
def State.holdAge (s : State) : Nat := min ((s.cyc - s.tb.holdFrom) / cycMs) 0xFFFFFFFF

/-- The entry into holdover where R273 calls for it: not before the first SERVO_UPD after reset. -/
def State.enterHoldover (s : State) : State :=
  if !s.bit timeStatus 0 && s.tb.everUpd && decide (s.fld (timeReg 0x38) 0 16 ≤ s.holdAge) then
    (((s.setBit timeStatus 0 true).setBit timeSticky 0 true).bump (timeReg 0x108)).raise 0x61 0 0
  else s

/-- A servo update (R273). -/
def State.servoUpdate (s : State) : State :=
  let s1 := (s.setReg (timeReg 0x50) (word (nsOf s.time))).setReg (timeReg 0x54) (word (secOf s.time))
  let s2 := (s1.setBit timeStatus 0 false).setBit timeStatus 1 false
  { s2 with tb := { s2.tb with holdFrom := s2.cyc, everUpd := true } }

/-- A write of OWNER clears HOLD_AGE and sets NO_UPD (R273); HOLDOVER is left as it stands, since SERVO_UPD alone clears it (log entry 20). -/
def State.ownerChanged (s : State) (d : Word) : State :=
  let s1 := (s.setReg (timeReg 0x30) (word (fieldOf d 0 6))).setBit timeStatus 1 true
  { s1 with tb := { s1.tb with holdFrom := s1.cyc } }

/-- The offset in ns that STEP_SEC and STEP_NS name (R271). -/
def State.stepOffset (s : State) : Int := signed (s.reg64 (timeReg 0x18)) 64 * 1000000000 + s.fld (timeReg 0x20) 0 30

/-- A write of 1 to STEP_GO (R271): refused while a step is pending. -/
def State.stepRequest (s : State) : WRes :=
  if s.tb.step.isSome then .err s
  else
    let s1 := { s with tb := { s.tb with step := some s.stepOffset } }
    .done (s1.setBit (tickBase + 8) 2 true)

/-- Is the PPS output's grid instant for the present time reached, and which is it (R288)? -/
def State.ppsInstant (s : State) (o : Nat) : Option Nat :=
  let b := timeReg (0x400 + 0x40 * o)
  let x := trigger (s.reg (b + 8)).toNat (s.fld (b + 4) 0 30)
  let p := s.fld (b + 0x0C) 0 30
  if s.reached x then some ((x + s.past x / p * p) % trigSpan) else none

/-- The grid instants up to the present time are passed over: the next pulse starts at the first one after it, or at START (R288). -/
def State.ppsPass (s : State) (o : Nat) : State :=
  { s with tb := { s.tb with ppsAt := Tab.set (fun _ => none) s.tb.ppsAt o (s.ppsInstant o) } }

/-- Pass over a grid instant that already lies before the present time (R288). -/
def State.ppsSkip (s : State) (o : Nat) : State :=
  match s.ppsInstant o with
  | some x => if 0 < s.past x then { s with tb := { s.tb with ppsAt := Tab.set (fun _ => none) s.tb.ppsAt o (some x) } } else s
  | none => s

/-- A step of the time moves the instants of a motion's timed actions with it (R328): the entries that wait in the queues of the channels
that Traverse feeds. -/
def State.actionsMoved (s : State) (off : Int) : Tab Chan :=
  s.pch.chans.map (fun (n, c) =>
    (n, if s.bit (pchAddr n + 0x1108) 1 then
      { c with taq := c.taq.map (fun (t, w) => (((Int.ofNat t + off / 2) % 2 ^ 48).toNat, w)) } else c))

/-- Would a step by `off` ns make the time negative? It is then rejected (R271). -/
def State.stepNegative (s : State) (off : Int) : Bool := decide (Int.ofNat s.ns + off < 0)

/-- Apply a pending step (R271): the offset is added, FRAC unchanged; a step that would make the time negative is dropped.
Answers the state and whether the time moved. -/
def State.stepTime (s : State) : State :=
  match s.tb.step with
  | none => s
  | some off =>
    let s0 := ({ s with tb := { s.tb with step := none } }).setBit (tickBase + 8) 2 false
    if s.stepNegative off then s0.setBit timeSticky 3 true
    else
      let s1 := { s0 with
        time := (Int.ofNat s.ns + off).toNat * nsUnit + fracOf s.time, pch := { s0.pch with chans := s0.actionsMoved off },
        trav := { s0.trav with skew := s0.trav.skew + off },
        tb := { s0.tb with ppsEnd := s0.tb.ppsEnd.map (fun (o, e) => (o, (Int.ofNat e + off).toNat)) } }
      ((s1.bump (timeReg 0x100)).ppsPass 0).ppsPass 1

/-! ## Reference clocks (R274, R275) -/

/-- A_OK or B_OK of reference x (0: A, 1: B). -/
def State.refOk (s : State) (x : Nat) : Bool := s.bit timeStatus (3 + x)

/-- Which reference is active (0: A, 1: B). -/
def State.refActive (s : State) : Nat := s.fld timeStatus 2 1

/-- The PLL moves hitlessly to reference x (R275): REF_SWITCHED, its count and its event (cause 1 of R490; log entry 21). -/
def State.refSwitch (s : State) (x : Nat) : State :=
  if s.refActive = x then s
  else (((s.setFld timeStatus 2 1 x).setBit timeSticky 1 true).bump (timeReg 0x110)).raise 0x61 0 1

/-- The automatic choice of R275: away from a bad active reference to the other when that one is good. -/
def State.refAuto (s : State) : State :=
  let a := s.refActive
  if s.fld (timeReg 0x48) 0 2 = 0 && Tab.get (fun _ => false) s.tb.refBad a && s.refOk (1 - a) then s.refSwitch (1 - a) else s

/-- Both references are bad: the PLL holds (R275). -/
def State.refHold (s : State) : State :=
  if Tab.get (fun _ => false) s.tb.refBad 0 && Tab.get (fun _ => false) s.tb.refBad 1 && !s.bit timeStatus 5 then
    ((s.setBit timeStatus 5 true).setBit timeSticky 2 true).raise 0x61 1 2
  else s

/-- The monitors of both references start, as the system PLL first locks (R274): each is judged from here. -/
def State.monitorsStart (s : State) : State :=
  { s with tb := { s.tb with monitors := true, refFrom := [(0, s.cyc), (1, s.cyc)] } }

/-- Reference x is declared bad (R274, R275). -/
def State.refDeclareBad (s : State) (x : Nat) : State :=
  if !s.tb.monitors then s
  else
    let s1 := { s with tb := { s.tb with
      refBad := Tab.set (fun _ => false) s.tb.refBad x true, refFrom := Tab.set (fun _ => 0) s.tb.refFrom x s.cyc } }
    ((s1.setBit timeStatus (3 + x) false).refAuto).refHold

/-- Has reference x had the 100 ms without fault after which it is declared good (R274)? -/
def State.refMayBeGood (s : State) (x : Nat) : Bool :=
  s.tb.monitors && decide (Tab.get (fun _ => 0) s.tb.refFrom x + 100 * cycMs ≤ s.cyc)

/-- Reference x is declared good (R274, R275): a PLL in hold leaves it onto this reference. -/
def State.refGood (s : State) (x : Nat) : State :=
  let s1 := { s with tb := { s.tb with
    refBad := Tab.set (fun _ => false) s.tb.refBad x false, refGoodAt := Tab.set (fun _ => 0) s.tb.refGoodAt x s.cyc } }
  let s2 := s1.setBit timeStatus (3 + x) true
  if s2.bit timeStatus 5 then (s2.setBit timeStatus 5 false).refSwitch x else s2.refAuto

/-- REFERENCE_GOOD: not before its 100 ms without fault, and once. -/
def State.refDeclareGood (s : State) (x : Nat) : State := if s.refMayBeGood x && !s.refOk x then s.refGood x else s

/-- A write of REF (R275). -/
def State.refWrite (s : State) (d : Word) : WRes :=
  let sel := fieldOf d 0 2
  if sel = 3 then .err s
  else if sel ≠ 0 ∧ Tab.get (fun _ => false) s.tb.refBad (sel - 1) = true then .err s
  else
    let s1 := s.setReg (timeReg 0x48) (word (fieldOf d 0 4))
    .done (if sel = 0 then s1.refAuto else s1.refSwitch (sel - 1))

/-! ## The stamp and capture queues (R280, R289) -/

/-- Pop the oldest entry of a queue: its first word, and the rest captured for the reader; zero from an empty queue. -/
def State.txtsPop (s : State) (w : Who) (p : Nat) : State × Word :=
  match Tab.get (fun _ => []) s.tb.txts p with
  | [] => (s, 0)
  | e :: q =>
    ({ s with tb := { s.tb with txts := Tab.set (fun _ => []) s.tb.txts p q,
                                txtsHold := Tab.set (fun _ => 0) s.tb.txtsHold (p * 1024 + whoKey w) e.time } }, e.info)

/-- Put an entry into a port's transmit stamp queue of 64 (R280). -/
def State.txtsPush (s : State) (p : Nat) (e : Stamp) : State :=
  let q := Tab.get (fun _ => []) s.tb.txts p
  if q.length < 64 then
    ({ s with tb := { s.tb with txts := Tab.set (fun _ => []) s.tb.txts p (q ++ [e]) } }).bump (timeReg (0x10000 + 0x100 * p + 0x48))
  else (s.setBit timeSticky 5 true).bump (timeReg (0x10000 + 0x100 * p + 0x50))

/-- Pop the oldest capture of a PPS input (R289). -/
def State.capPop (s : State) (w : Who) (i : Nat) : State × Word :=
  match Tab.get (fun _ => []) s.tb.caps i with
  | [] => (s, 0)
  | e :: q =>
    ({ s with tb := { s.tb with caps := Tab.set (fun _ => []) s.tb.caps i q,
                                capsHold := Tab.set (fun _ => 0) s.tb.capsHold (i * 1024 + whoKey w) e.time } }, e.info)

/-- A captured edge of a PPS input enters its queue of 16 (R289). -/
def State.capPush (s : State) (i : Nat) (rising : Bool) : State :=
  let q := Tab.get (fun _ => []) s.tb.caps i
  if q.length < 16 then
    { s with tb := { s.tb with caps := Tab.set (fun _ => []) s.tb.caps i (q ++ [⟨word (2 ^ 31 + bit01 rising), s.time⟩]) } }
  else (s.setBit timeSticky 6 true).bump (timeReg (0x500 + 0x40 * i + 0x20))

/-- The words NS, SEC_LO and SEC_HI of a captured stamp, by their position 0 to 2. -/
def stampWord (t i : Nat) : Word :=
  if i = 0 then word (nsOf t) else if i = 1 then word (secOf t) else word (secOf t / 2 ^ 32)

/-! ## Launch entries as registers (R284, R287) -/

/-- TIME.LAUNCH[n] and TIME.LQ[q]. -/
def launchAddr (n : Nat) : Nat := timeReg (0x20000 + 0x20 * n)
def lqAddr (q : Nat) : Nat := timeReg (0x30000 + 4 * q)

/-- The time X of launch entry n (R276). -/
def State.launchX (s : State) (n : Nat) : Nat := trigger (s.reg (launchAddr n + 8)).toNat (s.fld (launchAddr n + 4) 0 30)

/-- Is GATE entry n open at the present instant (R284)? -/
def State.gateOpenNow (s : State) (n : Nat) : Bool :=
  let a := launchAddr n
  let x := s.launchX n
  let open' := (s.reg (a + 0x0C)).toNat
  let per := (s.reg (a + 0x10)).toNat
  s.bit a 0 && s.bit a 1 && s.reached x &&
    (if per = 0 then decide (s.past x < open') else decide (s.past x % per < open'))

/-- How many ns GATE entry n stays open from now, where it is open (R284); one whose window fills its period does not close. -/
def State.gateLeft (s : State) (n : Nat) : Nat :=
  let a := launchAddr n
  let x := s.launchX n
  let open' := (s.reg (a + 0x0C)).toNat
  let per := (s.reg (a + 0x10)).toNat
  if per = 0 then open' - s.past x else if per ≤ open' then trigSpan else open' - s.past x % per

/-- A write of word `o` of launch entry n (R287): STAT, too, is a word other than CFG. A staged write that is discarded sets LATE_WR; arming
the entry makes it anew, so it may be late again. -/
def State.launchWrite (s : State) (n o : Nat) (d : Word) (staged : Bool) : WRes :=
  let a := launchAddr n
  let per := (s.reg (a + 0x10)).toNat
  let open' := (s.reg (a + 0x0C)).toNat
  if o = 0 then
    if 319 < fieldOf d 8 9 ∨ (bitOf d 0 = true ∧ per ≠ 0 ∧ per < open') then .err s
    else
      let s1 := plainWord s a (bits 3 0 + bits 16 8) 0 d
      .done (if bitOf d 0 then { s1 with sw := { s1.sw with onceLate := Tab.set (fun _ => false) s1.sw.onceLate n false } }
        else s1.setBit (a + 0x18) 0 false)
  else if o < 0x1C then
    if s.bit a 0 then (if staged then .done (s.setBit (a + 0x18) 3 true) else .err s)
    else if o = 0x0C ∧ per ≠ 0 ∧ per < d.toNat then .err s
    else if o = 0x10 ∧ d.toNat ≠ 0 ∧ d.toNat < open' then .err s
    else .plain
  else .plain

/-- A write of a PPS output's register (R288): refused outside its range, and while EN is 1 for all but CFG. -/
def State.ppsOutWrite (s : State) (o r : Nat) (d : Word) : WRes :=
  let b := timeReg (0x400 + 0x40 * o)
  if r = 0 then
    let s1 := s.setReg b (word (fieldOf d 0 2))
    .done (if bitOf d 0 && !s.bit b 0 then
        ({ s1 with tb := { s1.tb with ppsAt := Tab.set (fun _ => none) s1.tb.ppsAt o none } }).ppsSkip o
      else if bitOf d 0 then s1
      else { s1 with tb := { s1.tb with ppsHigh := Tab.set (fun _ => false) s1.tb.ppsHigh o false } })
  else if 0x10 < r then .plain
  else if s.bit b 0 then .err s
  else if r = 0x0C ∧ (fieldOf d 0 30 < 1000 ∨ 1000000000 < fieldOf d 0 30) then .err s
  else if r = 0x10 ∧ (fieldOf d 0 30 < 8 ∨ s.fld (b + 0x0C) 0 30 < fieldOf d 0 30 + 8) then .err s
  else .plain

/-! ## The register window of TIME -/

/-- The servo registers of R272. -/
def isServoReg (o : Nat) : Bool := o == 0x10 || o == 0x18 || o == 0x1C || o == 0x20 || o == 0x24 || o == 0x34

/-- A write at offset `o` of TIME. -/
def timeWrite (s : State) (w : Who) (stg : Option Nat) (o : Nat) (d : Word) : WRes :=
  if isServoReg o then
    if !s.servoOwner w stg then .err s
    else if o = 0x10 then
      WRes.unless (decide (-4294967 ≤ signed d.toNat 32 ∧ signed d.toNat 32 ≤ 4294967)) s .plain
    else if o = 0x20 then WRes.unless (decide (fieldOf d 0 30 ≤ 999999999)) s .plain
    else if o = 0x24 then (if bitOf d 0 then s.stepRequest else .done s)
    else if o = 0x34 then .done (if bitOf d 0 then s.servoUpdate else s)
    else .plain
  else if o = 0x30 then
    WRes.unless (isMcp w && decide (fieldOf d 0 6 ≤ 0x21 ∨ fieldOf d 0 6 = 0x3F)) s (.done (s.ownerChanged d))
  else if o = 0x38 then
    WRes.unless (decide (fieldOf d 0 16 ≠ 0)) s (.done ((s.setReg (timeReg 0x38) (word (fieldOf d 0 16))).enterHoldover))
  else if o = 0x48 then s.refWrite d
  else if 0x400 ≤ o ∧ o < 0x480 then s.ppsOutWrite ((o - 0x400) / 0x40) ((o - 0x400) % 0x40) d
  else if 0x20000 ≤ o ∧ o < 0x28000 then s.launchWrite ((o - 0x20000) / 0x20) ((o - 0x20000) % 0x20) d stg.isSome
  else if 0x30000 ≤ o ∧ o < 0x30500 then WRes.unless (decide (fieldOf d 0 2 ≠ 3)) s .plain
  else .plain

/-- A read at offset `o` of TIME. -/
def timeRead (s : State) (w : Who) (o : Nat) : RRes :=
  if o = 0x00 then let s1 := s.captureNow w; .val s1 (word (nsOf s1.time))
  else if o = 0x04 then .val s (word (fracOf (s.capturedNow w)))
  else if o = 0x08 then .low s (secOf (s.capturedNow w))
  else if o = 0x0C then .high s (secOf (s.capturedNow w))
  else if o = 0x3C then .val s (word s.holdAge)
  else if 0x500 ≤ o ∧ o < 0x580 then
    let i := (o - 0x500) / 0x40
    let r := (o - 0x500) % 0x40
    if r = 0x04 then let (s1, v) := s.capPop w i; .val s1 v
    else if 0x08 ≤ r ∧ r ≤ 0x10 then .val s (stampWord (Tab.get (fun _ => 0) s.tb.capsHold (i * 1024 + whoKey w)) ((r - 8) / 4))
    else if r = 0x14 then .val s (word (Tab.get (fun _ => []) s.tb.caps i).length)
    else .plain
  else if 0x10000 ≤ o ∧ o < 0x12800 then
    let p := (o - 0x10000) / 0x100
    let r := (o - 0x10000) % 0x100
    if r = 0x10 then let (s1, v) := s.txtsPop w p; .val s1 v
    else if 0x14 ≤ r ∧ r ≤ 0x1C then .val s (stampWord (Tab.get (fun _ => 0) s.tb.txtsHold (p * 1024 + whoKey w)) ((r - 0x14) / 4))
    else if r = 0x20 then .val s (word (Tab.get (fun _ => []) s.tb.txts p).length)
    else .plain
  else .plain

/-! ## Events of the time base -/

/-- HOLDOVER_ENTRY (R273). -/
def State.holdoverEntry (s : State) : State := s.enterHoldover

/-- REFERENCE_REVERT (R275): with REVERT = 1 the PLL returns to PREFER once that reference has been good for 10 s. -/
def State.refRevert (s : State) : State :=
  let x := s.fld (timeReg 0x48) 2 1
  if s.fld (timeReg 0x48) 0 2 = 0 && s.bit (timeReg 0x48) 3 && s.refOk x &&
      decide (Tab.get (fun _ => 0) s.tb.refGoodAt x + 10000 * cycMs ≤ s.cyc) then s.refSwitch x
  else s

/-- GATE_WINDOW_OPEN (R284): the entry's window is open at this instant, and STAT.OPEN shows it. -/
def State.gateOpen (s : State) (n : Nat) : State :=
  if s.gateOpenNow n then s.setBit (launchAddr n + 0x18) 0 true else s

/-- GATE_WINDOW_CLOSE (R284). -/
def State.gateClose (s : State) (n : Nat) : State :=
  if s.gateOpenNow n then s else s.setBit (launchAddr n + 0x18) 0 false

/-- PPS_OUT_PULSE (R288): a pulse starts at a grid instant that is reached and has not been pulsed. Under F3 and F4 the
output is held inactive (R383). -/
def State.ppsPulse (s : State) (o : Nat) : State :=
  let b := timeReg (0x400 + 0x40 * o)
  match s.ppsInstant o with
  | some x =>
    if s.bit b 0 && !s.flt.f3 && !s.flt.f4 && decide (Tab.get (fun _ => none) s.tb.ppsAt o ≠ some x) then
      { s with tb := { s.tb with
        ppsHigh := Tab.set (fun _ => false) s.tb.ppsHigh o true,
        ppsAt := Tab.set (fun _ => none) s.tb.ppsAt o (some x),
        ppsEnd := Tab.set (fun _ => 0) s.tb.ppsEnd o (s.ns - s.past x + s.fld (b + 0x10) 0 30) } }
    else s
  | none => s

/-- PPS_OUT_PULSE_END (R288): the pulse has had its width, in ns of device time. -/
def State.ppsPulseEnd (s : State) (o : Nat) : State :=
  if Tab.get (fun _ => false) s.tb.ppsHigh o && decide (Tab.get (fun _ => 0) s.tb.ppsEnd o ≤ s.ns) then
    { s with tb := { s.tb with ppsHigh := Tab.set (fun _ => false) s.tb.ppsHigh o false } }
  else s

/-- The level of a PPS output ball (R288, R383): the inactive level is low for POL 0 and high for POL 1. Without VDD_AON it is high impedance, and low while
PORST_N is low (R468). -/
def State.ppsLevel (s : State) (o : Nat) : Option Bool :=
  if s.mgt.phase = .unpowered then none
  else if s.mgt.porstLow then some false
  else some (xor (Tab.get (fun _ => false) s.tb.ppsHigh o && !s.flt.f3 && !s.flt.f4) (s.bit (timeReg (0x400 + 0x40 * o)) 1))

/-- PPS_IN_CAPTURE (R289): the selected edges are captured. -/
def State.ppsCapture (s : State) (i : Nat) (rising : Bool) : State :=
  if s.bit (timeReg (0x500 + 0x40 * i)) (if rising then 0 else 1) then s.capPush i rising else s

end Sys2Proof.Machine
end

