-- ==== Sys2Proof/Machine/Tick.lean ====
section
/-!
DEFINITION. The tick generator (chapter 02, R32 to R36) and the counter snapshots (R14, R53, R54): the grid of boundaries, the
registers of TICK, and what a boundary does in the generator itself. What a boundary does elsewhere stands in
Machine/Runtime.lean.
-/
namespace Sys2Proof.Machine

/-- A register of TICK by its offset. -/
def tickReg (o : Nat) : Nat := tickBase + o
def tickStatus : Nat := tickReg 8

/-- Are ticks being generated? -/
def State.running (s : State) : Bool := s.bit tickStatus 0

/-- The period in force in ns. -/
def State.periodNs (s : State) : Nat := s.tick.inForce * 1000

/-- The first multiple of `p` at or after `t`. -/
def alignUp (t p : Nat) : Nat := (t + p - 1) / p * p

/-- The next boundary after a tick that starts at `start` (ns) under the period `p` (ns): the first aligned instant that makes the
tick at least p/2 long (R33). -/
def nextBoundary (start p : Nat) : Nat := alignUp (start + (p + 1) / 2) p

/-- The first boundary after RUN has become 1 (R34): the first aligned instant at least 2 µs from now. -/
def State.firstBoundary (s : State) : Nat := alignUp (s.ns + 2000) s.periodNs

/-- Choose the first boundary again (R34). -/
def State.replan (s : State) : State :=
  if s.bit (tickReg 0) 0 && !s.running then { s with tick := { s.tick with next := some s.firstBoundary } } else s

/-- RUN changes from 0 to 1 (R34). A tick in progress goes on (log entry 29). A fault that stopped the tick generator is over (R429, log entry
188). -/
def State.tickStart (s : State) : State :=
  if s.bit (tickReg 0) 0 then s
  else
    let s1 := ({ s with flt := { s.flt with tickFault := false } }).setReg (tickReg 0) 1
    if s1.running then { s1 with tick := { s1.tick with stopping := false } } else s1.replan

/-- RUN changes from 1 to 0 (R34): the current tick runs to its end. -/
def State.tickStop (s : State) : State :=
  let s1 := s.setReg (tickReg 0) 0
  if s1.running then { s1 with tick := { s1.tick with stopping := true } } else { s1 with tick := { s1.tick with next := none } }

/-- A write of TICK.PERIOD (R32, R35). -/
def State.periodWrite (s : State) (d : Word) : WRes :=
  let v := fieldOf d 0 20
  if v < 10 ∨ 1000000 < v ∨ v < s.minPeriod then .err s
  else
    let s1 := s.setReg (tickReg 4) (word v)
    .done (if s1.running then s1.setBit tickStatus 1 true else ({ s1 with tick := { s1.tick with inForce := v } }).replan)

/-- A write at offset `o` of TICK. -/
def tickWrite (s : State) (o : Nat) (d : Word) : WRes :=
  if o = 0 then .done (if bitOf d 0 then s.tickStart else s.tickStop)
  else if o = 4 then s.periodWrite d
  else .plain

/-- The pending period takes effect (R35). -/
def State.takePeriod (s : State) : State :=
  ({ s with tick := { s.tick with inForce := s.fld (tickReg 4) 0 20 } }).setBit tickStatus 1 false

/-- The registers of the tick that starts at `start` and ends at `fin`, in ns (R32, R35, R36). -/
def State.tickRegs (s : State) (start fin : Nat) : State :=
  let len := fin - start
  let s1 := (s.setReg64 (tickReg 0x10) (fin / s.periodNs - 1)).setReg64 (tickReg 0x18) (start / 1000000000)
  let s2 := ((s1.setReg (tickReg 0x20) (word (start % 1000000000))).setReg (tickReg 0x24) (word (len / 1000))).setReg
    (tickReg 0x28) (word len)
  let s3 := s2.bump (tickReg 0x30)
  let s4 := if len = s.periodNs then s3 else (s3.setBit tickStatus 3 true).bump (tickReg 0x38)
  { s4 with tick := { s4.tick with start := start, next := some fin } }

/-- A snapshot request is served by the boundary (R14). -/
def State.snapArm (s : State) : State :=
  if s.tick.snapReq then { s with tick := { s.tick with snapReq := false, snapDue := true } } else s

/-- The generator's part of a boundary that falls at `e` (ns): a held step is applied, the new tick placed on its grid
(R33, R35, R36). -/
def State.tickBegin (s : State) (e : Nat) : State :=
  let s1 := (s.setBit tickStatus 0 true).takePeriod
  let before := s1.ns
  let s2 := s1.stepTime
  let start := (Int.ofNat e + (Int.ofNat s2.ns - Int.ofNat before)).toNat
  (s2.tickRegs start (nextBoundary start s2.periodNs)).snapArm

/-- The instant at which the next boundary would have fallen after RUN was written 0 (R34, R35). A step still held is not applied here: it waits
for STEP_APPLY (log entry 168). -/
def State.tickEnd (s : State) : State :=
  let s1 := (s.setBit tickStatus 0 false).takePeriod
  { s1 with tick := { s1.tick with next := none, stopping := false } }

/-- Is a boundary reached, and which? -/
def State.boundaryReached (s : State) : Option Nat :=
  match s.tick.next with
  | some e => if e ≤ s.ns then some e else none
  | none => none

/-- TICK.INDEX. -/
def State.tickIndex (s : State) : Nat := s.reg64 (tickReg 0x10)

/-- The commit deadline D of the current tick in ns: 4 µs before its end (R37). -/
def State.deadline (s : State) : Nat :=
  match s.tick.next with
  | some e => e - 4000
  | none => 0

/-- STEP_APPLY (R271, R34): while RUNNING is 0 the pending step is applied, and the first boundary chosen again on the stepped time; a step
that is rejected moves neither. -/
def State.stepApply (s : State) : State :=
  match s.running, s.tb.step with
  | false, some off => if s.stepNegative off then s.stepTime else s.stepTime.replan
  | _, _ => s

/-- SNAPSHOT_COPY (R14, R53, R54): every 64-bit event counter is copied into its shadow, and SNAP_SEQ increments. -/
def State.snapshotCopy (s : State) : State :=
  if s.tick.snapDue || (s.tick.snapReq && !s.running) then
    let s1 := { s with snaps := s.cnts }.setReg (swBase + 0x9024) (word s.sw.frames.length)
    let s2 := s1.setReg (sysBase + 0x14) (word ((s1.reg (sysBase + 0x14)).toNat + 1))
    { s2 with tick := { s2.tick with snapDue := false, snapReq := if s.tick.snapDue then s.tick.snapReq else false } }
  else s

/-- A write of SNAP_REQ (R14): requests before the boundary are served together. -/
def State.snapRequest (s : State) (d : Word) : State :=
  if bitOf d 0 then { s with tick := { s.tick with snapReq := true } } else s

end Sys2Proof.Machine
end

