-- ==== Sys2Proof/Machine/SwBuf.lean ====
section
/-!
DEFINITION. The packet buffer (chapter 10): the fields of a frame (R221), cells and header folding, shares and pause watermarks,
references and the verdict on a frame, failed copies, meters and random early drop, and the admission of copies to queues.
-/
namespace Sys2Proof.Machine

/-- A register of SW, and of port p, by its offset. -/
def swReg (o : Nat) : Nat := swBase + o
def portReg (p o : Nat) : Nat := portAddr p + o
/-- PCFG[p] and Q[q]. -/
def pcfg (p : Nat) : Nat := swReg (0x1000 + 16 * p)
def qReg (q o : Nat) : Nat := swReg (0x400000 + 0x40 * q + o)
/-- Register `o` of PAIR[i]. -/
def pairReg (i o : Nat) : Nat := swReg (0x4000 + 0x40 * i + o)

/-! ## The fields of a frame (R221, R11) -/

/-- DA and SA as numbers, most significant byte first. -/
def frameDa (bs : List Byte) : Nat := beNat (bytesAt bs 0 6)
def frameSa (bs : List Byte) : Nat := beNat (bytesAt bs 6 6)

/-- Does a VLAN tag follow SA? -/
def frameTagged (bs : List Byte) : Bool := beNat (bytesAt bs 12 2) == 0x8100

/-- The bytes before the payload: 18 with a tag, 14 without. -/
def frameHead (bs : List Byte) : Nat := if frameTagged bs then 18 else 14

/-- The tag's 16 bits: PCP, DEI, VID. -/
def frameTci (bs : List Byte) : Nat := beNat (bytesAt bs 14 2)

/-- The EtherType. -/
def frameType (bs : List Byte) : Nat := beNat (bytesAt bs (frameHead bs - 2) 2)

/-- Is the frame IPv4: EtherType 0x0800, version 4, IHL of at least 5? -/
def frameIsIp (bs : List Byte) : Bool :=
  let b := beNat (bytesAt bs (frameHead bs) 1)
  frameType bs == 0x0800 && b / 16 == 4 && decide (5 ≤ b % 16)

/-- The IPv4 destination, 0 for a frame that is not IPv4. -/
def frameIpDa (bs : List Byte) : Nat := if frameIsIp bs then beNat (bytesAt bs (frameHead bs + 16) 4) else 0

/-- Is an address (a 48-bit number) a group address? -/
def isGroup (mac : Nat) : Bool := bitsOf mac 40 1 == 1

/-- The HSR tag of R241 stands directly after SA. -/
def hsrTagged (bs : List Byte) : Bool := beNat (bytesAt bs 12 2) == 0x892F

/-- A frame without its HSR tag. -/
def stripHsr (bs : List Byte) : List Byte := bs.take 12 ++ bs.drop 18

/-! ## Pairs (R239) -/

/-- The pair of MODE `m` (1: PRP, 2: HSR) that port p belongs to. -/
def State.pairOf (s : State) (p : Nat) : Option Nat :=
  findFrom (fun i =>
    s.fld (pairReg i 0) 16 2 != 0 && (s.fld (pairReg i 0) 0 6 == p || s.fld (pairReg i 0) 8 6 == p)) 16 0

/-- MODE of the pair of port p: 0 where it is in none. -/
def State.pairMode (s : State) (p : Nat) : Nat :=
  match s.pairOf p with
  | some i => s.fld (pairReg i 0) 16 2
  | none => 0

/-- PORT_A and PORT_B of pair i. -/
def State.pairA (s : State) (i : Nat) : Nat := s.fld (pairReg i 0) 0 6
def State.pairB (s : State) (i : Nat) : Nat := s.fld (pairReg i 0) 8 6

/-! ## Parts of the switch's state -/

/-- Frame f. -/
def State.frame (s : State) (f : Nat) : Option Frame := Tab.get (fun _ => none) s.sw.frames f
/-- Is frame f held by a copy in a queue? -/
def State.isQueued (s : State) (f : Nat) : Bool := s.sw.queues.any (fun (_, cs) => cs.any (fun c => c.frame == f))

/-- Cells of a frame that may be none. -/
def cellsOf (x : Option Frame) : Nat :=
  match x with
  | some x => x.cells
  | none => 0

/-- Is a frame there, and is it stored folded? -/
def foldedOf (x : Option Frame) : Bool :=
  match x with
  | some x => x.kind != 0
  | none => false

/-- Set or drop frame f: the ledger terms that count its cells, its descriptor and its fold follow in the same step (R262, R264). -/
def State.setFrame (s : State) (f : Nat) (x : Option Frame) : State :=
  let old := s.frame f
  let s1 := { s with sw := { s.sw with frames := Tab.set (fun _ => none) s.sw.frames f x } }
  let s2 :=
    if cellsOf x = cellsOf old then s1
    else if s.isQueued f then { s1 with sw := { s1.sw with queuedCells := s1.sw.queuedCells + cellsOf x - cellsOf old } }
    else { s1 with sw := { s1.sw with inflightCells := s1.sw.inflightCells + cellsOf x - cellsOf old } }
  let s3 := if x.isSome = old.isSome then s2 else { s2 with sw := { s2.sw with openFrames := s2.sw.openFrames + bit01 x.isSome - bit01 old.isSome } }
  if foldedOf x = foldedOf old then s3
  else { s3 with sw := { s3.sw with foldedFrames := s3.sw.foldedFrames + bit01 (foldedOf x) - bit01 (foldedOf old) } }
/-- Change frame f. -/
def State.onFrame (s : State) (f : Nat) (g : Frame → Frame) : State :=
  match s.frame f with
  | some x => s.setFrame f (some (g x))
  | none => s
/-- The copies of queue q, head first. -/
def State.queue (s : State) (q : Nat) : List Copy := Tab.get (fun _ => []) s.sw.queues q
/-- Set queue q: the cells of a frame pass between QUEUED_CELLS and INFLIGHT_CELLS with its first copy to be queued and its last to leave
(R262). -/
def State.setQueue (s : State) (q : Nat) (cs : List Copy) : State :=
  let s1 := { s with sw := { s.sw with queues := Tab.set (fun _ => []) s.sw.queues q cs } }
  let cells := fun (fs : List Nat) => fs.eraseDups.foldl (fun n f => n + cellsOf (s.frame f)) 0
  let inn := cells ((cs.map Copy.frame).filter (fun f => !s.isQueued f))
  let out := cells (((s.queue q).map Copy.frame).filter (fun f => !s1.isQueued f))
  if inn = out then s1
  else { s1 with sw := { s1.sw with queuedCells := s1.sw.queuedCells + inn - out, inflightCells := s1.sw.inflightCells + out - inn } }
/-- The transmission in progress on port p. -/
def State.tx (s : State) (p : Nat) : Option Tx := Tab.get (fun _ => none) s.sw.txs p
/-- Set the transmission in progress on port p. -/
def State.setTx (s : State) (p : Nat) (t : Option Tx) : State :=
  { s with sw := { s.sw with txs := Tab.set (fun _ => none) s.sw.txs p t } }
/-- Where a copy's transmission stands among those in progress: at its port, or on ports 42 to 47, which several logical engines share (R20,
R142), at 64 + l. -/
def Copy.lane (c : Copy) : Nat := if c.egress < 42 then c.egress else 64 + c.l
/-- The reception in progress on port p. -/
def State.rx (s : State) (p : Nat) : Option Rx := Tab.get (fun _ => none) s.sw.rxs p
/-- Set the reception in progress on port p. -/
def State.setRx (s : State) (p : Nat) (r : Option Rx) : State :=
  { s with sw := { s.sw with rxs := Tab.set (fun _ => none) s.sw.rxs p r } }
/-- A slot of a logical engine's frame unit (32: the MCP). -/
def State.slot (s : State) (l i : Nat) : Slot := Tab.get (fun _ => Slot.empty) s.sw.slots (32 * l + i)
/-- Set that slot. -/
def State.setSlot (s : State) (l i : Nat) (x : Slot) : State :=
  { s with sw := { s.sw with slots := Tab.set (fun _ => Slot.empty) s.sw.slots (32 * l + i) x } }
/-- The slots of L that hold received frames, oldest first. -/
def State.waitingOf (s : State) (l : Nat) : List Nat := Tab.get (fun _ => []) s.sw.waiting l
/-- Set that list. -/
def State.setWaiting (s : State) (l : Nat) (x : List Nat) : State :=
  { s with sw := { s.sw with waiting := Tab.set (fun _ => []) s.sw.waiting l x } }

/-- A class of drop counters: DROP_CNT[r] and PORTDROP[e][r] (R263). -/
def dropCnt (r : Nat) : Nat := swReg (0x9100 + 8 * r)
def portDrop (e r : Nat) : Nat := swReg (0xA000 + 0x100 * e + 8 * r)
def acceptedCnt : Nat := swReg 0x9080
def forwardedCnt : Nat := swReg 0x9088

/-- The CORE cycle of the present instant: 800 MHz against the 500 MHz of TIME (R27). -/
def State.coreCyc (s : State) : Nat := s.cyc * 8 / 5

/-! ## Cells and shares (R207, R247, R248) -/

/-- Cells of all frames for which `p` holds. -/
def State.cellsWhere (s : State) (p : Nat → Frame → Bool) : Nat :=
  s.sw.frames.foldl (fun n (f, x) =>
    match x with
    | some x => if p f x then n + x.cells else n
    | none => n) 0

/-- SHARE of port p. -/
def State.share (s : State) (p : Nat) : Nat := s.cellsWhere (fun _ x => x.ingress == p)
/-- PFC_SHARE[c] of port p. -/
def State.pfcShare (s : State) (p c : Nat) : Nat := s.cellsWhere (fun _ x => x.ingress == p && x.classed && x.tc == c)

/-- Stops in force of port p as bits: 8 for the link, 0 to 7 for priorities. -/
def State.xoff (s : State) (p : Nat) : Nat := Tab.get (fun _ => 0) s.sw.xoff p
/-- Pause frames that port p has to send, by the same bits. -/
def State.pauseDue (s : State) (p : Nat) : Nat := Tab.get (fun _ => 0) s.sw.pauseDue p

/-- Set a stop's bit, and ask for the pause frame that announces it. -/
def State.setStop (s : State) (p i : Nat) (on : Bool) : State :=
  let x := s.xoff p
  let s1 := { s with sw := { s.sw with
    xoff := Tab.set (fun _ => 0) s.sw.xoff p (x - bit01 (x.testBit i) * 2 ^ i + bit01 on * 2 ^ i),
    pauseDue := Tab.set (fun _ => 0) s.sw.pauseDue p (s.pauseDue p ||| 2 ^ i) } }
  if on then (s1.setBit (portReg p 0x0C) 4 true).raise (0x58 + p / 8) 0 (p % 8 * 256 + 4) else s1

/-- One share of port p against its watermarks (R208). -/
def State.watchShare (s : State) (p i share hi lo : Nat) : State :=
  if (s.xoff p).testBit i then (if share ≤ lo then s.setStop p i false else s)
  else if hi ≤ share then s.setStop p i true else s

/-- The shares of port p have changed (R208): TX_MODE says which of them it acts on. -/
def State.shareWatch (s : State) (p : Nat) : State :=
  if 40 ≤ p then s
  else if s.fld (portReg p 0x100) 0 2 = 1 then
    s.watchShare p 8 (s.share p) (s.fld (portReg p 0x108) 0 17) (s.fld (portReg p 0x10C) 0 17)
  else if s.fld (portReg p 0x100) 0 2 = 2 then
    (List.range 8).foldl (fun st c =>
      if st.bit (portReg p 0x100) (4 + c) then
        st.watchShare p c (st.pfcShare p c) (st.fld (portReg p (0x110 + 4 * c)) 0 17) (st.fld (portReg p (0x130 + 4 * c)) 0 17)
      else st) s
  else s

/-- Ports without their pre-allocated cell take one, lowest first, while the free list has any (R248). -/
def State.portsTake (s : State) : State :=
  (List.range 48).foldl (fun st p =>
    if st.sw.pre.testBit p || st.sw.free == 0 then st
    else { st with sw := { st.sw with pre := st.sw.pre + 2 ^ p, free := st.sw.free - 1, inflightCells := st.sw.inflightCells + 1 } }) s

/-- A cell from the free list. -/
def State.takeCell (s : State) : Option State :=
  if s.sw.free = 0 then none else some { s with sw := { s.sw with free := s.sw.free - 1 } }

/-- The first cell of a frame that begins on port p: the pre-allocated one, or one from the free list where the port holds none. -/
def State.firstCell (s : State) (p : Nat) : Option State :=
  if s.sw.pre.testBit p then
    some ({ s with sw := { s.sw with pre := s.sw.pre - 2 ^ p, inflightCells := s.sw.inflightCells - 1 } }).portsTake
  else s.takeCell

/-- Cells return to the free list. -/
def State.freeCells (s : State) (n : Nat) : State := ({ s with sw := { s.sw with free := s.sw.free + n } }).portsTake

/-! ## Header folding (R250 to R252) -/

/-- The kind of fold that applies to a frame, and the bytes it saves. -/
def foldKind (bs : List Byte) : Nat :=
  let ip5 := frameIsIp bs && beNat (bytesAt bs (frameHead bs) 1) % 16 == 5 && decide (frameHead bs + 20 ≤ bs.length)
  if frameTagged bs then (if ip5 then 4 else if 19 ≤ bs.length then 2 else 0)
  else if ip5 then 3 else if 15 ≤ bs.length then 1 else 0

/-- The saving of a kind. -/
def foldSaving (k : Nat) : Nat :=
  if k = 4 then 28 else if k = 3 then 24 else if k = 2 then 14 else if k = 1 then 10 else 0

/-- The folded bytes of a kind, without those kept: the kind byte first. -/
def foldTemplate (k : Nat) (bs : List Byte) : List Byte :=
  BitVec.ofNat 8 k ::
    (if k = 4 ∨ k = 3 then
      let h := if k = 4 then 18 else 14
      bs.take (h + 2) ++ bytesAt bs (h + 6) 4 ++ bytesAt bs (h + 12) 8
    else bs.take (if k = 2 then 18 else 14))

/-- CRC-32C with an initial value and no final XOR (R227, R251). -/
def crc32c (init : Nat) (bs : List Byte) : Nat := bs.foldl (crcByte 0x82F63B78) init

/-- Entry i of the fold dictionary. -/
def State.dictEntry (s : State) (i : Nat) : List Byte × Nat := Tab.get (fun _ => ([], 0)) s.sw.dict i

/-- Set that entry. -/
def State.setDict (s : State) (i : Nat) (x : List Byte × Nat) : State :=
  { s with sw := { s.sw with dict := Tab.set (fun _ => ([], 0)) s.sw.dict i x } }

/-- Fold a frame's header: the kind it is stored with and its dictionary entry (R251). -/
def State.fold (s : State) (bs : List Byte) (fromPair : Bool) : State × Nat × Nat :=
  let k := foldKind bs
  if !s.bit (swReg 0x9000) 0 || fromPair || k == 0 then (s, 0, 0)
  else
    let t := foldTemplate k bs
    let i := crc32c 0xFFFFFFFF t % 1024
    let (old, refs) := s.dictEntry i
    if old = t then (s.setDict i (t, refs + 1), k, i)
    else if refs = 0 then (s.setDict i (t, 1), k, i)
    else (s.bump (swReg 0x9090), 0, 0)

/-- The cells that `n` stored bytes of a frame of kind `k` need (R252). -/
def cellsFor (n k : Nat) : Nat := max 1 ((n - foldSaving k + 255) / 256)

/-! ## References and the verdict (R237, R238) -/

/-- Is frame f held by anything: its arrival, a queue, a transmission, a frame slot, a capture, or an undecided window? -/
def State.isHeld (s : State) (f : Nat) (x : Frame) : Bool :=
  x.arriving || x.waits || s.isQueued f ||
    s.sw.txs.any (fun (_, t) => match t with | some t => t.copy.frame == f | none => false) ||
    s.sw.slots.any (fun (_, y) => y.rx == some f) || s.sw.captures.any (fun c => c.frame == f)

/-- The last reference to frame f may have been released: its cells are freed, REFS decrements, and the ledger takes its verdict: the
frame's own reason, else forwarded if a copy has left, else the reason of the first failed copy (R238). -/
def State.release (s : State) (f : Nat) : State :=
  match s.frame f with
  | none => s
  | some x =>
    if s.isHeld f x then s
    else
      let s1 := (s.setFrame f none).freeCells x.cells
      let s2 := if x.kind = 0 then s1 else s1.setDict x.entry ((s1.dictEntry x.entry).1, (s1.dictEntry x.entry).2 - 1)
      let s3 := if x.reason ≠ 0 then s2.bump (dropCnt x.reason)
        else if x.left then s2.bump forwardedCnt
        else if x.failed ≠ 0 then s2.bump (dropCnt x.failed)
        else s2.bump (dropCnt 6)
      s3.shareWatch x.ingress

/-- A copy of frame f fails on port e for reason r (R236, R263). The reference it held is gone already. -/
def State.failCopy (s : State) (f e r : Nat) : State :=
  ((s.bump (portDrop e r)).onFrame f (fun x => { x with failed := if x.failed = 0 then r else x.failed }))

/-- The whole frame takes a reason of its own: the first one it meets. -/
def State.failFrame (s : State) (f r : Nat) : State := s.onFrame f (fun x => { x with reason := if x.reason = 0 then r else x.reason })

/-- A ONCE entry is consumed when its copy leaves or is dropped (R285): the first enabled ONCE entry of queue q by X, ties to the lower
index. -/
def State.onceEntry (s : State) (q : Nat) : Option Nat :=
  (List.range 1024).foldl (fun best n =>
    if s.bit (launchAddr n) 0 && !s.bit (launchAddr n) 1 && s.fld (launchAddr n) 8 9 == q then
      match best with
      | none => some n
      | some m => if (s.launchX n + trigSpan - s.launchX m) % trigSpan < trigSpan / 2 then some m else some n
    else best) none

/-- Launch mode of queue q: 0 free, 1 gated, 2 timed (R283). -/
def State.lqMode (s : State) (q : Nat) : Nat := if q < 320 then s.fld (lqAddr q) 0 2 else 0

/-- The copy at the head of queue q is leaving the queue: a timed queue's entry is consumed. -/
def State.consumeOnce (s : State) (q : Nat) : State :=
  if s.lqMode q = 2 then
    match s.onceEntry q with
    | some n =>
      let s1 := ((s.setBit (launchAddr n) 0 false).setBit (launchAddr n + 0x18) 1 true).bump (timeReg 0x118)
      { s1 with sw := { s1.sw with onceLate := Tab.set (fun _ => false) s1.sw.onceLate n false } }
    | none => s
  else s

/-- Remove the head of queue q for reason r. -/
def State.dropHead (s : State) (q r : Nat) : State :=
  match s.queue q with
  | c :: cs => ((((s.consumeOnce q).setQueue q cs).failCopy c.frame c.egress r).release c.frame)
  | [] => s

/-- Remove every queued copy for which `p` holds, for reason r, from all queues. -/
def State.dropQueued (s : State) (p : Copy → Bool) (r : Nat) : State :=
  s.sw.queues.foldl (fun st (q, cs) =>
    if cs.any p then
      let st1 := match cs with
        | c :: _ => if p c then st.consumeOnce q else st
        | [] => st
      let st2 := st1.setQueue q (cs.filter (fun c => !p c))
      (cs.filter p).foldl (fun st c => (st.failCopy c.frame c.egress r).release c.frame) st2
    else st) s

/-! ## Meters and shapers (R255 to R258) -/

/-- Grains in a byte. -/
def grain : Nat := 800000

/-- Bring a bucket up to the present CORE cycle: it gains `rate` grains a cycle up to `size` bytes. Answers what it gained and what was
capped. -/
def Bucket.upTo (b : Bucket) (rate size now : Nat) : Bucket × Nat × Nat :=
  let gain := rate * (now - b.at')
  let full := b.level + Int.ofNat gain
  let cap := Int.ofNat (size * grain)
  if cap < full then (⟨cap, now⟩, gain, (full - cap).toNat) else (⟨full, now⟩, gain, 0)

/-- Note gained and capped grains. -/
def State.grains (s : State) (gain cap : Nat) : State :=
  { s with sw := { s.sw with added := s.sw.added + gain, capped := s.sw.capped + cap } }

/-- Register `o` of METER[m]. -/
def meterReg (m o : Nat) : Nat := swReg (0x500000 + 0x20 * m + o)

/-- Bring both buckets of meter m up to date. -/
def State.meterUp (s : State) (m : Nat) : State :=
  match Tab.get (fun _ => none) s.sw.meters m with
  | none => s
  | some (c, p) =>
    let (c', g1, k1) := c.upTo (s.fld (meterReg m 4) 0 24) (s.fld (meterReg m 0x0C) 0 24) s.coreCyc
    let (p', g2, k2) := p.upTo (s.fld (meterReg m 8) 0 24) (s.fld (meterReg m 0x10) 0 24) s.coreCyc
    let s1 := s.grains (g1 + g2) (k1 + k2)
    { s1 with sw := { s1.sw with meters := Tab.set (fun _ => none) s1.sw.meters m (some (c', p')) } }

/-- The levels of buckets C and P of meter m, in grains; zero of one that is off. -/
def State.meterLevels (s : State) (m : Nat) : Int × Int :=
  match Tab.get (fun _ => none) s.sw.meters m with
  | none => (0, 0)
  | some (c, p) => (c.level, p.level)

/-- The colour (0 green, 1 yellow, 2 red) that meter m gives a copy whose input colour is yellow or green (R257). -/
def State.meterColour (s : State) (m : Nat) (yellow : Bool) : Nat :=
  if !s.bit (meterReg m 0) 0 then 0
  else
    let (c, p) := s.meterLevels m
    if !s.bit (meterReg m 0) 1 then
      (if !yellow && decide (0 < p) && decide (0 < c) then 0 else if 0 < p then 1 else 2)
    else if !yellow && decide (0 < c) then 0 else if 0 < p then 1 else 2

/-- Debit the buckets of meter m by B bytes for a copy of a colour (R257). -/
def State.meterDebit (s : State) (m colour b : Nat) : State :=
  let s0 := s.meterUp m
  match Tab.get (fun _ => none) s0.sw.meters m with
  | none => s0
  | some (c, p) =>
    let d := Int.ofNat (b * grain)
    let both := !s0.bit (meterReg m 0) 1
    let (c', p', n) : Bucket × Bucket × Nat :=
      if colour = 0 then (if both then (⟨c.level - d, c.at'⟩, ⟨p.level - d, p.at'⟩, 2) else (⟨c.level - d, c.at'⟩, p, 1))
      else if colour = 1 then (c, ⟨p.level - d, p.at'⟩, 1)
      else (c, p, 0)
    { s0 with sw := { s0.sw with
      meters := Tab.set (fun _ => none) s0.sw.meters m (some (c', p')), spent := s0.sw.spent + n * b * grain } }

/-- Bring the shaper of queue q up to date. -/
def State.shaperUp (s : State) (q : Nat) : State :=
  match Tab.get (fun _ => none) s.sw.shapers q with
  | none => s
  | some b =>
    let (b', g, k) := b.upTo (s.fld (qReg q 0x20) 0 24) (s.fld (qReg q 0x24) 0 24) s.coreCyc
    let s1 := s.grains g k
    { s1 with sw := { s1.sw with shapers := Tab.set (fun _ => none) s1.sw.shapers q (some b') } }

/-- Is the shaper level of queue q at least 0, or its shaper off (R255)? -/
def State.shaperOpen (s : State) (q : Nat) : Bool :=
  match Tab.get (fun _ => none) (s.shaperUp q).sw.shapers q with
  | none => true
  | some b => decide (0 ≤ b.level)

/-- Debit the shaper of queue q by `n` bytes. -/
def State.shaperDebit (s : State) (q n : Nat) : State :=
  let s0 := s.shaperUp q
  match Tab.get (fun _ => none) s0.sw.shapers q with
  | none => s0
  | some b =>
    { s0 with sw := { s0.sw with
      shapers := Tab.set (fun _ => none) s0.sw.shapers q (some ⟨b.level - Int.ofNat (n * grain), b.at'⟩),
      spent := s0.sw.spent + n * grain } }

/-! ## Queues (R253, R254, R259) -/

/-- DEPTH of queue q: the cells of every copy in it. -/
def State.depth (s : State) (q : Nat) : Nat :=
  (s.queue q).foldl (fun n c => n + match s.frame c.frame with | some x => x.cells | none => 0) 0

/-- Copies in all queues. -/
def State.copies (s : State) : Nat := s.sw.queues.foldl (fun n (_, cs) => n + cs.length) 0

/-- The average of queue q in 17.16 fixed point. -/
def State.avg (s : State) (q : Nat) : Nat := Tab.get (fun _ => 0) s.sw.avgs q

/-- One step of the LFSR: multiplication by x modulo x^32 + x^22 + x^2 + x + 1 (log entry 79). -/
def lfsrStep (a : Nat) : Nat := if 2 ^ 32 ≤ 2 * a then 2 * a ^^^ 0x100400007 else 2 * a

/-- The product of two polynomials modulo the LFSR's. -/
def lfsrMul (a b : Nat) : Nat := (List.range 32).reverse.foldl (fun r i => let d := lfsrStep r; if b.testBit i then d ^^^ a else d) 0

/-- The power `n` of a polynomial, which has at most `fuel` bits. -/
def lfsrPow (a : Nat) : Nat → Nat → Nat
  | 0, _ => 1
  | fuel + 1, n =>
    if n = 0 then 1
    else
      let r := lfsrPow (lfsrMul a a) fuel (n / 2)
      if n % 2 = 1 then lfsrMul r a else r

/-- R of R259: bits [7:0] of the LFSR in the present CORE cycle; it advances every CORE cycle from its last start. -/
def State.redR (s : State) : Nat :=
  let n := s.coreCyc - s.sw.lfsrAt
  lfsrMul (lfsrPow 2 (Nat.log2 n + 1) n) s.sw.lfsr.toNat % 256

/-- p256 of a copy of a colour offered to queue q (R259). -/
def State.p256 (s : State) (q colour : Nat) : Nat :=
  let a := s.avg q / 65536
  let lo := s.fld (qReg q (8 + 8 * colour)) 0 16
  let hi := s.fld (qReg q (8 + 8 * colour)) 16 16
  if a < lo then 0 else if a < hi then s.fld (qReg q (0x0C + 8 * colour)) 0 8 * (a - lo) / (hi - lo) else 256

/-- RED_AVERAGE_UPDATE (R259), once in 256 CORE cycles: every queue's average moves towards its depth, the shift truncating towards minus
infinity. -/
def State.redUpdate (s : State) : State :=
  if s.sw.redNo = s.coreCyc / 256 + 1 then s
  else (List.range 384).foldl (fun st q =>
    let a := Int.ofNat (st.avg q)
    let d := (Int.ofNat (st.depth q) * 65536 - a) / (2 ^ st.fld (qReg q 0) 4 4 : Int)
    if d = 0 then st else { st with sw := { st.sw with avgs := Tab.set (fun _ => 0) st.sw.avgs q (a + d).toNat } }) { s with sw := { s.sw with redNo := s.coreCyc / 256 + 1 } }

/-- The checks of R253 on a copy offered to queue q, in order: the reason it fails for, or 0. -/
def State.admitCheck (s : State) (q colour : Nat) (metered dropRed : Bool) : Nat :=
  if metered && colour == 2 && dropRed then 9
  else if s.bit (qReg q 0) 2 && decide (s.redR < s.p256 q colour) then 10
  else if s.fld (qReg q 4) 0 17 ≤ s.depth q then 11
  else if 131072 ≤ s.copies then 12
  else 0

/-- Offer a copy to queue q (R253): it joins the queue, or fails. Answers whether it was admitted. -/
def State.offer (s : State) (c : Copy) (q colour : Nat) (metered dropRed : Bool) : State × Bool :=
  let r := s.admitCheck q colour metered dropRed
  if r = 0 then (s.setQueue q (s.queue q ++ [c]), true)
  else ((s.failCopy c.frame c.egress r), false)

/-! ## Beginning and growing a frame (R247, R248, R263) -/

/-- Egress credits of a port. -/
def portCredits (p : Nat) : Nat := if p < 8 then 8 else if p < 40 then 4 else if p = 40 then 16 else if p = 41 then 4 else 8

/-- The cells of frame f that are in already are moved to the ports 0 to 39 that send it, which take a credit for each (R255, log entry 136). -/
def State.takeCredits (s : State) (f : Nat) : State :=
  s.sw.txs.foldl (fun st (k, t) =>
    match t, s.frame f with
    | some t, some x =>
      let out := Tab.get (fun _ => 0) st.sw.creditsOut t.copy.egress
      let more := min (portCredits t.copy.egress - out) (x.cells - t.credits)
      if t.copy.frame = f ∧ t.copy.egress < 40 ∧ more ≠ 0 then
        { st with sw := { st.sw with creditsOut := Tab.set (fun _ => 0) st.sw.creditsOut t.copy.egress (out + more) } }.setTx k
          (some { t with credits := t.credits + more })
      else st
    | _, _ => st) s

/-- A frame takes the cells that its stored bytes need: false where the free list is empty. -/
def State.growCells (s : State) (f n : Nat) : State × Bool :=
  match s.frame f with
  | none => (s, true)
  | some x =>
    let need := cellsFor n x.kind - x.cells
    if need ≤ s.sw.free then
      ((({ s with sw := { s.sw with free := s.sw.free - need } }).setFrame f (some { x with cells := x.cells + need })).shareWatch x.ingress, true)
    else
      ((({ s with sw := { s.sw with free := 0 } }).setFrame f (some { x with cells := x.cells + s.sw.free })).shareWatch x.ingress, false)

/-- A frame begins on switch port p: it is accepted when its first byte is written (R263). A frame that finds no first cell counts as
accepted and at once under BUF_FULL. Answers its number. -/
def State.beginFrame (s : State) (p : Nat) (sender : Option Nat) (stamp : Nat) (bs : List Byte) (arriving : Bool) : State × Option Nat :=
  match s.firstCell p with
  | none => ((s.bump acceptedCnt).bump (dropCnt 12), none)
  | some s1 =>
    let (s2, k, i) := s1.fold bs (decide (s1.pairMode p ≠ 0))
    let f := s2.sw.nextFrame
    let x : Frame :=
      { bytes := bs, ingress := p, sender := sender, stamp := stamp, arriving := arriving, bad := false, classed := false, tc := 0,
        granule := s2.sw.granule, kind := k, entry := i, cells := 1, hit := none, act := 0, reason := 0, failed := 0, left := false,
        debits := [], waits := false, limit := none, late := false, tag := 0 }
    let s3 := ({ s2 with sw := { s2.sw with nextFrame := f + 1 } }).setFrame f (some x)
    ((s3.bump acceptedCnt).shareWatch p, some f)

/-- The cut-through copies of frame f in transmission on ports 0 to 39 that a bad end stomps, and its queued copies, which are removed for reason r
(R235, R236). -/
def State.stompCopies (s : State) (f r : Nat) : State :=
  let n := (s.sw.txs.filter (fun (p, t) => decide (p < 40) && (match t with | some t => t.copy.frame == f | none => false))).length
  (s.bumpBy (swReg 0x8040) n).dropQueued (fun c => c.frame == f) r

/-- Frame f goes bad for a reason before or at its end. -/
def State.frameBad (s : State) (f r : Nat) : State :=
  ((s.failFrame f r).onFrame f (fun x => { x with bad := true })).stompCopies f (if r = 12 then 12 else 16)

/-- The bytes of a frame that its cells hold, stored with fold kind k (R252). -/
def cellRoom (cells k : Nat) : Nat := cells * 256 + foldSaving k

/-- The bytes of frame f to be stored are `bs` by now. A frame that finds the free list empty is cut: what found no cell is discarded
(R248). -/
def State.arrive (s : State) (f : Nat) (bs : List Byte) : State :=
  match s.frame f with
  | none => s
  | some x =>
    if x.bad || x.late then s
    else
      let (s1, ok) := s.growCells f bs.length
      if ok then (s1.onFrame f (fun x => { x with bytes := bs })).takeCredits f
      else (s1.onFrame f (fun x => { x with bytes := bs.take (cellRoom x.cells x.kind) })).frameBad f 12

end Sys2Proof.Machine
end

