-- ==== Sys2Proof/Machine/SwPath.lean ====
section
/-!
DEFINITION. The path table (chapter 09): keys and candidate slots (R226 to R228), the command interface (R229), learning and address
ageing (R231, R232), and the choice of a frame's action (R222 to R224).
-/
namespace Sys2Proof.Machine

/-! ## Entries -/

/-- Word `w` of hashed entry i and of masked entry j. -/
def hashedWord (i w : Nat) : Nat := swReg (0x100000 + 32 * i + 4 * w)
def maskedWord (j w : Nat) : Nat := swReg (0x200000 + 64 * j + 4 * w)

/-- A key: KTYPE, KEY_A, KEY_B with KEY_ETYPE, VID. -/
structure PathKey where
  ktype : Nat
  a : Nat
  b : Nat
  vid : Nat
  deriving DecidableEq, Repr

/-- The key string of R227. -/
def PathKey.bytes (k : PathKey) : List Byte := leBytes 4 k.a ++ leBytes 4 k.b ++ leBytes 4 (k.ktype * 4096 + k.vid)

/-- The key of a MAC address. -/
def macPathKey (ktype mac etype vid : Nat) : PathKey := ⟨ktype, mac % 2 ^ 32, mac / 2 ^ 32 + etype * 65536, vid⟩

/-- The candidate slot of a key in bank b. -/
def State.candidate (s : State) (k : PathKey) (b : Nat) : Nat :=
  2048 * b + crc32c (s.reg (swReg (0x10 + 4 * b))).toNat k.bytes % 2048

/-- The seven candidate slots of a key. -/
def State.candidates (s : State) (k : PathKey) : List Nat := (List.range 7).map (s.candidate k)

/-- KTYPE, STATIC and HIT of hashed entry i. -/
def State.entryType (s : State) (i : Nat) : Nat := s.fld (hashedWord i 0) 0 4
def State.entryStatic (s : State) (i : Nat) : Bool := s.bit (hashedWord i 0) 4
def State.entryHit (s : State) (i : Nat) : Bool := s.bit (hashedWord i 0) 5

/-- Does hashed entry i hold a key? -/
def State.entryIs (s : State) (k : PathKey) (i : Nat) : Bool :=
  k.ktype != 0 && s.entryType i == k.ktype && s.fld (hashedWord i 0) 16 12 == k.vid && (s.reg (hashedWord i 1)).toNat == k.a &&
    (s.reg (hashedWord i 2)).toNat == k.b

/-- The slot where a key stands. -/
def State.findKey (s : State) (k : PathKey) : Option Nat := (s.candidates k).find? (s.entryIs k)

/-- Write an entry: eight words. -/
def State.writeEntry (s : State) (i : Nat) (ws : List Word) : State :=
  (List.range 8).foldl (fun st w => st.setReg (hashedWord i w) ((ws[w]?).getD 0)) s

/-- The words of hashed entry i. -/
def State.entryWords (s : State) (i : Nat) : List Word := (List.range 8).map (fun w => s.reg (hashedWord i w))

/-- Invalidate hashed entry i. -/
def State.dropEntry (s : State) (i : Nat) : State := s.writeEntry i []

/-- Is any hashed entry valid? -/
def State.anyEntry (s : State) : Bool :=
  s.regs.any (fun (a, w) => decide (hashedWord 0 0 ≤ a) && decide (a < hashedWord 14336 0) && (a - hashedWord 0 0) % 32 == 0 && fieldOf w 0 4 != 0)

/-! ## Commands (R229, R230) -/

/-- PT_CMD and word `w` of PT_BUF. -/
def ptCmd : Nat := swReg 0x2000
def ptBuf (w : Nat) : Nat := swReg (0x2040 + 4 * w)

/-- The key in PT_BUF. -/
def State.bufKey (s : State) : PathKey :=
  ⟨s.fld (ptBuf 0) 0 4, (s.reg (ptBuf 1)).toNat, (s.reg (ptBuf 2)).toNat, s.fld (ptBuf 0) 16 12⟩

/-- The words of a buffer from word `w`: DEST_HI, ENG and ACT keep the rules of R226 and R229. -/
def State.actionOk (s : State) (w : Nat) (mcp : Bool) : Bool :=
  decide ((s.reg (ptBuf (w + 1))).toNat < 1024) && decide (fieldOf (s.reg (ptBuf (w + 3))) 24 8 = 0) && (mcp || s.reg (ptBuf (w + 2)) == 0)

/-- Is the hashed entry in PT_BUF accepted? -/
def State.bufHashedOk (s : State) (mcp : Bool) : Bool :=
  let t := s.fld (ptBuf 0) 0 4
  decide (1 ≤ t) && decide (t ≤ 3) && s.reg (ptBuf 0) &&& ~~~(word 0x0FFF003F) == 0 && s.reg (ptBuf 3) == 0 && s.actionOk 4 mcp

/-- Is the masked entry in PT_BUF accepted? -/
def State.bufMaskedOk (s : State) (mcp : Bool) : Bool :=
  s.reg (ptBuf 0) &&& ~~~(word 0xFFFF3F03) == 0 && s.actionOk 8 mcp && (List.range 4).all (fun i => s.reg (ptBuf (12 + i)) == 0)

/-- The command in progress ends with a CODE and an INDEX; where it has no index that field is not stated, and is free. -/
def State.ptAnswer (s : State) (code : Nat) (index : Option Nat) : State :=
  match index with
  | some i => { s with sw := { s.sw with ptDone := word (code + i * 65536) } }
  | none => ({ s with sw := { s.sw with ptDone := word (code + (freeValue 14 s.freeCtr).toNat * 65536) } }).free

/-- The entry in PT_BUF, marked STATIC. -/
def State.bufEntry (s : State) : List Word := ((List.range 8).map (fun w => s.reg (ptBuf w))).set 0 (s.reg (ptBuf 0) ||| 16)

/-- INSERT. -/
def State.ptInsert (s : State) (mcp : Bool) : State :=
  if !s.bufHashedOk mcp then s.ptAnswer 3 none
  else
    let k := s.bufKey
    match s.findKey k, (s.candidates k).find? (fun i => s.entryType i == 0), (s.candidates k).find? (fun i => !s.entryStatic i) with
    | some i, _, _ => (s.writeEntry i s.bufEntry).ptAnswer 0 (some i)
    | none, some i, _ => (s.writeEntry i s.bufEntry).ptAnswer 0 (some i)
    | none, none, some i => ((s.writeEntry i s.bufEntry).bump (swReg 0x8028)).ptAnswer 4 (some i)
    | none, none, none => s.ptAnswer 1 none

/-- DELETE. -/
def State.ptDelete (s : State) : State :=
  let t := s.fld (ptBuf 0) 0 4
  if t = 0 ∨ 3 < t then s.ptAnswer 3 none
  else
    match s.findKey s.bufKey with
    | some i => (s.dropEntry i).ptAnswer 0 (some i)
    | none => s.ptAnswer 2 none

/-- LOOKUP. -/
def State.ptLookup (s : State) : State :=
  let t := s.fld (ptBuf 0) 0 4
  if t = 0 ∨ 3 < t then s.ptAnswer 3 none
  else
    match s.findKey s.bufKey with
    | some i => ((List.range 8).foldl (fun st w => st.setReg (ptBuf w) (s.reg (hashedWord i w))) s).ptAnswer 0 (some i)
    | none => s.ptAnswer 2 none

/-- WRITE_MASKED. -/
def State.ptWriteMasked (s : State) (mcp : Bool) (j : Nat) : State :=
  if s.bufMaskedOk mcp then
    ((List.range 16).foldl (fun st w => st.setReg (maskedWord j w) (s.reg (ptBuf w))) s).ptAnswer 0 (some j)
  else s.ptAnswer 3 none

/-- The learned entries: valid, and not STATIC. -/
def State.learnedEntries (s : State) : List Nat :=
  s.regs.filterMap (fun (a, w) =>
    if hashedWord 0 0 ≤ a ∧ a < hashedWord 14336 0 ∧ (a - hashedWord 0 0) % 32 = 0 ∧ fieldOf w 0 4 ≠ 0 ∧ bitOf w 4 = false then
      some ((a - hashedWord 0 0) / 32) else none)

/-- CLEAR_LEARNED. -/
def State.ptClearLearned (s : State) : State := ((s.learnedEntries).foldl (fun st i => st.dropEntry i) s).ptAnswer 0 none

/-- A write of PT_CMD (R229): GO starts the command, which takes effect in one step and reports at its end. -/
def State.ptWrite (s : State) (mcp : Bool) (d : Word) : WRes :=
  let op := fieldOf d 0 3
  if s.bit ptCmd 31 || op == 0 || decide (5 < op) then .err s
  else
    let s1 := s.setReg ptCmd (word (op + fieldOf d 16 11 * 2 ^ 16 + bit01 (bitOf d 30) * 2 ^ 31))
    .done (if bitOf d 30 then
      (if op = 1 then s1.ptInsert mcp else if op = 2 then s1.ptDelete else if op = 3 then s1.ptLookup
       else if op = 4 then s1.ptWriteMasked mcp (fieldOf d 16 11) else s1.ptClearLearned)
    else s1)

/-- PT_COMMAND_COMPLETE (R229). -/
def State.ptEnd (s : State) : State :=
  if s.bit ptCmd 31 then (s.setReg (swReg 0x2004) s.sw.ptDone).setBit ptCmd 31 false else s

/-! ## Learning and ageing (R231, R232) -/

/-- SOURCE_LEARN (R231): the oldest frame that waits is learned; learning is suspended while CLEAR_LEARNED runs (R230). -/
def State.sourceLearn (s : State) : State :=
  match s.sw.learns with
  | [] => s
  | (p, sa, vid) :: rest =>
    if s.bit ptCmd 31 && s.fld ptCmd 0 3 == 5 then s
    else
      let s1 := { s with sw := { s.sw with learns := rest } }
      let k := macPathKey 1 sa 0 vid
      let lo := if p < 32 then 2 ^ p else 0
      let hi := if p < 32 then 0 else 2 ^ (p - 32)
      match s1.findKey k, (s1.candidates k).find? (fun i => s1.entryType i == 0) with
      | some i, _ =>
        let s2 := s1.setBit (hashedWord i 0) 5 true
        if s1.entryStatic i then s2
        else if s1.reg (hashedWord i 4) = word lo ∧ s1.reg (hashedWord i 5) = word hi then s2
        else (((s2.setReg (hashedWord i 4) (word lo)).setReg (hashedWord i 5) (word hi)).setReg (hashedWord i 6) 0).bump (swReg 0x8018)
      | none, some i =>
        (s1.writeEntry i [word (1 + 32 + vid * 65536), word k.a, word k.b, 0, word lo, word hi, 0, s1.reg (swReg 0x34)]).bump (swReg 0x8010)
      | none, none => s1.bump (swReg 0x8020)

/-- Is the sweep's visit of hashed entry i due: once per AGE_PERIOD, and never at 0 (R232)? -/
def State.ageDue (s : State) (i : Nat) : Bool :=
  let period := s.fld (swReg 0x30) 0 16 * 1000 * cycMs
  let last := Tab.get (fun _ => 0) s.sw.swept i
  period != 0 && (last == 0 || decide (last + period ≤ s.cyc + 1))

/-- ADDRESS_AGE_VISIT (R232): the sweep visits hashed entry i. -/
def State.ageVisit (s : State) (i : Nat) : State :=
  if !s.ageDue i then s
  else
    let s1 := { s with sw := { s.sw with swept := Tab.set (fun _ => 0) s.sw.swept i (s.cyc + 1) } }
    if s.entryType i = 0 ∨ s.entryStatic i = true then s1
    else if s.entryHit i then s1.setBit (hashedWord i 0) 5 false
    else (s1.dropEntry i).bump (swReg 0x8030)

/-! ## The action of a frame (R222 to R224) -/

/-- VID and PCP of a frame from port p (R222). -/
def State.frameVid (s : State) (p : Nat) (bs : List Byte) : Nat :=
  if frameTagged bs && frameTci bs % 4096 != 0 then frameTci bs % 4096 else s.fld (pcfg p) 0 12
def State.framePcp (s : State) (p : Nat) (bs : List Byte) : Nat :=
  if frameTagged bs then frameTci bs / 8192 else s.fld (pcfg p) 12 3

/-- The exact-match key of a frame (R223). -/
def State.frameKey (s : State) (p : Nat) (bs : List Byte) : PathKey :=
  let vid := s.frameVid p bs
  let sel := s.fld (pcfg p) 15 2
  if sel = 1 then macPathKey 2 (frameDa bs) (frameType bs) vid
  else if sel = 2 ∧ frameIsIp bs = true then ⟨3, frameIpDa bs, 0, vid⟩
  else macPathKey 1 (frameDa bs) 0 vid

/-- The four words of a frame that masked entries compare (R228). -/
def State.maskWords (s : State) (p : Nat) (bs : List Byte) : List Word :=
  [word (p * 2 ^ 8 + s.frameVid p bs * 2 ^ 16 + s.framePcp p bs * 2 ^ 28 + bit01 (frameIsIp bs) * 2 ^ 31), word (frameDa bs),
   word (frameDa bs / 2 ^ 32 + frameType bs * 65536), word (frameIpDa bs)]

/-- Does masked entry j match a frame's words? -/
def State.maskedHit (s : State) (ws : List Word) (j : Nat) : Bool :=
  s.bit (maskedWord j 0) 0 && (List.range 4).all (fun w =>
    let m := s.reg (maskedWord j (4 + w))
    ((s.reg (maskedWord j w) ^^^ (ws[w]?).getD 0) &&& (if w = 0 then m &&& ~~~(3 : Word) else m)) == 0)

/-- What is done with a frame: the ports and logical engines it goes to as bits, the ACT word, its entry number, and whether it is a miss. -/
structure Action where
  dest : Nat
  eng : Nat
  act : Word
  hit : Option Nat
  deriving DecidableEq, Repr

/-- The action whose words stand from `a`. -/
def State.actionAt (s : State) (a entry : Nat) : Action :=
  ⟨(s.reg a).toNat + s.fld (a + 4) 0 10 * 2 ^ 32, (s.reg (a + 8)).toNat, s.reg (a + 12), some entry⟩

/-- The chosen action of a frame from port p (R224). A miss is handled by MISS of the port. -/
def State.chooseAction (s : State) (p : Nat) (bs : List Byte) : Action :=
  let masked := findFrom (s.maskedHit (s.maskWords p bs)) 2048 0
  let m := fun (prio : Bool) => match masked with
    | some j => if s.bit (maskedWord j 0) 1 == prio then some (s.actionAt (maskedWord j 8) (14336 + j)) else none
    | none => none
  match m true, s.findKey (s.frameKey p bs), m false with
  | some a, _, _ => a
  | none, some i, _ => s.actionAt (hashedWord i 4) i
  | none, none, some a => a
  | none, none, none =>
    let v := s.frameVid p bs
    let flood := (s.reg (swReg (0x300000 + 8 * v))).toNat + s.fld (swReg (0x300004 + 8 * v)) 0 10 * 2 ^ 32
    let miss := s.fld (pcfg p) 19 2
    ⟨if miss = 0 then flood else if miss = 1 then 0 else 2 ^ 40, 0, if miss = 1 then word (2 ^ 21) else 0, none⟩

/-- Is port p, 0 to 41, a member of VLAN v? -/
def State.vlanMember (s : State) (v p : Nat) : Bool :=
  if p < 32 then s.bit (swReg (0x300000 + 8 * v)) p else s.bit (swReg (0x300004 + 8 * v)) (p - 32)

/-- The traffic class of a frame (R222). -/
def State.frameClass (s : State) (p : Nat) (bs : List Byte) (a : Action) : Nat :=
  if bitOf a.act 3 then fieldOf a.act 0 3 else s.fld (pcfg p + 4) (3 * s.framePcp p bs) 3

end Sys2Proof.Machine
end

