-- ==== Sys2Proof/Machine/RopeCore.lean ====
section
/-!
DEFINITION. What the switch needs to know of Ropeline (chapter 12): contexts and their ports, the schedule in force, slots and windows in
time, and which queues a context holds (R290 to R296, R300, R303, R307).
-/
namespace Sys2Proof.Machine

/-! ## Contexts (R291) -/

/-- Register `o` of ROPE and of CTX[r]. -/
def ropeReg (o : Nat) : Nat := ropeBase + o
def ctxReg (r o : Nat) : Nat := ctxAddr r + o

/-- Context r beyond its registers. -/
def State.ctx (s : State) (r : Nat) : CtxSt := Tab.get (fun _ => CtxSt.reset) s.rope r
/-- Set context r. -/
def State.setCtx (s : State) (r : Nat) (c : CtxSt) : State := { s with rope := Tab.set (fun _ => CtxSt.reset) s.rope r c }
/-- Change context r. -/
def State.onCtx (s : State) (r : Nat) (f : CtxSt → CtxSt) : State := s.setCtx r (f (s.ctx r))

/-- Is context r enabled? -/
def State.ctxOn (s : State) (r : Nat) : Bool := s.bit (ctxReg r 0) 0

/-- A port set of context r: 0x008 stations, 0x010 anchors, 0x018 cold ports. -/
def State.inPorts (s : State) (r o p : Nat) : Bool :=
  if p < 32 then s.bit (ctxReg r o) p else decide (p < 40) && s.bit (ctxReg r (o + 4)) (p - 32)

/-- Is p a station port, or an anchor port, of context r? -/
def State.stationPort (s : State) (r p : Nat) : Bool := s.ctxOn r && s.fld (ctxReg r 0) 1 2 != 0 && s.inPorts r 0x008 p
def State.anchorPort (s : State) (r p : Nat) : Bool := s.ctxOn r && s.bit (ctxReg r 0) 5 && s.inPorts r 0x010 p

/-- The enabled context that port p belongs to. -/
def State.ctxOf (s : State) (p : Nat) : Option Nat := findFrom (fun r => s.stationPort r p || s.anchorPort r p) 4 0
/-- The context whose anchor port p is. -/
def State.anchorOf (s : State) (p : Nat) : Option Nat := findFrom (fun r => s.anchorPort r p) 4 0

/-- STATION (0 OFF, 1 LISTEN, 2 COLD, 3 SYNCED, 4 MEMBER) and ANCH (0 OFF, 1 UNSYNC, 2 LOCKING, 3 SYNC) of context r. -/
def State.station (s : State) (r : Nat) : Nat := s.fld (ctxReg r 0x40) 0 3
def State.anchor (s : State) (r : Nat) : Nat := s.fld (ctxReg r 0x40) 4 2
/-- Is the station SYNCED or MEMBER? -/
def State.synced (s : State) (r : Nat) : Bool := decide (3 ≤ s.station r)
/-- ACTING, ARANK, MISSED and LOCK_PORT. -/
def State.acting (s : State) (r : Nat) : Bool := s.bit (ctxReg r 0x40) 3
def State.missed (s : State) (r : Nat) : Nat := s.fld (ctxReg r 0x40) 8 4
/-- ROLE lead, and its rank. -/
def State.isLead (s : State) (r : Nat) : Bool := s.fld (ctxReg r 0) 1 2 == 2
def State.leadRank (s : State) (r : Nat) : Nat := s.fld (ctxReg r 0) 3 2
/-- NODE_ID. -/
def State.nodeId (s : State) (r : Nat) : Nat := s.fld (ctxReg r 0) 16 10
/-- GUARD in ns. -/
def State.guardNs (s : State) (r : Nat) : Nat := 8 * s.fld (ctxReg r 0x24) 0 8
/-- Is node n in the poll set in force? -/
def State.polled (s : State) (r n : Nat) : Bool := s.bit (ctxReg r (0x80 + 4 * (n / 32))) (n % 32)

/-! ## The schedule (R294, R295) -/

/-- Word `o` of entry `i` of bank `b`. -/
def schedWord (r : Nat) (b : Bool) (i o : Nat) : Nat := ropeReg (0x100000 + 0x20000 * r + 0x10000 * bit01 b + 16 * i + o)

/-- The bank in force. -/
def State.bankOf (s : State) (r : Nat) : Bool := s.bit (ctxReg r 0x54) 0

/-- KIND, OWNER, START and LEN (ns) of an entry of a bank. -/
def State.slotKind (s : State) (r : Nat) (b : Bool) (i : Nat) : Nat := s.fld (schedWord r b i 0) 0 3
def State.slotOwner (s : State) (r : Nat) (b : Bool) (i : Nat) : Nat := s.fld (schedWord r b i 0) 16 10
def State.slotStart (s : State) (r : Nat) (b : Bool) (i : Nat) : Nat := 8 * s.fld (schedWord r b i 4) 0 27
def State.slotLen (s : State) (r : Nat) (b : Bool) (i : Nat) : Nat := 8 * s.fld (schedWord r b i 8) 0 27

/-- How many entries of a bank stand before the first UNUSED one, from entry `i` on with `n` left. -/
def State.bankSlots (s : State) (r : Nat) (b : Bool) : Nat → Nat → Nat
  | 0, i => i
  | n + 1, i => if s.slotKind r b i = 0 then i else s.bankSlots r b n (i + 1)

/-- The slots of the bank in force. -/
def State.slots (s : State) (r : Nat) : List Nat := List.range (s.bankSlots r (s.bankOf r) 4096 0)

/-- Is a bank valid (R295)? -/
def State.bankValid (s : State) (r : Nat) (b : Bool) : Bool :=
  let n := s.bankSlots r b 4096 0
  s.slotKind r b 0 == 1 &&
    (List.range n).all (fun i =>
      let k := s.slotKind r b i
      decide (k ≤ 4) && (k != 1 || i == 0) && decide (2 * s.guardNs r ≤ s.slotLen r b i) &&
        decide (s.slotStart r b i + s.slotLen r b i ≤
          (if i + 1 < n then s.slotStart r b (i + 1) else s.fld (ctxReg r 4) 0 11 * s.periodNs)))

/-- The length of a cycle in ns, and CYCLE_NO. -/
def State.cycleNs (s : State) (r : Nat) : Nat := s.fld (ctxReg r 4) 0 11 * s.periodNs
def State.cycleNo (s : State) (r : Nat) : Nat := s.reg64 (ctxReg r 0x48)

/-- The bank that is in force in the next cycle, as far as the reference in force says (R296). -/
def State.nextBank (s : State) (r : Nat) : Bool :=
  match (s.ctx r).inForce with
  | some x => if x.switchAt = (s.cycleNo r + 1) % 2 ^ 32 ∧ s.bankValid r x.nextBank = true then x.nextBank else s.bankOf r
  | none => s.bankOf r

/-- A slot of the cycle before stands under this number more, one of the next cycle under twice this number more. -/
def staleSlot : Nat := 8192

/-- The bank that slot i stands in, and the start in ns of its cycle. -/
def State.winBank (s : State) (r i : Nat) : Bool :=
  if i / staleSlot = 0 then s.bankOf r
  else if i / staleSlot = 2 then s.nextBank r
  else match (s.ctx r).prev with
    | some (_, b) => b
    | none => s.bankOf r
def State.winBase (s : State) (r i : Nat) : Nat :=
  if i / staleSlot = 0 then (s.ctx r).start
  else if i / staleSlot = 2 then (s.ctx r).start + s.cycleNs r
  else match (s.ctx r).prev with
    | some (n, _) => n
    | none => (s.ctx r).start

/-- KIND and OWNER of slot i. -/
def State.winKind (s : State) (r i : Nat) : Nat := s.slotKind r (s.winBank r i) (i % staleSlot)
def State.winOwner (s : State) (r i : Nat) : Nat := s.slotOwner r (s.winBank r i) (i % staleSlot)

/-- The slots of the present cycle, of the one before, and of the next. -/
def State.allSlots (s : State) (r : Nat) : List Nat :=
  s.slots r ++ (if (s.ctx r).prev.isSome then (List.range (s.bankSlots r (s.winBank r staleSlot) 4096 0)).map (staleSlot + ·) else []) ++
    (List.range (s.bankSlots r (s.nextBank r) 4096 0)).map (2 * staleSlot + ·)

/-- The start of slot i in ns of device time. -/
def State.slotAt (s : State) (r i : Nat) : Nat := s.winBase r i + s.slotStart r (s.winBank r i) (i % staleSlot)
/-- Its end. -/
def State.slotEnd (s : State) (r i : Nat) : Nat := s.slotAt r i + s.slotLen r (s.winBank r i) (i % staleSlot)

/-- d_p: LINK_DELAY of port p in ns, rounded to the nearest multiple of 8 ns (R307). -/
def State.delayNs (s : State) (p : Nat) : Nat := 8 * (((s.reg (timeReg (0x10000 + 0x100 * p + 0x0C))).toNat + 4 * 65536) / (8 * 65536))

/-! ## Wire times -/

/-- LINK.SPEED of port p. -/
def State.linkSpeed (s : State) (p : Nat) : Nat := s.fld (portReg p 4) 1 2
/-- LINK.UP of port p. -/
def State.linkUp (s : State) (p : Nat) : Bool := s.bit (portReg p 4) 0

/-- A byte time at a speed, in tenths of a ns. -/
def byteTenths (speed : Nat) : Nat := if speed = 3 then 8 else if speed = 2 then 80 else if speed = 1 then 800 else 8000

/-- The time that `n` bytes take at a speed, in whole ns, rounded up. -/
def bytesNs (speed n : Nat) : Nat := (n * byteTenths speed + 9) / 10

/-- The wire time of R284 of a frame of `n` bytes without FCS on port p: preamble, padded bytes, FCS, and 6 bytes on a pair. -/
def State.wireNs (s : State) (p n : Nat) : Nat := bytesNs (s.linkSpeed p) (8 + max n 60 + 4 + (if s.pairMode p = 0 then 0 else 6))

/-! ## Queues of a context (R300, R303) -/

/-- RQ, LQ and FQ of context r. -/
def State.rq (s : State) (r : Nat) : Nat := s.fld (ctxReg r 0x20) 0 3
def State.lq (s : State) (r : Nat) : Nat := s.fld (ctxReg r 0x20) 4 3
def State.fq (s : State) (r : Nat) : Nat := s.fld (ctxReg r 0x20) 8 3

/-- Is the present instant inside an ASYNC slot that a frame of `n` bytes still fits, on port p of context r? -/
def State.asyncFits (s : State) (r p n : Nat) : Bool :=
  (s.slots r).any (fun i => s.slotKind r (s.bankOf r) i == 4 && decide (s.slotAt r i ≤ s.ns) &&
    decide (s.ns + s.wireNs p n ≤ s.slotEnd r i))

/-- May the head of queue c of port p start now as far as Ropeline is concerned, `n` being its length? RQ heads are released by slots
alone; one LQ head leaves at the REF slot that it was built for. -/
def State.ropeOpen (s : State) (p c n : Nat) : Bool :=
  match s.ctxOf p with
  | none => true
  | some r =>
    if c = s.fq r then true
    else if c = s.rq r then false
    else if c = s.lq r then
      match (s.ctx r).buildX with
      | some x => decide (x ≤ s.ns + bytesNs (s.linkSpeed p) 8) && Tab.get (fun _ => 0) (s.ctx r).lqAt p != x + 1
      | none => false
    else (s.synced r || s.anchor r == 3) && s.asyncFits r p n

/-- Does a context hold queue c of port p as a timed queue, or hold it closed at present? Such copies are never cut through. -/
def State.ropeHolds (s : State) (p c : Nat) : Bool :=
  match s.ctxOf p with
  | none => false
  | some r => c == s.rq r || c == s.lq r || !s.ropeOpen p c 9212

end Sys2Proof.Machine
end

