-- ==== Sys2Proof/Machine/SwFwd.lean ====
section
/-!
DEFINITION. Forwarding (chapter 09): the destination set of a frame (R225, R240, R241), the cut-through judgement (R233), mirror captures
(R243), and the offering of its copies.
-/
namespace Sys2Proof.Machine

/-! ## Destinations (R225) -/

/-- Is port p, 0 to 39, part of a pair in on-the-fly mode (R138)? PCS.OTF stands at the lower port. -/
def State.otfPort (s : State) (p : Nat) : Bool := decide (8 ≤ p) && decide (p < 40) && s.bit (portReg (p - p % 2) 0) 7

/-- The engine port of logical engine L (R20). -/
def enginePort (l : Nat) : Nat := 42 + l % 6

/-- Take the next sequence number of pair i. -/
def State.pairSeq (s : State) (i : Nat) : State × Nat :=
  let n := s.fld (pairReg i 4) 0 16
  (s.setReg (pairReg i 4) (word ((n + 1) % 65536)), n)

/-- A copy of frame f that is not altered. -/
def plainCopy (f e l : Nat) (after : Option Nat) : Copy :=
  { frame := f, egress := e, l := l, ct := false, strip := false, form := 0, pair := 0, seq := 0, after := after }

/-- The copies that the destination bit of port e, 0 to 41, stands for. `tagged` says that the frame entered with the HSR tag of pair
`inPair`. -/
def State.portCopies (s : State) (f p e : Nat) (tagged : Bool) (inPair : Option Nat) (after : Option Nat) : State × List Copy :=
  let plain := { plainCopy f e (if e = 41 then 32 else 0) after with strip := tagged }
  if e = p ∨ s.otfPort e = true then (s, [])
  else
    match (if e < 40 then s.pairOf e else none) with
    | none => (s, [plain])
    | some i =>
      if s.pairA i ≠ e ∨ inPair = some i then (s, [])
      else
        let m := s.fld (pairReg i 0) 16 2
        if m = 2 ∧ p < 40 ∧ s.bit (pairReg i 0) 18 = false then (s, [])
        else
          let (s1, n) := s.pairSeq i
          let c := fun (e : Nat) => { plain with egress := e, form := if m = 1 then 1 else 2, pair := i, seq := n }
          (s1, [c (s.pairA i), c (s.pairB i)])

/-- The destination set of a frame from port p (R225). -/
def State.destCopies (s : State) (f p : Nat) (sender : Option Nat) (bs : List Byte) (tagged : Bool) (a : Action) (after : Option Nat) :
    State × List Copy :=
  let inPair := if p < 40 then s.pairOf p else none
  let v := s.frameVid p bs
  let ports := (List.range 42).filter (fun e => a.dest.testBit e && (decide (40 ≤ e) || s.vlanMember v e))
  let (s1, cs) := ports.foldl (fun (st, cs) e => let (st1, n) := st.portCopies f p e tagged inPair after; (st1, cs ++ n)) (s, [])
  let engines := (List.range 32).filter (fun l => a.eng.testBit l && sender != some l)
  (s1, cs ++ engines.map (fun l => { plainCopy f (enginePort l) l after with strip := tagged }))

/-- The copy that a tagged frame from an HSR pair leaves on the pair's other port (R241): none for a unicast DA that the path table
resolves to destinations outside the pair. -/
def State.ringCopy (s : State) (f p : Nat) (bs : List Byte) (a : Action) : List Copy :=
  match s.pairOf p with
  | none => []
  | some i =>
    let other := if s.pairA i = p then s.pairB i else s.pairA i
    if !isGroup (frameDa bs) && a.hit.isSome && !a.dest.testBit (s.pairA i) && !a.dest.testBit (s.pairB i) then []
    else [plainCopy f other 0 none]

/-- Put a copy into a list in order of egress port, then of logical engine: the order in which copies that fail together fail (R238). -/
def insertCopy (c : Copy) : List Copy → List Copy
  | [] => [c]
  | d :: ds => if 64 * c.egress + c.l < 64 * d.egress + d.l then c :: d :: ds else d :: insertCopy c ds

/-- Copies in that order. -/
def inOrder (cs : List Copy) : List Copy := cs.foldl (fun ds c => insertCopy c ds) []

/-! ## Cut-through (R233) -/

/-- Does a received pause hold queue q (R210)? -/
def State.pauseHeld (s : State) (q : Nat) : Bool := decide (s.cyc < Tab.get (fun _ => 0) s.sw.holdUntil q)

/-- Is the egress queue of a copy the one of its class: queue number 8 × egress + class? -/
def queueOf (e tc : Nat) : Nat := 8 * e + tc

/-- Has logical engine L an image with FLAGS.CUT_THROUGH? -/
def State.cutImages (s : State) (l : Nat) : Bool := (s.imageAddrs l).any (fun a => s.imgFlags a % 2 == 1)

/-- Is port e idle for a copy to logical engine l: on an engine port, does no earlier frame for l wait in it, in a queue or in a slot of l's
input (R38, R142)? -/
def State.egressIdle (s : State) (e l : Nat) : Bool :=
  if 42 ≤ e then (List.range 8).all (fun c => (s.queue (8 * e + c)).all (fun x => x.l != l)) && (s.waitingOf l).isEmpty
  else (s.tx e).isNone && (List.range 8).all (fun c => (s.queue (8 * e + c)).isEmpty)

/-- Is a copy of a frame that arrives on port p in class tc cut through (R233)? -/
def State.cutThrough (s : State) (p tc : Nat) (act : Word) (c : Copy) : Bool :=
  bitOf act 20 && s.bit (pcfg c.egress) 18 && decide (p < 40) && s.pairMode p != 1 &&
    (decide (c.egress < 40) || (decide (42 ≤ c.egress) && s.cutImages c.l)) && s.egressIdle c.egress c.l &&
    (decide (42 ≤ c.egress) || (decide (s.linkSpeed c.egress ≤ s.linkSpeed p) && s.linkUp c.egress)) &&
    s.lqMode (queueOf c.egress tc) == 0 && !s.pauseHeld (queueOf c.egress tc) && (decide (40 ≤ c.egress) || !s.ropeHolds c.egress tc)

/-! ## Mirror captures (R243, R245) -/

/-- Register `o` of MIR[r]. -/
def mirReg (r o : Nat) : Nat := swReg (0x5000 + 0x40 * r + o)

/-- The bytes of frame f that have been received: while it arrives, with those that may be its FCS, which are not stored. -/
def State.received (s : State) (f : Nat) (x : Frame) : List Byte :=
  match s.rx x.ingress with
  | some r => if x.arriving && !x.bad && r.frame == some f then r.bytes else x.bytes
  | none => x.bytes

/-- Take a capture of frame f into ring r: dropped where the writer already holds 64, or the ring is off. -/
def State.capture243 (s : State) (f r egress : Nat) : State :=
  match s.frame f with
  | none => s
  | some x =>
    if 64 ≤ s.sw.captures.length then s.bump (mirReg r 0x20)
    else
      let c : Capture :=
        { frame := f, ring := r, length := (s.received f x).length, complete := !x.arriving, bad := !x.arriving && x.bad,
          egress := egress, header := (s.received f x).take 128 }
      { s with sw := { s.sw with captures := s.sw.captures ++ [c] } }

/-- Frame f has ended with `n` bytes before its FCS: what its captures took beyond them was FCS, which LENGTH and HEADER exclude (R244). -/
def State.trimCaptures (s : State) (f n : Nat) : State :=
  { s with
    sw := { s.sw with
      captures := s.sw.captures.map (fun c => if c.frame = f then { c with length := min c.length n, header := c.header.take n } else c) } }

/-- The ingress captures of frame f (R243): the rings of its port and of its action, each once. -/
def State.ingressCapture (s : State) (f : Nat) : State :=
  match s.frame f with
  | none => s
  | some x =>
    let r1 := if s.bit (pcfg x.ingress) 22 then [s.fld (pcfg x.ingress) 23 2] else []
    let r2 := if bitOf x.act 19 then [fieldOf x.act 17 2] else []
    (r1 ++ r2.filter (fun r => !r1.contains r)).foldl (fun st r => st.capture243 f r 0x3F) s

/-- The bytes of frame f as R221 reads them: without the HSR tag that it brought from an HSR pair. -/
def State.parsed (s : State) (p : Nat) (bs : List Byte) : List Byte × Bool :=
  if p < 40 ∧ s.pairMode p = 2 ∧ hsrTagged bs = true then (stripHsr bs, true) else (bs, false)

/-! ## Offering (R234, R253, R265) -/

/-- Is a copy lost to a halt of forwarding: neither from nor to port 41 (R265)? -/
def State.haltDrops (s : State) (p e : Nat) : Bool := s.bit (swReg 0) 1 && p != 41 && e != 41

/-- Offer one copy of frame f: judged for cut-through while the frame arrives, coloured, checked and queued. -/
def State.offerCopy (s : State) (f : Nat) (cutOk : Bool) (c : Copy) : State :=
  match s.frame f with
  | none => s
  | some x =>
    if s.haltDrops x.ingress c.egress then s.failCopy f c.egress 17
    else
      let q := queueOf c.egress x.tc
      let bs := (s.parsed x.ingress x.bytes).1
      let ct := cutOk && x.arriving && !x.bad && s.cutThrough x.ingress x.tc x.act c
      let metered := bitOf x.act 16
      let m := fieldOf x.act 4 12
      let s1 := if metered then s.meterUp m else s
      let yellow := s1.bit (meterReg m 0) 2 && frameTagged bs && (frameTci bs / 4096) % 2 == 1
      let colour := if metered then s1.meterColour m yellow else 0
      let s2 := if metered then
          (s1.bump (swReg (0x580000 + 0x20 * m + 8 * colour))).onFrame f (fun x => { x with debits := x.debits ++ [(m, colour)] })
        else s1
      let (s3, ok) := s2.offer { c with ct := ct } q colour metered (!s2.bit (meterReg m 0) 3)
      if ok && ct then s3.bump (swReg 0x8038) else s3

/-- Offer copies in order. -/
def State.offerAll (s : State) (f : Nat) (cutOk : Bool) (cs : List Copy) : State := cs.foldl (fun st c => st.offerCopy f cutOk c) s

/-! ## Classification (R221 to R225, R246) -/

/-- A frame is dropped at classification: under its own reason, with CLASS_DROP_CNT for R225. -/
def State.classDrop (s : State) (f r : Nat) : State := (if r = 6 then s.bump (swReg 0x8008) else s).failFrame f r

/-- Frame f is dropped after its classification: a miss has counted in MISS_CNT and counts in no second counter (R246, log entry 61). -/
def State.classDropLate (s : State) (f : Nat) : State :=
  match s.frame f with
  | some x => if x.hit.isNone then s.failFrame f 6 else s.classDrop f 6
  | none => s

/-- Note the action of frame f: its class, ACT and entry; `counts` says that MISS handles it if it misses (R224, R246). -/
def State.classify (s : State) (f : Nat) (bs : List Byte) (a : Action) (counts : Bool) : State :=
  match s.frame f with
  | none => s
  | some x =>
    let s1 := s.setFrame f (some { x with classed := true, tc := s.frameClass x.ingress bs a, act := a.act, hit := a.hit })
    (if a.hit.isNone && counts then s1.bump (swReg 0x8000) else s1).shareWatch x.ingress

/-- Is a frame with VLAN vid from port p dropped by VLAN_IN? -/
def State.vlanInDrops (s : State) (p v : Nat) : Bool := s.bit (pcfg p) 21 && decide (p ≤ 41) && !s.vlanMember v p

/-- Is a frame dropped by its action, by VLAN_IN, or as one of the pair's own frames (R225, R241)? Answers the reason, or 0. -/
def State.classReason (s : State) (p : Nat) (bs : List Byte) (tagged : Bool) (a : Action) : Nat :=
  let own := match s.pairOf p with
    | some i => tagged && frameSa bs == (s.reg (pairReg i 0x0C)).toNat + s.fld (pairReg i 0x10) 0 16 * 2 ^ 32
    | none => false
  if own then 7
  else if bitOf a.act 21 || s.vlanInDrops p (s.frameVid p bs) then 6
  else 0

/-- OWN_CNT of the pair of port p counts a frame removed as the node's own (R241). -/
def State.ownFrame (s : State) (p : Nat) : State :=
  match s.pairOf p with
  | some i => s.bump (pairReg i 0x28)
  | none => s

/-- The destination set of frame f is formed and its copies are offered; an empty set is a classification drop (R225). -/
def State.forward (s : State) (f : Nat) (bs : List Byte) (tagged : Bool) (a : Action) (after : Option Nat) (cutOk : Bool) : State :=
  match s.frame f with
  | none => s
  | some x =>
    let (s1, cs) := s.destCopies f x.ingress x.sender bs tagged a after
    let all := inOrder ((if tagged then s.ringCopy f x.ingress bs a else []) ++ cs)
    if all.isEmpty then s1.classDropLate f else s1.offerAll f cutOk all

end Sys2Proof.Machine
end

