-- ==== Sys2Proof/Machine/RopeAnchor.lean ====
section
/-!
DEFINITION. The anchor of a rope (R307 to R313): the header of Ropeline frames (R297), slot windows and their tokens, the admission of
frames at classification, shared windows, violations and disconnection.
-/
namespace Sys2Proof.Machine

/-! ## Ropeline frames (R297, R298) -/

/-- The Ropeline header and what follows it. -/
def ropeBytes (bs : List Byte) : List Byte := bs.drop (frameHead bs)

/-- Is it a Ropeline frame by its EtherType? -/
def State.isRope (s : State) (bs : List Byte) : Bool := frameType bs == s.fld (ropeReg 0) 0 16

/-- Header fields. -/
def ropeType (bs : List Byte) : Nat := beNat (bytesAt (ropeBytes bs) 0 1) % 16
def ropeId (bs : List Byte) : Nat := beNat (bytesAt (ropeBytes bs) 1 1)
def ropeSrc (bs : List Byte) : Nat := beNat (bytesAt (ropeBytes bs) 2 2) % 1024
def ropeCycle (bs : List Byte) : Nat := beNat (bytesAt (ropeBytes bs) 4 4)
def ropeTagged (bs : List Byte) : Bool := (beNat (bytesAt (ropeBytes bs) 8 2)).testBit 15
def ropePlen (bs : List Byte) : Nat := beNat (bytesAt (ropeBytes bs) 10 2)
def ropeKeyId (bs : List Byte) : Nat := beNat (bytesAt (ropeBytes bs) 12 1)

/-- The payload. -/
def ropePayload (bs : List Byte) : List Byte := (ropeBytes bs).drop 16

/-- COLD of a REF. -/
def refCold (bs : List Byte) : Bool := (beNat (bytesAt (ropePayload bs) 0x19 1)).testBit 0

/-- Does the header of a frame make it malformed (R297)? -/
def headMalformed (bs : List Byte) : Bool :=
  let h := ropeBytes bs
  beNat (bytesAt h 0 1) / 16 != 1 || ropeType bs == 0 || decide (3 < ropeType bs) || decide (1024 ≤ beNat (bytesAt h 2 2)) ||
    (beNat (bytesAt h 8 2)).testBit 12 || beNat (bytesAt h 13 3) != 0 ||
    (ropeType bs == 1 && ropePlen bs != 192) || (ropeType bs == 3 && ropePlen bs != 16)

/-- Is a complete frame malformed (R297)? A frame may be longer than its fields for the padding of R204 alone. -/
def ropeMalformed (bs : List Byte) : Bool :=
  let n := frameHead bs + 16 + ropePlen bs + (if ropeTagged bs then 8 else 0)
  headMalformed bs || (bs.length != n && !(decide (n < 60) && bs.length == 60))

/-- Is a Ropeline frame one of a TYPE? A malformed one is no reference and no join, as far as what is in of it tells (R297). -/
def ropeIs (arriving : Bool) (k : Nat) (bs : List Byte) : Bool :=
  ropeType bs == k && (k == 2 || !(if arriving then headMalformed bs else ropeMalformed bs))

/-! ## Windows (R307) -/

/-- NODEPORT[n] of context r. -/
def nodePort (r n : Nat) : Nat := ropeReg (0x30000 + 0x1000 * r + 4 * n)

/-- Is p the anchor port of node n? -/
def State.isNodePort (s : State) (r n p : Nat) : Bool :=
  decide (n < 1024) && s.bit (nodePort r n) 7 && s.fld (nodePort r n) 0 6 == p

/-- The leads in force (R304). -/
def State.leadsInForce (s : State) (r : Nat) : List Nat :=
  match (s.ctx r).inForce with
  | some x => x.leads
  | none => []

/-- DISC of port p, as bit 0 of APORT[p].STAT, with VIOL_RUN above it. -/
def aport (p o : Nat) : Nat := ropeReg (0x8000 + 0x80 * p + o)
def State.disc (s : State) (p : Nat) : Bool := s.bit (aport p 0) 0

/-- Is slot i open for port p (R307)? -/
def State.slotOpenFor (s : State) (r i p : Nat) : Bool :=
  let k := s.winKind r i
  if k = 1 then (s.leadsInForce r).any (fun n => s.isNodePort r n p)
  else if k = 2 then
    let o := s.winOwner r i
    s.isNodePort r o p && s.polled r o && !s.disc p
  else if k = 3 then true
  else !s.disc p

/-- The start window of slot i for port p in ns: [from, to). -/
def State.windowOf (s : State) (r i p : Nat) : Int × Int :=
  let a := Int.ofNat (s.slotAt r i + s.delayNs p)
  let g := Int.ofNat (s.guardNs r)
  if s.winKind r i = 4 then (a - g, a + Int.ofNat (s.slotLen r (s.winBank r i) (i % staleSlot))) else (a - g, a + g)

/-- The end limit of slot i for port p (R307). -/
def State.endLimit (s : State) (r i p : Nat) : Nat := s.slotEnd r i + s.delayNs p + s.guardNs r

/-- Does the kind of a frame suit slot i (R308)? -/
def State.kindSuits (s : State) (r i : Nat) (rope arriving : Bool) (bs : List Byte) : Bool :=
  s.winKind r i == 4 || (rope && ropeIs arriving (s.winKind r i) bs)

/-- The slot whose window is open for a frame with stamp t (ns) from port p and whose kind it suits: of the present cycle, or of its neighbours,
since a frame is classified after its stamp and a window may open before its cycle. -/
def State.admitSlot (s : State) (r p t : Nat) (rope arriving : Bool) (bs : List Byte) : Option Nat :=
  (s.allSlots r).find? (fun i =>
    let (a, b) := s.windowOf r i p
    decide (a ≤ Int.ofNat t) && decide (Int.ofNat t < b) && s.slotOpenFor r i p && s.kindSuits r i rope arriving bs &&
      (!s.disc p || (rope && ropeIs arriving 3 bs)))

/-! ## Tokens (R313) -/

/-- The number under which a cold window stands among the windows. -/
def coldSlot : Nat := 4096

/-- SLOT_GRANTED_CNT, SLOT_USED_CNT, SLOT_EXPIRED_CNT. -/
def slotCnt (i : Nat) : Nat := ropeReg (0x10 + 8 * i)

/-- SLOT_OPEN rises or falls by one. -/
def State.slotOpenAdd (s : State) (up : Bool) : State :=
  s.setReg (ropeReg 0x28) (word (if up then s.fld (ropeReg 0x28) 0 16 + 1 else s.fld (ropeReg 0x28) 0 16 - 1))

/-- The window of slot i of context r. -/
def State.win (s : State) (r i : Nat) : Option RopeWin := (s.ctx r).wins.find? (fun w => w.slot == i)

/-- Set it. -/
def State.setWin (s : State) (r : Nat) (w : RopeWin) : State :=
  s.onCtx r (fun c => { c with wins := c.wins.map (fun x => if x.slot = w.slot then w else x) })

/-- A window opens with its token, unless it is open already or has ended in this cycle. -/
def State.openWin (s : State) (r i : Nat) : State :=
  match s.win r i with
  | some _ => s
  | none =>
    if (s.ctx r).ended.contains i then s
    else ((s.onCtx r (fun c => { c with wins := c.wins ++ [⟨i, s.fld (ctxReg r 0x48) 0 32, false, []⟩] })).bump (slotCnt 0)).slotOpenAdd true

/-- The token of a window is used. -/
def State.useToken (s : State) (r i : Nat) : State :=
  match s.win r i with
  | some w => ((s.setWin r { w with used := true }).bump (slotCnt 1)).slotOpenAdd false
  | none => s

/-- A window ends: an unused token expires. -/
def State.endWin (s : State) (r i : Nat) : State :=
  match s.win r i with
  | none => s
  | some w =>
    let s1 := s.onCtx r (fun c => { c with wins := c.wins.filter (fun x => x.slot != i), ended := i :: c.ended })
    if w.used then s1 else (s1.bump (slotCnt 2)).slotOpenAdd false

/-! ## Blocks and violations (R309, R310) -/

/-- Every NODEPORT entry that names port p is cleared, in all contexts. -/
def State.clearNodePorts (s : State) (p : Nat) : State :=
  (List.range 4096).foldl (fun st i => if st.isNodePort (i / 1024) (i % 1024) p then st.setReg (nodePort (i / 1024) (i % 1024)) 0 else st) s

/-- A violation of port p; the third in a row disconnects it. -/
def State.violation (s : State) (p : Nat) : State :=
  let n := s.fld (aport p 0) 1 2 + 1
  if n < 3 then s.setFld (aport p 0) 1 2 n
  else (((s.setReg (aport p 0) 1).bump (aport p 0x20)).raise 0x5E 0 (p * 256 + 0x10)).clearNodePorts p

/-- VIOL_RUN returns to 0. -/
def State.violClear (s : State) (p : Nat) : State := s.setFld (aport p 0) 1 2 0

/-- Frame f from anchor port p is blocked: `race` for one that lost a shared window, `viol` for one that may be a violation. -/
def State.blockFrame (s : State) (f p : Nat) (race viol : Bool) : State :=
  let s1 := ((s.onFrame f (fun x => { x with waits := false, limit := none })).classDrop f 6).bump (aport p 0x10)
  let s2 := if race then s1.bump (aport p 0x28) else s1
  let s3 := if viol && !race && !s2.disc p then s2.violation p else s2
  s3.release f

/-- The end limit of frame f in slot i of context r is noted; a cold window has none. -/
def State.limitFrame (s : State) (r f i : Nat) : State :=
  s.onFrame f (fun x => { x with limit := some (if i = coldSlot then 2 ^ 80 else s.endLimit r i x.ingress, r) })

/-- Frame f is admitted in slot i of context r. -/
def State.admitted (s : State) (r f i : Nat) : State := s.limitFrame r f i

/-! ## Admission at classification (R308, R311) -/

/-- What becomes of a frame at an anchor: forwarded, waiting for a shared window, or blocked already. -/
inductive Admission where
  | go
  | wait
  | stop
  deriving DecidableEq, Repr

/-- A frame competes for the token of a shared window; it loses at once where the token is used. -/
def State.compete (s : State) (r f i p : Nat) : State × Admission :=
  let s1 := s.openWin r i
  match s1.win r i with
  | some w =>
    if w.used then (s1.blockFrame f p true false, .stop)
    else (((s1.setWin r { w with rivals := w.rivals ++ [f] }).limitFrame r f i).onFrame f (fun x => { x with waits := true }), .wait)
  | none => (s1.blockFrame f p true false, .stop)

/-- Is a lead of this part's own in COLD or ACTING (R311)? -/
def State.ownLead (s : State) (r : Nat) : Bool := s.isLead r && (s.station r == 2 || s.acting r)

/-- The anchor of context r judges frame f from its port p, at its classification. -/
def State.anchorJudge (s : State) (r f p : Nat) (bs : List Byte) : State × Admission :=
  match s.frame f with
  | none => (s, .stop)
  | some x =>
    let t := x.stamp / nsUnit
    let rope := bitOf x.act 22 && s.isRope bs
    let ref := rope && ropeIs x.arriving 1 bs
    if s.anchor r = 3 then
      match s.admitSlot r p t rope x.arriving bs with
      | none => (s.blockFrame f p false !(ref && refCold bs), .stop)
      | some i =>
        let k := s.winKind r i
        if k = 4 then (s.admitted r f i, .go)
        else if k = 2 then
          let s1 := s.openWin r i
          match s1.win r i with
          | some w => if w.used then (s1.blockFrame f p false true, .stop) else ((s1.useToken r i).admitted r f i, .go)
          | none => (s1.blockFrame f p false true, .stop)
        else s.compete r f i p
    else if s.anchor r = 1 then
      if ref && refCold bs && s.inPorts r 0x018 p && !s.ownLead r && !s.disc p then s.compete r f coldSlot p
      else (s.blockFrame f p false false, .stop)
    else if s.anchor r = 2 then
      if ref && s.fld (ctxReg r 0x40) 12 6 == p && !s.disc p then (s.admitted r f coldSlot, .go) else (s.blockFrame f p false false, .stop)
    else (s.blockFrame f p false false, .stop)

/-- The rival that a shared window's token goes to: the earliest stamp, equal stamps to the lower port. -/
def State.bestRival (s : State) (fs : List Nat) : Option Nat :=
  fs.foldl (fun best f =>
    match s.frame f, best with
    | some x, some g =>
      match s.frame g with
      | some y => if x.stamp < y.stamp ∨ (x.stamp = y.stamp ∧ x.ingress < y.ingress) then some f else some g
      | none => some f
    | some _, none => some f
    | none, b => b) none

/-- The anchor locks to port p (R311). -/
def State.anchorLock (s : State) (r p : Nat) : State :=
  ((s.setFld (ctxReg r 0x40) 4 2 2).setFld (ctxReg r 0x40) 12 6 p).onCtx r (fun c => { c with lockMiss := 0, lockSeen := true })

end Sys2Proof.Machine
end

