-- ==== Sys2Proof/Machine/SwIn.lean ====
section
/-!
DEFINITION. How frames enter the switch and end (chapters 08 to 10): classification of a head, frames that enter whole, reception on ports 0
to 39, the good and the bad end of a frame, PRP trailers and duplicates, and received pause frames.
-/
namespace Sys2Proof.Machine

/-- A miss that an anchor has not blocked counts in MISS_CNT; a blocked frame counts in CLASS_DROP_CNT alone (R246, R309). -/
def State.noteMiss (s : State) (f : Nat) : State :=
  match s.frame f with
  | some x => if x.hit.isNone then s.bump (swReg 0x8000) else s
  | none => s

/-! ## The end of classification (R221 to R225, R234) -/

/-- Frame f is classified: its action is chosen, an anchor judges it, its destination set is formed and its copies are offered. `after` is
what its copies wait for (R42), and `cutOk` says that they may be cut through. -/
def State.headClassified (s : State) (f : Nat) (after : Option Nat) (cutOk : Bool) : State :=
  match s.frame f with
  | none => s
  | some x =>
    let p := x.ingress
    let (bs, tagged) := s.parsed p x.bytes
    let a := s.chooseAction p bs
    let r := s.classReason p bs tagged a
    let s1 := s.classify f bs a (r != 7 && !s.vlanInDrops p (s.frameVid p bs) && (r != 0 || (s.anchorOf p).isNone))
    if r = 7 then (s1.ownFrame p).failFrame f 7
    else if r = 6 then s1.classDrop f 6
    else
      match s1.anchorOf p with
      | some c =>
        match s1.anchorJudge c f p bs with
        | (s2, .go) => (s2.noteMiss f).forward f bs tagged a after cutOk
        | (s2, _) => s2
      | none => s1.forward f bs tagged a after cutOk

/-- A frame that has won a shared window is forwarded; it is not cut through (R308). -/
def State.forwardWinner (s : State) (f : Nat) : State :=
  match s.frame f with
  | none => s
  | some x =>
    let (bs, tagged) := s.parsed x.ingress x.bytes
    (s.noteMiss f).forward f bs tagged (s.chooseAction x.ingress bs) none false

/-! ## The good end of a frame (R231, R257) -/

/-- The frame is to be learned: the port is PORT_A for a pair (R231). -/
def State.noteLearn (s : State) (x : Frame) : State :=
  let (bs, _) := s.parsed x.ingress x.bytes
  if x.ingress < 40 ∧ s.bit (pcfg x.ingress) 17 = true ∧ x.classed = true ∧ bitOf x.act 23 = false ∧ isGroup (frameSa bs) = false then
    let p := match s.pairOf x.ingress with
      | some i => s.pairA i
      | none => x.ingress
    { s with sw := { s.sw with learns := s.sw.learns ++ [(p, frameSa bs, s.frameVid x.ingress bs)] } }
  else s

/-- Frame f has ended good: the debits of its coloured copies, and learning. -/
def State.endsGood (s : State) (f : Nat) : State :=
  match s.frame f with
  | none => s
  | some x =>
    let s1 := x.debits.foldl (fun st (m, c) => st.meterDebit m c (x.bytes.length + 4)) s
    (s1.onFrame f (fun x => { x with debits := [], arriving := false })).noteLearn x

/-- Frame f has ended good, and the ingress port's reference is released. -/
def State.frameGood (s : State) (f : Nat) : State := (s.endsGood f).release f

/-- Frame f has ended bad for reason r of R203. The first reason it met stays, but for OVERSIZE_IN: the frame is judged at its end, where a
code error comes before its length (R203). -/
def State.endsBad (s : State) (f r : Nat) : State :=
  match s.frame f with
  | none => s
  | some x =>
    (if x.bad then s else s.frameBad f r).onFrame f
      (fun x => { x with arriving := false, reason := if x.reason = 3 then r else x.reason })

/-! ## Frames that enter whole: from the host, the MCP, engines and the Ropeline unit -/

/-- Is a frame from port p accepted (SW.CTL.FWD_EN)? -/
def State.accepts (s : State) (p : Nat) : Bool := s.bit (swReg 0) 0 || p == 41

/-- Frame f, which entered on a switch port from 40 to 47, is whole with the bytes `bs`: it is classified and offered. -/
def State.entered (s : State) (f : Nat) (bs : List Byte) (after : Option Nat) : State :=
  let s2 := s.arrive f bs
  match s2.frame f with
  | none => s2
  | some x =>
    if x.bad then (s2.onFrame f (fun x => { x with arriving := false })).release f
    else ((s2.headClassified f after false).onFrame f (fun x => { x with arriving := false })).ingressCapture f |>.frameGood f

/-- A whole frame enters on switch port p, 40 to 47 (R263): it is stamped with the present time (R278), classified and offered. -/
def State.enterFrame (s : State) (p : Nat) (sender : Option Nat) (bs : List Byte) (after : Option Nat) : State :=
  if !s.accepts p then s
  else
    match s.beginFrame p sender s.time bs true with
    | (s1, none) => s1
    | (s1, some f) => s1.entered f bs after

/-! ## Duplicates and PRP trailers (R240 to R242) -/

/-- The duplicate check of pair i: entries past their lifetime are gone; a key present is a duplicate, a new one enters, in place of the
oldest where the table is full. -/
def State.duplicate (s : State) (i : Nat) (sa : List Byte) (seq : Nat) : State × Bool :=
  let young := (Tab.get (fun _ => []) s.sw.dups i).filter (fun d => decide (s.cyc - d.at' < s.fld (pairReg i 8) 0 16 * cycMs))
  let put := fun (st : State) (ds : List Dup) => { st with sw := { st.sw with dups := Tab.set (fun _ => []) st.sw.dups i ds } }
  if young.any (fun d => d.sa == sa && d.seq == seq) then ((put s young).bump (pairReg i 0x18), true)
  else if young.length < 1024 then (put s (young ++ [⟨sa, seq, s.cyc⟩]), false)
  else ((put s (young.drop 1 ++ [⟨sa, seq, s.cyc⟩])).bump (pairReg i 0x30), false)

/-- LSDU size of a frame of `n` bytes that holds a trailer or is to receive one or a tag: what follows its EtherType (IEC 62439-3). -/
def lsduSize (bs : List Byte) (n : Nat) : Nat := (n - frameHead bs) % 4096

/-- Does a frame carry a valid trailer (R240)? -/
def prpTrailer (bs : List Byte) : Bool :=
  let t := bs.drop (bs.length - 6)
  decide (frameHead bs + 6 ≤ bs.length) && beNat (bytesAt t 4 2) == 0x88FB && beNat (bytesAt t 2 2) % 4096 == lsduSize bs bs.length

/-- Frame f, which has ended good, is discarded under reason r, whatever classification made of it, and its queued copies go: a duplicate
(R242, log entry 89), or a malformed Ropeline frame at a station (R297). -/
def State.discard (s : State) (f r : Nat) : State :=
  let s1 := (s.endsGood f).onFrame f (fun x => { x with reason := r, bad := true, waits := false })
  (s1.stompCopies f 16).release f

/-- The pair's part in the end of frame f, which is good: the trailer is removed, and a duplicate is discarded (R240 to R242). Answers
whether the frame remains. -/
def State.pairEnd (s : State) (f : Nat) : State × Bool :=
  match s.frame f with
  | none => (s, false)
  | some x =>
    match (if x.ingress < 40 then s.pairOf x.ingress else none) with
    | none => (s, true)
    | some i =>
      let sa := bytesAt x.bytes 6 6
      let judge := fun (st : State) (seq : Nat) =>
        let (st1, dup) := st.duplicate i sa seq
        if dup then (st1.discard f 8, false) else (st1, true)
      if s.fld (pairReg i 0) 16 2 = 1 then
        if prpTrailer x.bytes then
          let t := x.bytes.drop (x.bytes.length - 6)
          let lan := beNat (bytesAt t 2 2) / 4096
          let other := if x.ingress = s.pairA i then 0xB else 0xA
          let s1 := (s.onFrame f (fun x => { x with bytes := x.bytes.take (x.bytes.length - 6) }))
          judge (if lan = other then s1.bump (pairReg i 0x20) else s1) (beNat (bytesAt t 0 2))
        else (s, true)
      else if hsrTagged x.bytes && x.reason != 7 then judge s (beNat (bytesAt x.bytes 16 2))
      else (s, true)

/-! ## Received pause frames (R206, R210) -/

/-- Hold queue q for a number of quanta at the speed of its port; 0 ends the hold. -/
def State.holdQueue (s : State) (q quanta : Nat) : State :=
  let cycles := (quanta * 64 * byteTenths (s.linkSpeed (q / 8)) + 19) / 20
  { s with sw := { s.sw with holdUntil := Tab.set (fun _ => 0) s.sw.holdUntil q (if quanta = 0 then 0 else s.cyc + cycles) } }

/-- A good MAC control frame on port p. -/
def State.controlFrame (s : State) (p : Nat) (bs : List Byte) : State :=
  let o := frameHead bs
  let op := beNat (bytesAt bs o 2)
  let mode := s.fld (portReg p 0x100) 2 2
  if op = 0x0001 then
    let s1 := s.bump (portReg p 0x1038)
    if mode = 1 then (List.range 8).foldl (fun st c => st.holdQueue (8 * p + c) (beNat (bytesAt bs (o + 2) 2))) s1 else s1
  else if op = 0x0101 then
    let s1 := s.bump (portReg p 0x1040)
    let v := beNat (bytesAt bs (o + 2) 2)
    if mode = 2 then
      (List.range 8).foldl (fun st c =>
        if v.testBit c && s.bit (portReg p 0x100) (4 + c) then st.holdQueue (8 * p + c) (beNat (bytesAt bs (o + 4 + 2 * c) 2)) else st) s1
    else s1
  else s.bump (portReg p 0x1048)

/-! ## Reception on ports 0 to 39 (R203) -/

/-- MAX_LEN of port p. -/
def State.maxLen (s : State) (p : Nat) : Nat := s.fld (portReg p 8) 16 14

/-- Is a frame a MAC control frame (R206)? -/
def isControl (bs : List Byte) : Bool := frameType bs == 0x8808

/-- Does a frame that arrives on port p enter the switch? -/
def State.entersSwitch (s : State) (p : Nat) (bs : List Byte) : Bool :=
  s.bit (portReg p 8) 0 && s.accepts p && !s.otfPort p && !isControl bs

/-- The stamp of an instant `ns` nanoseconds before (or, negative, after) the present: the counter in a TIME cycle at most 4 ns from it, with its
FRAC (R281), shifted by `lat` units of 2^−8 ns (R277). -/
def State.stampAt (s : State) (ns : Int) (lat : Word) : Nat :=
  let back := (ns + 1) / 2 + 1 - Int.ofNat (freeBetween 0 3 s.freeCtr)
  (Int.ofNat s.time - back * Int.ofNat s.inc + lat.toInt * 2 ^ 24).toNat

/-- The ingress stamp of a frame on port p of which `n` bytes have been in for `lag` ns. -/
def State.ingressStamp (s : State) (p n lag : Nat) : Nat :=
  s.stampAt (Int.ofNat (bytesNs (s.linkSpeed p) n + lag)) (s.reg (timeReg (0x10000 + 0x100 * p + 4)))

/-- What is stored of the bytes received: the MAC holds the last 4 back, since they may be the FCS, which is never stored (R247, log entry 179). -/
def stored (bs : List Byte) : List Byte := bs.take (bs.length - 4)

/-- A frame of which at least 64 bytes have arrived on port p enters the switch and is classified. `lag` is the time since the byte `n`. A frame of a PRP pair is classified at its end, when its trailer is judged (R240). -/
def State.rxBegin (s : State) (p : Nat) (bs : List Byte) (n lag : Nat) : State :=
  if !s.entersSwitch p bs then s.setRx p (some ⟨bs, none, false⟩)
  else
    match s.free.beginFrame p none (s.ingressStamp p n lag) (stored bs) true with
    | (s1, none) => s1.setRx p (some ⟨bs, none, false⟩)
    | (s1, some f) =>
      let s2 := (s1.setRx p (some ⟨bs, some f, true⟩)).arrive f (stored bs)
      match s2.frame f with
      | none => s2
      | some x => if x.bad || s.pairMode p == 1 then s2 else s2.headClassified f none true

/-- The ingress capture of a classified reception is due once 128 bytes or the whole frame are in (R243). -/
def State.rxCapture (s : State) (p : Nat) (whole : Bool) : State :=
  match s.rx p with
  | some r =>
    match r.frame with
    | some f =>
      let classed := match s.frame f with
        | some x => x.classed
        | none => false
      if r.capture && classed && (whole || decide (128 ≤ r.bytes.length)) then (s.setRx p (some { r with capture := false })).ingressCapture f
      else s
    | none => s
  | none => s

/-- The reception on port p passes its 128th byte: the capture takes the bytes received by then (R243, R244). -/
def State.rxPoint (s : State) (p : Nat) (bs : List Byte) : State :=
  match s.rx p with
  | some r =>
    match r.frame with
    | some f =>
      if r.bytes.length < 128 ∧ 128 ≤ bs.length then
        ((s.setRx p (some { r with bytes := bs.take 128 })).arrive f (stored (bs.take 128))).rxCapture p false
      else s
    | none => s
  | none => s

/-- More bytes of the frame in reception on port p have arrived: it may pass MAX_LEN (R203), or need further cells (R248). -/
def State.rxMore (s : State) (p : Nat) (bytes : List Byte) : State :=
  match s.rx p with
  | none => s
  | some r =>
    let bs := r.bytes ++ bytes
    let s0 := s.rxPoint p bs
    let s1 := s0.setRx p ((s0.rx p).map (fun r => { r with bytes := bs }))
    match r.frame with
    | none => s1
    | some f =>
      if s.maxLen p < bs.length then
        let s2 := s1.arrive f (stored (bs.take (s.maxLen p + 1)))
        match s2.frame f with
        | some x => if x.bad then s2 else s2.frameBad f 3
        | none => s2
      else s1.arrive f (stored bs)

/-- FRAME_HEAD_CLASSIFIED: 50 ns after its 64th byte a frame is classified (R223). -/
def State.rxHead (s : State) (p : Nat) (bs : List Byte) : State :=
  if !s.linkUp p || s.otfPort p || (s.rx p).isSome || decide (bs.length < 64) then s
  else if s.maxLen p < bs.length then s
  else (s.rxBegin p bs 64 50).rxCapture p false

/-- The counter and drop reason of R203 for a frame with its FCS; reason 0 for one that is not bad. -/
def State.macJudge (s : State) (p : Nat) (bs : List Byte) (codeError : Bool) : Nat :=
  let fcs := leNat (bs.drop (bs.length - 4))
  let good := crc32 (bs.take (bs.length - 4))
  if codeError then 1
  else if bs.length < 64 then 2
  else if s.maxLen p < bs.length then 3
  else if fcs = good then 0
  else if fcs = good ^^^ 0xFFFFFFFF then 4
  else 5

/-- The counter that a bad frame counts in. -/
def State.macBad (s : State) (p r : Nat) : State := s.bump (portReg p (0x1008 + 8 * r))

/-- A frame that was not classified before its end, since it ended with its 64th byte or before: it enters the switch now where it may. -/
def State.rxLate (s : State) (p : Nat) (bs : List Byte) (r : Nat) : State :=
  if r = 0 then s.rxBegin p bs bs.length 0
  else if !s.entersSwitch p bs then s.setRx p (some ⟨bs, none, false⟩)
  else
    match s.free.beginFrame p none (s.ingressStamp p bs.length 0) (stored (bs.take (s.maxLen p + 1))) true with
    | (s1, some f) => (s1.setRx p (some ⟨bs, some f, false⟩)).arrive f (stored (bs.take (s.maxLen p + 1)))
    | (s1, none) => s1.setRx p (some ⟨bs, none, false⟩)

/-- Frame f of port p ends bad for reason r of R203: what capture is outstanding is taken, and the ingress port's reference is released (R235,
R243). -/
def State.rxBad (s : State) (p f r : Nat) : State :=
  let s2 := s.endsBad f r
  let m := match s2.frame f with
    | some x => x.bytes.length
    | none => 0
  (((s2.trimCaptures f m).rxCapture p true).setRx p none).release f

/-- Frame f of port p, complete and good: its FCS is removed, its pair's part is done, a frame of a PRP pair is classified, and an outstanding
capture is taken. Answers whether the frame remains. -/
def State.rxGood (s : State) (p f : Nat) (bs : List Byte) : State × Bool :=
  let s1 := (s.arrive f (stored bs)).trimCaptures f (bs.length - 4)
  match s1.frame f with
  | none => (s1, false)
  | some x =>
    if x.bad then (((((s1.onFrame f (fun x => { x with arriving := false })).rxCapture p true).noteLearn x).release f), false)
    else
      let whole := fun (st : State) =>
        ((st.onFrame f (fun x => { x with arriving := false })).rxCapture p true).onFrame f (fun x => { x with arriving := true })
      match (whole s1).pairEnd f with
      | (s2, false) => (s2, false)
      | (s2, true) => if s2.pairMode p = 1 then (whole (s2.headClassified f none false), true) else (s2, true)

end Sys2Proof.Machine
end

