-- ==== Sys2Proof/Machine/SwOut.lean ====
section
/-!
DEFINITION. How copies leave the switch: the bytes a port sends (R204, R240, R241), stamps and corrections (R277 to R282, R312), what
makes a head eligible (R255, R283 to R286, R456), ageing (R260, R261), and the start and the end of a transmission.
-/
namespace Sys2Proof.Machine

/-! ## Bytes on the line -/

/-- What a copy sends of its frame before anything is written into it: the frame, without the HSR tag where it loses it. -/
def Copy.base (c : Copy) (bs : List Byte) : List Byte := if c.strip then stripHsr bs else bs

/-- Bytes that R240 or R241 adds to a copy. -/
def Copy.extra (c : Copy) : Nat := if c.form = 1 ∨ c.form = 2 then 6 else 0

/-- Write bytes in flight. -/
def applyEdits (bs : List Byte) (es : List (Nat × List Byte)) : List Byte := es.foldl (fun b (i, n) => splice b i n) bs

/-- Pad to 60 bytes (R204). -/
def padded (bs : List Byte) : List Byte := bs ++ List.replicate (60 - bs.length) 0

/-- The bytes of a copy from DA, without FCS, as its port sends them. -/
def State.outBytes (s : State) (c : Copy) (bs : List Byte) (es : List (Nat × List Byte)) : List Byte :=
  let b := applyEdits (c.base bs) es
  if c.form = 1 then
    let b := padded b
    let lan := if c.egress = s.pairA c.pair then 0xA else 0xB
    b ++ beBytes 2 c.seq ++ beBytes 2 (lan * 4096 + lsduSize b (b.length + 6)) ++ [0x88, 0xFB]
  else if c.form = 2 then
    let b := padded b
    let path := s.fld (pairReg c.pair 0) 20 3 * 2
    b.take 12 ++ [0x89, 0x2F] ++ beBytes 2 (path * 4096 + lsduSize b (b.length + 6)) ++ beBytes 2 c.seq ++ b.drop 12
  else padded b

/-! ## PTP event messages (R279 to R282) -/

/-- The offset of the PTP header of an event message. -/
def ptpAt (bs : List Byte) : Option Nat :=
  let h := frameHead bs
  let o :=
    if frameType bs = 0x88F7 then some h
    else if frameIsIp bs && beNat (bytesAt bs h 1) % 16 == 5 && beNat (bytesAt bs (h + 9) 1) == 17 && beNat (bytesAt bs (h + 22) 2) == 319 then
      some (h + 28)
    else none
  match o with
  | some i => if beNat (bytesAt bs (i + 1) 1) % 16 = 2 ∧ beNat (bytesAt bs i 1) % 16 ≤ 3 ∧ i + 2 ≤ bs.length then some i else none
  | none => none

/-- The PTP event message of a copy, at its offset in the copy's base: a ring copy keeps its tag, which the message stands behind. -/
def State.copyPtp (s : State) (c : Copy) (x : Frame) : Option Nat :=
  if c.strip = false ∧ (s.parsed x.ingress x.bytes).2 = true then (ptpAt (stripHsr x.bytes)).map (· + 6) else ptpAt (c.base x.bytes)

/-- A correction of 64 bits with `add` added, saturated (R282): the new value, and whether it was saturated. -/
def correct (old : Nat) (add : Int) : Nat × Bool :=
  let sum := signed old 64 + add
  if old = 0x7FFFFFFFFFFFFFFF then (old, false)
  else if 0x7FFFFFFFFFFFFFFF < sum then (0x7FFFFFFFFFFFFFFF, true)
  else (wrapInt sum 64, false)

/-- The residence between two stamps in ns × 2^16. -/
def residence (ti te : Nat) : Int := (Int.ofNat te - Int.ofNat ti) / 65536

/-- LINK_DELAY of port p. -/
def State.linkDelay (s : State) (p : Nat) : Nat := (s.reg (timeReg (0x10000 + 0x100 * p + 0x0C))).toNat

/-- PCFG bits of the time base of port p: 0 TC_EN, 1 P2P, 2 TXTS_EN. -/
def State.timeBit (s : State) (p i : Nat) : Bool := s.bit (timeReg (0x10000 + 0x100 * p)) i

/-- The stamps and corrections of a copy that leaves port p, 0 to 39, with egress stamp te (R280 to R282). -/
def State.ptpOut (s : State) (p : Nat) (c : Copy) (x : Frame) (te : Nat) : State × List (Nat × List Byte) :=
  match s.copyPtp c x with
  | none => (s, [])
  | some o =>
    let b := c.base x.bytes
    let kind := beNat (bytesAt b o 1) % 16
    if x.ingress < 40 ∧ s.timeBit x.ingress 0 = true ∧ s.timeBit p 0 = true then
      let d := if s.timeBit x.ingress 1 && kind == 0 then s.linkDelay x.ingress else 0
      let (new, sat) := correct (beNat (bytesAt b (o + 8) 8)) (residence x.stamp te + Int.ofNat d)
      let s1 := s.bump (timeReg (0x10000 + 0x100 * p + 0x40))
      (if sat then s1.setBit timeSticky 7 true else s1,
        [(o + 8, beBytes 8 new)] ++ (if frameType (if c.strip then b else (s.parsed x.ingress x.bytes).1) = 0x88F7 then [] else [(o - 2, [0, 0])]))
    else if s.timeBit p 2 then
      (s.txtsPush p ⟨word (2 ^ 31 + kind * 2 ^ 24 + beNat (bytesAt b (o + 4) 1) * 2 ^ 16 + beNat (bytesAt b (o + 30) 2)), te⟩, [])
    else (s, [])

/-- The CORR update of a REF that an anchor forwards (R312). -/
def State.refOut (s : State) (c : Copy) (x : Frame) (te : Nat) : State × List (Nat × List Byte) :=
  let b := c.base x.bytes
  if x.limit.isSome && s.isRope b && ropeType b == 1 then
    let o := frameHead b + 16
    let (new, sat) := correct (beNat (bytesAt b o 8)) (residence x.stamp te + Int.ofNat (s.linkDelay x.ingress))
    (if sat then s.setBit timeSticky 7 true else s, [(o, beBytes 8 new)])
  else (s, [])

/-- What a port puts on its line: 7 bytes of preamble, the start delimiter, the bytes of the frame and its FCS (R204). -/
def framed (bs : List Byte) (fcs : Nat) : List Byte := List.replicate 7 0x55 ++ [0xD5] ++ bs ++ leBytes 4 fcs

/-- PCS.MODE of port p: 0 disabled, 1 10GBASE-R, 2 1000BASE-X, 3 SGMII. -/
def State.pcsMode (s : State) (p : Nat) : Nat := s.fld (portReg p 0) 0 3

/-- Bytes as they go over the lane of port p: in SGMII each is sent 10 times at 100 Mb/s and 100 times at 10 Mb/s (R199). -/
def State.laneBytes (s : State) (p : Nat) (bs : List Byte) : List Byte :=
  if s.pcsMode p = 3 then bs.flatMap (fun b => List.replicate (if s.linkSpeed p = 0 then 100 else if s.linkSpeed p = 1 then 10 else 1) b) else bs

/-- Port p has put something on its line. -/
def State.wirePut (s : State) (p : Nat) (bs : List Byte) : State := { s with sw := { s.sw with wire := Tab.set (fun _ => []) s.sw.wire p bs } }

/-- Port p has put a frame on its line. -/
def State.putLine (s : State) (p : Nat) (bs : List Byte) (fcs : Nat) : State := s.wirePut p (s.laneBytes p (framed bs fcs))

/-- The error that ends a frame on the line of port p: an error block of eight error characters in 10GBASE-R, else the code group /V/ (R200,
log entry 180). -/
def State.errorEnd (s : State) (p : Nat) : List Byte := if s.pcsMode p = 1 then List.replicate 8 0xFE else s.laneBytes p [0xFE]

/-- Port p breaks off the frame it sends, of which a free number of bytes has left (R200). -/
def State.cutLine (s : State) (p : Nat) (bs : List Byte) : State :=
  (s.wirePut p (s.laneBytes p ((framed bs 0).take (freeBetween 0 (bs.length + 8) s.freeCtr)) ++ s.errorEnd p)).free

/-! ## Eligibility (R255) -/

/-- The length of a copy on its port, without FCS and before padding. -/
def Copy.length (c : Copy) (x : Frame) : Nat := (c.base x.bytes).length + c.extra

/-- Does a launch entry let the head of queue q of port p start, `n` being its length before a pair adds to it (R283 to R285)? -/
def State.launchOpen (s : State) (p q n : Nat) : Bool :=
  if s.lqMode q = 1 then
    (List.range 1024).any (fun e =>
      s.fld (launchAddr e) 8 9 == q && s.gateOpenNow e && (!s.bit (launchAddr e) 2 || decide (s.wireNs p n ≤ s.gateLeft e)))
  else if s.lqMode q = 2 then
    match s.onceEntry q with
    | some e => s.reached ((s.launchX e + trigSpan - bytesNs (s.linkSpeed p) 8) % trigSpan)
    | none => false
  else true

/-- Register `o` of a receive ring (R453). -/
def rxRing (r o : Nat) : Nat := hostBase + 0x2000 + 0x40 * r + o

/-- Has receive ring r a descriptor that belongs to the device (R454, R456)? -/
def State.rxReady (s : State) (r : Nat) : Bool :=
  s.bit hostBase 0 && s.bit (hostBase + 4) 8 && s.bit (rxRing r 0x14) 0 &&
    s.fld (rxRing r 0x0C) 0 12 != Tab.get (fun _ => 0) s.host.taken (8 + r)

/-- A free slot of a frame unit (R92). -/
def State.freeSlot (s : State) (l : Nat) : Option Nat := (List.range 32).find? (fun i => s.slot l i == Slot.empty)

/-- Can the destination of a copy on port p, 40 to 47, take it? -/
def State.sinkReady (s : State) (p : Nat) (c : Copy) (tc : Nat) : Bool :=
  if p = 40 then s.rxReady tc
  else if p = 41 then (s.freeSlot 32).isSome
  else decide (1 ≤ s.bindState c.l) && decide (s.bindState c.l ≤ 3) && (s.freeSlot c.l).isSome

/-- Does a port, 0 to 39, start transmissions (R200, R204, R209)? -/
def State.portSends (s : State) (p : Nat) : Bool :=
  s.linkUp p && s.bit (portReg p 8) 1 && s.fld (portReg p 4) 6 2 == 0 && !s.otfPort p && s.pauseDue p == 0

/-- Holds the scheduler of port p at least one egress credit (R255)? -/
def State.creditLeft (s : State) (p : Nat) : Bool := decide (Tab.get (fun _ => 0) s.sw.creditsOut p < portCredits p)

/-- Is the head of queue 8p + k eligible? -/
def State.eligible (s : State) (p k : Nat) : Bool :=
  match s.queue (8 * p + k) with
  | [] => false
  | c :: _ =>
    match s.frame c.frame with
    | none => false
    | some x =>
      let n := c.length x
      !x.waits && (!x.arriving || c.ct) &&
        (match c.after with | some t => decide (t < (s.count (tickReg 0x30)).toNat) | none => true) &&
        s.launchOpen p (8 * p + k) (c.base x.bytes).length && !s.pauseHeld (8 * p + k) && s.shaperOpen (8 * p + k) && s.creditLeft p &&
        (if p < 40 then s.ropeOpen p k n else s.sinkReady p c k && (s.tx c.lane).isNone)

/-! ## Ageing (R260, R261) -/

/-- Does queue q age? The queues of engine ports always do. -/
def State.ages (s : State) (q : Nat) : Bool := s.bit (qReg q 0) 0 || decide (336 ≤ q)

/-- Is a copy in queue q overage? -/
def State.overage (s : State) (q : Nat) (c : Copy) : Bool :=
  match s.frame c.frame with
  | some x => s.ages q && !c.ct && decide (s.fld (qReg q 0) 16 16 + 1 ≤ (s.sw.granule + 2 ^ 20 - x.granule) % 2 ^ 20)
  | none => false

/-- Remove overage heads of queue q; `fuel` bounds them. -/
def State.ageHeads (s : State) (q : Nat) : Nat → State
  | 0 => s
  | fuel + 1 =>
    match s.queue q with
    | c :: _ => if s.overage q c then (s.dropHead q 13).ageHeads q fuel else s
    | [] => s

/-- AGE_GRANULE: G advances every 8,000 TIME cycles, and every head is examined. -/
def State.ageGranule (s : State) : State :=
  if s.cyc / 8000 % 2 ^ 20 = s.sw.granule then s
  else
    let s1 := { s with sw := { s.sw with granule := (s.sw.granule + 1) % 2 ^ 20 } }
    (s.sw.queues.map Prod.fst).foldl (fun st q => st.ageHeads q (st.queue q).length) s1

/-! ## Late launch entries (R286) -/

/-- Is ONCE entry e of queue q late: would its head's first DA bit leave more than LATE_TOL after X? An entry is found late once. -/
def State.onceIsLate (s : State) (q e : Nat) : Bool :=
  let after := (s.ns % trigSpan + bytesNs (s.linkSpeed (q / 8)) 8 + trigSpan - s.launchX e) % trigSpan
  decide (after < trigSpan / 2) && decide ((s.reg (launchAddr e + 0x14)).toNat < after) && !Tab.get (fun _ => false) s.sw.onceLate e

/-- Entry e is late: STAT.LATE, LAUNCH_LATE and its count. -/
def State.noteLate (s : State) (e : Nat) : State :=
  let s1 := ((s.setBit (launchAddr e + 0x18) 2 true).setBit timeSticky 4 true).bump (timeReg 0x120)
  { s1 with sw := { s1.sw with onceLate := Tab.set (fun _ => false) s1.sw.onceLate e true } }

/-- The entries of the heads of queue q are judged while they are late: with LATE_DROP the copy is removed and the next one becomes the head;
`fuel` bounds them. -/
def State.lateHeads (s : State) (q : Nat) : Nat → State
  | 0 => s
  | fuel + 1 =>
    if s.lqMode q ≠ 2 ∨ (s.queue q).isEmpty = true then s
    else
      match s.onceEntry q with
      | none => s
      | some e =>
        if s.onceIsLate q e then
          (if s.bit (launchAddr e) 3 then ((s.noteLate e).dropHead q 13).lateHeads q fuel else s.noteLate e)
        else s

/-- The heads of queue q are judged. -/
def State.lateCheck (s : State) (q : Nat) : State := s.lateHeads q (s.queue q).length

/-- LAUNCH_ONCE_ELIGIBLE: the head of a timed queue meets its entry; the copy then leaves by FRAME_TX_START, or its entry is late. -/
def State.onceEligible (s : State) (n : Nat) : State :=
  let q := s.fld (launchAddr n) 8 9
  if s.bit (launchAddr n) 0 && !s.bit (launchAddr n) 1 && s.onceEntry q == some n then s.lateCheck q else s

/-! ## Transmission (R204, R255) -/

/-- The highest queue of port p whose head is eligible; an overage head is removed and the next examined. -/
def State.selectHead (s : State) (p : Nat) : Nat → State × Option Nat
  | 0 => (s, none)
  | fuel + 1 =>
    match (List.range 8).reverse.find? (s.eligible p) with
    | none => (s, none)
    | some k =>
      match s.queue (8 * p + k) with
      | [] => (s, none)
      | c :: _ => if s.overage (8 * p + k) c then (s.dropHead (8 * p + k) 13).selectHead p fuel else (s, some k)

/-- The head of queue q leaves the queue. -/
def State.takeHead (s : State) (q : Nat) : State := (s.consumeOnce q).setQueue q ((s.queue q).drop 1)

/-- A copy is too long for its port (R204, R456). -/
def State.tooLong (s : State) (p k : Nat) (c : Copy) (x : Frame) : Bool :=
  if p < 40 then decide (s.maxLen p < c.length x + 4)
  else p == 40 && decide (s.fld (rxRing k 0x18) 0 14 < (c.base x.bytes).length)

/-- A copy fails at egress and its reference is released. -/
def State.copyFails (s : State) (c : Copy) (r : Nat) : State := (s.failCopy c.frame c.egress r).release c.frame

/-- What the shaper of a queue is debited for a copy on port p, of as much of its frame as has arrived: its length with padding, what the
pair adds, and FCS, plus 20 bytes on ports 0 to 39 (R255). -/
def shaperBytes (p : Nat) (c : Copy) (x : Frame) : Nat := max (c.base x.bytes).length 60 + c.extra + 4 + (if p < 40 then 20 else 0)

/-- A frame as a transmission sends it: what a halt of forwarding has left of it (R265). -/
def Tx.sends (t : Tx) (x : Frame) : Frame :=
  match t.stomped with
  | some n => { x with bytes := x.bytes.take n }
  | none => x

/-- The transmission in lane k is over: its credits return, and its queue's shaper is debited for what has come in since a cut-through
copy started (R255, log entry 136). -/
def State.txDone (s : State) (k : Nat) : State :=
  match s.tx k with
  | none => s
  | some t =>
    let rest := match s.frame t.copy.frame with
      | some x => shaperBytes t.copy.egress t.copy (t.sends x) - t.debited
      | none => 0
    let s1 := (if rest = 0 then s else s.shaperDebit t.queue rest).setTx k none
    { s1 with sw := { s1.sw with
      creditsOut := Tab.set (fun _ => 0) s1.sw.creditsOut t.copy.egress (Tab.get (fun _ => 0) s1.sw.creditsOut t.copy.egress - t.credits) } }

/-- A copy is put into a frame slot of its logical engine, or of the MCP, which shows it without an HSR tag that it loses (R92, R241). -/
def State.intoSlot (s : State) (c : Copy) : State :=
  match s.freeSlot c.l with
  | some i => (s.setSlot c.l i ⟨some c.frame, false, none, c.strip, []⟩).setWaiting c.l (s.waitingOf c.l ++ [i])
  | none => s

/-- The copy at the head of queue 8p + k starts on port p, with the bytes that are written into it (R255, R277 to R282, R312). -/
def State.startCopy (s : State) (p k : Nat) (c : Copy) (x : Frame) (edits : List (Nat × List Byte)) : State :=
  let q := 8 * p + k
  let te := s.stampAt (0 - Int.ofNat (bytesNs (s.linkSpeed p) 8)) (s.reg (timeReg (0x10000 + 0x100 * p + 8)))
  let s1 := ((s.takeHead q).shaperDebit q (shaperBytes p c x)).free
  let (s2, e1) := if p < 40 && !x.arriving then s1.ptpOut p c x te else (s1, [])
  let (s3, e2) := if p < 40 then s2.refOut c x te else (s2, [])
  let s4 := if p < 41 then s3 else s3.intoSlot c
  let out := Tab.get (fun _ => 0) s4.sw.creditsOut p
  let n := if 42 ≤ p ∧ x.arriving = true then 1 else min (portCredits p - out) (max 1 x.cells)
  let s5 := { s4 with sw := { s4.sw with creditsOut := Tab.set (fun _ => 0) s4.sw.creditsOut p (out + n) } }.setTx c.lane
    (some ⟨c, n, edits ++ e1 ++ e2, q, shaperBytes p c x, none, if p < 40 && x.arriving then some te else none⟩)
  if s5.bit (pcfg p) 25 then s5.capture243 c.frame (s5.fld (pcfg p) 26 2) p else s5

/-- An uncorrectable error in a cell that a copy reads (R266), and a corrected one (R373). -/
def State.cellUe (s : State) : State := s.bump (memReg 0x168)
def State.cellCorrected (s : State) : State :=
  (s.correctedPacket ((freeValue 8 s.freeCtr).toNat) ((freeValue 6 (s.freeCtr + 1)).toNat)).free.free

/-- Is the transmission in lane k one of a frame that still arrives? -/
def State.txArrives (s : State) (k : Nat) : Bool :=
  match s.tx k with
  | some t => (match s.frame t.copy.frame with | some x => x.arriving && !x.bad && t.stomped.isNone | none => false)
  | none => false

/-- The lanes of port p: on an engine port one for each of its logical engines. -/
def portLanes (p : Nat) : List Nat := if p < 42 then [p] else ((List.range 32).filter (fun l => enginePort l == p)).map (64 + ·)

/-- Is port p busy with a transmission? On an engine port a frame that still arrives comes in at its ingress rate and holds up no other (R142). -/
def State.portBusy (s : State) (p : Nat) : Bool := (portLanes p).any (fun k => (s.tx k).isSome && (decide (p < 42) || !s.txArrives k))

/-- FRAME_TX_START: an egress port selects an eligible head and starts its transmission. -/
def State.frameTxStart (s : State) (p : Nat) (found : EccFinding) : State :=
  if s.portBusy p || (decide (p < 40) && !s.portSends p) then s
  else
    let s0 := (List.range 8).foldl (fun st k => st.lateCheck (8 * p + k)) s
    match s0.selectHead p (s0.copies + 1) with
    | (s1, none) => s1
    | (s1, some k) =>
      match s1.queue (8 * p + k) with
      | [] => s1
      | c :: _ =>
        match s1.frame c.frame with
        | none => s1
        | some x =>
          if s1.tooLong p k c x then
            let s2 := s1.takeHead (8 * p + k)
            (if p < 40 then s2.bump (portReg p 0x1070) else s2).copyFails c 15
          else if found = .double then ((s1.takeHead (8 * p + k)).cellUe).copyFails c 18
          else (if found = .single then s1.cellCorrected else s1).startCopy p k c x []

/-- The line of the transmission `t` of frame x on port p. A cut-through copy's PTP message has come in by its end: it is updated with the
stamp taken at its start, or leaves its entry, here (R280, R281). -/
def State.txLine (s : State) (p : Nat) (t : Tx) (x : Frame) : State × List Byte :=
  let (s1, es) := match t.stamp with
    | some te => s.ptpOut p t.copy x te
    | none => (s, [])
  (s1, s.outBytes t.copy x.bytes (t.edits ++ es))

/-- The slot of l that shows frame f shows it ended bad with its first `n` bytes (R235, R265, R266). -/
def State.cutSlot (s : State) (l f n : Nat) : State :=
  (List.range 32).foldl (fun st i =>
    if (st.slot l i).rx = some f ∧ (st.slot l i).cut = none then st.setSlot l i { st.slot l i with cut := some n } else st) s

/-- The transmission of copy c ends with the complement of its FCS, and the copy fails for reason r (R205); a slot shows its first `n` bytes as a bad
frame. -/
def State.endStomped (s : State) (c : Copy) (r n : Nat) (line : List Byte) : State :=
  let s1 := s.txDone c.lane
  let s2 := if c.egress < 40 then (s1.bump (portReg c.egress 0x1060)).putLine c.egress line (crc32 line ^^^ 0xFFFFFFFF)
    else if c.egress = 40 then s1
    else s1.cutSlot c.l c.frame n
  s2.copyFails c r

/-- The transmission of copy c ends with a correct FCS, or the copy is handed over: it has left (R238). -/
def State.endGood (s : State) (c : Copy) (n : Nat) (line : List Byte) : State :=
  let p := c.egress
  let s1 := (s.txDone c.lane).onFrame c.frame (fun x => { x with left := true })
  let s2 := if p < 40 then ((s1.bump (portReg p 0x1050)).bumpBy (portReg p 0x1058) n).putLine p line (crc32 line) else s1
  s2.release c.frame

/-- A transmission `t` of frame x completes with its FCS, or stomped, and the copy releases its reference. One to the host completes by its
descriptor; an uncorrectable error in a cell that it reads ends it here (R266). -/
def State.txEnds (s : State) (t : Tx) (x : Frame) (found : EccFinding) : State :=
  let p := t.copy.egress
  let sent := t.sends x
  let (s1, line) := s.txLine p t sent
  if t.stomped.isSome then s1.endStomped t.copy 17 sent.bytes.length line
  else if found = .double then s1.cellUe.endStomped t.copy 18 sent.bytes.length line
  else if p = 40 then s
  else if x.bad then s1.endStomped t.copy 16 sent.bytes.length line
  else if x.arriving then s
  else if decide (p < 40) && t.copy.ct && s.tooLong p x.tc t.copy x then
    ((s.txDone p).bump (portReg p 0x1070)).copyFails t.copy 15
  else (if found = .single then s1.cellCorrected else s1).endGood t.copy (t.copy.length x) line

/-- The lane of port p whose transmission FRAME_TX_END ends: on an engine port the lowest whose frame has ended, else the lowest in use. -/
def State.endLane (s : State) (p : Nat) : Nat :=
  let ks := (portLanes p).filter (fun k => (s.tx k).isSome)
  ((ks.find? (fun k => !s.txArrives k)).or ks.head?).getD p

/-- FRAME_TX_END. -/
def State.frameTxEnd (s : State) (p : Nat) (found : EccFinding) : State :=
  match s.tx (s.endLane p) with
  | none => s
  | some t =>
    match s.frame t.copy.frame with
    | none => s.setTx (s.endLane p) none
    | some x => s.txEnds t x found

/-- An engine's or the MCP's load meets an uncorrectable error in a cell of the frame that slot i of l shows: the copy ends there, bad (R266). -/
def State.slotCellBad (s : State) (l i : Nat) : State :=
  let s0 := s.cellUe
  match (s.slot l i).rx with
  | none => s0
  | some f =>
    let n := match s.frame f with
      | some x => x.bytes.length
      | none => 0
    match (s0.tx (if l = 32 then 41 else 64 + l)) with
    | some t => if t.copy.frame = f then s0.endStomped t.copy 18 n [] else s0.cutSlot l f n
    | none => s0.cutSlot l f n

end Sys2Proof.Machine
end

