-- ==== Sys2Proof/Machine/Rope.lean ====
section
/-!
DEFINITION. The stations and anchors of Ropeline in time (chapter 12): enabling, cycles and bank switches, integrity tags, references and
their effect, slot release, windows, truncation, and the registers of ROPE.
-/
namespace Sys2Proof.Machine

/-! ## Parts of a context's registers -/

/-- Set STATION, ANCH, ACTING, ARANK, MISSED of context r. -/
def State.setStation (s : State) (r n : Nat) : State := s.setFld (ctxReg r 0x40) 0 3 n
def State.setAnchor (s : State) (r n : Nat) : State := s.setFld (ctxReg r 0x40) 4 2 n
def State.setActing (s : State) (r : Nat) (b : Bool) : State := s.setBit (ctxReg r 0x40) 3 b
def State.setMissed (s : State) (r n : Nat) : State := s.setFld (ctxReg r 0x40) 8 4 n
/-- Set a STICKY flag of context r. -/
def State.ctxSticky (s : State) (r i : Nat) : State := (s.setBit (ctxReg r 0x50) i true).raise 0x5E 0 (r * 256 + i)
/-- Count in counter `o` of context r. -/
def State.ctxCount (s : State) (r o : Nat) : State := s.bump (ctxReg r o)
/-- LOCKED. -/
def State.locked (s : State) (r : Nat) : Bool := s.bit (ctxReg r 0x44) 0
/-- The station enters LISTEN. -/
def State.listen (s : State) (r : Nat) : State := (s.setStation r 1).onCtx r (fun c => { c with listenAt := s.cyc, colds := 0 })
/-- The words of a port set. -/
def State.portSet (s : State) (r o : Nat) : Nat := (s.reg (ctxReg r o)).toNat + s.fld (ctxReg r (o + 4)) 0 8 * 2 ^ 32

/-! ## Enabling and disabling (R291, R292, R326) -/

/-- Does a port run in a mode that Ropeline allows (R292)? -/
def State.ropePortOk (s : State) (p : Nat) : Bool :=
  let m := s.fld (portReg p 0) 0 3
  let gig := if s.bit (portReg p 0) 3 then s.linkSpeed p == 2 else s.fld (portReg p 0) 4 2 == 2
  (m == 1 || m == 2 || (m == 3 && gig)) && (s.pairOf p).isNone && !s.otfPort p

/-- The checks on a write that sets EN of context r. -/
def State.ctxEnableOk (s : State) (r : Nat) (d : Word) : Bool :=
  let mine := s.portSet r 0x08 ||| s.portSet r 0x10
  let rank := fieldOf d 3 2
  fieldOf d 1 2 != 3 &&
    (List.range 4).all (fun j => j == r || !s.ctxOn j || mine &&& (s.portSet j 0x08 ||| s.portSet j 0x10) == 0) &&
    (List.range 40).all (fun p => !mine.testBit p || s.ropePortOk p) &&
    s.rq r != s.lq r && s.lq r != s.fq r && s.rq r != s.fq r && s.bankValid r (s.bankOf r) && decide (s.cycleNs r ≤ 1000000000) &&
    (fieldOf d 1 2 != 2 || s.fld (ctxReg r (0x60 + 4 * (rank / 2))) (16 * (rank % 2)) 16 == fieldOf d 16 10)

/-- Context r is enabled: CYCLE_NO holds the present cycle (R293), and the unit works from the next on. -/
def State.ctxEnable (s : State) (r : Nat) (d : Word) : State :=
  let s1 := ((s.setReg (ctxReg r 0) (word (fieldOf d 0 28))).setReg (ctxReg r 0x40) 0).setReg64 (ctxReg r 0x48)
    (s.tickIndex / s.fld (ctxReg r 4) 0 11)
  let s2 := s1.setCtx r { CtxSt.reset with listenAt := s.cyc }
  (s2.setStation r (if fieldOf d 1 2 = 0 then 0 else 1)).setAnchor r (if bitOf d 5 then 1 else 0)

/-- Context r is disabled: its windows end, and frames that wait for one are blocked. -/
def State.ctxDisable (s : State) (r : Nat) (d : Word) : State :=
  let ws := (s.ctx r).wins
  let s1 := ws.foldl (fun st w =>
    (w.rivals.foldl (fun st f => match st.frame f with
      | some x => if x.bad then (st.onFrame f (fun x => { x with waits := false })).release f else st.blockFrame f x.ingress false false
      | none => st) st).endWin r w.slot) s
  (((s1.setReg (ctxReg r 0) (word (fieldOf d 0 28))).setReg (ctxReg r 0x40) 0).setCtx r CtxSt.reset)

/-- A write of CFG of context r (R326). -/
def State.ctxCfgWrite (s : State) (r : Nat) (d : Word) : WRes :=
  if fieldOf d 1 2 = 3 then .err s
  else if s.ctxOn r then (if bitOf d 0 then .err s else .done (s.ctxDisable r d))
  else if bitOf d 0 then (if s.ctxEnableOk r d then .done (s.ctxEnable r d) else .err s)
  else .plain

/-! ## Cycles (R293, R296, R311) -/

/-- The bank announced by the reference in force is switched to (R296). -/
def State.bankSwitch (s : State) (r c : Nat) : State :=
  match (s.ctx r).inForce with
  | some x =>
    if x.switchAt = c % 2 ^ 32 ∧ x.nextBank ≠ s.bankOf r then
      (if s.bankValid r x.nextBank then s.setBit (ctxReg r 0x54) 0 x.nextBank else s.ctxSticky r 3)
    else s
  | none => s

/-- The number that slot i of the windows has once the next cycle has started: none for one of two cycles ago. -/
def agedSlot (i : Nat) : Option Nat :=
  if i / staleSlot = 0 then some (i + staleSlot) else if i / staleSlot = 2 then some (i - 2 * staleSlot) else none

/-- A cycle is over. A cold window ends with it; the others have their own ends, and stand as those of the cycle before until then (R307,
R313). One of two cycles ago is over, unless its frames are still to be decided on. -/
def State.windowsOver (s : State) (r : Nat) : State :=
  let s1 := (s.ctx r).wins.foldl (fun st w =>
    if w.rivals.isEmpty && (w.slot == coldSlot || (agedSlot w.slot).isNone) then st.endWin r w.slot else st) s
  s1.onCtx r (fun c => { c with
    wins := c.wins.map (fun w => { w with slot := (agedSlot w.slot).getD (w.slot + 2 * staleSlot) }), ended := c.ended.filterMap agedSlot })

/-- What the cycle that ends leaves of its references: those that have still to take effect, where its REF slot ended less than 2 µs ago
(R304). -/
def State.carried (s : State) (r : Nat) : Option RefCarry :=
  let c := s.ctx r
  if c.running && !c.took && !c.closed then some ⟨s.slotEnd r 0 + 2000, c.heard, c.heardAnch, c.own, c.sent⟩ else none

/-- Cycle c of context r starts at `start` ns. -/
def State.ctxCycle (s : State) (r c start : Nat) : State :=
  let left := s.carried r
  let bank := s.bankOf r
  let s1 := (s.setReg64 (ctxReg r 0x48) c).bankSwitch r c
  let s2 := s1.onCtx r (fun x =>
    let own := match x.own with
      | some y => if y.cycle = c then some y else none
      | none => none
    { x with
      start := start, running := true, prev := if x.running then some (x.start, bank) else none, carry := left,
      took := false, closed := false, heard := none, heardAnch := none, own := own,
      buildX := if own.isSome then x.buildX else none, sent := own.isSome && x.sent, released := 0, triedSlot := 0, triedPorts := 0,
      lockMiss := if s.anchor r = 2 ∧ x.lockSeen = false then x.lockMiss + 1 else 0, lockSeen := false })
  let s3 := s2.windowsOver r
  if s3.anchor r = 1 then s3.openWin r coldSlot else s3

/-- A base tick has begun: the contexts whose cycle starts with it start it. -/
def State.ropeTick (s : State) : State :=
  (List.range 4).foldl (fun st r =>
    let n := st.fld (ctxReg r 4) 0 11
    if st.ctxOn r && decide (0 < n) && st.tickIndex % n == 0 then st.ctxCycle r (st.tickIndex / n) st.tick.start else st) s

/-! ## Integrity tags (R318 to R320) -/

/-- Key record i of context r, in secure memory. -/
def State.keyRecord (s : State) (r i : Nat) : Nat := secureBase + s.fld (ctxReg r 0x28) 0 12 * 64 + 64 * i

/-- Reads of the key records return nothing: during a wipe they return zero (R376), and in a destructive March C− run they are bus errors
(R380, log entry 183). -/
def State.keysClosed (s : State) : Bool := s.wiping || s.marchHolds 0

/-- The first word with an uncorrectable error among those that the unit reads of a record: its header, and the key of a valid one (R374). -/
def State.recordBad (s : State) (a : Nat) : Option Nat :=
  if s.isBad a then some a
  else if (s.byte (a + 1)).getLsbD 0 then
    (findFrom (fun j => s.isBad (a + 0x20 + 8 * j)) (if (s.byte (a + 1)).getLsbD 1 then 4 else 2) 0).map (fun j => a + 0x20 + 8 * j)
  else none

/-- KEYID, VALID and the key of a record. One whose read is refused is not VALID (log entry 183). -/
def State.keyId (s : State) (a : Nat) : Nat := if s.keysClosed then 0 else (s.byte a).toNat
def State.keyValid (s : State) (a : Nat) : Bool := !s.keysClosed && (s.recordBad a).isNone && (s.byte (a + 1)).getLsbD 0
def State.keyOf (s : State) (a : Nat) : List Byte := s.bytes (a + 0x20) (if (s.byte (a + 1)).getLsbD 1 then 32 else 16)

/-- The unit reads key records of context r: each uncorrectable error that it finds is an F3 of the memory (R319, R374). The unit has no identity
of its own in R443: the one that the capture names is free (log entry 183). -/
def State.keyFaults (s : State) (r : Nat) (is : List Nat) : State :=
  if s.keysClosed then s
  else
    is.foldl (fun (st : State) i =>
      match st.recordBad (st.keyRecord r i) with
      | some b => ((st.ueNoted b (freeBetween 0 5 st.freeCtr)).ueRaise 3 b (freeBetween 0 5 st.freeCtr)).free
      | none => st) s

/-- The record of TX_KEY is read where a frame is sent with a tag. -/
def State.sendFaults (s : State) (r : Nat) : State := if s.bit (ctxReg r 0) 6 then s.keyFaults r [s.fld (ctxReg r 0) 26 2] else s

/-- What a tag covers: from DA to the last payload byte, without the VLAN tag, and with a REF's CORR taken as zero. -/
def tagText (bs : List Byte) : List Byte :=
  let h := frameHead bs
  let t := bs.take (h + 16 + ropePlen bs)
  let z := if ropeType bs = 1 then splice t (h + 16) (List.replicate 8 0) else t
  if frameTagged bs then z.take 12 ++ z.drop 16 else z

/-- The tag of a frame under a key. -/
def ropeTag (key bs : List Byte) : List Byte := (cmac key (tagText bs)).take 8

/-- The tag and KEYID that context r gives a frame that it sends: zeros where the record is not valid. -/
def State.sendTag (s : State) (r : Nat) (bs : List Byte) : List (Nat × List Byte) :=
  if s.bit (ctxReg r 0) 6 then
    let a := s.keyRecord r (s.fld (ctxReg r 0) 26 2)
    let h := frameHead bs
    let k := (h + 12, [BitVec.ofNat 8 (s.keyId a)])
    let b := applyEdits bs [k]
    [k, (h + 16 + ropePlen bs, if s.keyValid a then ropeTag (s.keyOf a) b else List.replicate 8 0)]
  else []

/-- The verdict on a Ropeline frame of context r (R320): the state with its counters and flags, whether the frame passes, and word 0x3FE8. -/
def State.judgeTag (s : State) (r : Nat) (bs : List Byte) : State × Bool × Word :=
  let fails := fun (w : Nat) => (((s.ctxCount r 0x230).ctxSticky r 4), false, word w)
  let replay := fun (w : Nat) => (((s.ctxCount r 0x238).ctxSticky r 5), false, word w)
  let old := (s.synced r || s.anchor r == 3) && ropeCycle bs != s.cycleNo r % 2 ^ 32
  if !ropeTagged bs then (if s.bit (ctxReg r 0) 7 then fails 1 else if old then replay (1 + 4) else (s, true, 0))
  else
    match (List.range 4).find? (fun i => s.keyValid (s.keyRecord r i) && s.keyId (s.keyRecord r i) == ropeKeyId bs) with
    | none => fails (1 + 8)
    | some i =>
      if ropeTag (s.keyOf (s.keyRecord r i)) bs ≠ bytesAt bs (frameHead bs + 16 + ropePlen bs) 8 then fails 1
      else if old then replay (1 + 2 + 4)
      else (s, true, word (1 + 2))

/-- The check of a Ropeline frame of context r, with the reads of its key records. -/
def State.checkTag (s : State) (r : Nat) (bs : List Byte) : State × Bool × Word :=
  (if ropeTagged bs then s.keyFaults r (List.range 4) else s).judgeTag r bs

/-! ## References heard (R304) -/

/-- The fields of a received REF. -/
def refOf (bs : List Byte) (c : Nat) : RopeRef :=
  let pl := ropePayload bs
  { poll := bytesAt pl 0x20 128,
    leads := (List.range 4).map (fun i => beNat (bytesAt pl (0x10 + 2 * i) 2)),
    rank := beNat (bytesAt pl 0x18 1) % 4,
    nextBank := (beNat (bytesAt pl 0x19 1)).testBit 1,
    switchAt := beNat (bytesAt pl 0x1C 4), cycle := c, own := false }

/-- Is a heard REF from port p with an ingress stamp valid (R304): one of the present cycle (k = 0), or of the cycle before (k = staleSlot)? -/
def State.refValid (s : State) (r p stamp k : Nat) (bs : List Byte) : Bool :=
  let corr := signed (beNat (bytesAt (ropePayload bs) 0 8)) 64
  let e := Int.ofNat (s.slotAt r k * nsUnit) + (corr + Int.ofNat (s.linkDelay p)) * 65536
  let g := Int.ofNat (s.guardNs r * nsUnit)
  (s.ctx r).running && ropeCycle bs == (s.cycleNo r - k / staleSlot) % 2 ^ 32 && decide (e - g ≤ Int.ofNat stamp) && decide (Int.ofNat stamp < e + g)

/-- A valid REF is noted, the first of its cycle, for the station or for the anchor. -/
def State.noteRef (s : State) (r p stamp : Nat) (anch : Bool) (bs : List Byte) : State :=
  let c := s.ctx r
  if s.refValid r p stamp 0 bs then
    let x := some (refOf bs (s.cycleNo r))
    if anch then s.setCtx r { c with heardAnch := c.heardAnch.or x } else s.setCtx r { c with heard := c.heard.or x }
  else
    match c.carry with
    | some y =>
      if s.refValid r p stamp staleSlot bs then
        let x := some (refOf bs (s.cycleNo r - 1))
        s.setCtx r { c with carry := some (if anch then { y with heardAnch := y.heardAnch.or x } else { y with heard := y.heard.or x }) }
      else s
    | none => s

/-- The station of context r hears a REF. -/
def State.hear (s : State) (r p stamp : Nat) (bs : List Byte) : State :=
  if s.station r = 1 then (s.onCtx r (fun c => { c with listenAt := s.cyc })).noteRef r p stamp false bs
  else if s.station r = 2 then s.listen r
  else if s.synced r then s.noteRef r p stamp false bs
  else s

/-- The anchor of context r meets a heard REF that it has admitted from port p. -/
def State.hearAnchor (s : State) (r p stamp : Nat) (bs : List Byte) : State :=
  (if s.anchor r = 2 ∧ s.fld (ctxReg r 0x40) 12 6 = p then s.onCtx r (fun c => { c with lockSeen := true }) else s).noteRef r p stamp true bs

/-- An admitted JOIN from port p has ended good (R310, R315). -/
def State.joined (s : State) (r p : Nat) (bs : List Byte) : State :=
  let a := nodePort r (ropeSrc bs)
  let s1 := s.setBit (aport p 0) 0 false
  if !s1.bit a 7 || s1.fld a 0 6 == p then s1.setReg a (word (p + 128)) else s1.ctxSticky r 7

/-- The Ropeline unit meets frame f, complete and good, with bytes `bs`, from port p: tag check, references heard, last data and joins. -/
def State.ropeEnd (s : State) (f p : Nat) (bs : List Byte) : State :=
  match s.ctxOf p, s.frame f with
  | some r, some x =>
    if !s.isRope bs || ropeMalformed bs || ropeId bs != s.fld (ctxReg r 0) 8 8 then s
    else
      let (s1, ok, w) := s.checkTag r bs
      let s2 := s1.onFrame f (fun x => { x with tag := w })
      if !ok then
        -- A join whose tag is not required reconnects its port all the same (R310); a failed frame enters no node (R320).
        (if ropeType bs = 3 ∧ s.bit (ctxReg r 0) 7 = false ∧ s2.anchorPort r p = true ∧ x.limit.isSome = true then s2.setBit (aport p 0) 0 false
         else s2)
      else
        let station := s2.stationPort r p
        let admitted := s2.anchorPort r p && x.limit.isSome
        if ropeType bs = 1 then
          let s3 := if station then s2.hear r p x.stamp bs else s2
          if admitted then s3.hearAnchor r p x.stamp bs else s3
        else if ropeType bs = 2 then
          if station then s2.setReg (ropeReg (0x20000 + 0x1000 * r + 4 * ropeSrc bs)) (word (ropeCycle bs)) else s2
        else if admitted then s2.joined r p bs else s2
  | _, _ => s

/-! ## Building references (R302, R306, R314) -/

/-- The poll set of registers from `o` as the bytes of a REF: node n is bit 7 − n mod 8 of byte n / 8. -/
def State.pollBytes (s : State) (r o : Nat) : List Byte :=
  (List.range 128).map (fun i => BitVec.ofNat 8 ((List.range 8).foldl (fun v b =>
    v + bit01 (s.bit (ctxReg r (o + 4 * ((8 * i + b) / 32))) ((8 * i + b) % 32)) * 2 ^ (7 - b)) 0))

/-- Write a poll set, given as the bytes of a REF, to the registers from `o`. -/
def State.setPoll (s : State) (r o : Nat) (poll : List Byte) : State :=
  (List.range 32).foldl (fun st w =>
    st.setReg (ctxReg r (o + 4 * w)) (word ((List.range 32).foldl (fun v b =>
      v + bit01 ((beNat (bytesAt poll ((32 * w + b) / 8) 1)).testBit (7 - b % 8)) * 2 ^ b) 0))) s

/-- The departure instants in ns, with their cycles, of the references that are built in the present cycle: 4 µs ahead, the next cycle's in this
one where its REF slot starts within 4 µs of its start (R302). -/
def State.departures (s : State) (r : Nat) : List (Nat × Nat) :=
  let now := s.slotStart r (s.bankOf r) 0
  let next := s.slotStart r (s.nextBank r) 0
  (if 4000 ≤ now then [((s.ctx r).start + now, s.cycleNo r)] else []) ++
    (if next < 4000 then [((s.ctx r).start + s.cycleNs r + next, s.cycleNo r + 1)] else [])

/-- The departure X and the cycle of the reference that is to be built now, if one is: it is 4 µs ahead at most, and not built. -/
def State.buildDue (s : State) (r : Nat) : Option (Nat × Nat) :=
  (s.departures r).find? (fun (x, c) => decide (x ≤ s.ns + 4000) && decide (s.ns < x) &&
    (match (s.ctx r).own with
    | some o => o.cycle != c
    | none => true))

/-- LEADS of context r, in rank order. -/
def State.leads (s : State) (r : Nat) : List Nat := (List.range 4).map (fun i => s.fld (ctxReg r (0x60 + 4 * (i / 2))) (16 * (i % 2)) 16)

/-- The reference of context r for cycle c with departure instant X (ns), before its tag. -/
def State.refFrame (s : State) (r c x : Nat) (cold : Bool) : List Byte :=
  let cfg := ctxReg r 0
  let ack := (List.range 8).flatMap (fun i =>
    let a := ctxReg r (0x180 + 4 * i)
    if s.bit a 0 then beBytes 2 (s.fld a 16 16) ++ [BitVec.ofNat 8 (s.fld a 8 8), 0] else [0, 0, 0, 0])
  beBytes 6 ((s.reg (ctxReg r 0x30)).toNat + s.fld (ctxReg r 0x34) 0 16 * 2 ^ 32) ++
    beBytes 6 ((s.reg (ctxReg r 0x38)).toNat + s.fld (ctxReg r 0x3C) 0 16 * 2 ^ 32) ++ beBytes 2 (s.fld (ropeReg 0) 0 16) ++
    [0x11, BitVec.ofNat 8 (s.fld cfg 8 8)] ++ beBytes 2 (s.nodeId r) ++ beBytes 4 c ++ beBytes 2 (bit01 (s.bit cfg 6) * 2 ^ 15) ++
    beBytes 2 192 ++ [0, 0, 0, 0] ++
    List.replicate 8 0 ++ beBytes 4 (x / 1000000000) ++ beBytes 4 (x % 1000000000) ++ (s.leads r).flatMap (beBytes 2) ++
    [BitVec.ofNat 8 (s.leadRank r), BitVec.ofNat 8 (bit01 cold + 2 * bit01 (s.bit (ctxReg r 0x54) 1)), 0, 0] ++
    beBytes 4 (s.reg (ctxReg r 0x58)).toNat ++ s.pollBytes r 0x100 ++ ack ++ (if s.bit cfg 6 then List.replicate 8 0 else [])

/-- Does the lead of context r send a reference at this build instant (R306, R314)? -/
def State.leadSends (s : State) (r : Nat) : Bool :=
  s.isLead r && (s.station r == 2 || (s.synced r && decide (2 * ((s.leadRank r + 4 - s.fld (ctxReg r 0x40) 6 2) % 4) ≤ s.missed r)))

/-- A lead in COLD whose two references have drawn none of another lead becomes SYNCED and ACTING (R314); a backup lead that starts sets
ACTING and TAKEOVER (R306). -/
def State.leadStarts (s : State) (r : Nat) : State :=
  if s.station r = 2 then
    if 2 ≤ (s.ctx r).colds then ((s.setStation r 3).setActing r true).setBit (ctxReg r 0x44) 0 true else s
  else if s.acting r then s
  else ((s.setActing r true).ctxSticky r 0).ctxCount r 0x218

/-- The reference of context r for cycle c, which departs at x, is built and injected. -/
def State.buildRef (s : State) (r x c : Nat) : State :=
  let s1 := s.leadStarts r
  let bs := s1.refFrame r c x (s1.station r == 2)
  let own : RopeRef :=
    { poll := s1.pollBytes r 0x100, leads := s1.leads r, rank := s1.leadRank r, nextBank := s1.bit (ctxReg r 0x54) 1,
      switchAt := (s1.reg (ctxReg r 0x58)).toNat, cycle := c, own := true }
  let s2 := s1.onCtx r (fun y => { y with own := some own, buildX := some x, sent := false })
  let s3 := (List.range 8).foldl (fun st i => st.setBit (ctxReg r (0x180 + 4 * i)) 0 false) s2
  let l := s3.fld (ctxReg r 0x2C) 0 5
  (s3.sendFaults r).enterFrame (enginePort l) (some l) (applyEdits bs (s3.sendTag r bs)) none

/-- REF_BUILD: 4 µs before X a sending lead builds and injects its reference. -/
def State.refBuild (s : State) (r : Nat) : State :=
  match s.buildDue r with
  | some (x, c) => if s.ctxOn r && (s.ctx r).running && s.leadSends r then s.buildRef r x c else s
  | none => s

/-- A transmission on port p has started: a reference of its context that leaves is counted (R302), and LQ of the port has had its copy (R300). -/
def State.refLeft (s : State) (p : Nat) : State :=
  match s.ctxOf p, s.tx p with
  | some r, some t =>
    match s.frame t.copy.frame, (s.ctx r).buildX with
    | some x, some at' =>
      if x.tc = s.lq r then
        let s1 := s.onCtx r (fun c => { c with lqAt := Tab.set (fun _ => 0) c.lqAt p (at' + 1) })
        if s1.stationPort r p && !(s1.ctx r).sent then
          (s1.ctxCount r 0x208).onCtx r (fun c => { c with sent := true, colds := if s1.station r = 2 then c.colds + 1 else c.colds })
        else s1
      else s
    | _, _ => s
  | _, _ => s

/-- FRAME_TX_START with the count of references. -/
def State.txStart (s : State) (p : Nat) (found : EccFinding) : State :=
  if s.portBusy p then s else (s.frameTxStart p found).refLeft p

/-! ## References take effect (R304, R305, R311, R315) -/

/-- The REF slot of context r has been over for 2 µs in this cycle. -/
def State.refTime (s : State) (r : Nat) : Bool := s.ctxOn r && (s.ctx r).running && decide (s.slotEnd r 0 + 2000 ≤ s.ns)

/-- What the present cycle has of references. -/
def State.cycleRefs (s : State) (r : Nat) : RefCarry :=
  let c := s.ctx r
  ⟨s.slotEnd r 0 + 2000, c.heard, c.heardAnch, c.own, c.sent⟩

/-- The reference that the station has heard, as far as it may take effect: in LISTEN only with LOCKED = 1 (R304, R305). -/
def State.heardOf (s : State) (r : Nat) (y : RefCarry) : Option RopeRef := if s.station r = 1 ∧ s.locked r = false then none else y.heard

/-- The reference of a cycle that is to take effect: another lead's before the part's own, and the latter from an acting lead or one in COLD. -/
def State.refOfCycle (s : State) (r : Nat) (y : RefCarry) : Option RopeRef :=
  match s.heardOf r y, y.heardAnch with
  | some x, _ => some x
  | none, some x => some x
  | none, none => if (s.acting r || s.station r == 2) && y.sent then y.own else none

/-- That of the present cycle. -/
def State.refPending (s : State) (r : Nat) : Option RopeRef := s.refOfCycle r (s.cycleRefs r)

/-- The station follows a reference that takes effect. -/
def State.stationFollows (s : State) (r : Nat) (heard : Bool) : State :=
  let s1 := if s.station r = 1 ∧ s.locked r = true ∧ heard = true then s.setStation r 3 else s
  if s1.synced r then s1.setStation r (if s1.polled r (s1.nodeId r) then 4 else 3) else s1

/-- NODEPORT entries of nodes that the poll set no longer lists are cleared (R315). -/
def State.nodePortsFollow (s : State) (r : Nat) (before : List Byte) : State :=
  if s.bit (ctxReg r 0) 5 then
    (List.range 1024).foldl (fun st n =>
      if (beNat (bytesAt before (n / 8) 1)).testBit (7 - n % 8) && !st.polled r n then st.setReg (nodePort r n) 0 else st) s
  else s

/-- Reference x comes into force, from what a cycle has of references (R304, R305). An anchor in LOCKING follows a valid REF, and a local acting
lead's own (R311). -/
def State.inForceNow (s : State) (r : Nat) (x : RopeRef) (y : RefCarry) : State :=
  let before := s.pollBytes r 0x80
  let s1 := s.onCtx r (fun c => { c with inForce := some x })
  let s2 := ((s1.setPoll r 0x80 x.poll).setFld (ctxReg r 0x40) 6 2 x.rank).setMissed r 0
  let s3 := if x.own then s2 else s2.ctxCount r 0x200
  let s4 := if !x.own && s3.acting r then (s3.setActing r false).ctxSticky r 1 else s3
  let s5 := if s4.acting r then s4 else s4.setPoll r 0x100 x.poll
  let s6 := s5.stationFollows r (s.heardOf r y).isSome
  let s7 := if s6.anchor r = 2 ∧ s6.locked r = true ∧ (y.heardAnch.isSome = true ∨ (x.own = true ∧ s.acting r = true)) then s6.setAnchor r 3 else s6
  s7.nodePortsFollow r before

/-- A REF slot has closed without a valid reference (R305). -/
def State.refMissed (s : State) (r : Nat) : State :=
  let m := min 8 (s.missed r + 1)
  let s1 := (s.setMissed r m).ctxCount r 0x210
  if m < 8 then s1
  else
    let s2 := if s1.synced r && !s1.acting r then (s1.listen r).ctxSticky r 2 else s1
    if s2.anchor r = 3 then s2.setAnchor r 1 else s2

/-- The references of the cycle before are settled, when they are due: its own has taken effect, or counts as missed. -/
def State.carryOver (s : State) (r : Nat) (y : RefCarry) : State :=
  if s.ctxOn r && decide (y.due ≤ s.ns) then
    let s1 := s.onCtx r (fun c => { c with carry := none })
    match s.refOfCycle r y with
    | some x => s1.inForceNow r x y
    | none => s1.refMissed r
  else s

/-- REF_TAKE_EFFECT: at the end of the REF slot plus 2 µs a valid reference comes into force. -/
def State.refTake (s : State) (r : Nat) : State :=
  match (s.ctx r).carry with
  | some y => s.carryOver r y
  | none =>
    match s.refPending r with
    | none => s
    | some x =>
      if !s.refTime r || (s.ctx r).took then s
      else (s.onCtx r (fun c => { c with took := true })).inForceNow r x (s.cycleRefs r)

/-- REF_SLOT_CLOSE: a REF slot that closes without a valid reference counts as missed (R305). -/
def State.refClose (s : State) (r : Nat) : State :=
  match (s.ctx r).carry with
  | some y => s.carryOver r y
  | none =>
    if !s.refTime r || (s.ctx r).took || (s.ctx r).closed || (s.refPending r).isSome then s
    else (s.onCtx r (fun c => { c with closed := true })).refMissed r

/-- COLD_ENTRY: a lead that has heard no REF for its rank's wait enters COLD (R305, R314). -/
def State.coldEntry (s : State) (r : Nat) : State :=
  if s.ctxOn r && s.isLead r && s.station r == 1 && decide ((2 + 2 * s.leadRank r) * s.cycleNs r ≤ 2 * (s.cyc - (s.ctx r).listenAt)) then
    ((s.setStation r 2).ctxSticky r 6).onCtx r (fun c => { c with colds := 0 })
  else s

/-! ## Slots of the station (R301) -/

/-- Does the head of RQ match slot i, as TYPE and the station's state say? -/
def State.slotMatches (s : State) (r i : Nat) (bs : List Byte) : Bool :=
  let k := s.slotKind r (s.bankOf r) i
  s.isRope bs && ((k == 2 && ropeType bs == 2 && s.slotOwner r (s.bankOf r) i == s.nodeId r && s.station r == 4) ||
    (k == 3 && ropeType bs == 3 && s.synced r))

/-- What the unit writes into a frame that it releases in slot i: CYCLE, SLOT and the tag. -/
def State.releaseEdits (s : State) (r i : Nat) (bs : List Byte) : List (Nat × List Byte) :=
  let h := frameHead bs
  let flags := beNat (bytesAt bs (h + 8) 2) / 4096 * 4096
  let es := [(h + 4, beBytes 4 (s.cycleNo r)), (h + 8, beBytes 2 (flags + i))]
  es ++ s.sendTag r (applyEdits bs es)

/-- Station port p has nothing to release in slot i; once that holds of every station port, a DATA slot of the station has passed empty. -/
def State.slotEmpty (s : State) (r i p : Nat) : State :=
  let c := s.ctx r
  let ports := (if c.triedSlot = i + 1 then c.triedPorts else 0) ||| 2 ^ p
  let s1 := s.onCtx r (fun c => { c with triedSlot := i + 1, triedPorts := ports })
  if ports &&& s.portSet r 0x08 = s.portSet r 0x08 then
    let s2 := s1.onCtx r (fun c => { c with released := i + 1 })
    if s2.slotKind r (s2.bankOf r) i == 2 && s2.slotOwner r (s2.bankOf r) i == s2.nodeId r then s2.ctxCount r 0x228 else s2
  else s1

/-- Can copy c of frame x at the head of RQ leave on station port p in slot i? -/
def State.slotTakes (s : State) (r i p : Nat) (c : Copy) (x : Frame) : Bool :=
  let q := 8 * p + s.rq r
  (s.tx p).isNone && s.portSends p && !x.arriving &&
    (match c.after with
      | some t => decide (t < (s.count (tickReg 0x30)).toNat)
      | none => true) &&
    !s.pauseHeld q && s.shaperOpen q && s.creditLeft p && s.slotMatches r i (c.base x.bytes) &&
    decide (s.ns + s.wireNs p (c.length x) ≤ s.slotEnd r i) && !s.tooLong p (s.rq r) c x

/-- SLOT_RELEASE: at the start of a matching slot the head of RQ on station port p is released, unless another station port's has been: a slot
releases at most one frame. An overage head is removed first (R261). -/
def State.slotRelease (s : State) (r i p : Nat) : State :=
  let k := s.rq r
  let q := 8 * p + k
  let lead := bytesNs (s.linkSpeed p) 8
  let c := s.ctx r
  if !s.stationPort r p || !c.running || !(s.slots r).contains i || decide (i < c.released) || (c.triedSlot == i + 1 && c.triedPorts.testBit p) ||
      decide (s.ns + lead < s.slotAt r i) || decide (s.slotAt r i + 10 ≤ s.ns + lead) then s
  else
    let s1 := s.ageHeads q (s.queue q).length
    match s1.queue q with
    | [] => s1.slotEmpty r i p
    | c :: _ =>
      match s1.frame c.frame with
      | none => s1.slotEmpty r i p
      | some x =>
        if s1.slotTakes r i p c x then
          (((s1.sendFaults r).onCtx r (fun c => { c with released := i + 1 })).startCopy p k c x (s1.releaseEdits r i (c.base x.bytes))).ctxCount r 0x220
        else s1.slotEmpty r i p

/-! ## Windows of the anchor in time (R307, R309, R313) -/

/-- The anchor ports of context r for which slot i is open. -/
def State.openPorts (s : State) (r i : Nat) : List Nat := (List.range 40).filter (fun p => s.anchorPort r p && s.slotOpenFor r i p)

/-- When the window of slot i opens and when it ends, in ns, over the ports it is open for; a shared one ends 640 ns later. -/
def State.winStart (s : State) (r i : Nat) : Nat :=
  s.slotAt r i + (s.openPorts r i).foldl (fun n p => min n (s.delayNs p)) (2 ^ 32) - s.guardNs r
def State.winEnd (s : State) (r i : Nat) : Nat :=
  s.slotAt r i + (s.openPorts r i).foldl (fun n p => max n (s.delayNs p)) 0 + s.guardNs r +
    (if s.winKind r i = 2 then 0 else 640)

/-- Is the window of slot i one that is open now for some port (R307)? -/
def State.windowNow (s : State) (r i : Nat) : Bool :=
  (s.allSlots r).contains i && s.winKind r i != 4 && !(s.openPorts r i).isEmpty && decide (s.winStart r i ≤ s.ns) && decide (s.ns < s.winEnd r i)

/-- Slot i in the present cycle, in the one before, and in the next. -/
def slotForms (i : Nat) : List Nat := [i, i + staleSlot, i + 2 * staleSlot]

/-- ANCHOR_WINDOW_OPEN: a window that is open for some port opens with its token. -/
def State.anchorOpen (s : State) (r i : Nat) : State :=
  if s.ctxOn r && s.anchor r == 3 && (s.ctx r).running then
    match (slotForms i).find? (s.windowNow r) with
    | some j => s.openWin r j
    | none => s
  else s

/-- How long after its start window closes the frames of a DATA window may still be unclassified: 64 bytes and 50 ns (R223, log entry 145). -/
def State.unjudgedNs (s : State) (r i : Nat) : Nat :=
  if s.winKind r i = 2 then (s.openPorts r i).foldl (fun n p => max n (bytesNs (s.linkSpeed p) 64 + 50)) 0 else 0

/-- Is the window of slot i open and over? One whose frames are still to be decided on is not. -/
def State.windowDone (s : State) (r i : Nat) : Bool :=
  match s.win r i with
  | some w => w.rivals.isEmpty && decide (s.winEnd r i + s.unjudgedNs r i ≤ s.ns)
  | none => false

/-- ANCHOR_WINDOW_END: a window ends, and its unused token expires. A window whose frames are still to be decided on stays. -/
def State.anchorEnd (s : State) (r i : Nat) : State :=
  if i = coldSlot then s
  else
    match (slotForms i).find? (s.windowDone r) with
    | some j => s.endWin r j
    | none => s

/-- The end of a frame that had ended before its window was decided: its debits, and the Ropeline unit's part. -/
def State.settle (s : State) (f : Nat) : State :=
  match s.frame f with
  | some x =>
    if x.arriving then s
    else
      let s1 := s.ropeEnd f x.ingress x.bytes
      let s2 := x.debits.foldl (fun st (m, c) => st.meterDebit m c (x.bytes.length + 4)) s1
      let s3 := s2.onFrame f (fun x => { x with debits := [] })
      (s3.violClear x.ingress).release f
  | none => s

/-- An admitted frame is cut at its end limit (R309, R310). -/
def State.truncate (s : State) (f : Nat) : State :=
  match s.frame f with
  | some x =>
    match x.limit with
    | some (_, r) =>
      let s1 := (if x.bad then s else s.frameBad f 3).bump (aport x.ingress 0x18)
      if s1.anchor r = 3 then s1.violation x.ingress else s1
    | none => s
  | none => s

/-- The winner of a window that has passed its end limit before the decision is cut, and ended where it has ended. -/
def State.cutWinner (s : State) (f : Nat) : State := (s.truncate f).release f

/-- A frame that loses a shared window is blocked; one that has ended good already has had its tag checked all the same (R320). -/
def State.blockRival (s : State) (f : Nat) (x : Frame) : State :=
  let s1 := s.onFrame f (fun x => { x with limit := none })
  (if x.arriving || x.bad then s1 else s1.ropeEnd f x.ingress x.bytes).blockFrame f x.ingress true false

/-- The losers of a shared window are blocked. -/
def State.blockRivals (s : State) (winner : Nat) (fs : List Nat) : State :=
  fs.foldl (fun st f =>
    match st.frame f with
    | some x => if f = winner then st else st.blockRival f x
    | none => st) s

/-- The decision on one shared window (R308): 640 ns after its earliest stamp, among all its frames, those that have ended bad among them.
Answers the winner. -/
def State.decideWin (s : State) (r : Nat) (w : RopeWin) : State × Option Nat :=
  match s.bestRival w.rivals with
  | none => (s.setWin r { w with rivals := [] }, none)
  | some f =>
    match s.frame f with
    | none => (s, none)
    | some x =>
      if w.used || decide (s.ns < x.stamp / nsUnit + 640) then (s, none)
      else
        let s1 := (s.setWin r { w with rivals := [] }).useToken r w.slot
        let s2 := (s1.onFrame f (fun x => { x with waits := false })).blockRivals f w.rivals
        (if w.slot % staleSlot = coldSlot then s2.anchorLock r x.ingress else s2, some f)

/-- The winner of a shared window goes on: one past its end limit is cut, one that has ended bad has been admitted and makes no copy, any other is
forwarded. -/
def State.winnerGoes (s : State) (f : Nat) : State :=
  match s.frame f with
  | none => s
  | some x =>
    if x.late then s.cutWinner f
    else if x.bad then (if x.arriving then s else s.violClear x.ingress).release f
    else (s.forwardWinner f).settle f

/-- The first window of context r whose decision is due is decided. -/
def State.decideFirst (s : State) (r : Nat) : List RopeWin → State
  | [] => s
  | w :: ws =>
    if w.rivals.isEmpty then s.decideFirst r ws
    else
      match s.decideWin r w with
      | (s1, some f) => s1.winnerGoes f
      | (s1, none) => s1.decideFirst r ws

/-- SHARED_WINDOW_DECISION (R308). -/
def State.sharedDecision (s : State) (r : Nat) : State := s.decideFirst r (s.ctx r).wins

/-- ANCHOR_TRUNCATION: an admitted frame still arriving at its end limit is cut (R309, R310). -/
def State.anchorTruncate (s : State) (p : Nat) : State :=
  match s.rx p with
  | none => s
  | some y =>
    match y.frame with
    | none => s
    | some f =>
      match s.frame f with
      | none => s
      | some x =>
        match x.limit with
        | none => s
        | some (lim, _) =>
          if x.bad || x.late || !x.arriving || decide (s.ns < lim) then s
          else if x.waits then s.onFrame f (fun x => { x with late := true })
          else s.truncate f

/-- The frame in reception on port p ends after its end limit: it has been cut there. -/
def State.pastLimit (s : State) (p : Nat) : State :=
  match s.rx p with
  | some y =>
    match y.frame with
    | some f =>
      match s.frame f with
      | some x =>
        match x.limit with
        | some (lim, _) => if lim < s.ns then s.anchorTruncate p else s
        | none => s
      | none => s
    | none => s
  | none => s

/-- Is frame f, complete and good from port p, one that a station discards: a malformed Ropeline frame (R297, log entry 146)? -/
def State.stationDiscards (s : State) (p : Nat) (bs : List Byte) : Bool :=
  match s.ctxOf p with
  | some r => s.stationPort r p && s.isRope bs && ropeMalformed bs
  | none => false

/-- An admitted frame has ended by its end limit, however it ended: VIOL_RUN returns to 0 (R310). One that waits for a shared window is not admitted
yet. -/
def State.inLimit (s : State) (f p : Nat) : State :=
  match s.frame f with
  | some x =>
    match x.limit with
    | some (lim, _) => if s.ns ≤ lim ∧ x.reason ≠ 3 ∧ x.waits = false then s.violClear p else s
    | none => s
  | none => s

/-- ANCHOR_LOCK_TIMEOUT (R311). -/
def State.lockTimeout (s : State) (r : Nat) : State :=
  if s.ctxOn r && s.anchor r == 2 && decide (8 ≤ (s.ctx r).lockMiss) then s.setAnchor r 1 else s

/-! ## Registers (R325, R326) -/

/-- The registers of its own context that the logical engine CTX.ENGINE may write (R325): LOCK, BANK.NEXT, SWITCH_CYCLE, POLL_OUT and
ACK_OUT. -/
def ropeEngineReg (o : Nat) : Bool := o == 0x44 || o == 0x54 || o == 0x58 || (decide (0x100 ≤ o) && decide (o < 0x1A0))

/-- A write to offset `o` of ROPE by a master; `stg` is the logical engine of a staged write. -/
def ropeWrite (s : State) (w : Who) (stg : Option Nat) (o : Nat) (d : Word) : WRes :=
  let inCtx := decide (0x1000 ≤ o) && decide (o < 0x2000)
  let r := (o - 0x1000) / 0x400
  let k := o % 0x400
  let engine := match stg with
    | some l => inCtx && ropeEngineReg k && s.fld (ctxReg r 0x2C) 0 5 == l
    | none => false
  if !hostOrMcp w && !engine then .err s
  else if o = 0 then (if (List.range 4).any s.ctxOn then .err s else .plain)
  else if inCtx then
    if k = 0 then s.ctxCfgWrite r d
    else if k = 4 then (if s.ctxOn r || decide (fieldOf d 0 11 = 0) || decide (1024 < fieldOf d 0 11) then .err s else .plain)
    else if k < 0x24 then (if s.ctxOn r then .err s else .plain)
    else if k = 0x24 then (if s.ctxOn r || decide (fieldOf d 0 8 = 0) then .err s else .plain)
    else .plain
  else if 0x8000 ≤ o ∧ o < 0x9400 ∧ o % 0x80 = 4 then
    .done (if bitOf d 0 then s.setReg (aport ((o - 0x8000) / 0x80) 0) 0 else s)
  else if 0x100000 ≤ o ∧ o < 0x180000 then
    let c := (o - 0x100000) / 0x20000
    if s.ctxOn c && s.bankOf c == decide (0x10000 ≤ (o - 0x100000) % 0x20000) then .err s else .plain
  else .plain

end Sys2Proof.Machine
end

