-- ==== Sys2Proof/Machine/Sw.lean ====
section
/-!
DEFINITION. The switch as a whole: the mirror writer (R244, R245), the ledgers and their audit (R262, R264), halting and restarting
(R265), and its registers (R219, R220, R239, R255, R258).
-/
namespace Sys2Proof.Machine

/-! ## The mirror writer (R244, R245) -/

/-- The record of a capture of frame x, with the ring's CAP_CNT. -/
def mirrorRecord (c : Capture) (x : Frame) (cap : Nat) : List Byte :=
  leBytes 4 (nsOf x.stamp) ++ leBytes 4 (secOf x.stamp) ++
    leBytes 4 (c.length % 2 ^ 14 + bit01 c.complete * 2 ^ 14 + bit01 c.bad * 2 ^ 15 + x.ingress * 2 ^ 16 + c.egress * 2 ^ 22 +
      x.tc * 2 ^ 28 + bit01 (c.egress != 0x3F) * 2 ^ 31) ++
    leBytes 4 (x.hit.getD 0 + bit01 x.hit.isSome * 2 ^ 14 + cap % 65536 * 2 ^ 16) ++ bytesAt c.header 0 128

/-- MIRROR_RECORD_WRITE: the writer (master 0x04) writes the oldest capture, or drops it. -/
def State.mirrorWrite (s : State) : State :=
  match s.sw.captures with
  | [] => s
  | c :: rest =>
    let s1 := { s with sw := { s.sw with captures := rest } }
    match s1.frame c.frame with
    | none => s1
    | some x =>
      let size := s1.fld (mirReg c.ring 4) 0 15
      let wr := s1.fld (mirReg c.ring 8) 0 15
      let a := s1.fld (mirReg c.ring 0) 6 17 * 64 + 144 * wr
      let lost := !s1.bit (mirReg c.ring 0x10) 0 || decide (size < 2) || (wr + 1) % size == s1.fld (mirReg c.ring 0x0C) 0 15 ||
        !s1.spMayWrite 0x04 a 144
      if lost then (s1.bump (mirReg c.ring 0x20)).release c.frame
      else
        let (s2, _) := s1.spStore 0x04 145 a (mirrorRecord c x (s1.count (mirReg c.ring 0x18)).toNat)
        ((s2.bump (mirReg c.ring 0x18)).setReg (mirReg c.ring 8) (word ((wr + 1) % size))).release c.frame

/-! ## The ledgers (R262, R264) -/

/-- QUEUED_CELLS, INFLIGHT_CELLS, OPEN_FRAMES, FOLDED_FRAMES. -/
def State.queuedCells (s : State) : Nat := s.sw.queuedCells
def State.inflightCells (s : State) : Nat := s.sw.inflightCells
def State.openFrames (s : State) : Nat := s.sw.openFrames
def State.foldedFrames (s : State) : Nat := s.sw.foldedFrames

/-- Every bucket is brought up to date. -/
def State.bucketsUp (s : State) : State :=
  (Tab.keys s.sw.shapers).foldl (fun st q => st.shaperUp q) ((Tab.keys s.sw.meters).foldl (fun st m => st.meterUp m) s)

/-- The sum of the levels of every bucket, in grains. -/
def State.tokens (s : State) : Int :=
  s.sw.shapers.foldl (fun n (_, b) => match b with | some b => n + b.level | none => n)
    (s.sw.meters.foldl (fun n (_, m) => match m with | some (c, p) => n + c.level + p.level | none => n) 0)

/-- The two sides of ledger `i`, 1 to 6, modulo 2^64. -/
def State.ledger (s : State) (i : Nat) : DWord × DWord :=
  if i = 1 then (dword (s.sw.free + s.queuedCells + s.inflightCells), 65536)
  else if i = 2 then
    (dword (s.sw.txs.foldl (fun n (_, t) => n + match t with
      | some t => t.credits
      | none => 0) ((List.range 48).foldl (fun n p => n + (portCredits p - Tab.get (fun _ => 0) s.sw.creditsOut p)) 0)), 260)
  else if i = 3 then
    (BitVec.ofInt 64 s.tokens, BitVec.ofInt 64 (Int.ofNat s.sw.added - Int.ofNat s.sw.spent - Int.ofNat s.sw.capped - s.sw.retired))
  else if i = 4 then (dword (s.sw.dict.foldl (fun n (_, _, r) => n + r) 0), dword s.foldedFrames)
  else if i = 5 then
    ((List.range 18).foldl (fun n r => n - s.count (dropCnt (r + 1))) (s.count acceptedCnt - s.count forwardedCnt), dword s.openFrames)
  else (s.count (slotCnt 0) - s.count (slotCnt 1) - s.count (slotCnt 2), dword (s.fld (ropeReg 0x28) 0 16))

/-- Every ledger is compared; the first mismatch is recorded and is an F3. -/
def State.auditNow (s : State) : State :=
  let s1 := s.bucketsUp
  let s2 := { s1 with sw := { s1.sw with auditDue := false, auditAt := s1.cyc } }.bump (swReg 0x9028)
  match (List.range' 1 6).find? (fun i => (s2.ledger i).1 != (s2.ledger i).2) with
  | none => s2
  | some i =>
    let (a, b) := s2.ledger i
    let s3 := if s2.bit (swReg 0x9008) 0 then s2
      else (((s2.setReg (swReg 0x9008) (word (1 + 2 * i))).setReg64 (swReg 0x9030) a.toNat).setReg64 (swReg 0x9038) b.toNat).setReg64
        (swReg 0x9040) s2.tickIndex
    s3.raise 0x5D 3 i 0 (leBytes 8 i ++ leBytes 8 (s3.reg64 (swReg 0x9030)) ++ leBytes 8 (s3.reg64 (swReg 0x9038)))

/-- LEDGER_AUDIT (R264): once for a tick's start; while RUNNING is 0, every 1,000 µs. -/
def State.audit (s : State) : State :=
  if s.sw.auditDue || (!s.running && decide (s.sw.auditAt + cycMs ≤ s.cyc)) then s.auditNow else s

/-! ## Halting and restarting (R265) -/

/-- The cut-through copy `t` in progress in lane k is ended as R235 ends one, with the `n` bytes of its frame stored by now: on ports 0 to 39 with a
stomped FCS, to an engine by BAD = 1. -/
def State.haltCopy (s : State) (k : Nat) (t : Tx) (n : Nat) : State :=
  let s1 := s.setTx k (some { t with stomped := some n })
  if t.copy.egress < 40 then s1.bump (swReg 0x8040) else s1.cutSlot t.copy.l t.copy.frame n

/-- Forwarding is halted by an F3 or F4 fault: queued copies neither from nor to port 41 are removed, and cut-through copies in progress are
ended. A copy whose frame has ended bad is being ended already. -/
def State.haltSwitch (s : State) : State :=
  let s1 := s.setBit (swReg 0) 1 true
  let s2 := s1.dropQueued (fun c => c.egress != 41 && (match s1.frame c.frame with | some x => x.ingress != 41 | none => true)) 17
  s2.sw.txs.foldl (fun st (k, t) =>
    match t with
    | some t =>
      match st.frame t.copy.frame with
      | some x =>
        if t.copy.ct && t.stomped.isNone && !x.bad && t.copy.egress != 41 && x.ingress != 41 then st.haltCopy k t x.bytes.length else st
      | none => st
    | none => st) s2

/-- SYS.RESTART.SWITCH: the free list, the descriptors and the queues are rebuilt. -/
def State.restartSwitch (s : State) : State :=
  { s with
    sw := { s.sw with
      frames := [], queues := [], avgs := [], dict := [], captures := [], free := 65488, pre := 2 ^ 48 - 1, queuedCells := 0, inflightCells := 48,
      openFrames := 0, foldedFrames := 0 } }

/-! ## Registers -/

/-- A write of PAIR[i].CFG with MODE not 0 is accepted (R239). -/
def State.pairOk (s : State) (i : Nat) (d : Word) : Bool :=
  let a := fieldOf d 0 6
  let b := fieldOf d 8 6
  a != b && decide (a < 40) && decide (b < 40) && s.fld (portReg a 0) 0 3 == s.fld (portReg b 0) 0 3 && s.linkSpeed a == s.linkSpeed b &&
    !s.otfPort a && !s.otfPort b &&
    (List.range 16).all (fun j => j == i || s.fld (pairReg j 0) 16 2 == 0 ||
      (s.pairA j != a && s.pairA j != b && s.pairB j != a && s.pairB j != b))

/-- A write of a mirror ring's register (R245). -/
def State.mirWrite (s : State) (r o : Nat) (d : Word) : WRes :=
  if o = 0 ∨ o = 4 then
    if s.bit (mirReg r 0x10) 0 || (o == 4 && (decide (fieldOf d 0 15 < 2) || decide (16384 < fieldOf d 0 15))) then .err s else .plain
  else if o = 0x10 then
    let s1 := s.setReg (mirReg r 0x10) (word (fieldOf d 0 1))
    .done (if bitOf d 0 && !s.bit (mirReg r 0x10) 0 then (s1.setReg (mirReg r 8) 0).setReg (mirReg r 0x0C) 0 else s1)
  else .plain

/-- Remove a shaper: its level is retired. -/
def State.shaperOff (s : State) (q : Nat) : State :=
  match Tab.get (fun _ => none) (s.shaperUp q).sw.shapers q with
  | none => s
  | some b =>
    let s1 := s.shaperUp q
    ({ s1 with
      sw := { s1.sw with shapers := Tab.set (fun _ => none) s1.sw.shapers q none, retired := s1.sw.retired + b.level } }).setReg (qReg q 0x34) 0

/-- Put a shaper on: its bucket is filled to its size. -/
def State.shaperOn (s : State) (q : Nat) : State :=
  let n := s.fld (qReg q 0x24) 0 24 * grain
  { s with
    sw := { s.sw with
      shapers := Tab.set (fun _ => none) s.sw.shapers q (some ⟨Int.ofNat n, s.coreCyc⟩), added := s.sw.added + n } }

/-- A write of a register of Q[q] (R255). -/
def State.qWrite (s : State) (q o : Nat) (d : Word) : WRes :=
  if o = 0 then
    if fieldOf d 16 16 = 0 then .err s
    else
      let s1 := plainWord s (qReg q 0) (bits 2 0 + bits 7 4 + bits 31 16) 0 (if 336 ≤ q then d ||| 1 else d)
      .done (if bitOf d 1 && !s.bit (qReg q 0) 1 then s1.shaperOn q
        else if !bitOf d 1 && s.bit (qReg q 0) 1 then s1.shaperOff q else s1)
  else if o = 4 then (if fieldOf d 0 17 = 0 ∨ 65536 < fieldOf d 0 17 then .err s else .plain)
  else if o = 8 ∨ o = 0x10 ∨ o = 0x18 then (if fieldOf d 16 16 < fieldOf d 0 16 then .err s else .plain)
  else if o = 0x24 then (if fieldOf d 0 24 < 64 then .err s else .done (plainWord (s.shaperUp q) (qReg q o) (bits 23 0) 0 d))
  else if o = 0x20 then .done (plainWord (s.shaperUp q) (qReg q o) (bits 23 0) 0 d)
  else .plain

/-- Disable meter m: the levels of its buckets are retired. -/
def State.meterOff (s : State) (m : Nat) : State :=
  let s1 := s.meterUp m
  let (c, p) := s1.meterLevels m
  { s1 with sw := { s1.sw with meters := Tab.set (fun _ => none) s1.sw.meters m none, retired := s1.sw.retired + c + p } }

/-- Enable meter m: both buckets are filled to their size. -/
def State.meterOn (s : State) (m : Nat) : State :=
  let c := s.fld (meterReg m 0x0C) 0 24 * grain
  let p := s.fld (meterReg m 0x10) 0 24 * grain
  { s with
    sw := { s.sw with
      meters := Tab.set (fun _ => none) s.sw.meters m (some (⟨Int.ofNat c, s.coreCyc⟩, ⟨Int.ofNat p, s.coreCyc⟩)),
      added := s.sw.added + c + p } }

/-- A write of a register of METER[m] (R258). -/
def State.meterWrite (s : State) (m o : Nat) (d : Word) : WRes :=
  let en := s.bit (meterReg m 0) 0
  if o = 0 then
    let cir := s.fld (meterReg m 4) 0 24
    let pir := s.fld (meterReg m 8) 0 24
    let cbs := s.fld (meterReg m 0x0C) 0 24
    let pbs := s.fld (meterReg m 0x10) 0 24
    if en && fieldOf d 1 2 != s.fld (meterReg m 0) 1 2 then .err s
    else if bitOf d 0 && !en && (cbs == 0 || pbs == 0 || (!bitOf d 1 && (decide (pir < cir) || decide (pbs < cbs)))) then .err s
    else
      let s1 := s.setReg (meterReg m 0) (word (fieldOf d 0 4))
      .done (if bitOf d 0 && !en then s1.meterOn m else if !bitOf d 0 && en then s1.meterOff m else s1)
  else if o ≤ 0x10 then (if en then .err s else .plain)
  else .plain

/-- A write to offset `o` of SW by a master that may make it. -/
def swStore (s : State) (w : Who) (o : Nat) (d : Word) : WRes :=
  if 0x10 ≤ o ∧ o < 0x2C then (if s.anyEntry then .err s else .plain)
  else if 0x1000 ≤ o ∧ o < 0x1300 ∧ o % 16 = 0 then (if fieldOf d 15 2 = 3 ∨ fieldOf d 19 2 = 3 then .err s else .plain)
  else if o = 0x2000 then s.ptWrite (isMcp w) d
  else if 0x2040 ≤ o ∧ o < 0x2080 then (if s.bit ptCmd 31 then .err s else .plain)
  else if 0x4000 ≤ o ∧ o < 0x4400 then
    let i := (o - 0x4000) / 0x40
    if o % 0x40 = 0 then
      (if fieldOf d 16 2 = 3 ∨ (fieldOf d 16 2 ≠ 0 ∧ s.pairOk i d = false) then .err s else .plain)
    else if o % 0x40 = 8 ∧ fieldOf d 0 16 = 0 then .err s
    else .plain
  else if 0x4400 ≤ o ∧ o < 0x4600 ∧ 0x18 ≤ o % 0x40 ∧ o % 0x40 < 0x38 then .done s
  else if 0x5000 ≤ o ∧ o < 0x5100 then s.mirWrite ((o - 0x5000) / 0x40) (o % 0x40) d
  else if o = 0x9004 then
    (if d = 0 then .err s
     else .done { s.setReg (swReg 0x9004) d with sw := { s.sw with lfsr := d, lfsrAt := s.coreCyc } })
  else if 0xE000 ≤ o ∧ o < 0x11000 then (if 0x48 ≤ o % 0x100 ∧ o % 0x100 < 0x98 then .done s else .err s)
  else if 0x400000 ≤ o ∧ o < 0x406000 then s.qWrite ((o - 0x400000) / 0x40) (o % 0x40) d
  else if 0x500000 ≤ o ∧ o < 0x520000 then s.meterWrite ((o - 0x500000) / 0x20) (o % 0x20) d
  else if 0x5C0000 ≤ o ∧ o < 0x5E0000 then (if o % 0x20 < 0x18 then .done s else .err s)
  else .plain

/-- A direct write to offset `o` of SW by a master (R220). -/
def swWrite (s : State) (w : Who) (o : Nat) (d : Word) : WRes := if !hostOrMcp w then .err s else swStore s w o d

/-- A shadow of the counter whose low word stands at `a`, read at its low or high word. -/
def State.shadowRead (s : State) (a o : Nat) : RRes :=
  if o % 8 = 0 then .low s (s.snap a).toNat else .high s (s.snap (a - 4)).toNat

/-- A level in whole bytes, rounded towards minus infinity. -/
def levelWord (n : Int) : Word := BitVec.ofInt 32 (n / Int.ofNat grain)

/-- A read from offset `o` of SW: the values that are computed, and the shadows that stand outside their regions. The shadows of the counters of
PAIR[0] to PAIR[7] fall on the live counters of PAIR[8] to PAIR[15]: the live counter answers, and these shadows cannot be read (log entry
166). -/
def swRead (s : State) (o : Nat) : RRes :=
  if 0x4400 ≤ o ∧ o < 0x4600 ∧ 0x18 ≤ o % 0x40 ∧ o % 0x40 < 0x38 then s.shadowRead (swReg (o - 0x200)) o
  else if 0xE000 ≤ o ∧ o < 0x11000 ∧ 0x48 ≤ o % 0x100 ∧ o % 0x100 < 0x98 then s.shadowRead (swReg (o - 0x4000)) o
  else if 0x5C0000 ≤ o ∧ o < 0x5E0000 ∧ o % 0x20 < 0x18 then s.shadowRead (swReg (o - 0x40000)) o
  else if o = 0x9010 then .val s (word s.sw.free)
  else if o = 0x9014 then .val s (word s.queuedCells)
  else if o = 0x9018 then .val s (word s.inflightCells)
  else if o = 0x901C then .val s (word s.openFrames)
  else if o = 0x9020 then .val s (word s.foldedFrames)
  else if 0x400000 ≤ o ∧ o < 0x406000 then
    let q := (o - 0x400000) / 0x40
    if o % 0x40 = 0x28 then .val s (word (s.depth q))
    else if o % 0x40 = 0x2C then .val s (word (s.avg q / 256))
    else if o % 0x40 = 0x30 then .val s (word (s.queue q).length)
    else if o % 0x40 = 0x34 then
      match Tab.get (fun _ => none) (s.shaperUp q).sw.shapers q with
      | some b => .val s (levelWord b.level)
      | none => .plain
    else .plain
  else if 0x500000 ≤ o ∧ o < 0x520000 ∧ (o % 0x20 = 0x14 ∨ o % 0x20 = 0x18) then
    let (c, p) := (s.meterUp ((o - 0x500000) / 0x20)).meterLevels ((o - 0x500000) / 0x20)
    .val s (levelWord (if o % 0x20 = 0x14 then c else p))
  else .plain

end Sys2Proof.Machine
end

