-- ==== Sys2Proof/Machine/Seg.lean ====
section
/-!
DEFINITION. The segmentation units of the ports (R212 to R216): jobs, the checks of a descriptor, the segments of a send, and completion.
-/
namespace Sys2Proof.Machine

/-- The jobs of port p. -/
def State.segs (s : State) (p : Nat) : List SegJob := Tab.get (fun _ => []) s.sw.segs p
/-- Set them. -/
def State.setSegs (s : State) (p : Nat) (js : List SegJob) : State :=
  { s with sw := { s.sw with segs := Tab.set (fun _ => []) s.sw.segs p js } }

/-- A job is refused or rejected on port p. -/
def State.segReject (s : State) (p : Nat) : State :=
  ((s.setBit (portReg p 0x0C) 5 true).raise (0x58 + p / 8) 0 (p % 8 * 256 + 5)).bump (portReg p 0x3020)

/-- A submission (R212): the job joins the port's queue of 16, or is refused. Its accesses carry the identity of `master`, its submitter (R443,
log entry 95). -/
def State.segSubmit (s : State) (p ingress master : Nat) (sender : Option Nat) (after : Option Nat) (d : Word) : WRes :=
  if 16 ≤ (s.segs p).length then .err (s.segReject p)
  else
    .done (s.setSegs p (s.segs p ++ [
      { addr := fieldOf d 6 17 * 64, queue := fieldOf d 0 3, ingress := ingress, master := master, sender := sender, after := after, started := false,
        enqueued := 0, refused := 0, result := 0 }]))

/-! ## Descriptors (R212, R213) -/

/-- A rule of a descriptor: OFF, width in bytes (0 where W is invalid), OP, PARAM. -/
structure SegRule where
  off : Nat
  width : Nat
  op : Nat
  param : Nat
  deriving DecidableEq, Repr

/-- A descriptor's fields. -/
structure SegDesc where
  hdrLen : Nat
  mss : Nat
  payLen : Nat
  hdrAddr : Nat
  payAddr : Nat
  tag : Nat
  nrules : Nat
  rules : List SegRule
  deriving DecidableEq, Repr

/-- The word at offset `o` of a descriptor. -/
def descWord (bs : List Byte) (o : Nat) : Nat := leNat (bytesAt bs o 4)

/-- Read a descriptor. -/
def segDesc (bs : List Byte) : SegDesc :=
  let n := bitsOf (descWord bs 0x14) 0 4
  { hdrLen := bitsOf (descWord bs 0) 0 9, mss := bitsOf (descWord bs 0) 16 14, payLen := bitsOf (descWord bs 4) 0 17,
    hdrAddr := bitsOf (descWord bs 8) 0 23, payAddr := bitsOf (descWord bs 0x0C) 0 23, tag := descWord bs 0x10, nrules := n,
    rules := (List.range (min n 8)).map (fun r =>
      let w := descWord bs (0x20 + 8 * r)
      { off := bitsOf w 0 9, width := if bitsOf w 12 2 = 3 then 0 else 2 ^ bitsOf w 12 2, op := bitsOf w 16 4,
        param := descWord bs (0x24 + 8 * r) }) }

/-- Are rules' fields pairwise disjoint? -/
def fieldsDisjoint : List SegRule → Bool
  | [] => true
  | r :: rs => rs.all (fun q => decide (r.off + r.width ≤ q.off) || decide (q.off + q.width ≤ r.off)) && fieldsDisjoint rs

/-- The checks of R213. -/
def SegDesc.ok (x : SegDesc) : Bool :=
  decide (14 ≤ x.hdrLen) && decide (x.hdrLen ≤ 256) && decide (64 ≤ x.mss) && decide (x.mss ≤ 9198) && decide (x.hdrLen + x.mss ≤ 9212) &&
    decide (1 ≤ x.payLen) && decide (x.payLen ≤ 65536) && decide (x.nrules ≤ 8) &&
    x.rules.all (fun r =>
      decide (1 ≤ r.op) && decide (r.op ≤ 6) && r.width != 0 && decide (r.off + r.width ≤ x.hdrLen) &&
        (r.op != 5 || (r.width == 2 && decide (r.param % 65536 + r.param / 65536 ≤ x.hdrLen))) &&
        (r.op != 6 || (r.width == 2 && decide (r.param % 65536 ≤ x.hdrLen)))) &&
    fieldsDisjoint x.rules && decide (x.hdrAddr + x.hdrLen ≤ 0x800000) && decide (x.payAddr + x.payLen ≤ 0x800000)

/-! ## Segments (R214) -/

/-- Two steps of folding carries into 16 bits, enough for the sums of one frame. -/
def fold16 (n : Nat) : Nat := (n % 65536 + n / 65536) % 65536 + (n % 65536 + n / 65536) / 65536

/-- The sum of the 16-bit words of bytes, an odd last byte padded with zero. -/
def sum16 : List Byte → Nat
  | [] => 0
  | [a] => a.toNat * 256
  | a :: b :: bs => a.toNat * 256 + b.toNat + sum16 bs

/-- Put the low `width` bytes of `v` into the field of a rule. -/
def SegRule.put (r : SegRule) (bs : List Byte) (v : Nat) : List Byte := splice bs r.off (beBytes r.width v)

/-- One rule of OP 1 to 4 applied to the header of segment s of S, with n payload bytes; `hdr` is the original header. -/
def SegRule.plain (r : SegRule) (x : SegDesc) (hdr bs : List Byte) (i last n : Nat) : List Byte :=
  let v := beNat (bytesAt hdr r.off r.width)
  if r.op = 1 then r.put bs (v + i * r.param)
  else if r.op = 2 then r.put bs (v + i * x.mss)
  else if r.op = 3 then r.put bs (r.param + n)
  else if r.op = 4 then r.put bs (if i < last then v &&& r.param else v)
  else bs

/-- A CSUM_HDR rule. -/
def SegRule.csumHdr (r : SegRule) (bs : List Byte) : List Byte :=
  if r.op = 5 then r.put bs (65535 - fold16 (sum16 (bytesAt (r.put bs 0) (r.param % 65536) (r.param / 65536)))) else bs

/-- A CSUM_L4 rule, given the payload of the segment. -/
def SegRule.csumL4 (r : SegRule) (x : SegDesc) (hdr bs pay : List Byte) : List Byte :=
  if r.op = 6 then
    let from' := r.param % 65536
    let sum := beNat (bytesAt hdr r.off 2) + sum16 ((r.put bs 0 ++ pay).drop from') + (x.hdrLen - from' + pay.length)
    let c := 65535 - fold16 (fold16 sum)
    r.put bs (if r.param.testBit 31 && c == 0 then 65535 else c)
  else bs

/-- Segment i of a send whose last segment is `last`. -/
def segment (x : SegDesc) (hdr pay : List Byte) (i last : Nat) : List Byte :=
  let p := (pay.drop (i * x.mss)).take x.mss
  let h1 := x.rules.foldl (fun b r => r.plain x hdr b i last p.length) hdr
  let h2 := x.rules.foldl (fun b r => r.csumHdr b) h1
  x.rules.foldl (fun b r => r.csumL4 x hdr b p) h2 ++ p

/-! ## Jobs (R213, R215, R216) -/

/-- One segment enters the switch and is placed directly on queue k of port p (R215). Answers whether it was enqueued. -/
def State.segEnter (s : State) (p : Nat) (j : SegJob) (bs : List Byte) : State × Bool :=
  if !s.accepts j.ingress then (s, false)
  else
    match s.beginFrame j.ingress j.sender s.time bs true with
    | (s1, none) => (s1, false)
    | (s1, some f) =>
      let s2 := (s1.arrive f bs).onFrame f (fun x => { x with classed := true, tc := j.queue })
      let bad := match s2.frame f with
        | some x => x.bad
        | none => true
      let (s3, ok) :=
        if bad then (s2, false)
        else if s2.haltDrops j.ingress p then (s2.failCopy f p 17, false)
        else s2.offer (plainCopy f p 0 j.after) (8 * p + j.queue) 0 false false
      (((s3.shareWatch j.ingress).onFrame f (fun x => { x with arriving := false })).release f, ok)

/-- Enter segments in order, counting those enqueued and refused. -/
def State.segEnterAll (s : State) (p : Nat) (j : SegJob) : List (List Byte) → State × Nat × Nat
  | [] => (s, 0, 0)
  | b :: bs =>
    let (s1, ok) := s.segEnter p j b
    let (s2, e, r) := s1.segEnterAll p j bs
    (s2, e + bit01 ok, r + bit01 (!ok))

end Sys2Proof.Machine
end

