-- ==== Sys2Proof/Machine/Port.lean ====
section
/-!
DEFINITION. The Ethernet ports (chapter 08): the link and the SerDes lane, the end of a received frame, pause frames sent, MDIO, and the
registers of a port window.
-/
namespace Sys2Proof.Machine

/-- Set a STICKY flag of port p. -/
def State.portSticky (s : State) (p i : Nat) : State :=
  (s.setBit (portReg p 0x0C) i true).raise (0x58 + p / 8) 0 (p % 8 * 256 + i)

/-- What the transmitter of a SerDes lane shows (R468). -/
inductive LaneOut where
  | highZ
  | idle
  | driven
  deriving DecidableEq, Repr

/-- The transmitter of port p: electrical idle until the port is enabled, that is, has a mode. -/
def State.laneOut (s : State) (p : Nat) : LaneOut :=
  if s.mgt.phase = .unpowered then .highZ else if s.mgt.porstLow = true ∨ s.pcsMode p = 0 then .idle else .driven

/-! ## The link (R199, R200) -/

/-- The frame in reception on port p is discarded at a link loss. -/
def State.rxLost (s : State) (p : Nat) : State :=
  match s.rx p with
  | none => s
  | some r =>
    let s1 := if s.bit (portReg p 8) 0 then s.macBad p 1 else s
    match r.frame with
    | some f => (s1.arrive f r.bytes).rxBad p f 1
    | none => s1.setRx p none

/-- The frame in transmission on port p is ended with an error at a link loss. -/
def State.txLost (s : State) (p : Nat) : State :=
  match s.tx p with
  | none => s
  | some t =>
    let line := match s.frame t.copy.frame with
      | some x => s.outBytes t.copy x.bytes t.edits
      | none => []
    (((s.cutLine p line).txDone p).bump (portReg p 0x1068)).copyFails t.copy 14

/-- Code-group synchronisation of port p is lost: the lane search starts anew (R202). -/
def State.unsync (s : State) (p : Nat) : State :=
  if Tab.get (fun _ => false) s.sw.synced p then
    { s with
      sw := { s.sw with synced := Tab.set (fun _ => false) s.sw.synced p false, swapAt := Tab.set (fun _ => 0) s.sw.swapAt p s.cyc } }
  else s

/-- The sequence ordered set that reports a remote fault (clause 46). -/
def remoteFaultSet : List Byte := [0x9C, 0x00, 0x00, 0x02]

/-- LINK.LOCAL_FAULT and LINK.REMOTE_FAULT of a port in 10GBASE-R; while it detects local fault the port sends remote fault (R200). -/
def State.setFaults (s : State) (p : Nat) (lf rf : Bool) : State :=
  if s.pcsMode p = 1 then
    let s1 := (s.setBit (portReg p 4) 6 lf).setBit (portReg p 4) 7 rf
    if lf then s1.wirePut p remoteFaultSet else s1
  else s

/-- UP goes from 1 to 0. -/
def State.linkDown (s : State) (p : Nat) : State :=
  if !s.linkUp p then s
  else
    let s1 := (((s.setBit (portReg p 4) 0 false).setBit (portReg p 4) 3 false).portSticky p 0).bump (portReg p 0x1088)
    let s2 := (s1.txLost p).rxLost p
    (List.range 8).foldl (fun st c => st.holdQueue (8 * p + c) 0) s2

/-- LINK_DOWN: synchronisation is lost, a fault appears in 10GBASE-R, or the partner takes the link down. -/
def State.linkLost (s : State) (x : LostLink) : State :=
  let s1 := s.linkDown x.port
  (if x.syncLost then s1.unsync x.port else s1).setFaults x.port x.localFault x.remoteFault

/-- LINK.SPEED of a speed. -/
def speedCode : LinkSpeed → Nat
  | .m10 => 0
  | .m100 => 1
  | .g1 => 2
  | .g10 => 3

/-- May the link of port p come up at a speed (R199)? -/
def State.speedFits (s : State) (p speed : Nat) : Bool :=
  let m := s.pcsMode p
  if m = 1 then speed == 3
  else if m = 2 then speed == 2
  else if m = 3 then (if s.bit (portReg p 0) 3 then speed != 3 else speed == s.fld (portReg p 0) 4 2)
  else false

/-- The lane search has synchronised: roles that differ from SWAP are kept and reported (R202). -/
def State.laneKept (s : State) (p : Nat) : State :=
  if s.bit (portReg p 0x10) 3 && Tab.get (fun _ => false) s.sw.swapped p != s.bit (portReg p 0x10) 4 then
    (s.portSticky p 3).bump (portReg p 0x1098)
  else s

/-- Port p has achieved code-group synchronisation: its lane search ends (R202). -/
def State.laneSync (s : State) (p : Nat) : State :=
  if Tab.get (fun _ => false) s.sw.synced p || decide (s.pcsMode p < 2) then s
  else ({ s with sw := { s.sw with synced := Tab.set (fun _ => false) s.sw.synced p true } }).laneKept p

/-- May the link of port p come up now (R199, R200): in 10GBASE-R without a fault, after its negotiation where it has one, at a speed that it
runs at; in on-the-fly mode in SGMII at 100 Mb/s (R138)? -/
def State.linkMay (s : State) (p : Nat) (facts : LinkFacts) : Bool :=
  let neg := s.bit (portReg p 0) 3 && s.pcsMode p != 1
  s.speedFits p (speedCode facts.speed) && (s.pcsMode p != 1 || !(facts.localFault || facts.remoteFault)) &&
    (!neg || (facts.negotiated && decide (Tab.get (fun _ => 0) s.sw.anUntil p ≤ s.cyc))) &&
    (!s.otfPort p || (s.pcsMode p == 3 && speedCode facts.speed == 1))

/-- LINK_UP: lock or negotiation is achieved. A half-duplex partner is refused. -/
def State.linkRise (s : State) (p : Nat) (facts : LinkFacts) : State :=
  if s.linkUp p || s.pcsMode p == 0 then s
  else
    let s1 := (s.setFaults p facts.localFault facts.remoteFault).laneSync p
    let neg := s.bit (portReg p 0) 3 && s.pcsMode p != 1
    if !s.linkMay p facts then s1
    else if facts.halfDuplex && neg then s1.portSticky p 1
    else
      let pause := if neg && s.pcsMode p == 2 then facts.partnerPause % 4 else 0
      s1.setReg (portReg p 4) (word (1 + speedCode facts.speed * 2 + bit01 neg * 8 + pause * 16))

/-- May port p and the next enter on-the-fly mode: is neither part of a PRP or HSR pair or of an enabled Ropeline context (R138, log entry 135)? -/
def State.otfFree (s : State) (p : Nat) : Bool :=
  [p, p + 1].all (fun e => (s.pairOf e).isNone &&
    (List.range 4).all (fun r => !s.ctxOn r || !(s.portSet r 0x08 ||| s.portSet r 0x10).testBit e))

/-- The base page that port p advertises in 1000BASE-X (clause 37): full duplex, and PAUSE and ASM_DIR as PAUSE_CFG has link pause on (R199, log
entry 182). -/
def State.advert (s : State) (p : Nat) : Nat :=
  let tx := s.fld (portReg p 0x100) 0 2 == 1
  let rx := s.fld (portReg p 0x100) 2 2 == 1
  2 ^ 5 + bit01 rx * 2 ^ 7 + bit01 (tx != rx) * 2 ^ 8

/-- Port p in 1000BASE-X with AN_EN advertises: the two configuration ordered sets with its base page (clause 36). -/
def State.advertise (s : State) (p : Nat) : State :=
  if s.pcsMode p = 2 ∧ s.bit (portReg p 0) 3 = true then
    s.wirePut p ([0xBC, 0xB5] ++ leBytes 2 (s.advert p) ++ [0xBC, 0x42] ++ leBytes 2 (s.advert p))
  else s

/-- A write of PCS (R138, R198 to R200). -/
def State.pcsWrite (s : State) (p : Nat) (d : Word) : WRes :=
  let m := fieldOf d 0 3
  if 3 < m ∨ (m = 1 ∧ 8 ≤ p) ∨ (m = 3 ∧ p < 8) ∨ fieldOf d 4 2 = 3 ∨ (bitOf d 7 = true ∧ (p < 8 ∨ p % 2 = 1 ∨ s.otfFree p = false)) then .err s
  else
    let changed := m != s.pcsMode p || fieldOf d 4 2 != s.fld (portReg p 0) 4 2
    let restart := bitOf d 6 && bitOf d 3 && (m == 2 || m == 3)
    let s1 := plainWord s (portReg p 0) (bits 5 0 + bits 7 7) 0 d
    let s2 := if changed then (((s1.linkDown p).unsync p).setBit (portReg p 4) 6 false).setBit (portReg p 4) 7 false
      else if restart then s1.linkDown p else s1
    .done (if restart then
        { s2 with sw := { s2.sw with anUntil := Tab.set (fun _ => 0) s2.sw.anUntil p (s2.cyc + (if m = 2 then 10 * cycMs else 800000)) } }.advertise p
      else if changed || bitOf d 3 != s.bit (portReg p 0) 3 then s2.advertise p
      else s2)

/-! ## The SerDes lane (R201, R202) -/

/-- POLARITY_CORRECTION: the complements of the idle ordered sets have been found. -/
def State.polarityFix (s : State) (p : Nat) : State :=
  if s.bit (portReg p 0x10) 2 && decide (2 ≤ s.pcsMode p) then
    let fix := !Tab.get (fun _ => false) s.sw.polFix p
    ((({ s with sw := { s.sw with polFix := Tab.set (fun _ => false) s.sw.polFix p fix } }).portSticky p 2).bump (portReg p 0x1090)).linkDown p |>.unsync p
  else s

/-- LANE_SWAP_EXCHANGE: a hold period of at least 100 ms has passed without synchronisation. -/
def State.laneExchange (s : State) (p : Nat) : State :=
  if s.bit (portReg p 0x10) 3 && decide (2 ≤ s.pcsMode p) && !Tab.get (fun _ => false) s.sw.synced p &&
      decide (Tab.get (fun _ => 0) s.sw.swapAt p + 100 * cycMs ≤ s.cyc) then
    { s with
      sw := { s.sw with
        swapped := Tab.set (fun _ => false) s.sw.swapped p (!Tab.get (fun _ => false) s.sw.swapped p),
        swapAt := Tab.set (fun _ => 0) s.sw.swapAt p s.cyc } }
  else s

/-- A write of SERDES: it clears the correction bit, and sets the arrangement from which the search restarts. -/
def State.serdesWrite (s : State) (p : Nat) (d : Word) : State :=
  let kept := Tab.get (fun _ => false) s.sw.synced p && Tab.get (fun _ => false) s.sw.swapped p == bitOf d 4
  let s1 := plainWord s (portReg p 0x10) (if p < 8 then bits 1 0 + bits 4 4 else bits 4 0) 0 d
  { s1 with
    sw := { s1.sw with
      polFix := Tab.set (fun _ => false) s1.sw.polFix p false,
      swapped := Tab.set (fun _ => false) s1.sw.swapped p (bitOf d 4),
      synced := Tab.set (fun _ => false) s1.sw.synced p kept,
      swapAt := Tab.set (fun _ => 0) s1.sw.swapAt p s1.cyc } }

/-! ## The end of a received frame (R203) -/

/-- A good frame of port p, with its FCS, ends in the switch. -/
def State.macGood (s : State) (p f : Nat) (bs : List Byte) : State :=
  match s.rxGood p f bs with
  | (s1, false) => s1.setRx p none
  | (s1, true) =>
    let s2 := s1.setRx p none
    match s2.frame f with
    | none => s2
    | some x =>
      if s2.stationDiscards p x.bytes then s2.discard f 6
      else if x.waits then s2.frameGood f
      else (s2.ropeEnd f p x.bytes).frameGood f

/-- Has the frame in reception on port p been declared bad as oversize at its byte MAX_LEN + 1 (R203)? -/
def State.rxOversize (s : State) (p : Nat) : Bool :=
  match s.rx p with
  | some r =>
    match r.frame with
    | some f =>
      match s.frame f with
      | some x => x.reason == 3 || x.late
      | none => false
    | none => false
  | none => false

/-- MAC_FRAME_END: the MAC judges a received frame at its end, its last bytes being `bytes`. -/
def State.macEnd (s : State) (p : Nat) (bytes : List Byte) (codeError : Bool) : State :=
  let all := (match s.rx p with | some r => r.bytes | none => []) ++ bytes
  if !s.linkUp p || s.otfPort p || all.isEmpty then s
  else
    let s0 := (s.pastLimit p).rxMore p bytes
    let r := if s0.rxOversize p && !codeError then 3 else s0.macJudge p all codeError
    let s1 := if (s.rx p).isSome then s0 else s0.rxLate p all r
    let f := match s1.rx p with
      | some y => y.frame
      | none => none
    let counts := s1.bit (portReg p 8) 0
    if r ≠ 0 then
      let s2 := if counts || isControl all then s1.macBad p r else s1
      match f with
      | some f => (s2.inLimit f p).rxBad p f r
      | none => s2.setRx p none
    else if isControl all then (s1.setRx p none).controlFrame p (all.take (all.length - 4))
    else
      let s2 := if counts then (s1.bump (portReg p 0x1000)).bumpBy (portReg p 0x1008) (all.length - 4) else s1
      match f with
      | some f => (s2.inLimit f p).macGood p f all
      | none => s2.setRx p none

/-! ## Pause frames sent (R208 to R210) -/

/-- PAUSE_HOLD_EXPIRY: the hold of queue q has run out. -/
def State.holdExpiry (s : State) (q : Nat) : State :=
  if s.pauseHeld q then s else s.holdQueue q 0

/-- The quanta that a pause frame of port p carries for a stop's bit. -/
def State.quantaFor (s : State) (p i : Nat) : Nat := if (s.xoff p).testBit i then s.fld (portReg p 0x100) 16 16 else 0

/-- The bytes of a pause frame; no rule gives its source address, which is free. -/
def State.pauseBytes (s : State) (p due : Nat) : List Byte :=
  let head : List Byte := [0x01, 0x80, 0xC2, 0x00, 0x00, 0x01] ++ beBytes 6 (freeValue 48 s.freeCtr).toNat ++ [0x88, 0x08]
  padded (if due.testBit 8 then head ++ [0x00, 0x01] ++ beBytes 2 (s.quantaFor p 8)
    else head ++ [0x01, 0x01] ++ beBytes 2 (due % 256) ++
      (List.range 8).flatMap (fun c => beBytes 2 (if due.testBit c then s.quantaFor p c else 0)))

/-- PAUSE_FRAME_SEND: a pending pause frame is sent as soon as the port is idle. -/
def State.pauseSend (s : State) (p : Nat) : State :=
  let due := s.pauseDue p
  if due = 0 ∨ (s.tx p).isSome = true ∨ s.linkUp p = false ∨ s.bit (portReg p 8) 1 = false then s
  else
    let bs := s.pauseBytes p due
    let s1 := (s.free.bump (portReg p (if due.testBit 8 then 0x1078 else 0x1080)))
    (List.range 9).foldl (fun st i =>
      if due.testBit i && (s.xoff p).testBit i then
        { st with sw := { st.sw with stopAt := Tab.set (fun _ => 0) st.sw.stopAt (16 * p + i) st.cyc } } else st)
      ({ s1 with sw := { s1.sw with pauseDue := Tab.set (fun _ => 0) s1.sw.pauseDue p 0 } }.putLine p bs (crc32 bs))

/-- PAUSE_REFRESH: a stop in force is repeated after REFRESH quanta. -/
def State.pauseRefresh (s : State) (p i : Nat) : State :=
  let gap := (s.fld (portReg p 0x104) 0 16 * 64 * byteTenths (s.linkSpeed p) + 19) / 20
  if (s.xoff p).testBit i && decide (Tab.get (fun _ => 0) s.sw.stopAt (16 * p + i) + gap ≤ s.cyc) then
    { s with sw := { s.sw with pauseDue := Tab.set (fun _ => 0) s.sw.pauseDue p (s.pauseDue p ||| 2 ^ i) } }
  else s

/-- The stops that TX_MODE and PFC_EN of port p act on, as bits. -/
def State.stopMask (s : State) (p : Nat) : Nat :=
  let m := s.fld (portReg p 0x100) 0 2
  if m = 1 then 2 ^ 8 else if m = 2 then s.fld (portReg p 0x100) 4 8 else 0

/-- Stops that are no longer acted on lapse, and the shares are judged anew. -/
def State.pauseConfigured (s : State) (p : Nat) : State :=
  let m := s.stopMask p
  ({ s with
    sw := { s.sw with
      xoff := Tab.set (fun _ => 0) s.sw.xoff p (s.xoff p &&& m),
      pauseDue := Tab.set (fun _ => 0) s.sw.pauseDue p (s.pauseDue p &&& m) } }).shareWatch p

/-- A write of a pause register of port p. -/
def State.pauseWrite (s : State) (p o : Nat) (d : Word) : WRes :=
  let n := fieldOf d 0 17
  let ok := fun (b : Bool) => if b then WRes.done ((plainWord s (portReg p o) (bits 16 0) 0 d).shareWatch p) else .err s
  if o = 0x100 then
    (if fieldOf d 0 2 = 3 ∨ fieldOf d 2 2 = 3 then .err s
     else .done ((plainWord s (portReg p o) (bits 11 0 + bits 31 16) 0 d).pauseConfigured p))
  else if o = 0x104 then (if fieldOf d 0 16 = 0 ∨ s.fld (portReg p 0x100) 16 16 ≤ fieldOf d 0 16 then .err s else .plain)
  else if o = 0x108 then ok (decide (s.fld (portReg p 0x10C) 0 17 < n))
  else if o = 0x10C then ok (decide (n < s.fld (portReg p 0x108) 0 17))
  else if 0x110 ≤ o ∧ o < 0x130 then ok (decide (s.fld (portReg p (o + 0x20)) 0 17 < n))
  else if 0x130 ≤ o ∧ o < 0x150 then ok (decide (n < s.fld (portReg p (o - 0x20)) 0 17))
  else .plain

/-! ## MDIO (R218) -/

/-- MDIO_CMD and MDIO_DATA. -/
def mdioCmd : Nat := portBase + 0x3F0000
def mdioData : Nat := portBase + 0x3F0004

/-- A write of an MDIO register. -/
def State.mdioWrite (s : State) (w : Who) (o : Nat) (d : Word) : WRes :=
  if !hostOrMcp w || s.bit mdioCmd 31 then .err s
  else if o = 0 then
    (if fieldOf d 28 2 = 3 then .err s else .done (s.setReg mdioCmd (word (fieldOf d 0 30 + bit01 (bitOf d 30) * 2 ^ 31))))
  else .plain

/-- MDIO_COMPLETE: the transaction ends; `value` is what the PHY answered to a read. -/
def State.mdioEnd (s : State) (value : Word) : State :=
  if s.bit mdioCmd 31 then
    (if s.bit mdioCmd 27 then s else s.setReg mdioData (word (fieldOf value 0 16))).setBit mdioCmd 31 false
  else s

/-! ## Registers (R198) -/

/-- The bound logical engine that holds the window of port p. -/
def State.portHolder (s : State) (p : Nat) : Option Nat := findFrom (fun l => s.bindState l != 0 && s.ownsPort l p) 32 0

/-- Apply a write to the registers of port p below its segmentation page, whose access rights are settled. -/
def State.portApply (s : State) (p o : Nat) (d : Word) : WRes :=
  if o = 0 then s.pcsWrite p d
  else if o = 8 then (if fieldOf d 16 14 < 1518 ∨ 9216 < fieldOf d 16 14 then .err s else .plain)
  else if o = 0x10 then .done (s.serdesWrite p d)
  else if 0x100 ≤ o ∧ o < 0x150 then s.pauseWrite p o d
  else .plain

/-- A write to offset `o` of the PORT block; `stg` is the logical engine of a staged write, with the TICK_CNT value its outputs wait to
pass. Ports 0 to 39 have windows; the segmentation page stands apart from PORT_OWN. -/
def portWrite (s : State) (w : Who) (stg : Option (Nat × Nat)) (o : Nat) (d : Word) : WRes :=
  let p := o / 0x10000
  let k := o % 0x10000
  if 0x3F0000 ≤ o then s.mdioWrite w (o - 0x3F0000) d
  else if 40 ≤ p then .err s
  else if 0x3000 ≤ k then
    if k = 0x3000 then
      match stg with
      | some (l, t) => s.segSubmit p (enginePort l) (0x10 + (Tab.get (fun _ => (0, 0)) s.pec.releasedBy l).1) (some l) (some t) d
      | none => if isHost w then s.segSubmit p 40 0x00 none none d else if isMcp w then s.segSubmit p 41 0x01 none none d else .err s
    else .plain
  else
    match stg with
    | some (l, _) => if s.portHolder p = some l then s.portApply p k d else .err s
    | none => if (s.portHolder p).isSome || !hostOrMcp w then .err s else s.portApply p k d

/-- PAUSE_STAT of port p. -/
def State.pauseStat (s : State) (p : Nat) : Word :=
  word (bit01 ((s.xoff p).testBit 8) + s.xoff p % 256 * 2 ^ 8 +
    (List.range 8).foldl (fun n c => n + bit01 (s.pauseHeld (8 * p + c)) * 2 ^ (16 + c)) 0)

/-- A read from offset `o` of the PORT block: the values that are computed. -/
def portRead (s : State) (o : Nat) : RRes :=
  let p := o / 0x10000
  let k := o % 0x10000
  if 40 ≤ p then .plain
  else if k = 4 then
    .val s (s.reg (portReg p 4) ||| word (bit01 (s.bit (portReg p 0x10) 0 != Tab.get (fun _ => false) s.sw.polFix p) * 2 ^ 8 +
      bit01 (Tab.get (fun _ => false) s.sw.swapped p) * 2 ^ 9))
  else if k = 0x150 then .val s (word (s.share p))
  else if 0x160 ≤ k ∧ k < 0x180 ∧ k % 4 = 0 then .val s (word (s.pfcShare p ((k - 0x160) / 4)))
  else if k = 0x180 then .val s (s.pauseStat p)
  else if k = 0x3004 then .val s (word (s.segs p).length)
  else .plain

/-- The SerDes PLLs move to SDREF_B, or back to SDREF_A (R471). Every port whose link is up goes down, and the move shows as a switch of
references does. -/
def State.sdrefMove (s : State) (toB : Bool) : State :=
  let s1 := (List.range 40).foldl (fun (st : State) (p : Nat) => if st.linkUp p then (st.linkDown p).unsync p else st)
    { s with tb := { s.tb with sdB := toB } }
  ((s1.setBit timeSticky 1 true).bump (timeReg 0x110)).raise 0x61 0 1

/-- What the monitors of the SerDes references find is noted. -/
def State.sdrefNote (s : State) (x : SdrefFinding) : State :=
  { s with tb := { s.tb with
    sdABad := x.aBad, sdBGood := x.bGood, sdAGoodAt := if s.tb.sdABad && !x.aBad then s.cyc else s.tb.sdAGoodAt } }

/-- SDREF_SWITCH (R471): away from a bad SDREF_A while SDREF_B is good, and back once SDREF_A has been good for 10 s. -/
def State.sdrefSwitch (s : State) (x : SdrefFinding) : State :=
  let s1 := s.sdrefNote x
  if !s1.tb.sdB && x.aBad && x.bGood then s1.sdrefMove true
  else if s1.tb.sdB && !x.aBad && decide (s1.tb.sdAGoodAt + 10000 * cycMs ≤ s1.cyc) then s1.sdrefMove false
  else s1

end Sys2Proof.Machine
end

