-- ==== Sys2Proof/Machine/Otf.lean ====
section
/-!
DEFINITION. The on-the-fly units of the G-port pairs (R138 to R141): the datagrams of a frame that passes, the map entries they meet, and
the exchange of the process area on tick boundaries. The layout of frames and datagrams is that of IEC 61158 Type 12 (log entry 40).
-/
namespace Sys2Proof.Machine

/-- The lower port of pair j. -/
def otfLower (j : Nat) : Nat := 2 * j + 8

/-- The logical engine that owns pair j. -/
def State.otfOwner (s : State) (j : Nat) : Option Nat := s.portHolder (otfLower j)

/-- While the owner waits for a spare or is halted, read entries leave the working counter (R141). -/
def State.otfStale (s : State) (j : Nat) : Bool :=
  match s.otfOwner j with
  | some l => s.bindState l == 4 || s.bindState l == 5
  | none => false

/-- The committed byte of a process area at scratchpad address `a`. -/
def State.otfByte (s : State) (a : Nat) : Byte :=
  match s.spCommitted a with
  | some b => s.byte b
  | none => 0

/-- The map entry of pair j that covers logical address `a` in a direction. -/
def State.otfEntry (s : State) (j : Nat) (writes : Bool) (a : Nat) : Option OtfEntry :=
  ((List.range 32).map (fun e => Tab.get (fun _ => ⟨0, 0, false, 0⟩) s.sw.otfMap (32 * j + e))).find?
    (fun e => e.writes == writes && decide (e.start ≤ a) && decide (a < e.start + e.length))

/-- The data of a logical read: bytes that a read entry covers come from the process area. Answers whether any is covered. -/
def State.otfReads (s : State) (j : Nat) : Nat → List Byte → List Byte × Bool
  | _, [] => ([], false)
  | a, b :: bs =>
    let (rest, any) := s.otfReads j (a + 1) bs
    match s.otfEntry j false a with
    | some e => (s.otfByte (e.at' + (a - e.start)) :: rest, true)
    | none => (b :: rest, any)

/-- The bytes of a logical write that write entries cover, with their scratchpad addresses. -/
def State.otfWrites (s : State) (j : Nat) : Nat → List Byte → List (Nat × Byte)
  | _, [] => []
  | a, b :: bs =>
    match s.otfEntry j true a with
    | some e => (e.at' + (a - e.start), b) :: s.otfWrites j (a + 1) bs
    | none => s.otfWrites j (a + 1) bs

/-- A datagram processed: its bytes, the data written, and how many free values it took. -/
structure OtfOut where
  bytes : List Byte
  writes : List (Nat × Byte)
  took : Nat

/-- Process one datagram of `n` data bytes: command, address, data and working counter. Registers that a position-addressed or broadcast
command reads are the standard's and no rule gives them: what they read as is free. Command 13 reads where its position is met and writes
everywhere else, and counts in both cases. -/
def State.otfDatagram (s : State) (j : Nat) (d : List Byte) (n took : Nat) : OtfOut :=
  let cmd := leNat (d.take 1)
  let addr := leNat (bytesAt d 2 4)
  let data := (d.drop 10).take n
  let wkc := leNat (bytesAt d (10 + n) 2)
  let fin := fun (dat : List Byte) (w : Nat) (ad : Nat) =>
    d.take 2 ++ leBytes 4 ad ++ bytesAt d 6 4 ++ dat ++ leBytes 2 w ++ d.drop (12 + n)
  if cmd = 10 then
    let (r, any) := s.otfReads j addr data
    ⟨fin r (wkc + bit01 (any && !s.otfStale j)) addr, [], 0⟩
  else if cmd = 11 then
    let ws := s.otfWrites j addr data
    ⟨fin data (wkc + bit01 (!ws.isEmpty)) addr, ws, 0⟩
  else if cmd = 12 then
    let (r, any) := s.otfReads j addr data
    let ws := s.otfWrites j addr data
    ⟨fin r (wkc + bit01 (any && !s.otfStale j) + 2 * bit01 (!ws.isEmpty)) addr, ws, 0⟩
  else if (1 ≤ cmd ∧ cmd ≤ 3) ∨ (7 ≤ cmd ∧ cmd ≤ 9) ∨ cmd = 13 then
    let mine := addr % 65536 == 0
    let here := (decide (7 ≤ cmd) || mine)
    let next := (addr % 65536 + 1) % 65536 + addr / 65536 * 65536
    let reads := cmd == 1 || cmd == 3 || cmd == 7 || cmd == 9 || (cmd == 13 && mine)
    let val := (List.range n).map (fun i => freeValue 8 (s.freeCtr + took + i))
    let dat := if !here || !reads then data else if 7 ≤ cmd ∧ cmd ≤ 9 then List.zipWith (· ||| ·) data val else val
    let up := if !here then 0 else if cmd = 3 ∨ cmd = 9 then 3 else 1
    ⟨fin dat (wkc + up) next, [], if reads then n else 0⟩
  else ⟨d, [], 0⟩

/-- Process the datagrams of a frame, `fuel` bounding them. -/
def State.otfDatagrams (s : State) (j : Nat) : Nat → Nat → List Byte → OtfOut
  | 0, _, d => ⟨d, [], 0⟩
  | fuel + 1, took, d =>
    let n := bitsOf (leNat (bytesAt d 6 2)) 0 11
    if d.length < 12 + n then ⟨d, [], 0⟩
    else
      let one := s.otfDatagram j (d.take (12 + n)) n took
      if bitsOf (leNat (bytesAt d 6 2)) 15 1 = 0 then ⟨one.bytes ++ d.drop (12 + n), one.writes, one.took⟩
      else
        let rest := s.otfDatagrams j fuel (took + one.took) (d.drop (12 + n))
        ⟨one.bytes ++ rest.bytes, one.writes ++ rest.writes, one.took + rest.took⟩

/-- Process a frame: its datagrams follow the two bytes after EtherType 0x88A4. -/
def State.otfProcess (s : State) (j : Nat) (bs : List Byte) : OtfOut :=
  let h := frameHead bs + 2
  if frameType bs = 0x88A4 ∧ bitsOf (leNat (bytesAt bs (h - 2) 2)) 12 4 = 1 then
    let o := s.otfDatagrams j bs.length 0 (bs.drop h)
    ⟨bs.take h ++ o.bytes, o.writes, o.took⟩
  else ⟨bs, [], 0⟩

/-- Does the link of port p run as on-the-fly mode has it: up, SGMII at 100 Mb/s (R138)? Half duplex never comes up (R199). -/
def State.otfUp (s : State) (p : Nat) : Bool := s.linkUp p && s.pcsMode p == 3 && s.linkSpeed p == 1

/-- A frame that leaves port p in on-the-fly mode with a frame check sequence; `ok` says that it leaves good. The MAC's rules of R204 on
TX_EN and MAX_LEN hold for it; TX_FRAMES_CNT counts a correct and TX_STOMP_CNT a complemented sequence. -/
def State.otfSend (s : State) (p : Nat) (bs : List Byte) (fcs : Nat) (ok : Bool) : State :=
  if !s.bit (portReg p 8) 1 then s
  else if s.maxLen p < bs.length + 4 then s.bump (portReg p 0x1070)
  else
    (if ok then (s.bump (portReg p 0x1050)).bumpBy (portReg p 0x1058) bs.length
     else if fcs = crc32 bs ^^^ 0xFFFFFFFF then s.bump (portReg p 0x1060)
     else s).putLine p bs fcs

/-- A frame of R203's counters that enters port p in on-the-fly mode, judged `r`. -/
def State.otfCount (s : State) (p n r : Nat) : State :=
  if r = 0 then (s.bump (portReg p 0x1000)).bumpBy (portReg p 0x1008) n else s.macBad p r

/-- A frame from the lower port of pair j is processed and leaves on port p: with its recomputed FCS, or with the complement where it came
in bad; the data written by a bad one is not taken (R140, R141). -/
def State.otfThrough (s : State) (j p : Nat) (body : List Byte) (ok : Bool) : State :=
  let o := s.otfProcess j body
  let s1 := if ok && !o.writes.isEmpty then { s with sw := { s.sw with otfData := Tab.set (fun _ => []) s.sw.otfData j o.writes } } else s
  let fcs := if ok then crc32 o.bytes else crc32 o.bytes ^^^ 0xFFFFFFFF
  ({ s1 with freeCtr := s1.freeCtr + o.took }).otfSend p o.bytes fcs ok

/-- OTF_FRAME: a frame passes through pair j; `bs` are its bytes with FCS. A good MAC control frame ends in the MAC (R203, R206); with
RX_EN = 0 no other frame passes. From the upper port a frame leaves as it came. -/
def State.otfFrame (s : State) (j : Nat) (fromLower : Bool) (bs : List Byte) (codeError : Bool) : State :=
  let lo := otfLower j
  let src := if fromLower then lo else lo + 1
  let dst := if fromLower && s.otfUp (lo + 1) then lo + 1 else lo
  if !s.otfPort lo || !s.otfUp src || bs.isEmpty then s
  else
    let body := bs.take (bs.length - 4)
    let fcs := leNat (bs.drop (bs.length - 4))
    let ok := !codeError && fcs == crc32 body
    let r := s.macJudge src bs codeError
    if r = 0 ∧ isControl bs = true then s.controlFrame src body
    else if !s.bit (portReg src 8) 0 then (if isControl bs then s.macBad src r else s)
    else
      let s1 := s.otfCount src body.length r
      if fromLower then s1.otfThrough j dst body ok
      else if s1.otfUp dst then s1.otfSend dst body fcs ok
      else s1

/-- The identity that the unit of pair j carries: that of the engine of the logical engine that owns the pair (R443, log entry 95). -/
def State.otfMaster (s : State) (j : Nat) : Nat :=
  match s.otfOwner j with
  | some l => 0x10 + s.fld (bindAddr l + 4) 8 6
  | none => 0x10

/-- A byte of data of pair j is presented in the process area. -/
def State.otfPut (s : State) (j : Nat) (x : Nat × Byte) : State :=
  match s.spCommitted x.1 with
  | some c => (s.setByte c x.2).endReservations (s.otfMaster j) (x.1 / 8)
  | none => s

/-- At a tick start the data of the last good frames are presented to the images (R141). -/
def State.otfPresent (s : State) : State :=
  let s1 := s.sw.otfData.foldl (fun (st : State) p => p.2.foldl (fun (st : State) x => st.otfPut p.1 x) st) s
  { s1 with sw := { s1.sw with otfData := [] } }

/-- Pairs whose lower port logical engine L owns. -/
def State.otfPairs (s : State) (l : Nat) : List Nat := (List.range 16).filter (fun j => s.ownsPort l (otfLower j))

/-- A map entry as the binding places it (R140): no register or record of the spec holds map entries, so what stands in one is free, within the
rule's bounds: 1 to 2,048 bytes (0: the entry is not used), in a process area of at most 16 KiB of the scratchpad at `base`. -/
def otfFreeEntry (base c : Nat) : OtfEntry :=
  let n := freeBetween 0 2048 (c + 1)
  ⟨(freeValue 32 c).toNat, n, freeValue 1 (c + 2) == 1, base + freeBetween 0 (16384 - n) (c + 3)⟩

/-- The process area and the map entries of the pairs of L are placed by its binding. -/
def State.otfPlace (s : State) (l : Nat) : State :=
  (s.otfPairs l).foldl (fun st j =>
    let c := st.freeCtr + 1
    let base := freeBetween 0 (0x800000 - 16384) st.freeCtr
    { st with
      freeCtr := c + 128,
      sw := { st.sw with
        otfMap := (List.range 32).foldl (fun t e => Tab.set (fun _ => ⟨0, 0, false, 0⟩) t (32 * j + e) (otfFreeEntry base (c + 4 * e))) st.sw.otfMap } }) s

/-- They end with it. -/
def State.otfRemove (s : State) (l : Nat) : State :=
  let js := s.otfPairs l
  { s with sw := { s.sw with otfMap := s.sw.otfMap.filter (fun (k, _) => !js.contains (k / 32)), otfData := s.sw.otfData.filter (fun (j, _) => !js.contains j) } }

end Sys2Proof.Machine
end

