-- ==== Sys2Proof/Machine/Flags.lean ====
section
/-!
DEFINITION. The arithmetic of a Pydin core (R71 to R79, R85, R86): the integer units with their flags V and C, the multiplier, the
divider, the bit-field unit and its CRC, and the numbers of the sticky flags (R101).
-/
namespace Sys2Proof.Machine

/-! ## Sticky flags -/

def flagIllSocket : Nat := 0
def flagIllEncoding : Nat := 1
def flagEarlyRead : Nat := 2
def flagDz : Nat := 3
def flagWriteClash : Nat := 4
def flagMisalign : Nat := 5
def flagRange : Nat := 6
def flagFarEmpty : Nat := 7
def flagBusErr : Nat := 8
def flagDivAbandon : Nat := 9

/-! ## The integer units (R71 to R74) -/

/-- A result of an integer unit: Q, V, and C where the operation writes it. -/
structure AluRes where
  q : Word
  v : Bool
  c : Option Bool
  deriving DecidableEq, Repr

/-- A result that leaves C unchanged and has V = 0. -/
def plainRes (q : Word) : AluRes := ⟨q, false, none⟩

/-- Does a signed value lie outside 32 bits? -/
def overflows (i : Int) : Bool := decide (i < -(2 ^ 31)) || decide (2 ^ 31 ≤ i)

/-- The word of an integer modulo 2^32. -/
def wordOfInt (i : Int) : Word := BitVec.ofInt 32 i

/-- T + O + carry with its flags (R72). -/
def addRes (t o : Word) (carry : Nat) : AluRes :=
  ⟨word (t.toNat + o.toNat + carry), overflows (t.toInt + o.toInt + Int.ofNat carry),
    some (decide (2 ^ 32 ≤ t.toNat + o.toNat + carry))⟩

/-- T − O − borrow with its flags (R72). -/
def subRes (t o : Word) (borrow : Nat) : AluRes :=
  ⟨wordOfInt (t.toInt - o.toInt - Int.ofNat borrow), overflows (t.toInt - o.toInt - Int.ofNat borrow),
    some (decide (t.toNat < o.toNat + borrow))⟩

/-- A signed value clamped to 32 bits, with V where it was clamped (R72). -/
def satRes (i : Int) : AluRes :=
  if 2 ^ 31 ≤ i then ⟨0x7FFFFFFF, true, none⟩ else if i < -(2 ^ 31) then ⟨0x80000000, true, none⟩ else plainRes (wordOfInt i)

/-- A truth value as a result. -/
def boolRes (b : Bool) : AluRes := plainRes (word (bit01 b))

/-- The operation of trigger `k` (its offset from the unit's base, 0x20 to 0x3B) on T and O with the carry C (R71 to R74). -/
def aluOp (k : Nat) (t o : Word) (c : Bool) : AluRes :=
  if k = 0x20 then addRes t o 0
  else if k = 0x21 then subRes t o 0
  else if k = 0x22 then addRes t o (bit01 c)
  else if k = 0x23 then subRes t o (bit01 c)
  else if k = 0x24 then ⟨-t, t == 0x80000000, none⟩
  else if k = 0x25 then ⟨if t.msb then -t else t, t == 0x80000000, none⟩
  else if k = 0x26 then satRes (t.toInt + o.toInt)
  else if k = 0x27 then satRes (t.toInt - o.toInt)
  else if k = 0x28 then plainRes (t &&& o)
  else if k = 0x29 then plainRes (t ||| o)
  else if k = 0x2A then plainRes (t ^^^ o)
  else if k = 0x2B then plainRes (t &&& ~~~o)
  else if k = 0x2C then plainRes (if 32 ≤ o.toNat then 0 else t <<< o.toNat)
  else if k = 0x2D then plainRes (if 32 ≤ o.toNat then 0 else t >>> o.toNat)
  else if k = 0x2E then plainRes (t.sshiftRight (min o.toNat 32))
  else if k = 0x2F then plainRes (t.rotateLeft (o.toNat % 32))
  else if k = 0x30 then boolRes (t == o)
  else if k = 0x31 then boolRes (t != o)
  else if k = 0x32 then boolRes (t.slt o)
  else if k = 0x33 then boolRes (t.ult o)
  else if k = 0x34 then boolRes (t.sle o)
  else if k = 0x35 then boolRes (t.ule o)
  else if k = 0x36 then plainRes (if t.sle o then t else o)
  else if k = 0x37 then plainRes (if t.sle o then o else t)
  else if k = 0x38 then plainRes (if t.ule o then t else o)
  else if k = 0x39 then plainRes (if t.ule o then o else t)
  else if k = 0x3A then plainRes ((t.setWidth 8).signExtend 32)
  else plainRes ((t.setWidth 16).signExtend 32)

/-! ## MUL and DIV (R75 to R79) -/

/-- The 64-bit product of trigger `k` (0x108 SS, 0x109 UU, 0x10A SU). -/
def mulOp (k : Nat) (t o : Word) : DWord :=
  if k = 0x108 then BitVec.ofInt 64 (t.toInt * o.toInt)
  else if k = 0x109 then BitVec.ofNat 64 (t.toNat * o.toNat)
  else BitVec.ofInt 64 (t.toInt * Int.ofNat o.toNat)

/-- A quotient, a remainder and DIV.V. -/
structure DivRes where
  q : Word
  m : Word
  v : Bool
  deriving DecidableEq, Repr

/-- The division of trigger `k` (0x118 signed, 0x119 unsigned) with the edge cases of R76. -/
def divOp (k : Nat) (t o : Word) : DivRes :=
  if o = 0 then ⟨0xFFFFFFFF, t, false⟩
  else if k = 0x118 then
    if t = 0x80000000 ∧ o = 0xFFFFFFFF then ⟨0x80000000, 0, true⟩
    else ⟨wordOfInt (Int.tdiv t.toInt o.toInt), wordOfInt (Int.tmod t.toInt o.toInt), false⟩
  else ⟨word (t.toNat / o.toNat), word (t.toNat % o.toNat), false⟩

/-! ## The BIT unit (R85, R86) -/

/-- POS and WIDTH of a field operand. -/
def fieldPos (o : Word) : Nat := fieldOf o 0 5
def fieldWidth (o : Word) : Nat := fieldOf o 8 5 + 1

/-- EXT. -/
def extOp (t o : Word) : Word := word (bitsOf t.toNat (fieldPos o) (fieldWidth o))

/-- EXTS. -/
def extsOp (t o : Word) : Word := wordOfInt (signed (bitsOf t.toNat (fieldPos o) (fieldWidth o)) (fieldWidth o))

/-- INS: the destination `d` with the field replaced. -/
def insOp (d t o : Word) : Word :=
  word (d.toNat - bitsOf d.toNat (fieldPos o) (min (fieldWidth o) (32 - fieldPos o)) * 2 ^ fieldPos o +
    t.toNat % 2 ^ min (fieldWidth o) (32 - fieldPos o) * 2 ^ fieldPos o)

/-- The number of ones. -/
def popcOp (t : Word) : Word := word ((List.range 32).countP (fun i => bitOf t i))

/-- Leading zeros; 32 for 0. -/
def clzOp (t : Word) : Word :=
  word (((List.range 32).findIdx? (fun i => bitOf t (31 - i))).getD 32)

/-- Trailing zeros; 32 for 0. -/
def ctzOp (t : Word) : Word := word (((List.range 32).findIdx? (fun i => bitOf t i)).getD 32)

/-- The bit order reversed. -/
def brevOp (t : Word) : Word := word ((List.range 32).foldl (fun n i => n * 2 + bit01 (bitOf t i)) 0)

/-- The byte order reversed. -/
def bswapOp (t : Word) : Word := word (beNat (leBytes 4 t.toNat))

/-- The carry-less product. -/
def clmulOp (t o : Word) : Nat :=
  (List.range 32).foldl (fun n i => if bitOf o i then n ^^^ (t.toNat * 2 ^ i) else n) 0

/-- One data bit of a CRC over a register of `w` bits (R86). -/
def crcStep (reflect : Bool) (w poly c : Nat) (b : Bool) : Nat :=
  if reflect then
    if (c % 2 == 1) != b then (c / 2) ^^^ (poly % 2 ^ w) else c / 2
  else
    if c.testBit (w - 1) != b then (c * 2 % 2 ^ w) ^^^ (poly % 2 ^ w) else c * 2 % 2 ^ w

/-- The CRC over the low `n` bits of T, in the order that REFLECT gives. -/
def crcOp (ccfg poly crc t : Word) (n : Nat) : Word :=
  let w := fieldOf ccfg 0 5 + 1
  let reflect := bitOf ccfg 8
  word ((List.range n).foldl (fun c i => crcStep reflect w poly.toNat c (bitOf t (if reflect then i else n - 1 - i)))
    (crc.toNat % 2 ^ w))

end Sys2Proof.Machine
end

