-- ==== Sys2Proof/Machine/TravPlan.lean ====
section
/-!
DEFINITION. The arithmetic of Traverse (chapter 13): rounding, the cubic Hermite curve of a segment with its checks (R331, R334), and the
constant-acceleration profiles of stops, targets and groups (R335, R341, R342, R345). Positions are in 1/65,536 count, velocities in
2^−16 count per ms, times in ns of motion time, durations in 16 ns. An acceleration of A counts/s² is A × 65,536 / 10^6 position units
per ms².
-/
namespace Sys2Proof.Machine

/-! ## Rounding and roots -/

/-- n / d rounded to the nearest natural number. -/
def rdiv (n d : Nat) : Nat := (2 * n + d) / (2 * d)

/-- n / d rounded to the nearest integer, ties away from zero (R343). -/
def roundDiv (n : Int) (d : Nat) : Int := if n < 0 then -Int.ofNat (rdiv n.natAbs d) else Int.ofNat (rdiv n.natAbs d)

/-- The bits of an integer square root below 2^k, added to `r`. -/
def isqrtBits (n : Nat) : Nat → Nat → Nat
  | 0, r => r
  | k + 1, r => isqrtBits n k (if (r + 2 ^ k) * (r + 2 ^ k) ≤ n then r + 2 ^ k else r)

/-- The integer square root. -/
def isqrt (n : Nat) : Nat := isqrtBits n (Nat.log2 n / 2 + 1) 0

/-! ## Segments (R331, R334) -/

/-- The position after `T` ns of a segment, rounded to nearest (R331). -/
def MotionSeg.pos (g : MotionSeg) (T : Int) : Int :=
  let n := Int.ofNat g.len
  roundDiv (((2 * T * T * T - 3 * T * T * n + n * n * n) * g.p0 + (3 * T * T * n - 2 * T * T * T) * g.p1) * 1000000 +
    ((T * T * T - 2 * T * T * n + T * n * n) * g.v0 + (T * T * T - T * T * n) * g.v1) * n) (g.len ^ 3 * 1000000)

/-- The coefficients α, β and γ of the velocity (α T² + β T + γ) / N³ of a segment of N ns. -/
def MotionSeg.alpha (g : MotionSeg) : Int := 6000000 * (g.p0 - g.p1) + 3 * Int.ofNat g.len * (g.v0 + g.v1)
def MotionSeg.beta (g : MotionSeg) : Int :=
  -(6000000 * Int.ofNat g.len * (g.p0 - g.p1)) - Int.ofNat (g.len ^ 2) * (4 * g.v0 + 2 * g.v1)
def MotionSeg.gamma (g : MotionSeg) : Int := Int.ofNat (g.len ^ 3) * g.v0

/-- The velocity after `T` ns of a segment. -/
def MotionSeg.vel (g : MotionSeg) (T : Int) : Int :=
  roundDiv (g.alpha * T * T + g.beta * T + g.gamma) (g.len ^ 3)

/-- The instants inside a segment, to the ns, at which its velocity is zero, in order. -/
def MotionSeg.turns (g : MotionSeg) : List Int :=
  let a := g.alpha
  let b := g.beta
  let inside := fun (t : Int) => decide (0 < t) && decide (t < Int.ofNat g.len)
  if a = 0 then (if b = 0 then [] else [-g.gamma / b].filter inside)
  else
    let disc := b * b - 4 * a * g.gamma
    if disc < 0 then []
    else
      let r := Int.ofNat (isqrt disc.toNat)
      let t1 := (-b - r) / (2 * a)
      let t2 := (-b + r) / (2 * a)
      ([min t1 t2, max t1 t2].filter inside)

/-- |v| stays at or below VMAX over the segment (R334): at both ends and at the vertex of the parabola. -/
def MotionSeg.speedOk (g : MotionSeg) (vmax : Nat) : Bool :=
  let a := g.alpha
  let b := g.beta
  decide (g.v0.natAbs ≤ vmax) && decide (g.v1.natAbs ≤ vmax) &&
    (a == 0 || decide (b.sign = a.sign) || decide (2 * a.natAbs * g.len < b.natAbs) ||
      decide ((4 * a * g.gamma - b * b).natAbs ≤ vmax * g.len ^ 3 * (4 * a).natAbs))

/-- |acceleration| at both ends stays at or below AMAX (R334). -/
def MotionSeg.accelOk (g : MotionSeg) (amax : Nat) : Bool :=
  decide (g.beta.natAbs * 10 ^ 12 ≤ amax * 65536 * g.len ^ 3) &&
    decide ((2 * g.alpha * Int.ofNat g.len + g.beta).natAbs * 10 ^ 12 ≤ amax * 65536 * g.len ^ 3)

/-- The position stays from `lo` to `hi`, at both ends and at interior extrema (R334). -/
def MotionSeg.limitsOk (g : MotionSeg) (lo hi : Int) : Bool :=
  (g.p0 :: g.p1 :: g.turns.flatMap (fun t => [g.pos t, g.pos (t + 1)])).all (fun p => decide (lo ≤ p) && decide (p ≤ hi))

/-! ## Constant-acceleration profiles -/

/-- An acceleration or velocity limit as a fraction. -/
structure Frac where
  num : Nat
  den : Nat
  deriving DecidableEq, Repr

/-- The lesser of two fractions. -/
def Frac.min (a b : Frac) : Frac := if a.num * b.den ≤ b.num * a.den then a else b

/-- A phase of a profile: the path covered at its end as a fraction, the velocity there in 2^−32 units, and its duration. -/
structure PathPhase where
  x : Frac
  w : Nat
  dur : Nat
  deriving DecidableEq, Repr

/-- v² / 2a, the stopping distance (R342). -/
def stopDist (v : Nat) (a : Frac) : Frac := ⟨v * v * 1000000 * a.den, 2 * a.num * 65536⟩

/-- The duration of a change of velocity by w / 2^32 at acceleration a, nearest, at least one unit. -/
def accelDur (w : Nat) (a : Frac) : Nat := max 1 (rdiv (w * 62500 * 1000000 * a.den) (2 ^ 32 * a.num * 65536))

/-- A profile from velocity `v0` over the distance `d` to rest (R341), where the stopping distance is at most `d`: constant acceleration to
the peak or to the cruise at `v`, and constant deceleration. -/
def profile (a v : Frac) (v0 d : Nat) : List PathPhase :=
  let k := a.num * 65536
  let m := a.den * 1000000
  let pn := 2 * k * d + v0 * v0 * m
  let pd := 2 * m
  if d = 0 then []
  else if pn * v.den * v.den ≤ v.num * v.num * pd then
    let w := isqrt (pn * 2 ^ 64 / pd)
    [⟨⟨2 * d * k - v0 * v0 * m, 4 * k⟩, w, accelDur (w - v0 * 2 ^ 32) a⟩, ⟨⟨d, 1⟩, 0, accelDur w a⟩]
  else
    let w := rdiv (v.num * 2 ^ 32) v.den
    let u := v0 * v.den
    let den := 2 * v.den * v.den * k
    let x1 := (max (v.num * v.num) (u * u) - min (v.num * v.num) (u * u)) * m
    let x3 := v.num * v.num * m
    let ramp := if u = v.num then [] else [⟨⟨x1, den⟩, w, accelDur (max w (v0 * 2 ^ 32) - min w (v0 * 2 ^ 32)) a⟩]
    let cruise := d * den - x1 - x3
    ramp ++ (if cruise = 0 then [] else [⟨⟨d * den - x3, den⟩, w, max 1 (rdiv (cruise * 62500 * v.den) (den * v.num))⟩]) ++
      [⟨⟨d, 1⟩, 0, accelDur w a⟩]

/-- A planned segment: END_POS, END_VEL and DUR. -/
structure Planned where
  pos : Int
  vel : Int
  dur : Nat
  deriving DecidableEq, Repr

/-- The segments of a profile that starts at `p` and runs in the direction `dir`, on an axis that covers `share` of the path. -/
def phaseSegs (p : Int) (dir : Int) (share : Frac) (phs : List PathPhase) : List Planned :=
  phs.map (fun ph => ⟨p + dir * Int.ofNat (rdiv (ph.x.num * share.num) (ph.x.den * share.den)),
    dir * Int.ofNat (rdiv (ph.w * share.num) (2 ^ 32 * share.den)), ph.dur⟩)

/-- The longest DUR of a segment (R330). -/
def maxDur : Nat := 2 ^ 28 - 1

/-- The pieces that one planned segment needs. -/
def pieces (q : Planned) : Nat := (q.dur + maxDur - 1) / maxDur

/-- A phase longer than DUR can say is cut into pieces of the longest duration (log entry 50). -/
def cutPhase (g : MotionSeg) (n : Nat) (q : Planned) : List Planned :=
  (List.range (n - 1)).map (fun i => ⟨g.pos (Int.ofNat ((i + 1) * maxDur * 16)), g.vel (Int.ofNat ((i + 1) * maxDur * 16)), maxDur⟩) ++
    [⟨q.pos, q.vel, q.dur - (n - 1) * maxDur⟩]

/-- The segments of a plan from position `p` and velocity `v`, cut to what DUR can say. -/
def cutPlan (p v : Int) : List Planned → List Planned
  | [] => []
  | q :: qs => cutPhase ⟨p, v, q.pos, q.vel, 16 * q.dur, 0, true, false⟩ (pieces q) q ++ cutPlan q.pos q.vel qs

/-- How many segments a plan needs. -/
def planLen (qs : List Planned) : Nat := qs.foldl (fun n q => n + pieces q) 0

/-- A plan to `target` at rest from position `p` and velocity `v` (R341, R342): the segments, the overshoot, whether it reverses, and the
point at which it then turns. -/
def planTarget (a v : Frac) (p vel target : Int) : List Planned × Nat × Bool × Int :=
  let dir : Int := if vel < 0 ∨ (vel = 0 ∧ target < p) then -1 else 1
  let d := (target - p) * dir
  let b := stopDist vel.natAbs a
  if d * Int.ofNat b.den < Int.ofNat b.num then
    let turn := p + dir * Int.ofNat (rdiv b.num b.den)
    let back : Int := if target < turn then -1 else 1
    (⟨turn, 0, accelDur (vel.natAbs * 2 ^ 32) a⟩ :: phaseSegs turn back ⟨1, 1⟩ (profile a v 0 (target - turn).natAbs),
      rdiv b.num b.den, true, turn)
  else (phaseSegs p dir ⟨1, 1⟩ (profile a v vel.natAbs d.toNat), 0, false, p)

end Sys2Proof.Machine
end

