-- ==== Sys2Proof/Machine/Trav.lean ====
section
/-!
DEFINITION. Traverse at work (chapter 13): axes, segments and their ring, stops, gearing, limits and homing, groups, step outputs,
commands, and the grid point that evaluates them all.
-/
namespace Sys2Proof.Machine

/-! ## Axes and their registers -/

/-- A register of the TRAV block, of axis a, of group g, and of SP[a]. -/
def travReg (o : Nat) : Nat := travBase + o
def axisReg (a o : Nat) : Nat := travReg (0x10000 + 0x200 * a + o)
def groupReg (g o : Nat) : Nat := travReg (0x20000 + 0x100 * g + o)
def spReg (a o : Nat) : Nat := travReg (0x30000 + 0x20 * a + o)

/-- Axis a. -/
def State.axis (s : State) (a : Nat) : AxisSt := Tab.get (fun _ => AxisSt.reset) s.trav.axes a

/-- Set axis a. -/
def State.setAxis (s : State) (a : Nat) (c : AxisSt) : State :=
  { s with trav := { s.trav with axes := Tab.set (fun _ => AxisSt.reset) s.trav.axes a c } }

/-- Set a sticky flag of axis a: 0 CMD_REJ, 1 SEG_REJ, 2 STARVED, 3 OVERSPEED, 4 REVERSAL, 5 SOFT_LIMIT, 6 LIMIT_TRIP, 7 HOME_FAIL,
8 WATCHDOG, 9 GEAR_Q_FULL, 10 SEG_EVT. -/
def State.axisSticky (s : State) (a i : Nat) : State := (s.setBit (axisReg a 0x44) i true).raise 0x5F 0 (a * 256 + i)

def State.vmax (s : State) (a : Nat) : Nat := min (s.reg (axisReg a 0x0C)).toNat (2 ^ 31 - 1)
def State.amax (s : State) (a : Nat) : Frac := ⟨(s.reg (axisReg a 0x10)).toNat, 1⟩
def State.sdec (s : State) (a : Nat) : Frac := ⟨(s.reg (axisReg a 0x14)).toNat, 1⟩
def State.posMin (s : State) (a : Nat) : Int := signed (s.reg64 (axisReg a 0x18)) 64
def State.posMax (s : State) (a : Nat) : Int := signed (s.reg64 (axisReg a 0x20)) 64

/-- Does the axis have a step output, or a network output (R327)? -/
def State.stepsOut (s : State) (a : Nat) : Bool := s.bit (axisReg a 0) 1
def State.netOut (s : State) (a : Nat) : Bool := s.bit (axisReg a 0) 0
/-- The step channel. -/
def State.stepCh (s : State) (a : Nat) : Nat := s.fld (axisReg a 0) 2 8

/-- Is the axis evaluated: Traverse runs and the axis is enabled (R328)? -/
def State.axisOn (s : State) (a : Nat) : Bool := s.bit (travReg 0) 0 && s.bit (axisReg a 0) 15

/-- The axis moves: a segment is in execution, or the velocity is not zero. -/
def AxisSt.moving (c : AxisSt) : Bool := c.seg.isSome || c.v != 0

/-! ## The ring (R332, R333) -/

def State.segBase (s : State) (a : Nat) : Nat := s.fld (axisReg a 0x28) 0 13
def State.segSize (s : State) (a : Nat) : Nat := s.fld (axisReg a 0x28) 16 14
def State.segWr (s : State) (a : Nat) : Nat := s.fld (axisReg a 0x2C) 0 13
def State.segRd (s : State) (a : Nat) : Nat := s.fld (axisReg a 0x2C) 16 13

/-- How many segments are queued when SEG_WR has the value `wr`. -/
def State.segQueued (s : State) (a wr : Nat) : Nat := (wr + s.segSize a - s.segRd a) % s.segSize a

/-- SEG_RD := SEG_WR: the queue is flushed. -/
def State.segFlush (s : State) (a : Nat) : State :=
  (s.setFld (axisReg a 0x2C) 16 13 (s.segWr a)).setAxis a { s.axis a with own := 0 }

/-- The address of segment i of axis a's ring. -/
def State.segAddr (s : State) (a i : Nat) : Nat := travReg (0x100000 + 16 * (s.segBase a + i % s.segSize a))

/-- Segment i of the ring, from a position and a velocity at a start (R330, R331). -/
def State.segAt (s : State) (a i : Nat) (p v start : Int) : MotionSeg :=
  let x := s.segAddr a i
  ⟨p, v, signed (s.reg64 x) 64, (s.reg (x + 8)).toInt, 16 * s.fld (x + 12) 0 28, start, true, s.bit (x + 12) 28⟩

/-- Write planned segments into the ring at SEG_WR and advance it. -/
def State.segWrite (s : State) (a : Nat) : List Planned → State
  | [] => s
  | q :: qs =>
    let x := s.segAddr a (s.segWr a)
    let s1 := (((s.setReg64 x (wrapInt q.pos 64)).setReg (x + 8) (wordOfInt q.vel)).setReg (x + 12) (word q.dur)).setFld
      (axisReg a 0x2C) 0 13 ((s.segWr a + 1) % s.segSize a)
    (s1.setAxis a { s1.axis a with own := (s1.axis a).own + 1 }).segWrite a qs

/-! ## Rest and stops (R335) -/

/-- The redefinition that ends homing (R349): the captured point becomes HOME_POS. -/
def State.homeEnd (s : State) (a : Nat) (captured : Int) : State :=
  let c := s.axis a
  let d := signed (s.reg64 (axisReg a 0x68)) 64 - captured
  s.setAxis a { c with
    state := 0, v := 0, seg := none, captured := none, homed := true, p := signed (wrapInt (c.p + d) 64) 64,
    line := c.line + d, out := roundDiv (c.p + d) 65536, wrote := roundDiv (c.p + d) 65536 }

/-- The axis has come to rest at its position: a stop ends in its state, homing in its redefinition, a member of a group waits. -/
def State.axisRest (s : State) (a : Nat) : State :=
  let c := s.axis a
  let c1 := { c with seg := none, v := 0 }
  if c.state = 5 then (match c.captured with | some x => s.homeEnd a x | none => s.setAxis a { c1 with state := 0 })
  else if c.state = 3 then s.setAxis a c1
  else s.setAxis a { c1 with state := c.after, after := 0 }

/-- The axis begins to decelerate at `d` from its present position and velocity at the instant `t`. -/
def State.decelerate (s : State) (a : Nat) (d : Frac) (t : Int) : State :=
  let c := s.axis a
  if c.v = 0 then s.axisRest a
  else
    let b := stopDist c.v.natAbs d
    s.setAxis a { c with
      own := 0,
      seg := some ⟨c.p, c.v, c.p + c.v.sign * Int.ofNat (rdiv b.num b.den), 0, 16 * accelDur (c.v.natAbs * 2 ^ 32) d, t, false, false⟩ }

/-- A stop under R335 from the instant `t` that ends in the state `after`. -/
def State.axisStop (s : State) (a after : Nat) (t : Int) : State :=
  (s.setAxis a { s.axis a with state := 4, after := after, captured := none }).decelerate a (s.sdec a) t

/-! ## Segments in execution (R331 to R335) -/

/-- The next queued segment becomes active at the instant `t` and is checked, unless the unit planned it (R334). -/
def State.segActivate (s : State) (a : Nat) (t : Int) : State :=
  let c := s.axis a
  let g := s.segAt a (s.segRd a) c.p c.v t
  let own := decide (0 < c.own)
  if own || (decide (0 < g.len) && g.speedOk (s.reg (axisReg a 0x0C)).toNat && g.accelOk (s.amax a).num &&
      g.limitsOk (s.posMin a) (s.posMax a)) then
    (s.setFld (axisReg a 0x2C) 16 13 ((s.segRd a + 1) % s.segSize a)).setAxis a { c with seg := some g, own := c.own - 1 }
  else ((s.axisSticky a 1).segFlush a).axisStop a 0 t

/-- Segments wait in the ring. -/
def State.segWaits (s : State) (a : Nat) : Bool := s.segQueued a (s.segWr a) != 0

/-- What follows on a segment that has ended at the instant `e` (R332, R335, R349). -/
def State.segNext (s : State) (a : Nat) (e : Int) : State :=
  let c := s.axis a
  if c.state = 1 then
    if s.segWaits a then s.segActivate a e
    else if c.v = 0 then s.setAxis a { c with state := 0, seg := none, own := 0 }
    else ((s.axisSticky a 2).bump (axisReg a 0x120)).axisStop a 0 e
  else if c.state = 3 then
    if 0 < c.own ∧ s.segWaits a = true then s.segActivate a e else s.axisRest a
  else if c.state = 5 ∧ c.captured = none then
    s.setAxis a { c with
      seg := some ⟨c.p, c.v, c.p + roundDiv (c.v * Int.ofNat maxDur * 16) 1000000, c.v, 16 * maxDur, e, false, false⟩ }
  else s.axisRest a

/-- A segment ends (R330, R331): the position and velocity are those of its end, it is counted, and its event rings. -/
def State.segEnd (s : State) (a : Nat) (g : MotionSeg) : State :=
  let s1 := s.setAxis a { s.axis a with p := g.p1, v := g.v1, seg := none }
  let s2 := if g.ring then s1.bump (axisReg a 0x100) else s1
  let s3 := if g.evt then
      let e := s.fld (axisReg a 0) 16 6
      let s' := s2.axisSticky a 10
      if s'.epReachable e then s'.ring e 1 else s'
    else s2
  s3.segNext a (g.start + Int.ofNat g.len)

/-- The axis follows its segments up to the instant `t`. -/
def State.follow (s : State) (a : Nat) (t : Int) : Nat → State
  | 0 => s
  | n + 1 =>
    let c := s.axis a
    match c.seg with
    | some g =>
      if g.start + Int.ofNat g.len ≤ t then (s.segEnd a g).follow a t n
      else s.setAxis a { c with p := g.pos (t - g.start), v := g.vel (t - g.start) }
    | none =>
      if c.state = 1 ∨ (c.state = 3 ∧ 0 < c.own) then
        let s1 := s.segNext a t
        if (s1.axis a).seg.isSome then s1.follow a t n else s1
      else s

/-- The axis follows its segments up to the instant `t`: at most the ring's segments and a stop lie between. -/
def State.advance (s : State) (a : Nat) (t : Int) : State := s.follow a t 8200

/-! ## Gearing (R343, R344) -/

/-- The difference of two master positions, taken modulo 2^64. -/
def mdiff (m m0 : Nat) : Int := signed ((m + 2 ^ 64 - m0 % 2 ^ 64) % 2 ^ 64) 64

/-- The head changes of the queue that the master's way from `m0` to `m` has passed are applied, in order. -/
def gearChanges (m0 m : Nat) : List GearChange → AxisSt → AxisSt
  | [], c => { c with changes := [] }
  | e :: q, c =>
    let x := mdiff e.x m0
    let d := mdiff m m0
    if (e.dir % 2 = 1 ∧ 0 < x ∧ x ≤ d) ∨ (2 ≤ e.dir ∧ x < 0 ∧ d ≤ x) then
      gearChanges m0 m q { c with
        sref := c.sref + roundDiv (c.num * mdiff e.x c.mref) c.den, mref := e.x, num := e.num, den := e.den }
    else { c with changes := e :: q }

/-- A geared axis with its master at `m`, `dt` ns after the last evaluation. -/
def gearMove (c : AxisSt) (m : Nat) (dt : Nat) : AxisSt :=
  let c1 := gearChanges c.mlast m c.changes c
  let p := signed (wrapInt (c1.sref + roundDiv (c1.num * mdiff m c1.mref) c1.den) 64) 64
  { c1 with p := p, v := roundDiv ((p - c.p) * 1000000) (max dt 1), mlast := m }

/-- The network master at the instant `t` (KIND 0b01). -/
def State.mval (s : State) (a : Nat) (t : Int) : Nat :=
  wrapInt (signed (s.reg64 (axisReg a 0x80)) 64 + roundDiv ((s.reg (axisReg a 0x88)).toInt * (t - (s.axis a).mvalAt)) 1000000) 64

def State.gearKind (s : State) (a : Nat) : Nat := s.fld (axisReg a 0x70) 0 2
def State.gearIndex (s : State) (a : Nat) : Nat := s.fld (axisReg a 0x70) 2 8

/-- The master of axis a at the grid point `t`. -/
def State.master (s : State) (a : Nat) (t : Int) : Nat :=
  if s.gearKind a = 0 then (s.count (pchReg (s.gearIndex a) 0x1160)).toNat * 65536 % 2 ^ 64
  else if s.gearKind a = 1 then s.mval a t
  else wrapInt (s.axis (s.gearIndex a)).p 64

/-- The ns since the last grid point. -/
def State.sinceGrid (s : State) (t : Int) : Nat :=
  match s.trav.grid with
  | some g => (t - g).toNat
  | none => 1000

/-- GEAR engages (R343). -/
def State.gearEngage (s : State) (a : Nat) (t : Int) : State :=
  if s.gearKind a = 2 ∧ a ≤ s.gearIndex a then s.axisSticky a 0
  else
    let c := s.axis a
    let m := s.master a t
    s.setAxis a { c with
      state := 2, sref := c.p, mref := m, mlast := m, num := (s.reg (axisReg a 0x74)).toInt, den := (s.reg (axisReg a 0x78)).toNat }

/-- A grid point of a geared axis. -/
def State.gearStep (s : State) (a : Nat) (t : Int) : State :=
  let c := gearMove (s.axis a) (s.master a t) (s.sinceGrid t)
  let s1 := s.setAxis a c
  if (s.reg (axisReg a 0x0C)).toNat < c.v.natAbs then s1.axisSticky a 3 else s1

/-- The position and velocity of axis a at the later instant `t`, from its plan as it stands: a geared axis follows a network master's or a
master axis's plan, and keeps its velocity behind a pin channel (log entry 51). -/
def State.foresee (s : State) (t : Int) : Nat → Nat → Int × Int
  | 0, a => ((s.axis a).p, (s.axis a).v)
  | n + 1, a =>
    let c := s.axis a
    if c.state = 2 then
      if s.gearKind a = 0 then (c.p + roundDiv (c.v * Int.ofNat (s.sinceGrid t)) 1000000, c.v)
      else
        let m := if s.gearKind a = 1 then s.mval a t else wrapInt (s.foresee t n (s.gearIndex a)).1 64
        let c1 := gearMove c m (s.sinceGrid t)
        (c1.p, c1.v)
    else
      let c1 := (s.advance a t).axis a
      (c1.p, c1.v)

/-! ## Flags, limits and homing (R347 to R350) -/

/-- The flag key of the flag that LIMCFG names at bit `lo` (0 positive, 8 negative, 16 home); none for 0x3F. -/
def State.limKey (s : State) (a lo : Nat) : Option Nat :=
  let sel := s.fld (axisReg a 0x60) lo 6
  if sel < 32 then some (32 * s.fld (axisReg a 0x60) 24 4 + sel) else if sel < 48 then some (512 + (sel - 32)) else none

/-- The live flag. -/
def State.limFlag (s : State) (a lo : Nat) : Bool :=
  match s.limKey a lo with
  | some k => s.flagSeen k
  | none => false

/-- How often that flag has changed up to the present step. -/
def State.limChanges (s : State) (a lo : Nat) : Nat :=
  match s.limKey a lo with
  | some k => (s.sharedFlag k).changesAt (if k < 512 then s.stepNo else s.stepNo - 1)
  | none => 0

/-- The flag was active in some step since the last grid point, at which it had changed `seen` times. -/
def State.limActive (s : State) (a lo seen : Nat) : Bool := s.limFlag a lo || decide (seen + 2 ≤ s.limChanges a lo)

/-- The axis moves towards a limit that has been active. -/
def State.limHit (s : State) (a : Nat) : Bool :=
  let c := s.axis a
  (decide (0 < c.v) && s.limActive a 0 c.posSeen) || (decide (c.v < 0) && s.limActive a 8 c.negSeen)

/-- The changes of the limit flags up to now are taken up. -/
def State.limTake (s : State) (a : Nat) : State :=
  s.setAxis a { s.axis a with posSeen := s.limChanges a 0, negSeen := s.limChanges a 8 }

/-- CHATTER_CNT counts the changes of the limit flags in LIMIT (R348), where the axis stood in it at the last grid point already; the flags'
changes are taken up. -/
def State.limSample (s : State) (a : Nat) (chatters : Bool) : State :=
  let c := s.axis a
  (if chatters && c.state == 6 then
    s.bumpBy (axisReg a 0x118) ((s.limChanges a 0 - c.posSeen) + (s.limChanges a 8 - c.negSeen)) else s).limTake a

/-- HOME starts (R349, R350). -/
def State.homeStart (s : State) (a : Nat) (t : Int) : State :=
  if s.limFlag a 16 then s.axisSticky a 7
  else
    let c := s.axis a
    let v := s.reg (axisReg a 0x64)
    let dir : Int := if s.bit (axisReg a 0x60) 28 then -1 else 1
    let b := stopDist v.toNat (s.amax a)
    let s1 := s.setAxis a { c with state := 5, homed := false, captured := none }
    if v = 0 then s1.segNext a t
    else s1.setAxis a { s1.axis a with
      seg := some ⟨c.p, 0, c.p + dir * Int.ofNat (rdiv b.num b.den), dir * Int.ofNat v.toNat, 16 * accelDur (v.toNat * 2 ^ 32) (s.amax a), t,
        false, false⟩ }

/-- The motion time in ns. -/
def State.motionNs (s : State) : Int := Int.ofNat s.ns - s.trav.skew

/-- HOME_CAPTURE (R349): at the first step at which the home flag reads 1, the position is captured, and the axis stops at SDEC. -/
def State.homeCapture (s : State) (a : Nat) : State :=
  let c := s.axis a
  if c.state == 5 && c.captured.isNone && s.axisOn a && s.limFlag a 16 then
    let s1 := s.advance a s.motionNs
    (s1.setAxis a { s1.axis a with captured := some (s1.axis a).p }).decelerate a (s1.sdec a) s.motionNs
  else s

/-! ## Groups (R345, R346) -/

/-- Group g. -/
def State.groupOf (s : State) (g : Nat) : Option GroupPlan := Tab.get (fun _ => none) s.trav.groups g

/-- Set group g. -/
def State.setGroup (s : State) (g : Nat) (p : Option GroupPlan) : State :=
  { s with trav := { s.trav with groups := Tab.set (fun _ => none) s.trav.groups g p } }

/-- The busy group that axis a belongs to. -/
def State.groupWith (s : State) (a : Nat) : Option Nat :=
  findFrom (fun g => match s.groupOf g with | some p => p.members.any (fun m => m.1 == a) | none => false) 8 0

/-- The least of the members' limits along the path: limit × Λ / |Δ| (R345). -/
def pathLimit (lim : Nat → Nat) (span : Nat) : List (Nat × Int × Int) → Frac → Frac
  | [], f => f
  | (a, _, d) :: ms, f => pathLimit lim span ms (if d = 0 then f else Frac.min f ⟨lim a * span, d.natAbs⟩)

/-- The members that the mask names, in ascending order, with their TGT values. -/
def State.groupTargets (s : State) (g : Nat) : List (Nat × Int) :=
  let named := (List.range 64).filter (fun a => (s.reg64 (groupReg g 0)).testBit a)
  named.mapIdx (fun j a => (a, signed (s.reg64 (groupReg g (0x40 + 8 * j))) 64))

/-- The plan of a group's move to the targets `ts`: the plan, and each member's segments. -/
def State.groupPlan (s : State) (ts : List (Nat × Int)) : GroupPlan × List (Nat × List Planned) :=
  let ms := ts.map (fun (a, t) => (a, (s.axis a).p, t - (s.axis a).p))
  let span := ms.foldl (fun n m => max n m.2.2.natAbs) 0
  let v := pathLimit (fun a => s.vmax a) span ms ⟨2 ^ 31 - 1, 1⟩
  let a := pathLimit (fun i => (s.amax i).num) span ms ⟨2 ^ 32 * span, 1⟩
  let phs := profile a v 0 span
  (⟨ms, span⟩, ms.map (fun (i, p, d) => (i, phaseSegs p d.sign ⟨d.natAbs, span⟩ phs)))

/-- May a move of group g to the targets `ts` start (R345)? The group rests; its members are enabled, IDLE and in no busy group, its targets
within the soft limits, and its segments fit the rings (log entry 52). -/
def State.groupAllowed (s : State) (g : Nat) (ts : List (Nat × Int)) : Bool :=
  (s.groupOf g).isNone && decide (1 ≤ ts.length) && decide (ts.length ≤ 8) &&
    ts.all (fun (a, t) => s.axisOn a && (s.axis a).state == 0 && (s.groupWith a).isNone && decide (s.posMin a ≤ t) && decide (t ≤ s.posMax a) &&
      (decide (t = (s.axis a).p) || decide (0 < s.vmax a))) &&
    (s.groupPlan ts).2.all (fun (a, qs) => decide (planLen qs < s.segSize a))

/-- The move of group g to the targets `ts` starts: each member's segments stand in its ring, and the axes are in GROUP (R345). -/
def State.groupStart (s : State) (g : Nat) (ts : List (Nat × Int)) : State :=
  let (plan, qss) := s.groupPlan ts
  if plan.span = 0 then s
  else
    qss.foldl (fun st (a, qs) =>
      let st1 := (st.segFlush a).setAxis a { (st.segFlush a).axis a with state := 3, kick := (s.count (tickReg 0x30)).toNat }
      st1.segWrite a (cutPlan (s.axis a).p 0 qs)) (s.setGroup g (some plan))

/-- The members of a group that are still on their way. -/
def State.groupRuns (s : State) (plan : GroupPlan) : List (Nat × Int × Int) :=
  plan.members.filter (fun m => (s.axis m.1).state == 3 || (s.axis m.1).state == 4)

/-- The member with the longest way of a list. -/
def longestWay (ms : List (Nat × Int × Int)) : Nat × Int × Int :=
  ms.foldl (fun (b m : Nat × Int × Int) => if b.2.2.natAbs < m.2.2.natAbs then m else b) (0, 0, 0)

/-- Group g stops along its line from the instant `t` (R346): the members `leave` take no part, nor one that is in FAULT already. The
place and the speed along the path are those of the running member with the longest way. -/
def State.groupStop (s : State) (g : Nat) (leave : List Nat) (t : Int) : State :=
  match s.groupOf g with
  | none => s
  | some plan =>
    let lead := longestWay (s.groupRuns plan)
    let at0 := rdiv (((s.axis lead.1).p - lead.2.1).natAbs * plan.span) lead.2.2.natAbs
    let v := rdiv ((s.axis lead.1).v.natAbs * plan.span) lead.2.2.natAbs
    let dec := pathLimit (fun i => (s.sdec i).num) plan.span plan.members ⟨2 ^ 32 * plan.span, 1⟩
    let b := stopDist v dec
    let stay := (s.groupRuns plan).filter (fun m => !leave.contains m.1)
    stay.foldl (fun (st : State) (m : Nat × Int × Int) =>
      let (a, p, d) := m
      let c := st.axis a
      if v = 0 then (st.setAxis a { c with own := 0 }).axisRest a
      else
        st.setAxis a { c with
          own := 0, seg := some ⟨c.p, c.v,
            p + d.sign * Int.ofNat (rdiv (d.natAbs * (at0 * b.den + b.num)) (plan.span * b.den)), 0, 16 * accelDur (v * 2 ^ 32) dec, t, false,
            false⟩ }) s

/-- A member's outcome in a group that has come to rest: all are at rest, so the others become IDLE and BUSY returns to 0. -/
def State.groupEnd (s : State) (g : Nat) : State :=
  match s.groupOf g with
  | none => s
  | some plan =>
    if plan.members.all (fun m => (s.axis m.1).seg.isNone && ((s.axis m.1).state != 3 || (s.axis m.1).own == 0)) then
      (plan.members.foldl (fun st m =>
        if (st.axis m.1).state = 3 then st.setAxis m.1 { st.axis m.1 with state := 0 } else st) s).setGroup g none
    else s

/-! ## Stops by a cause (R335, R346, R347, R351) -/

/-- Axis a stops from the instant `t`, and with it its whole group; it then stands in the state `after`. -/
def State.stopCause (s : State) (a after : Nat) (t : Int) : State :=
  match s.groupWith a with
  | some g =>
    if (s.axis a).state = 3 ∨ (s.axis a).state = 4 then
      (s.setAxis a { s.axis a with state := 4, after := after }).groupStop g [] t
    else s.axisStop a after t
  | none => s.axisStop a after t

/-- A limit trip (R347, R350): the ring is flushed, any gear disengaged. -/
def State.limTrip (s : State) (a : Nat) (t : Int) : State :=
  let s1 := if (s.axis a).state = 5 then s.axisSticky a 7 else s
  (((s1.axisSticky a 6).bump (axisReg a 0x110)).segFlush a).stopCause a 6 t

/-! ## Commands (R329) -/

/-- A step output without MUX.TRAV on its channel (R338). -/
def State.noFeed (s : State) (a : Nat) : Bool := s.stepsOut a && !s.bit (pchReg (s.stepCh a) 0x1108) 1

/-- TARGET (R341, R342). -/
def State.targetGo (s : State) (a : Nat) (target : Int) : State :=
  let c := s.axis a
  let (qs, b, rev, turn) := planTarget (s.amax a) ⟨s.vmax a, 1⟩ c.p c.v target
  if target < s.posMin a ∨ s.posMax a < target ∨ (s.vmax a = 0 ∧ target ≠ c.p) ∨ s.segSize a ≤ planLen qs then s.axisSticky a 0
  else
    let s1 := s.setReg64 (axisReg a 0x58) b
    let s2 := if rev then s1.axisSticky a 4 else s1
    let s3 := if rev && (decide (turn < s.posMin a) || decide (s.posMax a < turn)) then s2.axisSticky a 5 else s2
    let s4 := s3.segFlush a
    let kick := if c.moving then c.kick else (s.count (tickReg 0x30)).toNat
    (s4.setAxis a { s4.axis a with state := 1, seg := none, kick := kick }).segWrite a (cutPlan c.p c.v qs)

/-- The cause of a fault of axis a remains (R352, R394). -/
def State.faultStays (s : State) (a : Nat) : Bool :=
  s.flt.f3 || s.flt.f4 || s.flt.nsafe || (s.stepsOut a && s.padsSafe (s.stepCh a))

/-- A command takes effect on axis a at the grid point `t`, or is discarded with CMD_REJ (R329). -/
def State.axisCommand (s : State) (a op : Nat) (target t : Int) : State :=
  let c := s.axis a
  let fresh := { c with kick := (s.count (tickReg 0x30)).toNat }
  if !s.axisOn a then s.axisSticky a 0
  else if (op = 1 ∨ op = 2 ∨ op = 4 ∨ op = 5) ∧ s.noFeed a = true then s.axisSticky a 0
  else if op = 1 then
    if c.state = 0 then s.setAxis a { fresh with state := 1, own := 0 } else if c.state = 1 then s else s.axisSticky a 0
  else if op = 2 then (if c.state = 0 ∨ c.state = 1 ∨ c.state = 4 then s.targetGo a target else s.axisSticky a 0)
  else if op = 3 then
    if c.state = 0 ∨ c.state = 4 ∨ c.state = 6 ∨ c.state = 7 then s else s.stopCause a 0 t
  else if op = 4 then (if c.state = 0 ∨ c.state = 6 then (s.setAxis a fresh).homeStart a t else s.axisSticky a 0)
  else if op = 5 then (if c.state = 0 then (s.setAxis a fresh).gearEngage a t else s.axisSticky a 0)
  else if c.state = 6 ∨ (c.state = 7 ∧ s.faultStays a = false) then s.setAxis a { c with state := 0, v := 0 }
  else s.axisSticky a 0

/-! ## What waits for the next grid point (R329) -/

/-- Note an order for the next grid point. -/
def State.noteOrder (s : State) (o : TravOrder) : State := { s with trav := { s.trav with cmds := s.trav.cmds ++ [o] } }

/-- A command is noted, a TARGET with the value that AXIS.TARGET has now. -/
def State.noteCommand (s : State) (a op : Nat) : State := s.noteOrder (.cmd a op (signed (s.reg64 (axisReg a 0x38)) 64))

/-- A write of SEG_WR to `n` adds segments without overtaking SEG_RD (R333). -/
def State.segWrAdds (s : State) (a n : Nat) : Bool := decide (s.segQueued a (s.segWr a) ≤ s.segQueued a n)

/-- The enabled axis in whose queued range segment i lies (R333). -/
def State.segHeldBy (s : State) (i : Nat) : Option Nat :=
  findFrom (fun a => s.bit (axisReg a 0) 15 && decide (s.segBase a ≤ i) && decide (i < s.segBase a + s.segSize a) &&
    decide ((i - s.segBase a + s.segSize a - s.segRd a) % s.segSize a < s.segQueued a (s.segWr a))) 64 0

/-- The number of the segment that a word of segment memory belongs to. -/
def segOf (addr : Nat) : Nat := (addr - travReg 0x100000) / 16

/-- Store a word of segment memory; the reserved bits of its last word stay zero (R330). -/
def State.segStore (s : State) (addr : Nat) (d : Word) : State :=
  s.setReg addr (if addr % 16 = 12 then word (fieldOf d 0 29) else d)

/-- The rings as the orders noted so far will leave them. -/
def State.ahead (s : State) : State :=
  s.trav.cmds.foldl (fun st o => match o with
    | .segWr a n => st.setFld (axisReg a 0x2C) 0 13 n
    | .seg x d => st.segStore x d
    | _ => st) s

/-- An order takes effect at the grid point `t`, or is discarded with CMD_REJ, or a GO with REJ, where the state by then does not accept it
(R329, R333, R345). -/
def State.takeOrder (s : State) (t : Int) : TravOrder → State
  | .cmd a op target => s.axisCommand a op target t
  | .segWr a n =>
    if n < s.segSize a ∧ s.segWrAdds a n = true then s.setFld (axisReg a 0x2C) 0 13 n else s.axisSticky a 0
  | .seg x d =>
    match s.segHeldBy (segOf x) with
    | some a => s.axisSticky a 0
    | none => s.segStore x d
  | .go g ts => if s.groupAllowed g ts then s.groupStart g ts else s.setBit (groupReg g 0x0C) 1 true

/-- Orders take effect at the grid point `t`, in the order issued. -/
def State.takeOrders (s : State) (t : Int) (os : List TravOrder) : State := os.foldl (fun st o => st.takeOrder t o) s

/-! ## Step outputs (R338 to R340) -/

/-- The count that a position stands at: boundaries lie at (n + 1/2) counts. -/
def countOf (p : Int) : Int := (p + 32768) / 65536

/-- The first of the positions of a plan that lies in another count than `n`, as a direction. -/
def firstAway (n : Int) : List Int → Option Bool
  | [] => none
  | p :: ps => if countOf p = n then firstAway n ps else some (decide (countOf p < n))

/-- The extreme positions of the queued segments that follow (R339). -/
def State.queuedTurns (s : State) (a : Nat) (p v : Int) (i : Nat) : Nat → List Int
  | 0 => []
  | n + 1 =>
    let g := s.segAt a i p v 0
    if g.len = 0 then [] else g.turns.map g.pos ++ [g.p1] ++ s.queuedTurns a g.p1 g.v1 (i + 1) n

/-- Axis a as its steps see it: homing comes to rest like a stop. The redefinition of its position makes no step (R338, R349). -/
def State.forSteps (s : State) (a : Nat) : State :=
  let c := s.axis a
  if c.state = 5 ∧ c.captured.isSome = true then s.setAxis a { c with state := 4, after := 0, captured := none } else s

/-- The direction of the next step after the instant `t`, when the axis stands at count `n`: what the known plan says, if anything (true:
negative). -/
def State.nextDir (s : State) (a : Nat) (n t : Int) : Option Bool :=
  let s1 := (s.forSteps a).advance a t
  let c := s1.axis a
  match c.seg with
  | some g =>
    firstAway n ((g.turns.filter (fun x => decide (t < g.start + x))).map g.pos ++ [g.p1] ++
      (if c.state = 1 ∨ c.state = 3 then s1.queuedTurns a g.p1 g.v1 (s1.segRd a) (s1.segQueued a (s1.segWr a)) else []))
  | none => none

/-- The TAQ_HI word of a PINS action that drives the pins of `mask` to `val` (R156). -/
def pinsWord (mask val : Nat) : Word := word (mask * 2 ^ 20 + val * 2 ^ 24 + mask * 2 ^ 28)

/-- The bit of STEP_PIN, and the level bits of DIR_PIN for a direction (R339). -/
def State.stepBit (s : State) (a : Nat) : Nat := 2 ^ s.fld (axisReg a 0) 10 2
def State.dirBit (s : State) (a : Nat) : Nat := 2 ^ s.fld (axisReg a 0) 12 2
def State.dirVal (s : State) (a : Nat) (neg : Bool) : Nat := if neg != s.bit (axisReg a 0) 14 then s.dirBit a else 0

/-- The pulse width and the direction set-up in ns. -/
def State.stepW (s : State) (a : Nat) : Nat := 2 * s.fld (axisReg a 0x04) 0 9
def State.dirSetup (s : State) (a : Nat) : Nat := 2 * s.fld (axisReg a 0x08) 0 9

/-- The least spacing of rising edges in ns: 1/f of R340. -/
def stepPeriod (w : Nat) : Nat := max (2 * w) 250

/-- An instant rounded to 2 ns. -/
def even2 (t : Int) : Int := 2 * ((t + 1) / 2)

/-- A lone direction action (R339): DIR_SETUP before the step at `x`, but not before the last falling action. -/
def State.turnFirst (s : State) (a : Nat) (c : AxisSt) (neg : Bool) (x : Int) : AxisSt :=
  let y := max (x - Int.ofNat (s.dirSetup a)) c.fall
  { c with acts := c.acts ++ [⟨y, pinsWord (s.dirBit a) (s.dirVal a neg), 0⟩], dirNeg := neg, dirAt := y }

/-- Issue one step in the direction `neg` that is due at `x`: a direction action before it where DIR_PIN shows the other direction, the
rising action, and the falling action with the direction of the next step `next` where that differs (R339). What DIR_SETUP lacks after a
reversal delays it and every later action. -/
def State.issueStep (s : State) (a : Nat) (c0 : AxisSt) (neg : Bool) (x : Int) (next : Option Bool) : AxisSt :=
  let w := Int.ofNat (s.stepW a)
  let step : Int := if neg then -1 else 1
  let c := if c0.dirNeg != neg then s.turnFirst a c0 neg x else c0
  let x1 := max x (c.dirAt + Int.ofNat (s.dirSetup a))
  let turn := match next with | some d => d != neg | none => false
  let fallMask := s.stepBit a ||| (if turn then s.dirBit a else 0)
  { c with
    acts := c.acts ++ [⟨x1, pinsWord (s.stepBit a) (s.stepBit a), step⟩,
      ⟨x1 + w, pinsWord fallMask (if turn then s.dirVal a (!neg) else 0), 0⟩],
    out := c.out + step, rise := x1, fall := x1 + w, lag := c.lag + (x1 - x).toNat,
    dirNeg := neg != turn, dirAt := if turn then x1 + w else c.dirAt }

/-- The crossings of the line from `q0` at the grid point `t` to `q1` one microsecond later (R338) that are due by `h`; a first step in
another direction is prepared for DIR_SETUP before. -/
def State.crossings (s : State) (a : Nat) (q0 q1 t h : Int) : Nat → AxisSt → AxisSt
  | 0, c => c
  | n + 1, c =>
    if countOf q1 = c.out then c
    else
      let neg := decide (countOf q1 < c.out)
      let b := c.out * 65536 + (if neg then -32768 else 32768)
      let x0 := if (if neg then q1 < q0 ∧ b ≤ q0 else q0 < q1 ∧ q0 ≤ b) then t + Int.ofNat (1000 * (b - q0).natAbs / (q1 - q0).natAbs) else t
      let sep := c.rise + Int.ofNat (stepPeriod (s.stepW a)) - 2
      let x := max (even2 x0 + Int.ofNat c.lag) sep
      if h + Int.ofNat c.lag < x then
        (if c.dirNeg != neg && decide (x - Int.ofNat (s.dirSetup a) ≤ h + Int.ofNat c.lag) then s.turnFirst a c neg x else c)
      else
        let next := if countOf q1 = c.out + (if neg then -1 else 1) then
            (if c.state = 2 then none else s.nextDir a (countOf q1) (t + 1000))
          else some neg
        s.crossings a q0 q1 t h n (s.issueStep a c neg x next)

/-- Axis a follows a pin channel, itself or through its master axes: its position at a grid point is known at that grid point only. -/
def State.followsPin (s : State) : Nat → Nat → Bool
  | 0, _ => false
  | n + 1, a => (s.axis a).state == 2 && (s.gearKind a == 0 || (s.gearKind a == 2 && s.followsPin n (s.gearIndex a)))

/-- How far beyond a grid point, in ns, actions have to be known at it: each is written from 1 µs to 100 ns before its time (R339), and the next
grid point is 1 µs later. -/
def writeAhead : Int := 1100

/-- The steps that become known at the grid point `t`. p at the next grid point follows from the plan, as does, for what is due within
100 ns of it, the line behind it. An axis behind a pin channel takes the microsecond that has passed, and all its actions come that much
later (log entry 151). -/
def State.stepLine (s : State) (a : Nat) (t : Int) : State :=
  let c := s.axis a
  if !s.stepsOut a then s.setAxis a { c with line := c.p, out := countOf c.p, wrote := countOf c.p, acts := [] }
  else if s.followsPin 64 a then
    let c1 := { c with lag := max c.lag (writeAhead.toNat + s.dirSetup a) }
    s.setAxis a { s.crossings a c.line c.p (t - 1000) t 8 c1 with line := c.p }
  else
    let c1 := if c.v = 0 ∧ c.acts = [] ∧ countOf c.p = c.out then { c with lag := 0 } else c
    let q := fun (k : Nat) => if k = 0 then c.p else ((s.forSteps a).foresee (t + 1000 * Int.ofNat k) 64 a).1
    let c2 := (List.range 3).foldl (fun c k => s.crossings a (q k) (q (k + 1)) (t + 1000 * Int.ofNat k) (t + writeAhead) 8 c) c1
    s.setAxis a { c2 with line := c.p }

/-- One action is written into the channel's timed-action queue at its pin time, and its step counted; a full queue takes none (R157). -/
def State.writeAct (s : State) (a : Nat) (x : StepAct) : State :=
  let n := s.stepCh a
  let p := (x.at' + s.trav.skew).toNat / 2 % 2 ^ 48
  if s.bit (pchReg n 0x1108) 1 then
    let s1 := (s.taqPush n p (x.word ||| word (p / 2 ^ 32))).1
    if x.step = 0 then s1 else (s1.bump (axisReg a 0x108)).setAxis a { s1.axis a with wrote := (s1.axis a).wrote + x.step }
  else s

/-- The actions of axis a that are due at most 1 µs after the instant `t` are written (R339; log entry 151). -/
def State.writeActs (s : State) (a : Nat) (t : Int) : State :=
  let c := s.axis a
  let due := c.acts.takeWhile (fun x => decide (x.at' ≤ t + 1000))
  due.foldl (fun st x => st.writeAct a x) (s.setAxis a { c with acts := c.acts.drop due.length })

/-! ## Faults (R352, R394) and the watchdog (R351) -/

/-- The axis goes to FAULT at once: a step output is held at the last step written; a group goes on along its line without it. -/
def State.axisFault (s : State) (a : Nat) : State :=
  let c := s.axis a
  if c.state = 7 then s
  else
    let t := s.trav.grid.getD s.motionNs
    let s1 := match s.groupWith a with
      | some g => s.groupStop g [a] t
      | none => s
    let p := if s.stepsOut a then c.wrote * 65536 else c.p
    s1.setAxis a { s1.axis a with
      state := 7, p := p, v := 0, seg := none, after := 0, captured := none, own := 0, acts := [], line := p, out := countOf p,
      wrote := countOf p, lag := 0 }

/-- Every axis goes to FAULT (R352, R394), unless Traverse is off and holds them in IDLE. -/
def State.axesFault (s : State) : State :=
  if s.bit (travReg 0) 0 then (List.range 64).foldl (fun st a => st.axisFault a) s else s

/-- Do all axes stand in FAULT, for a device fault or nSAFE (R352, R394)? -/
def State.allFault (s : State) : Bool := s.flt.f3 || s.flt.f4 || s.flt.nsafe

/-- The pads of a step channel have gone to safe level (R352), or the axis has been enabled during a fault of all axes. -/
def State.padCheck (s : State) (a : Nat) : State :=
  let safe := s.stepsOut a && s.padsSafe (s.stepCh a)
  let s1 := if (safe && !(s.axis a).safe) || s.allFault then s.axisFault a else s
  s1.setAxis a { s1.axis a with safe := safe }

/-- TRAV_WATCHDOG_EXPIRY (R351): a moving axis has seen WATCH boundaries without a kick. -/
def State.travWatchdog (s : State) (a : Nat) : State :=
  let c := s.axis a
  let w := s.fld (axisReg a 0xA8) 0 16
  if s.axisOn a && decide (w ≠ 0) && c.moving && c.state != 4 && decide (c.kick + w ≤ (s.count (tickReg 0x30)).toNat) then
    (s.axisSticky a 8).stopCause a 0 (s.trav.grid.getD s.motionNs)
  else s

/-! ## The grid point (R328) -/

/-- Hold an axis in IDLE: Traverse or the axis is off. -/
def State.axisOff (s : State) (a : Nat) : State :=
  let c := s.axis a
  if c.state = 0 ∧ c.seg = none ∧ c.v = 0 ∧ c.acts = [] then s
  else
    s.setAxis a { c with
      state := 0, v := 0, seg := none, own := 0, after := 0, captured := none, acts := [], line := c.p, out := countOf c.p, wrote := countOf c.p,
      lag := 0 }

/-- The axes that are not evaluated stand in IDLE, or in FAULT where only the axis is off, and a group that one of them left is dissolved. -/
def State.axesOff (s : State) : State :=
  let s1 := (List.range 64).foldl (fun st a =>
    if st.axisOn a || (st.bit (travReg 0) 0 && (st.axis a).state == 7) then st else st.axisOff a) s
  if s1.bit (travReg 0) 0 then s1 else { s1 with trav := { s1.trav with groups := [] } }

/-- A new network master position holds from the grid point `t` (R343). -/
def State.mvalPoint (s : State) (a : Nat) (t : Int) : State :=
  if (s.axis a).mvalNew then s.setAxis a { s.axis a with mvalNew := false, mvalAt := t } else s

/-- The part of a grid point that brings axis a to the instant `t`. -/
def State.axisPoint (s : State) (a : Nat) (t : Int) : State :=
  let s2 := s.mvalPoint a t
  if (s2.axis a).state = 2 then s2.gearStep a t else s2.advance a t

/-- The limits of axis a at the grid point `t` (R347, R348). -/
def State.axisLimits (s : State) (a : Nat) (t : Int) (chatters : Bool) : State :=
  let c := s.axis a
  let s1 := if s.limHit a && !(c.state == 4 && c.after == 6) && c.state != 7 then s.limTrip a t else s
  s1.limSample a chatters

/-- The axes that are evaluated. -/
def State.axesOn (s : State) : List Nat := (List.range 64).filter (fun a => s.axisOn a)

/-- The pads of every evaluated axis are looked at, before any axis moves on: a group stops from where all its members stand (R346, R352). -/
def State.padChecks (s : State) : State := s.axesOn.foldl (fun st a => st.padCheck a) s

/-- What follows on a grid point's orders: what they started begins, groups at rest end, and the steps that are now known are issued. -/
def State.afterOrders (s : State) (t : Int) : State :=
  let s1 := s.axesOn.foldl (fun st a => if (st.axis a).state = 2 then st else st.advance a t) s
  let s2 := (List.range 8).foldl (fun st g => st.groupEnd g) s1
  s.axesOn.foldl (fun st a => (st.stepLine a t).writeActs a t) { s2 with trav := { s2.trav with grid := some t } }

/-- The latest whole microsecond of the device time, as motion time. -/
def State.gridTime (s : State) : Int := Int.ofNat (s.ns / 1000 * 1000) - s.trav.skew

/-- Have the axes been evaluated for the latest grid point? -/
def State.onGrid (s : State) : Bool :=
  match s.trav.grid with
  | some g => decide (s.gridTime ≤ g)
  | none => false

/-- The axes are evaluated for the grid point `t`: in ascending order, so that a geared axis finds its master axis at the same grid point; then
limits are looked at, and what has been noted takes effect. -/
def State.gridEval (s : State) (t : Int) : State :=
  let s0 := ({ s.axesOff with trav := { s.axesOff.trav with cmds := [] } }).padChecks
  let s1 := s0.axesOn.foldl (fun st a => st.axisPoint a t) s0
  let s2 := s0.axesOn.foldl (fun st a => st.axisLimits a t ((s0.axis a).state == 6)) s1
  { s2 with trav := { s2.trav with grid := some t } }.takeOrders t s.trav.cmds

/-- GRID_POINT (R328): the latest grid point, if the axes have not been evaluated for it. -/
def State.gridPoint (s : State) : State := if s.onGrid then s else (s.gridEval s.gridTime).afterOrders s.gridTime

/-- What has been noted after the first `n` orders takes effect at once, at the grid point that has been evaluated (R329). -/
def State.ordersNow (s : State) (n : Nat) : State :=
  let t := s.trav.grid.getD s.gridTime
  let s1 := s.axesOn.foldl (fun st a => st.mvalPoint a t) { s with trav := { s.trav with cmds := s.trav.cmds.take n } }
  s1.takeOrders t (s.trav.cmds.drop n)

/-- One TIME cycle in which nothing is commanded: the time goes on, and Traverse writes the actions that are due (R339). -/
def State.idleCycle (s : State) : State :=
  let s1 := s.timeCycle
  s1.trav.axes.foldl (fun st (a, c) => if c.acts.isEmpty then st else st.writeActs a s1.motionNs) s1

/-! ## Network setpoints (R336) -/

/-- What SP[a] is to show, from the axis's plan as it stands, for the instant `t`. -/
def State.setpoint (s : State) (t : Int) (a : Nat) : Setpoint :=
  ⟨a, (s.axis a).state, if (s.axis a).state = 7 then none else some (s.foresee t 64 a)⟩

/-- At the start of a tick every axis with a network output is evaluated for the start of the next one (R336). -/
def State.noteSetpoints (s : State) : State :=
  let t : Int := Int.ofNat (s.tick.next.getD 0) - s.trav.skew
  { s with trav := { s.trav with spNew := some (((List.range 64).filter (fun a => s.netOut a)).map (fun a => s.setpoint t a)) } }

/-- SP[a] shows a setpoint. -/
def State.showSetpoint (s : State) (x : Setpoint) : State :=
  let s1 := s.setReg (spReg x.axis 0x0C) (word x.state)
  match x.vals with
  | some (p, v) => (s1.setReg64 (spReg x.axis 0) (wrapInt p 64)).setReg (spReg x.axis 8) (wordOfInt v)
  | none => s1

/-- SETPOINT_VIEW (R336): the view that was evaluated at the tick's start is written, once in a tick. -/
def State.setpointView (s : State) : State :=
  match s.trav.spNew with
  | some xs =>
    (xs.foldl (fun (st : State) x => st.showSetpoint x) { s with trav := { s.trav with spNew := none } }).setReg (travReg 4) (word s.tickIndex)
  | none => s

end Sys2Proof.Machine
end

