-- ==== Sys2Proof/Machine/TravRegs.lean ====
section
/-!
DEFINITION. The register window of Traverse (chapter 13): the checks of its writes and the values its reads work out. Rights of access are
settled by Machine/Bus.lean.
-/
namespace Sys2Proof.Machine

/-- Do two ranges of segments overlap? -/
def ringsOverlap (b1 n1 b2 n2 : Nat) : Bool := decide (b1 < b2 + n2) && decide (b2 < b1 + n1)

/-- A write of SEG_CFG (R332): only in IDLE with an empty ring, inside the memory, and clear of the rings of other enabled axes. Pointers
that lie outside the new ring return to its start (log entry 53). -/
def State.segCfgWrite (s : State) (a : Nat) (d : Word) : WRes :=
  let b := fieldOf d 0 13
  let n := fieldOf d 16 14
  let clash := (List.range 64).any (fun x =>
    decide (x ≠ a) && s.bit (axisReg x 0) 15 && ringsOverlap b n (s.segBase x) (s.segSize x))
  if (s.axis a).state ≠ 0 ∨ s.segRd a ≠ s.ahead.segWr a ∨ n = 0 ∨ 8192 < b + n ∨ clash = true then .err s
  else
    let s1 := s.setReg (axisReg a 0x28) (word (b + n * 2 ^ 16))
    .done (if n ≤ s1.segWr a then s1.setReg (axisReg a 0x2C) 0 else s1)

/-- A write of SEG_WR (R333): noted for the next grid point, if the ring as the orders before it leave it has room. A staged one is checked
when it takes effect. -/
def State.segWrWrite (s : State) (a : Nat) (d : Word) (staged : Bool) : WRes :=
  let n := fieldOf d 0 13
  if staged then .done (s.noteOrder (.segWr a n))
  else if s.ahead.segSize a ≤ n then .err s
  else if s.ahead.segWrAdds a n = false then .err (s.axisSticky a 0)
  else .done (s.noteOrder (.segWr a n))

/-- A write of a word of segment memory (R333), noted and checked in the same way. -/
def State.segMemWrite (s : State) (x : Nat) (d : Word) (staged : Bool) : WRes :=
  if staged || (s.ahead.segHeldBy (segOf x)).isNone then .done (s.noteOrder (.seg x d)) else .err s

/-- Does an order noted already start group g, or a move of an axis that `ts` names? -/
def TravOrder.claims (g : Nat) (ts : List (Nat × Int)) : TravOrder → Bool
  | .go h us => h == g || us.any (fun u => ts.any (fun t => t.1 == u.1))
  | _ => false

/-- A write of GO (R345): noted for the next grid point with the targets as they stand. One that may not start, as far as is known now, is
discarded with a bus error and sets REJ; a staged one is checked when it takes effect. -/
def State.groupGo (s : State) (g : Nat) (staged : Bool) : WRes :=
  let ts := s.groupTargets g
  if staged || (s.groupAllowed g ts && !s.trav.cmds.any (TravOrder.claims g ts)) then .done (s.noteOrder (.go g ts))
  else .err (s.setBit (groupReg g 0x0C) 1 true)

/-- f of R340 is at least VMAX for a pulse width in ns. -/
def rateOk (v w : Nat) : Bool := decide (v * 1000 * stepPeriod w ≤ 65536 * 1000000000)

/-- A push into the queue of ratio changes (R344). -/
def State.gearPush (s : State) (a : Nat) (d : Word) : WRes :=
  let c := s.axis a
  let dir := fieldOf d 0 2
  if dir = 0 then .err s
  else if 16 ≤ c.changes.length then .err (s.axisSticky a 9)
  else
    .done (s.setAxis a { c with changes := c.changes ++
      [⟨s.reg64 (axisReg a 0x90), (s.reg (axisReg a 0x98)).toInt, (s.reg (axisReg a 0x9C)).toNat, dir⟩] })

/-- A write of POS_MIN or POS_MAX: refused where they would cross; a change clears HOMED (R350). -/
def State.softWrite (s : State) (a r : Nat) (d : Word) : WRes :=
  let s1 := s.setReg (axisReg a r) d
  if s1.posMax a < s1.posMin a then .err s
  else .done (if s.reg (axisReg a r) = d then s1 else s1.setAxis a { s1.axis a with homed := false })

/-- KICK (R351). -/
def State.axisKick (s : State) (a : Nat) : State :=
  s.setAxis a { s.axis a with kick := (s.count (tickReg 0x30)).toNat }

/-- A write of CFG: an axis at rest takes its position over as the one its steps stand at. -/
def State.axisCfg (s : State) (a : Nat) (d : Word) : State :=
  let s1 := s.setReg (axisReg a 0) (word (fieldOf d 0 22))
  let c := { s1.axis a with safe := s1.stepsOut a && s1.padsSafe (s1.stepCh a) }
  if s1.stepsOut a = s.stepsOut a then s1.setAxis a c
  else s1.setAxis a { c with out := countOf c.p, wrote := countOf c.p, line := c.p, acts := [], lag := 0 }

/-- A write of LIMCFG: the flags that it names are watched from now on (R347, R348). -/
def State.limCfg (s : State) (a : Nat) (d : Word) : WRes :=
  match WRes.plain.orPlain s (axisReg a 0x60) d with
  | .done t => .done (t.limTake a)
  | x => x

/-- A write at offset `r` of AXIS[a]. -/
def State.axisWrite (s : State) (a r : Nat) (d : Word) (staged : Bool) : WRes :=
  let geared := (s.axis a).state == 2
  if r = 0x000 then .done (s.axisCfg a d)
  else if r = 0x004 then
    let w := fieldOf d 0 9
    WRes.unless (decide (10 ≤ w) && decide (w ≤ 500) && (!s.stepsOut a || rateOk (s.reg (axisReg a 0x0C)).toNat (2 * w))) s .plain
  else if r = 0x008 then WRes.unless (decide (1 ≤ fieldOf d 0 9) && decide (fieldOf d 0 9 ≤ 500)) s .plain
  else if r = 0x00C then WRes.unless (!s.stepsOut a || rateOk d.toNat (s.stepW a)) s .plain
  else if r = 0x010 ∨ r = 0x014 then WRes.unless (decide (d ≠ 0)) s .plain
  else if 0x018 ≤ r ∧ r < 0x028 then s.softWrite a r d
  else if r = 0x028 then s.segCfgWrite a d
  else if r = 0x02C then s.segWrWrite a d staged
  else if r = 0x030 then
    WRes.unless (decide (1 ≤ fieldOf d 0 4) && decide (fieldOf d 0 4 ≤ 6)) s (.done (s.noteCommand a (fieldOf d 0 4)))
  else if r = 0x060 then
    WRes.unless ([0, 8, 16].all (fun i => decide (fieldOf d i 6 < 48) || fieldOf d i 6 == 63)) s (s.limCfg a d)
  else if r = 0x064 then WRes.unless (decide (d.toNat ≤ (s.reg (axisReg a 0x0C)).toNat)) s .plain
  else if r = 0x070 then WRes.unless (fieldOf d 0 2 != 3) s .plain
  else if r = 0x074 ∨ r = 0x078 then WRes.unless (!geared && (r == 0x074 || decide (d ≠ 0))) s .plain
  else if r = 0x080 ∨ r = 0x084 ∨ r = 0x088 then
    .done ((s.setReg (axisReg a r) d).setAxis a { s.axis a with mvalNew := true })
  else if r = 0x09C then WRes.unless (decide (d ≠ 0)) s .plain
  else if r = 0x0A0 then s.gearPush a d
  else if r = 0x0AC then .done (s.axisKick a)
  else .plain

/-- A write at offset `o` of TRAV; `staged` for an engine's write that is applied at the boundary (R329, R333). -/
def travWrite (s : State) (staged : Bool) (o : Nat) (d : Word) : WRes :=
  if 0x10000 ≤ o ∧ o < 0x18000 then s.axisWrite ((o - 0x10000) / 0x200) ((o - 0x10000) % 0x200) d staged
  else if 0x20000 ≤ o ∧ o < 0x20800 ∧ o % 0x100 = 8 then (if bitOf d 0 then s.groupGo ((o - 0x20000) / 0x100) staged else .done s)
  else if 0x100000 ≤ o ∧ o < 0x120000 then s.segMemWrite (travReg o) d staged
  else .plain

/-- A staged write is applied at the boundary, which is a grid point, and takes effect there before the next one (R329); one that fails is discarded,
and CMD_REJ of its axis is set (R329, R333). -/
def travStaged (s : State) (o a : Nat) (d : Word) : State :=
  match (travWrite s true o d).orPlain s a d with
  | .done t => t.ordersNow s.trav.cmds.length
  | .err t => if 0x10000 ≤ o ∧ o < 0x18000 then t.axisSticky ((o - 0x10000) / 0x200) 0 else t
  | .plain => s

/-- STAT of axis a. -/
def State.axisStat (s : State) (a : Nat) : Word :=
  let c := s.axis a
  word (c.state + 16 * bit01 c.homed + 32 * bit01 c.moving + 64 * bit01 (s.limFlag a 0) + 128 * bit01 (s.limFlag a 8) +
    256 * bit01 (s.limFlag a 16))

/-- A read at offset `r` of AXIS[a]. -/
def State.axisRead (s : State) (a r : Nat) : RRes :=
  let c := s.axis a
  if r = 0x040 then .val s (s.axisStat a)
  else if r = 0x048 then .low s (wrapInt c.p 64)
  else if r = 0x04C then .high s (wrapInt c.p 64)
  else if r = 0x050 then .val s (wordOfInt c.v)
  else if r = 0x074 ∧ c.state = 2 then .val s (wordOfInt c.num)
  else if r = 0x078 ∧ c.state = 2 then .val s (word c.den)
  else if r = 0x0A4 then .val s (word c.changes.length)
  else .plain

/-- A read at offset `o` of TRAV. -/
def travRead (s : State) (o : Nat) : RRes :=
  if 0x10000 ≤ o ∧ o < 0x18000 then s.axisRead ((o - 0x10000) / 0x200) ((o - 0x10000) % 0x200)
  else if 0x20000 ≤ o ∧ o < 0x20800 ∧ o % 0x100 = 0x0C then
    .val s (s.reg (travReg o) ||| word (bit01 (s.groupOf ((o - 0x20000) / 0x100)).isSome))
  else .plain

end Sys2Proof.Machine
end

