-- ==== Sys2Proof/Machine/Reaction.lean ====
section
/-!
DEFINITION. The reaction to faults (chapter 15, R383 to R398): which output units a fault puts at safe level, the device fault, broken
and tested paths, injections seen or missed, nSAFE, and the end of a device fault.
-/
namespace Sys2Proof.Machine

/-! ## Scopes (R384, R387) -/

/-- The channels of a cluster that a fault vector names. -/
def vectorUnits (c : Nat) (v : Word) : List Nat := ((List.range 16).filter (fun i => bitOf v i)).map (fun i => 16 * c + i)

/-- The output units that an F2 post names (R416): an engine's by its logical engine, a sequencer core's or a driver leg's by its
channel (log entry 33). -/
def State.postUnits (s : State) (kind unit : Nat) : List Nat :=
  if kind = 1 then
    match s.logicalOf unit with
    | some l => s.unitsOf l
    | none => []
  else if kind = 2 then (if unit < 256 then [unit] else [])
  else if kind = 3 then (if unit < 1024 then [unit / 4] else [])
  else []

/-- The reason that an F2 of a source sets, and the units in its scope. An engine's own F2 and one of the memories have none. -/
def State.scopeOf (s : State) (e : Event) : Nat × List Nat :=
  if 0x24 ≤ e.src ∧ e.src ≤ 0x43 then (1, s.unitsOf (e.src - 0x24))
  else if 0x44 ≤ e.src ∧ e.src ≤ 0x53 then (2, vectorUnits (e.src - 0x44) (if e.broken then 0xFFFF else e.vector))
  else if e.src = 0x6A then (3, allUnits)
  else if e.src = 0x6C then (2, s.postUnits (leNat (bytesAt e.detail 1 1)) (leNat (bytesAt e.detail 2 2)))
  else (0, [])

/-- The device fault (R383): every unit at safe level, forwarding halted, every axis in FAULT, ALIVE low. An F4 also latches. -/
def State.deviceFault (s : State) (grave : Bool) : State :=
  let s1 := { s with flt := { s.flt with f3 := true, f4 := s.flt.f4 || grave }, mgt := { s.mgt with troubled := true } }
  ((s1.setReasons allUnits 4).haltSwitch.axesFault).aliveCheck

/-- nSAFE asserts the safe state. The instant at which the ball returns high is outside the device: how long it stays low is free (log entry
162). -/
def State.nsafeLow (s : State) : State :=
  ({ s with flt := { s.flt with nsafe := true, nsafeAt := s.cyc + (freeValue 32 s.freeCtr).toNat } }).free

/-- The reaction to a fault of class F2 to F4 (R387). -/
def State.react (s : State) (e : Event) : State :=
  if 3 ≤ e.cls then s.deviceFault (e.cls == 4)
  else
    let (r, us) := s.scopeOf e
    let s1 := (s.setReasons us r).padChecks
    if e.src = 0x6A then s1.nsafeLow.axesFault else s1

/-! ## Faults on the lines (R385, R387, R396 to R398) -/

/-- Does the test pulse of a path test stand on a line now: 8 ns, four TIME cycles (R386)? -/
def State.testPulse (s : State) (src cls : Nat) : Bool :=
  let t := Tab.get (fun _ => 0) s.flt.testAt (lineKey src cls)
  decide (0 < t) && decide (s.cyc < t - 1 + 4)

/-- The injection in progress on the line of an event whose test tag a real fault clears (R398). -/
def State.taggedBy (s : State) (e : Event) : Option Injection :=
  match s.flt.injection with
  | some i => if i.src = e.src ∧ i.cls = e.cls ∧ i.real = false then some i else none
  | none => none

/-- A real fault during an injection on its line clears the test tag (R398). -/
def State.injReal (s : State) (e : Event) : State :=
  match s.taggedBy e with
  | some i => ({ s with flt := { s.flt with injection := some { i with real := true } } }).setBit (fltReg 0x78) 2 true
  | none => s

/-- The bit INJ_REAL of STICKY, where a real fault meets an injection or a test pulse on its line (R398). -/
def State.realBits (s : State) (e : Event) : List Nat := if s.testPulse e.src e.cls || (s.taggedBy e).isSome then [8] else []

/-- Does an F2 on the line of an engine start a takeover: the engine serves a logical engine that none is taking over (R120, R385)? -/
def State.startsTakeover (s : State) (src cls : Nat) : Bool :=
  decide (src < 36) && cls == 2 &&
    match s.logicalOf src with
    | some l => (Tab.get (fun _ => none) s.pec.takeovers l).isNone
    | none => false

/-- The event goes on to the event bus, or the PEC holds it until a takeover's outcome is known (R399). -/
def State.passOn (s : State) (e : Event) : State :=
  if e.waits then { s with flt := { s.flt with held := s.flt.held ++ [e] } } else s.onBus e

/-- A fault of the tick generator itself (R383, R391): it reports it, and starts no further tick (log entry 188). -/
def State.tickFaults (s : State) (e : Event) : State :=
  if e.src = 0x60 ∧ 3 ≤ e.cls then
    let s1 := s.tickStop
    { s1 with flt := { s1.flt with tickFault := true } }
  else s

/-- The collector takes a real fault: it is noted and captured, its line is live, and the units in scope go to safe level. -/
def State.takeReal (s : State) (e : Event) : State :=
  (((((s.noteReal e (s.realBits e)).setLive e.src e.cls true).injReal e).tickFaults e).react e).passOn e

/-- The collector sees an injection (R397): recorded with the INJ tag; in mode REAL it is also captured and reacted to. -/
def State.takeInjected (s : State) (i : Injection) (vector : Word) : State :=
  let s1 := ({ s with flt := { s.flt with injection := some { i with seen := true } } }).setBit (fltReg 0x78) 1 true
  let e := { s1.newEvent i.src i.cls (if 2 ≤ i.mode then 0xFFFF else 0xFFFE) (if i.mode = 1 then 0xFFFF else vector) [] with
    inj := true, broken := decide (2 ≤ i.mode) }
  if i.mode = 1 then ((s1.captures e).react e).passOn { e with waits := s1.startsTakeover i.src i.cls } else s1.onBus e

/-- The injection in progress on a line that the collector has not seen yet. -/
def State.unseenInjection (s : State) (src cls : Nat) : Option Injection :=
  match s.flt.injection with
  | some i => if i.src = src ∧ i.cls = cls ∧ i.seen = false ∧ i.real = false then some i else none
  | none => none

/-- Leave out the first element for which `p` holds. -/
def eraseFirst {α : Type} (p : α → Bool) : List α → List α
  | [] => []
  | x :: xs => if p x then xs else x :: eraseFirst p xs

/-- Is this the detected fault of a line? -/
def onLine (src cls : Nat) (e : Event) : Bool := e.src == src && e.cls == cls

/-- Take the oldest fault that a line's source has detected. -/
def State.takeDetected (s : State) (src cls : Nat) : Option State :=
  match s.flt.detected.find? (onLine src cls) with
  | some e => some (({ s with flt := { s.flt with detected := eraseFirst (onLine src cls) s.flt.detected } }).takeReal e)
  | none => none

/-- FAULT_TAKEN for a line (R385, R387): a fault that its source has detected, else an injection that is not seen yet, else a fault that
the source of the line finds now. -/
def State.faultTaken (s : State) (src cls cause : Nat) (vector : Word) : State :=
  match s.takeDetected src cls with
  | some s1 => s1
  | none =>
    match s.unseenInjection src cls with
    | some i => s.takeInjected i vector
    | none => if 2 ≤ cls ∧ canRaise src cls = true then s.takeReal (s.newEvent src cls cause vector []) else s

/-- A line is broken (R385): handled as a fault of its class over the source's whole scope, with CAUSE 0xFFFF. -/
def State.breakLine (s : State) (src cls : Nat) : State :=
  let s1 := s.setBroken src cls
  let e := { s1.newEvent src cls 0xFFFF 0xFFFF [] with broken := true }
  ((s1.noteReal e [5]).react e).passOn { e with waits := s1.startsTakeover src cls }

/-- PATH_BROKEN (R385): an injection in a broken mode that the collector has not seen yet (R397), else a broken line. -/
def State.pathBroken (s : State) (src cls : Nat) : State :=
  if 2 ≤ cls ∧ canRaise src cls = true ∧ s.lineBroken src cls = false then
    match s.unseenInjection src cls with
    | some i => if 2 ≤ i.mode then s.takeInjected i 0xFFFF else s.breakLine src cls
    | none => s.breakLine src cls
  else s

/-- Is the next path test of a line due: PATH_MS after the last (R386)? -/
def State.testDue (s : State) (src cls : Nat) : Bool :=
  let t := Tab.get (fun _ => 0) s.flt.testAt (lineKey src cls)
  t == 0 || decide (t - 1 + s.fld (fltReg 0x64) 0 10 * cycMs ≤ s.cyc)

/-- PATH_TEST (R386): the second test in a row without a pulse breaks the line. -/
def State.pathTest (s : State) (src cls : Nat) (pulseSeen : Bool) : State :=
  if 2 ≤ cls ∧ canRaise src cls = true ∧ s.lineBroken src cls = false ∧ s.testDue src cls = true then
    let was := Tab.get (fun _ => false) s.flt.missed (lineKey src cls)
    let s1 := { s with flt := { s.flt with
      missed := Tab.set (fun _ => false) s.flt.missed (lineKey src cls) (!pulseSeen),
      testAt := Tab.set (fun _ => 0) s.flt.testAt (lineKey src cls) (s.cyc + 1) } }
    if !pulseSeen && was then s1.breakLine src cls else s1
  else s

/-- INJ_MISSED (R397): an injection not observed within 1 µs sets MISSED, and its line is broken, unless it is already. -/
def State.injMissed (s : State) : State :=
  match s.flt.injection with
  | some i =>
    if i.seen = false ∧ i.real = false ∧ i.missed = false ∧ i.starts + cycUs ≤ s.cyc then
      let s1 := ({ s with flt := { s.flt with injection := some { i with missed := true } } }).setBit (fltReg 0x78) 3 true
      if s.lineBroken i.src i.cls then s1 else s1.breakLine i.src i.cls
    else s
  | none => s

/-! ## nSAFE (R394) and the end of a device fault (R383) -/

/-- NSAFE_ASSERT: an F2 of source 0x6A, which sets NSAFE on all units and puts every axis in FAULT. A further assertion before NSAFE is
cleared puts the return of nSAFE off. -/
def State.nsafeAssert (s : State) : State :=
  if s.lineLive 0x6A 2 then s.nsafeLow else s.takeReal (s.newEvent 0x6A 2 0 0 [])

/-- NSAFE_CLEAR, not before HOLD has passed since nSAFE returned high: NSAFE is cleared and the line of the source is healthy again. -/
def State.nsafeClear (s : State) : State :=
  if s.flt.nsafe && !s.lineBroken 0x6A 2 && decide (s.flt.nsafeAt + s.fld (fltReg 0x60) 0 10 * cycMs ≤ s.cyc) then
    (({ s with flt := { s.flt with nsafe := false } }).setLive 0x6A 2 false).clearReasons allUnits 3
  else s

/-- A write of F3_CLR: refused while F4 is latched or an F3 source is live; DEVICE is cleared and forwarding resumes. -/
def State.f3Clear (s : State) (d : Word) : WRes :=
  if s.flt.f4 || s.f3Live then .err s
  else if bitOf d 0 && s.flt.f3 then
    .done ((({ s with flt := { s.flt with f3 := false } }).setBit (swReg 0) 1 false).clearReasons allUnits 4)
  else .done s

end Sys2Proof.Machine
end

