-- ==== Sys2Proof/Machine/Startup.lean ====
section
/-!
DEFINITION. Resets, start-up, the intake of bundles, Bivouac, the spare map and the registers of SYS and MGT (chapter 16; R467, R468).
-/
namespace Sys2Proof.Machine

/-! ## Resets (R421, R428, R467, R468) -/

/-- Bits of BOOT_STAT and MCP_STAT. -/
def bootStat : Nat := mgtReg 0x300
def mcpStat : Nat := mgtReg 0x000
def resetCause : Nat := sysReg 0x30

/-- Everything but the non-volatile parts at its reset value: MRAM with the spare map, fuses, flash, the AON selection bit and a wipe in progress stay
(R376, R405, R421, R430, R435), and what the MCP keeps of faults for its policy (R438, log entry 193). Soft repairs are lost (R381). The queue and the free-value counter are the model's own. -/
def State.resetVolatile (s : State) : State :=
  let m := { MgtSt.reset with
    fuses := s.mgt.fuses, lcNext := s.mgt.lcNext, bootCopies := s.mgt.bootCopies, slotA := s.mgt.slotA, slotB := s.mgt.slotB,
    pllB := s.mgt.pllB, engineF2 := s.mgt.engineF2, refBadAt := s.mgt.refBadAt, porstLow := s.mgt.porstLow }
  let r := { State.reset with
    pending := s.pending, freeCtr := s.freeCtr,
    mem := s.mem.filter (fun c => decide (cairnBase ≤ c.1) && decide (c.1 < cairnBase + 0x400000)),
    mgt := m, flt := { FltSt.reset with boot := s.flt.boot, mramBad := s.flt.mramBad } }
  if s.wiping then r.wipeStart else r

/-- A reset of everything but the AON domain, which keeps the F4 latch, with it its reaction (R383, R388), and the tamper registers (R437).
`cause` is the bit of RESET_CAUSE. -/
def State.resetKeepAon (s : State) (cause : Nat) : State :=
  let r := s.resetVolatile
  let r1 := ((r.setReg resetCause (word (2 ^ cause))).setReg (mgtReg 0x220) (s.reg (mgtReg 0x220))).setReg (mgtReg 0x224)
    (s.reg (mgtReg 0x224))
  let r2 := { r1 with flt := { r1.flt with f4 := s.flt.f4 }, mgt := { r1.mgt with tamperDue := s.mgt.tamperDue } }
  if s.flt.f4 then r2.deviceFault true else r2

/-- The level of PORST_N. -/
def State.setPorst (s : State) (low : Bool) : State := { s with mgt := { s.mgt with porstLow := low } }

/-- PORST_ASSERT (R467): PORST_N falls, a reset of a powered device. -/
def State.porst (s : State) : State :=
  if s.mgt.porstLow || s.mgt.phase == .unpowered then s else (s.resetKeepAon 1).setPorst true

/-- VDD_AON_APPLY (R468): a power-on reset of a part with these fuses. -/
def State.aonApply (s : State) (f : Fuses) : State :=
  let r := (s.resetVolatile.setReg resetCause 1).setPorst true
  { r with mgt := { r.mgt with fuses := f, pllB := false } }

/-- VDD_AON_REMOVAL: the only end of a latched F4 (R383). -/
def State.aonRemove (s : State) : State :=
  let r := s.resetVolatile
  { r with mgt := { r.mgt with phase := .unpowered } }

/-- A write of SOFT_RESET (R428): everything but AON is reset; start-up follows as after PORST_N (log entry 35). -/
def State.softReset (s : State) (d : Word) : WRes :=
  if fieldOf d 0 16 = 0x5352 then .done (s.resetKeepAon 2) else .err s

/-! ## The spare map (R438, R440) -/

/-- The bytes of one copy of the spare map; the places of SEQ, COUNT and the CRC in its header are presumed (log entry 39). -/
def spareMapBytes (seq : Nat) (es : List (List Byte)) : List Byte :=
  let body := leBytes 4 0x4E4D534D ++ leBytes 4 es.length ++ leBytes 8 seq ++ leBytes 12 0 ++ es.flatten
  body.take 28 ++ leBytes 4 (crc32 body) ++ body.drop 28

/-- The fault source of a unit of a kind (R384, R439); a row or a column is numbered by its array, 256 × class + array (log entry 194). -/
def unitSource (kind unit : Nat) : Nat :=
  if kind = 1 then unit
  else if kind = 2 then 0x44 + unit / 16
  else if kind = 3 then 0x44 + unit / 64
  else if kind = 4 ∨ kind = 5 then (if unit / 256 = 0 then 0x5D else if unit / 256 = 4 then unit % 256 / 3 else 0x63)
  else if kind = 6 then 0x66
  else if kind = 7 then 0x67
  else 0x61

/-- The Cairn SEQ of the record that caused a bringing-in: the last record of the unit's source; free where none is written yet (R440, log entry
194). -/
def State.causeSeq (s : State) (src : Nat) : Nat :=
  let q := Tab.get (fun _ => 0) s.flt.seqOf src
  if q = 0 ∨ (s.flt.queue ++ s.flt.bus ++ s.flt.held ++ s.flt.detected).any (fun e => e.src == src) then (freeValue 64 s.freeCtr).toNat else q

/-- An entry of the spare map is added and the older copy rewritten (R440). -/
def State.spareEntry (s : State) (kind action unit spare : Nat) : State :=
  let e := leBytes 1 kind ++ leBytes 1 action ++ leBytes 2 unit ++ leBytes 2 spare ++ leBytes 2 0 ++ leBytes 8 (s.causeSeq (unitSource kind unit))
  let es := if s.mgt.spareMap.length < 4094 then s.mgt.spareMap ++ [e] else s.mgt.spareMap
  let q := s.mgt.spareSeq + 1
  let s1 := { s with mgt := { s.mgt with spareMap := es, spareSeq := q } }
  (s1.mramPut (0x20000 + 0x10000 * (q % 2)) (spareMapBytes q es)).free

/-- How many spares of a kind are in use. -/
def State.sparesUsedOf (s : State) (kind : Nat) : Nat := Tab.get (fun _ => 0) s.mgt.sparesUsed kind

/-- Is a unit mapped out? -/
def State.isMappedOut (s : State) (kind unit : Nat) : Bool := (Tab.get (fun _ => 0) s.mgt.mappedOut kind).testBit unit

/-- A unit is mapped out, with or without a spare in its place. -/
def State.mapOut (s : State) (kind unit : Nat) : State :=
  if s.isMappedOut kind unit then s
  else
    { s with mgt := { s.mgt with
      mappedOut := Tab.set (fun _ => 0) s.mgt.mappedOut kind (Tab.get (fun _ => 0) s.mgt.mappedOut kind + 2 ^ unit) } }

/-- The spare core that a failing core's channel is steered to; that channel's own number tells nothing of the core (R171). -/
def State.freeCore (s : State) : Option Nat := findFrom (fun i => !s.spareCoreUsed i) 8 0

/-- A spare of a kind is used. -/
def State.countSpare (s : State) (kind : Nat) : State :=
  { s with mgt := { s.mgt with sparesUsed := Tab.set (fun _ => 0) s.mgt.sparesUsed kind (s.sparesUsedOf kind + 1) } }

/-- Spare core i takes the place of channel n's own (R171, R438). -/
def State.steerCore (s : State) (n i : Nat) : State := (s.setFld (pchReg n 0x1108) 8 4 (i + 1)).mapOut 2 n

/-- The other reference is preferred to reference x, and the PLL reverts to it (R275, R438). -/
def State.preferOther (s : State) (x : Nat) : State := ((s.setBit (timeReg 0x48) 2 (x == 0)).setBit (timeReg 0x48) 3 true).refAuto

/-- The action of bringing in a spare for a unit (R438), and the number of the spare used. -/
def State.bringIn (s : State) (kind unit : Nat) : State × Nat :=
  if kind = 1 then ((s.setPeState unit 0).mapOut 1 unit, 0)
  else if kind = 2 then
    match s.freeCore with
    | some i => (s.steerCore unit i, i)
    | none => (s, 0)
  else if kind = 3 then (s.setFld (legReg (unit / 4) (unit % 4)) 8 2 3, 0)
  else if kind = 4 then (s.useSpareLine false unit, Tab.get (fun _ => 0) s.mbx.rowsUsed unit)
  else if kind = 5 then (s.useSpareLine true unit, Tab.get (fun _ => 0) s.mbx.colsUsed unit)
  else if kind = 7 then ({ s with mgt := { s.mgt with pllB := !s.mgt.pllB } }, bit01 (!s.mgt.pllB))
  else if kind = 8 then (s.preferOther unit, 1 - unit)
  else (s, s.sparesUsedOf kind)

/-- A spare has been brought in: its spare-map entry, and a post of the class given (R413, R416, R438). -/
def State.noteSpare (s : State) (kind unit spare cls : Nat) : State :=
  ((s.countSpare kind).spareEntry kind 1 unit spare).postEvent cls 0 (postDetail (if cls = 0 then 2 else 1) kind unit (if cls = 0 then 0 else 1))

/-- A spare is brought in. -/
def State.useSpare (s : State) (kind unit cls : Nat) : State := (s.bringIn kind unit).1.noteSpare kind unit (s.bringIn kind unit).2 cls

/-! ## The spare map at start-up (R421, R440) -/

/-- The entries of 16 bytes in a byte string. -/
def entriesOf (bs : List Byte) (n : Nat) : List (List Byte) := (List.range n).map (fun i => bytesAt bs (16 * i) 16)

/-- The copy of the spare map at an MRAM offset, if it is valid: SEQ and entries. -/
def State.mapCopy (s : State) (o : Nat) : Option (Nat × List (List Byte)) :=
  let h := s.bytes (mramAddr o) 32
  if leNat (bytesAt h 0 4) ≠ 0x4E4D534D then none
  else
    let n := leNat (bytesAt h 4 4)
    if 4094 < n then none
    else
      let es := s.bytes (mramAddr (o + 32)) (16 * n)
      if leNat (bytesAt h 28 4) = crc32 (h.take 28 ++ es) then some (leNat (bytesAt h 8 8), entriesOf es n) else none

/-- The valid copy with the higher SEQ. -/
def State.mapNewest (s : State) : Nat × List (List Byte) :=
  match s.mapCopy 0x20000, s.mapCopy 0x30000 with
  | some a, some b => if a.1 < b.1 then b else a
  | some a, none => a
  | none, some b => b
  | none, none => (0, [])

/-- An entry is applied: engines stand OFF, steered cores and the soft map are set again, and the AON selection bit names the PLL (R421, R438). -/
def State.applyEntry (s : State) (e : List Byte) : State :=
  let kind := leNat (bytesAt e 0 1)
  let unit := leNat (bytesAt e 2 2)
  let spare := leNat (bytesAt e 4 2)
  if leNat (bytesAt e 1 1) ≠ 1 then s.mapOut kind unit
  else
    let s1 := s.countSpare kind
    if kind = 1 then s1.mapOut 1 unit
    else if kind = 2 then s1.steerCore unit spare
    else if kind = 4 then s1.useSpareLine false unit
    else if kind = 5 then s1.useSpareLine true unit
    else if kind = 7 then { s1 with mgt := { s1.mgt with pllB := spare == 1 } }
    else s1

/-- The spare map is read and applied. -/
def State.readSpareMap (s : State) : State :=
  let m := s.mapNewest
  m.2.foldl State.applyEntry { s with mgt := { s.mgt with spareMap := m.2, spareSeq := m.1 } }

/-! ## The policy of the MCP (R438) -/

/-- SYSTEM_PLL_LOSS_OF_LOCK (R438): the hitless move to the other PLL, and an event of source 0x67 (log entry 38). -/
def State.pllLost (s : State) : State :=
  if s.sparesUsedOf 7 = 0 then (s.useSpare 7 (bit01 s.mgt.pllB) 0).raise 0x67 1 6
  else s.raise 0x61 3 0xFE

/-- A block of MRAM is uncorrectable, or was corrected with 4 bit errors at scrub: the MCP remaps its sector of 4 KiB while one of the 32 spare sectors
is left (R438). -/
def State.sectorPolicy (s : State) (b : Nat) : State :=
  if s.sparesUsedOf 6 < 32 ∧ s.mcpRuns = true then
    let s1 := s.useSpare 6 (b / 64) 0
    { s1 with flt := { s1.flt with mramBad := s1.flt.mramBad.filter (fun c => c.1 / 64 != b / 64) } }
  else s

/-- SCRUB_COMPLETE with what the MCP makes of its finding (R409, R410, R438). With the last block a scrub of the Cairn is done, and LAST_SCRUB_HOUR
recorded (R442, log entry 195). -/
def State.scrubbed (s : State) (bitErrors : Nat) : State :=
  if s.bit (fltReg 0x8000) 1 then
    let s1 := s.scrubEnd bitErrors
    let s2 := if 4 ≤ bitErrors then s1.sectorPolicy (s.flt.scrub.getD 0) else s1
    if s.flt.scrub = some 65535 ∧ s.mcpRuns = true then s2.counterPut 0x304 8 s2.powerOnHours else s2
  else s

/-- Those of a list of power-on hours that lie within the last `h` hours. -/
def State.within (s : State) (h : Nat) (l : List Nat) : List Nat := l.filter (fun t => decide (s.powerOnHours < t + h))

/-- F2 faults of engine n within the last 30 days (R438). -/
def State.recentF2 (s : State) (n : Nat) : Nat := (s.within 720 (Tab.get (fun _ => []) s.mgt.engineF2 n)).length

/-- REFERENCE_BAD (R274, R275), and what the MCP makes of it: a reference declared bad three times in 24 hours is no longer preferred (R438). -/
def State.refFails (s : State) (x : Nat) : State :=
  let s1 := s.refDeclareBad x
  if s.tb.monitors && !Tab.get (fun _ => false) s.tb.refBad x then
    let l := s1.powerOnHours :: s1.within 24 (Tab.get (fun _ => []) s1.mgt.refBadAt x)
    let third := decide (3 ≤ l.length) && s1.mcpRuns
    let s2 := { s1 with mgt := { s1.mgt with refBadAt := Tab.set (fun _ => []) s1.mgt.refBadAt x (if third then [] else l) } }
    if third then s2.useSpare 8 x 0 else s2
  else s1

/-- REPAIR_COMPLETE (R381), which the MCP enters in the spare map and posts (R438). -/
def State.repaired (s : State) : State :=
  if s.bit (memReg 0x40) 31 then
    let col := s.bit (memReg 0x40) 14
    let spare := Tab.get (fun _ => 0) (if col then s.mbx.colsUsed else s.mbx.rowsUsed) s.repairKey
    if s.mcpRuns then s.repairEnd.noteSpare (if col then 5 else 4) s.repairKey spare 0 else s.repairEnd
  else s

/-- MARCH_COMPLETE (R380): the MCP writes the result to the Cairn, as a self-test post (R413). The class of a failure is not stated where no unit is
mapped out yet: it is free among F1 and F2 (log entry 196). -/
def State.marched (s : State) (failAddr : Option Nat) : State :=
  if s.bit (memReg 0x10) 31 && s.mcpRuns then
    let s1 := s.marchEnd failAddr
    if failAddr.isSome then (s1.postEvent (freeBetween 1 2 s1.freeCtr) 0 (postDetail 1 0 0 1)).free else s1.postEvent 0 0 (postDetail 1 0 0 0)
  else s.marchEnd failAddr

/-- The MCP has steered a spare core (R171) or brought in a driver leg (R170): a write of its register that was not refused. -/
def State.spareWritten (s : State) (w : Who) (kind unit spare : Nat) (begins : Bool) : State :=
  if isMcp w && begins && !s.replyErr then s.noteSpare kind unit spare 0 else s

/-! ## Service life (R416, R417, R441, R442) -/

/-- The 10 °C band of a temperature in 0.125 °C: band b is from −60 °C + 10 b; those beyond the 22 bands count in the nearest. -/
def tjBand (t : Int) : Nat := min 21 (((t + 480) / 80).toNat)

/-- How many of `n` units satisfy `p`. -/
def countWhere (n : Nat) (p : Nat → Bool) : Nat := ((List.range n).filter p).length

/-- WEAR is refreshed and the wear summary posted (R442). Its DATA, whose layout no rule states, is free (log entry 197). -/
def State.wearSummary (s : State) : State :=
  let ok := countWhere 36 (fun n => !s.isMappedOut 1 n)
  let spare := min 15 (countWhere 36 (fun n => s.peState n == 2))
  let cores := countWhere 8 (fun i => !s.spareCoreUsed i)
  let s1 := s.setReg (mgtReg 0x700) (word (ok + spare * 2 ^ 8 + cores * 2 ^ 12 + s.sparesUsedOf 3 % 2 ^ 16 * 2 ^ 16))
  { s1.postEvent 0 0 (postDetail 9 0 0 0 ++ (freeDetail s1.freeCtr).take 56) with freeCtr := s1.freeCtr + 64 }

/-- The hours that have passed since power-good are counted: POWER_ON_HOURS, and TJ_HOURS in the band of the highest TEMP (R441). -/
def State.hoursCounted (s : State) (k : Nat) : State :=
  let old := s.powerOnHours
  let b := tjBand (s.mgt.hourMax.getD 0)
  let s1 := s.counterPut 0x100 8 (old + k)
  let s2 := s1.counterPut (0x200 + 4 * b) 4 (s1.counterVal (0x200 + 4 * b) 4 + k)
  let s3 := { s2 with mgt := { s2.mgt with hourAt := s2.mgt.hourAt + k, hourMax := none } }
  if old / 720 < (old + k) / 720 then s3.wearSummary else s3

/-- Does a binding that runs name an image of a key slot that the life-cycle state forbids (R416)? -/
def State.forbiddenImage (s : State) : Bool :=
  (List.range 32).any (fun l => s.bindState l == 3 && (s.imageAddrs l).any (fun a => !lcAccepts s.mgt.fuses.lcState (s.img a 0x46 1)))

/-- What the MCP finds at each sample of the sensors: the hours, and images of forbidden key slots, posted once. The topic of that post is not stated: it is
free (log entry 196). -/
def State.housekeeping (s : State) (temps : List Word) : State :=
  if s.mcpRuns then
    let t := temps.foldl (fun (m : Option Int) d => some (match m with
      | some x => max x (signed (fieldOf d 0 16) 16)
      | none => signed (fieldOf d 0 16) 16)) s.mgt.hourMax
    let s1 := { s with mgt := { s.mgt with hourMax := t } }
    let h := (s1.cyc - s1.mgt.powerAt) / (3600000 * cycMs)
    let s2 := if s1.mgt.hourAt < h then s1.hoursCounted (h - s1.mgt.hourAt) else s1
    if s2.forbiddenImage && !s2.mgt.forbidden then
      (({ s2 with mgt := { s2.mgt with forbidden := true } }).postEvent 4 0 (postDetail (freeBetween 1 9 s2.freeCtr) 0 0 1)).free
    else s2
  else s

/-- SENSOR_SAMPLE with what the MCP makes of it. -/
def State.sensorsRead (s : State) (temps volts : List Word) (slow : SlowReadings) : State :=
  if s.mgt.sensorAt = s.cyc / cycMs + 1 then s else (s.sensorSample temps volts slow).housekeeping (temps.take 32)

/-! ## Bivouac (R426) -/

/-- The engines stop where they stand, and no start or end of a tick is to come (R427). -/
def State.stopEngines (s : State) : State :=
  let cs := (Tab.keys s.cores).foldl (fun (t : Tab Core) n =>
    if n < 36 then Tab.set (fun _ => Core.reset) t n { Tab.get (fun _ => Core.reset) t n with running := false } else t) s.cores
  { s with cores := cs, pec := { s.pec with startDue := false, deadlineDue := false, canDue := false } }

/-- The device enters Bivouac: ticks, engines and forwarding stop, every unit takes INIT, the axes stand in IDLE (R427), ALIVE is low, the wait for a
bundle is over, and a post is queued: of class F2, or of class F3 with topic restart where it ends a restart sequence (R416, R429). -/
def State.enterBivouac (s : State) : State :=
  let s0 := ((s.tickStop.stopEngines.setBit (swReg 0) 0 false).setBit bootStat 6 false).setReasons allUnits 0
  let s1 := (List.range 64).foldl (fun (st : State) a => st.axisOff a) s0
  let s2 := ({ s1 with mgt := { s1.mgt with phase := .bivouac } }).setBit mcpStat 2 true
  (if s2.flt.f3 && !s2.flt.f4 then s2.postEvent 3 0 (postDetail 7 0 0 1) else s2.postEvent 2 0 (postDetail 8 0 0 0)).aliveCheck

/-! ## Start-up (R421 to R424, R431, R432) -/

/-- What the MCP puts in place of a bundle that has passed (R421): its firmware, from which it runs on, the key records in the secure memory, the images in
the scratchpad, and the image directory and the bindings in PEC. -/
def State.placeBundle (s : State) (b : BundleFacts) : State :=
  let s1 := s.storeEnding mcpRamBase (b.firmware.take 0x100000)
  let s2 := { s1 with cores := Tab.set (fun _ => Core.reset) s1.cores mcpCore { Core.reset with pc := 0x10000 } }
  let s3 := if s2.wiping then s2 else s2.storeEnding secureBase (b.keys.take 0x40000)
  let s4 := b.images.foldl (fun (st : State) x => st.storeEnding x.1 (x.2.take (0x800000 - x.1))) s3
  b.writes.foldl (fun (st : State) x => (((pecWrite st mcpWho x.1 x.2).orPlain st (pecBase + x.1) x.2).state st).1) s4

/-- Service starts: the bundle is put in place and the MCP runs from RAM, the switch holds its pre-allocated cells, and ticks are started. -/
def State.service (s : State) (b : BundleFacts) (slot : Option Bool) : State :=
  let s1 := ((s.setBit mcpStat 1 true).setBit bootStat 6 false).placeBundle b
  let s2 := { s1 with
    mgt := { s1.mgt with phase := .service, running := b, runSlot := slot, serviceAt := s1.cyc, troubled := false } }
  s2.portsTake.tickStart

/-- The device waits for a bundle (R424). -/
def State.waitBundle (s : State) : State :=
  ({ s with mgt := { s.mgt with phase := .waitHost } }).setBit bootStat 6 true

/-- What a flash slot holds. -/
def State.slotBundle (s : State) (b : Bool) : BundleFacts := if b then s.mgt.slotB else s.mgt.slotA

/-- Does a slot's bundle pass the checks of R431? -/
def State.slotPasses (s : State) (b : Bool) : Bool := s.bundleCheck (s.slotBundle b) == 0

/-- Run the bundle of a flash slot: SLOT, TRIAL and FALLBACK show how it came to run. -/
def State.runFlash (s : State) (b trial fallback : Bool) : State :=
  (((s.setBit bootStat 3 b).setBit bootStat 4 trial).setBit bootStat 5 fallback).service (s.slotBundle b) (some b)

/-- A start from a slot that is not on trial: ACTIVE, or the other slot where ACTIVE fails (R426; log entry 37). -/
def State.runActive (s : State) (fallback : Bool) : State :=
  let a := s.mgt.header.active
  if s.slotPasses a then s.runFlash a false fallback
  else if s.slotPasses (!a) then s.runFlash (!a) false true
  else s.enterBivouac

/-- A start from flash (R432): a trial slot with tries left runs once more, else ACTIVE. -/
def State.bootFlash (s : State) : State :=
  match s.mgt.header.trial with
  | none => s.runActive false
  | some t =>
    if s.mgt.header.tries = 0 then s.runActive true
    else
      let s1 := s.writeHeader s.mgt.header.active (some t) (s.mgt.header.tries - 1)
      if s1.slotPasses t then s1.runFlash t true false else s1.runActive true

/-- An update that the MCP has taken since the last start (R431, R432): a bundle that passes stands in the inactive slot, read back, and the boot header
puts it on trial; another is not written. An update post gives the first failed check. -/
def State.takeUpdate (s : State) (u : Option BundleFacts) : State :=
  match u with
  | none => s
  | some b =>
    let c := s.bundleCheck b
    let t := !s.mgt.header.active
    let s1 := if c = 0 then
        let s0 := s.writeHeader s.mgt.header.active (some t) 1
        { s0 with mgt := if t then { s0.mgt with slotB := b } else { s0.mgt with slotA := b } }
      else s
    s1.postEvent 0 0 (postDetail 3 0 0 c)

/-- The AON step of start-up: an interrupted wipe is completed, and the burnt life-cycle state taken; LOCK is set in FIELD (R421, R436,
R437). -/
def State.aonStep (s : State) : State :=
  let s1 := if s.wiping then s.wipeEnd else s
  let f := match s1.mgt.lcNext with
    | some t => { s1.mgt.fuses with lcState := t }
    | none => s1.mgt.fuses
  let s2 := { s1 with mgt := { s1.mgt with fuses := f, lcNext := none } }
  if f.lcState = 2 then s2.setBit (mgtReg 0x220) 31 true else s2

/-- A unit that failed its start-up test (R422): the state, and whether start-up goes on. -/
def State.failedUnit (s : State) (u : FailedUnit) : State × Bool :=
  if u.kind = 0xFF then (s.postEvent 2 0 (postDetail 1 0 u.unit 1), false)
  else if u.spareHealthy then (s.useSpare u.kind u.unit 1, true)
  else if u.granted then (s.postEvent 2 0 (postDetail 1 u.kind u.unit 1), false)
  else
    let s1 := (s.mapOut u.kind u.unit).spareEntry u.kind 2 u.unit 0
    (if u.kind = 1 then s1.setPeState u.unit 0 else s1, true)

/-- The failed units one after the other. -/
def State.failedUnits (s : State) : List FailedUnit → State × Bool
  | [] => (s, true)
  | u :: us =>
    let (s1, ok) := s.failedUnit u
    let (s2, rest) := s1.failedUnits us
    (s2, ok && rest)

/-- The engines that pass their test are spares; those mapped out stay OFF (R422, R438). -/
def State.enginesReady (s : State) : State :=
  (List.range 36).foldl (fun st n => if st.isMappedOut 1 n then st.setPeState n 0 else st.setPeState n 2) s

/-- The self-test of start-up (R422): March C− leaves the privileged memories at zero, engines become spares, failed units are
replaced or mapped out, and a post tells the result. -/
def State.selfTest (s : State) (failed : List FailedUnit) : State × Bool :=
  let s1 := ((s.zeroRange secureBase 0x40000).zeroRange mcpRamBase 0x100000).enginesReady
  let (s2, ok) := s1.failedUnits failed
  (if failed.isEmpty then s2.postEvent 0 0 (postDetail 1 0 0 0) else s2, ok)

/-- Where start-up ends after the self-test (R423, R424, R426). -/
def State.bootSource (s : State) : State :=
  let m := s.fld bootStat 0 3
  if !lcRuns s.mgt.fuses.lcState || s.flt.f4 then s.enterBivouac
  else if m = 0 then s.bootFlash
  else if m ≤ 3 then s.waitBundle
  else s.enterBivouac

/-- POWER_GOOD (R421): PORST_N rises, BOOT_MODE is sampled (R423), and the start-up sequence follows as a whole. Without a PLL that locks the device stays
held (log entry 36). -/
def State.powerGood (s : State) (f : BootFacts) : State :=
  if s.mgt.phase ≠ .held then s
  else
    let s0 := (({ s with mgt := { s.mgt with slotA := f.slotA, slotB := f.slotB } }).setPorst false).setFld bootStat 0 3 (f.bootMode % 8)
    let s1 := (if s0.flt.f4 then s0.readHeader else s0.readHeader.takeUpdate f.update).aonStep
    if f.namedPllLocks = false ∧ f.otherPllLocks = false then s1
    else
      let s2 := { s1 with mgt := { s1.mgt with powerAt := s1.cyc, hourAt := 0 } }
      let s3 := s2.readSpareMap
      let s4 := if f.namedPllLocks then s3 else { s3 with mgt := { s3.mgt with pllB := s2.mgt.pllB } }.useSpare 7 (bit01 s2.mgt.pllB) 1
      let s5 := (s4.setFld timeStatus 2 1 (bit01 f.lockOnB)).monitorsStart
      let (s6, ok) := s5.selfTest f.failed
      (if f.fusesOk = false then (s6.postEvent 4 0 (postDetail 1 0 0 1)).enterBivouac
        else if ok then s6.bootSource else s6.enterBivouac).tamperPost

/-! ## The intake of bundles (R424, R425) -/

/-- Is the intake open? -/
def State.intakeOpen (s : State) : Bool := s.mgt.phase == .waitHost

/-- The first failed check of a delivered bundle; 0 for none. A length or a place that is refused has no check of its own: its number is
free. -/
def State.intakeCheck (s : State) (b : BundleFacts) : Nat :=
  let a := s.fld (mgtReg 0x18) 0 23
  let n := s.fld (mgtReg 0x20) 0 23
  if n = 0 ∨ 0x600000 < n ∨ 0x800000 < a + n then freeBetween 1 0xFFFFFFFF s.freeCtr else s.bundleCheck b

/-- LOAD (R424): a bundle that passes continues start-up; another is rejected and the intake stays open. An MCP that has halted verifies none. -/
def State.loadBundle (s : State) (b : BundleFacts) : State :=
  let c := s.intakeCheck b
  if s.mcpRuns = false then s
  else if c = 0 then (s.free).service b none
  else (s.free.setBit bootStat 7 true).postEvent 0 0 (postDetail 3 0 0 c)

/-- A write of HOST_BUNDLE: the address, which is also the append point. -/
def State.bundleAt (s : State) (d : Word) : State :=
  let s1 := s.setReg (mgtReg 0x18) (word (fieldOf d 0 23))
  { s1 with mgt := { s1.mgt with append := fieldOf d 0 23 } }

/-- A write of BUNDLE_DATA: a word at the append point. -/
def State.bundleWord (s : State) (master : Nat) (d : Word) : WRes :=
  let (s1, ok) := s.spBurst master 8 s.mgt.append (leBytes 4 d.toNat)
  if ok then .done { s1 with mgt := { s1.mgt with append := s1.mgt.append + 4 } } else .err s

/-- UART_BUNDLE_FRAME (R425): a frame taken in with a matching CRC acts as a LOAD; any other is answered with 0x01. -/
def State.uartBundle (s : State) (n : Nat) (bytes : List Byte) (crc : Word) (gap : Bool) (b : BundleFacts) : State :=
  if s.intakeOpen && s.fld bootStat 0 3 == 3 && s.mcpRuns then
    if 1 ≤ n ∧ n ≤ 0x600000 ∧ gap = false ∧ bytes.length = n ∧ crc.toNat = crc32 bytes then
      let s1 := (s.store 0 bytes).bundleAt 0
      let s2 := { s1.setReg (mgtReg 0x20) (word n) with line := [0x5A, 0x00] }
      s2.loadBundle b
    else { s with line := [0x5A, 0x01] }
  else s

/-! ## The registers of SYS and MGT -/

/-- A write of SYS.RESTART (R429): refused while frames are open; its effect is that of R265 and nothing else. -/
def State.restartWrite (s : State) (d : Word) : WRes :=
  if bitOf d 0 then (if s.openFrames = 0 then .done s.restartSwitch else .err s) else .done s

/-- A write at offset `o` of SYS (R14, R429). -/
def sysWrite (s : State) (w : Who) (o : Nat) (d : Word) : WRes :=
  if o = 0x10 then .done (s.snapRequest d)
  else if !isMcp w then .err s
  else if o = 0x20 then s.restartWrite d
  else if o = 0x34 then s.softReset d
  else .plain

/-- What a write of CMD, LC_CMD or the like brings from outside: the bundle's checks, the slot and signer of a REVOKE, and whether
a signature is good. -/
structure Signed where
  bundle : BundleFacts
  slot : Nat
  signer : Nat
  good : Bool

/-- The outside part of a plain register write is free: of a bundle, one item and what the manifest names, with nothing to be put in place (log entry 6). -/
def State.signedFree (s : State) : Signed :=
  ⟨⟨[⟨(freeValue 2 s.freeCtr).toNat, freeValue 384 s.freeCtr, freeBool s.freeCtr, (freeValue 32 s.freeCtr).toNat, freeBool (s.freeCtr + 1)⟩],
    (freeValue 8 s.freeCtr).toNat, (freeValue 16 s.freeCtr).toNat, [], [], [], []⟩,
    (freeValue 2 s.freeCtr).toNat, (freeValue 2 (s.freeCtr + 1)).toNat, freeBool s.freeCtr⟩

/-- A write of MGT.CMD (R424, R432, R435). -/
def State.cmdWrite (s : State) (w : Who) (d : Word) (x : Signed) : WRes :=
  let op := fieldOf d 0 4
  if op = 1 then .done s.confirm
  else if op = 2 then (if isMcp w then .done (s.revokeKey x.slot x.signer x.good) else .err s)
  else if op = 3 then (if s.intakeOpen then .done (s.loadBundle x.bundle) else .err s)
  else .err s

/-- A write of a register of the bundle intake (R424). -/
def State.intakeWrite (s : State) (w : Who) (o : Nat) (d : Word) : WRes :=
  if !s.intakeOpen then .err s
  else if o = 0x18 then .done (s.bundleAt d)
  else if o = 0x20 then .done (s.setReg (mgtReg 0x20) (word (fieldOf d 0 23)))
  else s.bundleWord w.master d

/-- A write at offset `o` of MGT. -/
def mgtWrite (s : State) (w : Who) (o : Nat) (d : Word) (x : Signed) : WRes :=
  if o = 0x10 then (if hostOrMcp w then s.cmdWrite w d x else .err s)
  else if o = 0x18 ∨ o = 0x20 ∨ o = 0x24 then (if hostOrMcp w then s.intakeWrite w o d else .err s)
  else if !isMcp w then .err s
  else if o = 0x1C then .done (if bitOf d 0 then s.enterBivouac else s)
  else if o = 0x204 then s.lcWrite d x.good
  else if o = 0x220 then .done (s.tamperCfg d)
  else if o = 0x488 then (if signed (fieldOf d 0 16) 16 ≤ 1240 then .plain else .err s)
  else if o = 0x800 then (if fieldOf d 8 8 = 0 then .err s else .plain)
  else if o = 0x804 then s.twbWrite d
  else if o = 0x810 ∨ o = 0x814 then (if s.bit (mgtReg 0x804) 31 then .err s else .plain)
  else .plain

/-! ## The console (R462) and START_MS (R421) -/

/-- A byte outside a read-service request goes to the MCP console where the life-cycle state permits it and the MCP runs (R427). -/
def State.consoleByte (s : State) (b : Byte) : State :=
  if lcConsole s.mgt.fuses.lcState && s.mcpRuns then { s with mgt := { s.mgt with console := s.mgt.console ++ [b] } } else s

/-- START_MS is set at the first tick after power-good. -/
def State.startMs (s : State) : State :=
  if s.fld bootStat 16 16 = 0 ∧ s.count (tickReg 0x30) = 1 then
    s.setFld bootStat 16 16 ((s.cyc - s.mgt.powerAt) / cycMs)
  else s

end Sys2Proof.Machine
end

