-- ==== Sys2Proof/Machine/Dma.lean ====
section
/-!
DEFINITION. Host DMA, its rings, interrupt moderation and the registers of HOST (chapter 17, R452 to R459).
-/
namespace Sys2Proof.Machine

/-- A register of HOST by its offset; of transmit ring r. -/
def hostReg (o : Nat) : Nat := hostBase + o
def txRing (r o : Nat) : Nat := hostBase + 0x1000 + 0x40 * r + o

/-- Host DMA runs: DMA_EN is 1 and Bus Master Enable is set (R448, R452; log entry 41). -/
def State.dmaRuns (s : State) : Bool := s.bit (hostReg 0) 0 && s.bit (hostReg 4) 8

/-! ## Interrupt moderation (R459) -/

/-- Raise moderated vector v, 0 to 15: at once, or at the end of its holdoff. -/
def State.moderated (s : State) (v : Nat) : State :=
  if s.cyc < Tab.get (fun _ => 0) s.host.holdUntil v ∧ s.fld (hostReg (0x3000 + 4 * v)) 0 16 ≠ 0 then
    { s with host := { s.host with holdWaits := Tab.set (fun _ => false) s.host.holdWaits v true } }
  else
    let us := s.fld (hostReg (0x3000 + 4 * v)) 0 16
    let s1 := s.raiseVector v
    { s1 with host := { s1.host with holdUntil := Tab.set (fun _ => 0) s1.host.holdUntil v (if us = 0 then 0 else s1.cyc + us * cycUs) } }

/-- IMOD_HOLDOFF_END: a completion during the holdoff is signalled. -/
def State.imodEnd (s : State) (v : Nat) : State :=
  if Tab.get (fun _ => 0) s.host.holdUntil v ≤ s.cyc ∧ Tab.get (fun _ => false) s.host.holdWaits v = true then
    ({ s with host := { s.host with holdWaits := Tab.set (fun _ => false) s.host.holdWaits v false } }).moderated v
  else s

/-! ## Rings (R453, R454) -/

/-- Index `i` of ring register base `b` (its offset 0) advanced by one. -/
def State.ringNext (s : State) (b : Nat) : Nat := (s.fld (b + 0x0C) 0 12 + 1) % max 1 (s.fld (b + 8) 0 13)

/-- The base register of the ring that doorbell bit `i` announces: transmit rings 0 to 7, receive rings 8 to 15. -/
def ringAddr (i : Nat) : Nat := if i < 8 then txRing i 0 else rxRing (i - 8) 0

/-- The TAIL up to which ring `i` is processed. -/
def State.ringTaken (s : State) (i : Nat) : Nat := Tab.get (fun _ => 0) s.host.taken i

/-- Set it. -/
def State.setTaken (s : State) (i t : Nat) : State := { s with host := { s.host with taken := Tab.set (fun _ => 0) s.host.taken i t } }

/-- DMA_DOORBELL_TAKE (R360, R454): a pending unmasked bit is cleared, and only then TAIL is read. -/
def State.doorbellTake (s : State) (i : Nat) : State :=
  if s.dmaRuns && bitOf (s.doorbells 2) i && decide (i < 16) then
    (s.setBit (dbPend 2) i false).setTaken i (s.fld (ringAddr i + 0x10) 0 12)
  else s

/-- HEAD of the ring at register base `b` moves past a descriptor: to the next, or to TAIL on a ring that is stopped (R453). -/
def State.ringPassed (s : State) (b : Nat) : State :=
  s.setReg (b + 0x0C) (word (if s.bit (b + 0x14) 0 then s.ringNext b else s.fld (b + 0x10) 0 12))

/-- Has transmit ring r a descriptor to be taken? -/
def State.txWork (s : State) (r : Nat) : Bool :=
  s.bit (txRing r 0x14) 0 && s.fld (txRing r 0x0C) 0 12 != s.ringTaken r

/-- Is the descriptor of ring r the next (R455): the one in progress, or that of the ring in turn? -/
def State.txTurn (s : State) (r : Nat) : Bool :=
  match s.host.txOpen with
  | some (k, _) => k == r
  | none =>
  match findFrom (fun i => s.txWork ((s.host.lastTx + i) % 8)) 8 1 with
  | some i => (s.host.lastTx + i) % 8 == r
  | none => false

/-! ## Receive descriptors (R456, R457) -/

/-- The traffic-class queue that the transmission in progress on port 40 came from: its frame's class. -/
def State.rxInProgress (s : State) (r : Nat) : Option (Tx × Frame) :=
  match s.tx 40 with
  | some t =>
    match s.frame t.copy.frame with
    | some x => if x.tc = r then some (t, x) else none
    | none => none
  | none => none

/-- The bytes of a completed receive descriptor from offset 8 on (R456). -/
def rxWords (x : Frame) (n : Nat) : List Byte :=
  leBytes 4 (n % 2 ^ 14 + x.ingress * 2 ^ 14 + x.tc * 2 ^ 20 + 2 ^ 31) ++ leBytes 4 (nsOf x.stamp) ++ leBytes 8 (secOf x.stamp)

/-- The bytes that host DMA writes for a copy: those of its frame, without the padding of a MAC (R204, R456). -/
def hostBytes (t : Tx) (x : Frame) : List Byte := applyEdits (t.copy.base x.bytes) t.edits

/-- RX_DESCRIPTOR_COMPLETE: the frame is written into the buffer at `addr`, the descriptor completed, HEAD advanced and the vector
raised. A frame that has ended bad fails instead. -/
def State.rxComplete (s : State) (r addr : Nat) : State :=
  match s.rxInProgress r with
  | none => s
  | some (t, x) =>
    if x.bad then s.endStomped t.copy 16 0 []
    else if x.arriving then s
    else
      let bs := hostBytes t x
      let at' := s.reg64 (rxRing r 0) + 32 * s.fld (rxRing r 0x0C) 0 12
      let ws := rxWords x bs.length
      let s1 := { s with host := { s.host with hostWrites := [(addr, bs), (at' + 0x0C, ws.drop 4), (at' + 8, ws.take 4)] } }
      let s2 := s1.endGood t.copy bs.length []
      ((s2.ringPassed (rxRing r 0)).bump (hostReg 0x118)).moderated (8 + r)

/-! ## Stopping (R452, R453) -/

/-- Is a descriptor of ring `i` in progress? -/
def State.ringBusy (s : State) (i : Nat) : Bool :=
  if i < 8 then (match s.host.txOpen with | some (k, _) => k == i | none => false) else (s.rxInProgress (i - 8)).isSome

/-- A write of a ring's CTL: EN = 0 stops it after the descriptor in progress and sets HEAD := TAIL. -/
def State.ringCtl (s : State) (i : Nat) (d : Word) : State :=
  let b := ringAddr i
  let s1 := s.setReg (b + 0x14) (d &&& 1)
  if bitOf d 0 then s1
  else if s.ringBusy i then s1.setTaken i (s.fld (b + 0x10) 0 12)
  else (s1.setReg (b + 0x0C) (word (s.fld (b + 0x10) 0 12))).setTaken i (s.fld (b + 0x10) 0 12)

/-- The frame of a transmit descriptor whose bytes are not all read ends bad under CODE_ERR (R452, R455). -/
def State.txAborted (s : State) : State :=
  match s.host.txOpen with
  | some (_, some f) => (({ s with host := { s.host with txOpen := none } }).endsBad f 1).release f
  | some (_, none) => { s with host := { s.host with txOpen := none } }
  | none => s

/-- Host DMA stops: a frame being read from the host ends bad, and one being written to it is abandoned under EGRESS_ABORT. -/
def State.dmaStop (s : State) : State :=
  let s1 := s.txAborted
  match s1.tx 40 with
  | some t => (s1.txDone 40).copyFails t.copy 14
  | none => s1

/-- BUS_MASTER_DISABLE. -/
def State.bmeClear (s : State) : State := (s.setBit (hostReg 4) 8 false).dmaStop

/-- FUNCTION_LEVEL_RESET: host DMA stops, and every HOST register takes its reset value, the function's MSI-X table with them (log entry 198); FLR_SEEN records
it. -/
def State.flr (s : State) : State :=
  let s1 := s.dmaStop
  let out := fun (a : Nat) => !(decide (hostBase ≤ a) && decide (a < hostBase + 0x100000))
  let s2 := { s1 with
    regs := s1.regs.filter (fun c => out c.1), cnts := s1.cnts.filter (fun c => out c.1), snaps := s1.snaps.filter (fun c => out c.1),
    host := { s1.host with holdUntil := [], holdWaits := [], taken := [], lastTx := 7, msix := [], msixPend := 0 } }
  s2.setBit (hostReg 4) 9 true

/-! ## The register window -/

/-- Is n a power of two from 16 to 4,096? -/
def ringSizeOk (n : Nat) : Bool := (List.range' 4 9).any (fun i => n == 2 ^ i)

/-- A write to ring i at offset r of its group. -/
def State.ringWrite (s : State) (i r : Nat) (d : Word) : WRes :=
  let b := ringAddr i
  if r = 0 ∨ r = 4 then (if s.bit (b + 0x14) 0 then .err s else .plain)
  else if r = 8 then (if s.bit (b + 0x14) 0 || !ringSizeOk (fieldOf d 0 13) then .err s else .plain)
  else if r = 0x10 then (if s.fld (b + 8) 0 13 ≤ fieldOf d 0 12 then .err s else .plain)
  else if r = 0x14 then .done (s.ringCtl i d)
  else if r = 0x18 ∧ 8 ≤ i then
    let n := fieldOf d 0 14
    if 64 ≤ n ∧ n ≤ 9216 ∧ n % 64 = 0 then .plain else .err s
  else .plain

/-- A write at offset `o` of HOST. -/
def hostWrite (s : State) (w : Who) (o : Nat) (d : Word) : WRes :=
  if !hostOrMcp w then .err s
  else if o = 0 then
    .done (let s1 := s.setReg (hostReg 0) (d &&& 1)
           if bitOf d 0 then s1.setBit (hostReg 4) 8 true else s1)
  else if 0x1000 ≤ o ∧ o < 0x1200 then s.ringWrite ((o - 0x1000) / 0x40) (o % 0x40) d
  else if 0x2000 ≤ o ∧ o < 0x2200 then s.ringWrite (8 + (o - 0x2000) / 0x40) (o % 0x40) d
  else .plain

/-! ## Host access errors (R451) -/

/-- The PATH code of ERR_INFO. -/
def pathCode : Path → Nat
  | .pcie => 1
  | .pciePair => 1
  | .pcieOdd => 1
  | .bar4 => 1
  | .hsl => 2
  | .uart => 3
  | .internal => 0

/-- A host access at device address `a` answered with a bus error is recorded, counted and signalled. -/
def State.hostError (s : State) (w : Who) (a : Nat) (write : Bool) : State :=
  if isHost w then
    let s1 := if s.bit (hostReg 0x18) 31 then s
      else (s.setReg64 (hostReg 0x10) (a % 2 ^ 40)).setReg (hostReg 0x18) (word (pathCode w.path + bit01 write * 4 + 2 ^ 31))
    (s1.bump (hostReg 0x100)).raiseVector 19
  else s

end Sys2Proof.Machine
end

