-- ==== Sys2Proof/Machine/Cores.lean ====
section
/-!
DEFINITION. What happens to a Pydin core and to the logical engine it serves outside its bundles: sticky flags and traps (R101, R414),
the halt of an engine and its F2 (R117, R126, R368), missed commits and the outcome of a takeover (R48, R124), image and memory faults
(R52, R374), the binding of a spare (R120 to R122) and the commit (R39 to R43, R116).
-/
namespace Sys2Proof.Machine

/-! ## The cores -/

/-- A core. -/
def State.core (s : State) (n : Nat) : Core := Tab.get (fun _ => Core.reset) s.cores n
/-- Set a core. -/
def State.setCore (s : State) (n : Nat) (c : Core) : State := { s with cores := Tab.set (fun _ => Core.reset) s.cores n c }
/-- Change a core. -/
def State.onCore (s : State) (n : Nat) (f : Core → Core) : State := s.setCore n (f (s.core n))

/-- Is core n the MCP? -/
def isMcpCore (n : Nat) : Bool := n == mcpCore

/-- The logical engine whose frame slots a core uses; the MCP's are numbered 32 (R102). -/
def State.coreFrames (s : State) (n : Nat) : Option Nat := if n = mcpCore then some 32 else s.logicalOf n

/-- The sticky flags of a core, and with them TRAP_EN at +4 and TRAP_CAUSE at +8 (R101, R414). -/
def coreSticky (n : Nat) : Nat := if n = mcpCore then mgtReg 0x100 else peGroup n + 0x60

/-- Does core n run in GUARDED mode (R64, R102)? -/
def State.guarded (s : State) (n : Nat) : Bool := n == mcpCore || s.bit (peGroup n) 0

/-! ## Sticky flags and traps (R101, R414) -/

/-- A sticky event: the flag, and the slot and bundle it is charged to. -/
structure FlagEv where
  flag : Nat
  slot : Nat
  bundle : Nat
  deriving DecidableEq, Repr

/-- Record a trap in TRAP_CAUSE unless one is recorded already. -/
def State.trapCause (s : State) (n : Nat) (e : FlagEv) : State :=
  if s.bit (coreSticky n + 8) 31 then s
  else
    s.setReg (coreSticky n + 8) (word (e.flag + e.slot * 2 ^ 4 + bit01 (n != mcpCore && s.peState n == 5) * 2 ^ 6 + e.bundle * 2 ^ 8 +
      2 ^ 31))

/-- The events of a bundle set their flags; the first of them whose trap is enabled is recorded and answered. -/
def State.noteFlags (s : State) (n : Nat) (es : List FlagEv) : State × Option FlagEv :=
  let s1 := es.foldl (fun st e => st.setBit (coreSticky n) e.flag true) s
  match es.find? (fun e => s.bit (coreSticky n + 4) e.flag) with
  | some e => (s1.trapCause n e, some e)
  | none => (s1, none)

/-! ## The halt of an engine (R117, R126, R368) -/

/-- A slot of a frame unit becomes free; the frame it held is released (R92, R238). -/
def State.emptySlot (s : State) (l i : Nat) : State :=
  let x := s.slot l i
  let s1 := (s.setSlot l i Slot.empty).setWaiting l ((s.waitingOf l).filter (fun j => j != i))
  match x.rx with
  | some f => s1.release f
  | none => s1

/-- A bus error answered to an operation of core n counts and sets BUS_ERR (R84). -/
def State.coreBusError (s : State) (n : Nat) : State := if n = mcpCore then s else s.bump (peGroup n + 0x70)

/-- What a bus error leaves of an operation: its state, and BUS_ERR without a trap where it was refused. -/
def State.landed (n : Nat) (r : State × Bool) : State :=
  if r.2 then (r.1.coreBusError n).setBit (coreSticky n) flagBusErr true else r.1

/-- An issued operation of the ATM or MBX unit of core n takes effect, unless it has completed (R91). -/
def State.landOp (s : State) (n : Nat) (op : FarOp) : State :=
  match s.atomicPosted n op, s.atomicDone n op with
  | some r, _ => State.landed n r
  | none, some v => if op.vals.isSome then s else State.landed n (v.s, v.err)
  | none, none => s

/-- What core n has issued to its ATM and MBX units takes effect although the core halts: R91 does not stage it, and in a bundle that traps or
whose commit fails the other moves take effect (R98, R101). -/
def State.landIssued (s : State) (n : Nat) : State :=
  ((s.core n).posted ++ (s.core n).far).foldl (fun (st : State) op => st.landOp n op) s

/-- The core of engine n stops; what it staged and its other operations in flight are gone, and transmit slots that it allocated in the tick
return to the free set (R92; log entry 45). -/
def State.stopCore (s : State) (n : Nat) : State :=
  let s0 := s.landIssued n
  let s1 := match s0.logicalOf n with
    | some l => (s0.core n).allocs.foldl (fun (st : State) i => st.emptySlot l i) s0
    | none => s0
  s1.setCore n Core.reset

/-- Engine n enters HALTED with a CAUSE (0: none of its own, 16: a broken or tested line, for which PE_STATE.CAUSE has no code): its locks and its reservation are gone, it serves
nothing and re-executes nothing (R47). -/
def State.haltEngine (s : State) (n cause : Nat) : State :=
  let s1 := (((s.forgetPreloads n).stopCore n).setPeState n 6).setBit (peGroup n + 0x4C) 1 false
  let s2 := ((s1.setServes n none).lockReclaim (0x10 + n)).setReservation (0x10 + n) none
  if cause = 0 then s2
  else
    let s3 := ((s2.setFld (peStateAddr n) 16 4 (cause % 16)).setBit (peStateAddr n) 20 false).bump (peGroup n + 0x80)
    { s3 with mgt := { s3.mgt with
      engineF2 := Tab.set (fun _ => []) s3.mgt.engineF2 n (s3.powerOnHours :: Tab.get (fun _ => []) s3.mgt.engineF2 n) } }

/-- PE_STATE.CAUSE. -/
def State.peCause (s : State) (n : Nat) : Nat := s.fld (peStateAddr n) 16 4

/-- PHYS of L. -/
def State.phys (s : State) (l : Nat) : Nat := s.fld (bindAddr l + 4) 8 6

/-! ## Takeovers and missed commits (R48, R49, R124, R126) -/

/-- The takeover of L in progress. -/
def State.takeover (s : State) (l : Nat) : Option Takeover := Tab.get (fun _ => none) s.pec.takeovers l
/-- Set it. -/
def State.setTakeover (s : State) (l : Nat) (t : Option Takeover) : State :=
  { s with pec := { s.pec with takeovers := Tab.set (fun _ => none) s.pec.takeovers l t } }

/-- What is kept of L in the present tick. -/
def State.missedIn (s : State) (l : Nat) : Bool := Tab.get (fun _ => false) s.pec.missed l
def State.committedIn (s : State) (l : Nat) : Bool := Tab.get (fun _ => false) s.pec.committed l
def State.barredIn (s : State) (l : Nat) : Bool := Tab.get (fun _ => false) s.pec.barred l
def State.standingOf (s : State) (l : Nat) : Bool := Tab.get (fun _ => false) s.pec.standing l
def State.setMissedIn (s : State) (l : Nat) (b : Bool) : State :=
  { s with pec := { s.pec with missed := Tab.set (fun _ => false) s.pec.missed l b } }
def State.setCommittedIn (s : State) (l : Nat) (b : Bool) : State :=
  { s with pec := { s.pec with committed := Tab.set (fun _ => false) s.pec.committed l b } }
def State.setBarredIn (s : State) (l : Nat) (b : Bool) : State :=
  { s with pec := { s.pec with barred := Tab.set (fun _ => false) s.pec.barred l b } }
def State.setStanding (s : State) (l : Nat) (b : Bool) : State :=
  { s with pec := { s.pec with standing := Tab.set (fun _ => false) s.pec.standing l b } }

/-- DETAIL of the events of a takeover (R406): L, the failed and the chosen engine (0xFF: none), CAUSE and the outcome. -/
def takeoverDetail (l failed chosen cause outcome : Nat) : List Byte :=
  [l, failed, chosen, cause, outcome].map (BitVec.ofNat 8)

/-- Source 0x24 + L raises its F2 with a CAUSE. -/
def State.raiseLogical (s : State) (l cause : Nat) (detail : List Byte) : State := s.raise (0x24 + l) 2 cause 0 detail

/-- L misses its commit of the tick, once in a tick: MISSED_COMMIT, MISSED_CNT, the F2 of its source, and the PEC vector (R48, R126,
R458). -/
def State.missedCommit (s : State) (l cause : Nat) (detail : List Byte) : State :=
  if s.missedIn l then s
  else
    ((((s.setMissedIn l true).setBit tickStatus 5 true).bump (bindAddr l + 0x80)).raiseLogical l cause detail).raiseVector 17

/-- The F2 of an engine whose takeover's outcome is known passes to the event queue with its DETAIL (R126, R399). -/
def State.passHeld (s : State) (failed : Nat) (detail : List Byte) : State :=
  let mine := fun (e : Event) => e.src == failed && e.waits
  let done := fun (e : Event) => if mine e then { e with detail := detail, waits := false } else e
  { s with flt := { s.flt with
    detected := s.flt.detected.map done, bus := s.flt.bus ++ (s.flt.held.filter mine).map done,
    held := s.flt.held.filter (fun e => !mine e) } }

/-- The outcome of L's takeover is known: 0 committed, 1 missed, 2 image fault. A missed commit raises the F2 of L; a commit only the PEC
vector. -/
def State.conclude (s : State) (l outcome : Nat) : State :=
  match s.takeover l with
  | none => s
  | some t =>
    let d := takeoverDetail l t.failed t.chosen t.cause outcome
    let s1 := s.passHeld t.failed d
    if outcome = 0 then s1.raiseVector 17 else s1.missedCommit l t.cause d

/-- The budget state that a spare takes from the logical engine (R47, R120). -/
def State.giveBudget (s : State) (l n : Nat) : State :=
  (s.setReg (peGroup n + 0x40) (word (s.effBudget l s.tickIndex))).setFld (peGroup n + 0x4C) 0 2 0

/-- Spare n is bound to L, reset and given L's mode and traps, and its load waits at the loader (R111, R120 to R122). -/
def State.bindEngine (s : State) (l n : Nat) (takeover : Bool) : State :=
  let as := s.imageAddrs l
  let s1 := (((s.dropPreloads l n).setCore n Core.reset).setReservation (0x10 + n) none).setPeState n 3
  let s2 := (s1.setServes n (some l)).setFld (bindAddr l + 4) 8 6 n
  let s3 := (s2.setReg (peGroup n) (word (s2.imgMode (as.headD 0)))).setReg (peGroup n + 0x64)
    (word (as.foldl (fun m a => m ||| s2.imgTrapEn a) 0))
  let s4 := s3.giveBudget l n
  { s4 with pec := { s4.pec with
    loads := s4.pec.loads ++ [⟨n, l, takeover⟩], loaded := Tab.set (fun _ => false) s4.pec.loaded n false } }

/-- A spare takes over L (R120): the contents of the failed engine's endpoint move to the spare's, and the failed engine is redirected until the
MCP moves it out of HALTED (R364). An engine that has left HALTED meanwhile, and serves no one, still holds L's words; one that a GO has bound
anew was cleared, and a spare that is the failed engine itself keeps its own (log entry 184). -/
def State.bindSpare (s : State) (l n failed cause : Nat) (reexec : Bool) : State :=
  let s1 := s.bindEngine l n true
  let s2 := if failed = n ∨ (s1.logicalOf failed).isSome then s1
    else if s1.peState failed = 6 then s1.epMove (0x10 + failed) (0x10 + n)
    else (s1.epMove (0x10 + failed) (0x10 + n)).setReg (epRedir (0x10 + failed)) 0
  (s2.setBindState l 3).setTakeover l (some ⟨failed, cause, n, reexec⟩)

/-- A load of engine n is no longer wanted. -/
def State.dropLoads (s : State) (n : Nat) : State :=
  { s with pec := { s.pec with
    loads := s.pec.loads.filter (fun x => x.engine != n), loaded := Tab.set (fun _ => false) s.pec.loaded n false } }

/-- No spare is free for L: it waits for one (R49, R124). Where its tick stands, the miss falls at the next boundary. -/
def State.waitForSpare (s : State) (l failed cause : Nat) (stands : Bool) : State :=
  ((s.setBindState l 4).setStanding l stands).setTakeover l (some ⟨failed, cause, 0xFF, false⟩)

/-- The takeover of L cannot commit the tick; a spare that is free runs from the next one (R124). -/
def State.retake (s : State) (l failed cause : Nat) : State :=
  match s.chooseSpare l with
  | some m => s.bindSpare l m failed cause false
  | none => s.waitForSpare l failed cause false

/-- How the event of an engine's F2 reaches the collector: over the line as a fault that its checkers have found, or not at all, where the collector
has raised it itself (a broken line, an injection; R385, R397). -/
def State.reportF2 (s : State) (own : Bool) (e : Event) : State := if own then s.detect e else s

/-- The spare n of L's takeover faults itself (R48): an uncommitted re-execution ends as a missed commit, and the next spare is chosen. Its own
event names that spare; it waits for the next outcome only where the tick is not missed (R126; log entry 130). -/
def State.spareFails (s : State) (l n cause : Nat) (t : Takeover) (own : Bool) : State :=
  let s1 := s.dropLoads n
  let next := s1.chooseSpare l
  let e := s1.newEvent n 2 cause 0 []
  let mine := { e with detail := takeoverDetail l n (next.getD 0xFF) cause 1 }
  if t.reexec then (((s1.reportF2 own mine).conclude l 1)).retake l n cause
  else
    let s2 := s1.passHeld t.failed (takeoverDetail l t.failed t.chosen t.cause 1)
    match next with
    | some m => (s2.reportF2 own (if s2.missedIn l then mine else { e with waits := true })).bindSpare l m n cause false
    | none => (s2.reportF2 own mine).waitForSpare l n cause (!s2.missedIn l && (s2.committedIn l || s2.barredIn l))

/-- An F2 of engine n, by its CAUSE or 16: it is halted and releases nothing. Its event waits for the outcome of the takeover that it starts. -/
def State.engineFails (s : State) (n cause : Nat) (own : Bool) : State :=
  let s1 := s.haltEngine n cause
  let e := s.newEvent n 2 (cause % 16) 0 []
  match s.logicalOf n with
  | none => s1.reportF2 own e
  | some l =>
    match s.takeover l with
    | some t => if t.chosen = n then s1.spareFails l n (cause % 16) t own else s1.reportF2 own e
    | none => (s1.dropLoads n).reportF2 own { e with waits := true }

/-- An F2 that the checkers of engine n find (R117). -/
def State.engineF2 (s : State) (n cause : Nat) : State := s.engineFails n cause true

/-! ## Faults of the image and of the memory (R52, R101, R374) -/

/-- A fault of the image in the re-execution of L by engine n (R52): both engines are marked, L halts, and the takeover ends so. -/
def State.imageFault (s : State) (l n cause : Nat) (t : Takeover) : State :=
  let s1 := s.haltEngine n cause
  let forget := fun (st : State) (e : Nat) => { st with mgt := { st.mgt with
    engineF2 := Tab.set (fun _ => []) st.mgt.engineF2 e ((Tab.get (fun _ => []) st.mgt.engineF2 e).drop 1) } }
  let s2 := forget (forget ((s1.setBit (peStateAddr n) 20 true).setBit (peStateAddr t.failed) 20 true) n) t.failed
  (((s2.detect (s.newEvent n 2 cause 0 (takeoverDetail l n 0xFF cause 2))).setBindState l 5).conclude l 2).setTakeover l none

/-! ## Traps and bus errors of a core (R84, R101, R414, R446) -/

/-- A trap of core n: an engine's is an F2, in a re-execution a fault of the image; the MCP's is an F3 of source 0x65. -/
def State.trapTaken (s : State) (n : Nat) (e : FlagEv) : State :=
  if n = mcpCore then ({ s with mgt := { s.mgt with mcpHalted := true } }).raise 0x65 3 e.flag
  else
    match s.logicalOf n with
    | some l =>
      match s.takeover l with
      | some t => if t.chosen = n ∧ s.peState n = 5 then s.imageFault l n 8 t else s.engineF2 n 8
      | none => s.engineF2 n 8
    | none => s.engineF2 n 8

/-- Sticky events of core n with the trap that they take. -/
def State.flagsWithTrap (s : State) (n : Nat) (es : List FlagEv) : State :=
  match s.noteFlags n es with
  | (s1, some e) => s1.trapTaken n e
  | (s1, none) => s1

/-- A bus error answered to an access of core n counts and sets BUS_ERR, charged to a slot of a bundle (R84). -/
def State.coreRefused (s : State) (n slot bundle : Nat) : State := (s.coreBusError n).flagsWithTrap n [⟨flagBusErr, slot, bundle⟩]

/-- What a bus error leaves with the master of a refused access (R446): the engine or the MCP its flag, the host its log. An access of an
engine that serves nothing takes no trap (log entry 46). -/
def State.masterError (s : State) (w : Who) (a : Nat) (write : Bool) : State :=
  match engineOf w.master with
  | some n =>
    if (s.logicalOf n).isSome then s.coreRefused n 0 (s.core n).pc
    else ((s.coreBusError n).noteFlags n [⟨flagBusErr, 0, (s.core n).pc⟩]).1
  | none => if isMcp w then s.coreRefused mcpCore 0 (s.core mcpCore).pc else s.hostError w a write

/-- L is halted by an uncorrectable error of its memory (R374): no spare is called; an uncommitted tick is missed. -/
def State.haltLogical (s : State) (l : Nat) : State :=
  let n := s.phys l
  let bound := s.logicalOf n == some l
  let d := takeoverDetail l n 0xFF (s.peCause n) 1
  let s1 := if bound then (s.haltEngine n 0).dropLoads n else s
  let s2 := match s1.takeover l with
    | some t => (s1.passHeld t.failed (takeoverDetail l t.failed t.chosen t.cause 1)).setTakeover l none
    | none => s1
  let s3 := if s2.committedIn l || s2.missedIn l || s2.bindState l == 1 then s2
    else (((s2.setMissedIn l true).setBit tickStatus 5 true).bump (bindAddr l + 0x80)).raiseVector 17
  (s3.setBindState l 5).raiseLogical l 0x10 d

/-- Does an uncorrectable error at scratchpad address `a` halt L: either copy of its tick-state area, or a copy of an image of its run list
(R374)? -/
def State.memoryVictim (s : State) (a l : Nat) : Bool :=
  s.bindState l != 0 &&
    ((decide (s.tsBase l ≤ a) && decide (a < s.tsBase l + 0x8000) && decide ((a - s.tsBase l) % 0x4000 < 64 * s.tsLines l)) ||
      (s.copiesAt a 1).any (fun i => (s.images l).contains i))

/-- A read by a master finds an uncorrectable error at address `a` (R374): it is captured and counted, and its class follows from its
place. Every logical engine that the place belongs to halts. -/
def State.memoryFault (s : State) (a master : Nat) : State :=
  let s1 := s.ueNoted a master
  if (arrayOf a).1 ≠ 1 then s1.ueRaise 3 a master
  else
    match (List.range 32).filter (fun l => s.memoryVictim a l && s.bindState l != 5) with
    | [] => s1.ueRaise 2 a master
    | ls => ls.foldl (fun (st : State) l => st.haltLogical l) s1

/-! ## The commit (R39 to R43, R116) -/

/-- Staged removals take effect (R39): captured FIFO entries, NEW bits, and received frames. -/
def State.removals (s : State) (l : Nat) (c : Core) : State :=
  let s1 := c.rxPops.foldl (fun (st : State) (p : Nat × Nat) => st.chanPops p.1 p.2) s
  let s2 := c.rxfPops.foldl (fun (st : State) (p : Nat × Nat) => st.canPops p.1 p.2) s1
  let s3 := c.newClrs.foldl (fun (st : State) (p : Nat × Word) => st.canNewClr p.1 p.2) s2
  c.frees.foldl (fun (st : State) i => st.emptySlot l i) s3

/-- What engine n staged is released; its transfer follows (R41, R42). -/
def State.releaseStaged (s : State) (l n : Nat) (xs : List Staged) : State :=
  { s with pec := { s.pec with
    released := Tab.set (fun _ => []) s.pec.released l (Tab.get (fun _ => []) s.pec.released l ++ xs),
    releasedBy := Tab.set (fun _ => (0, 0)) s.pec.releasedBy l (n, (s.count (tickReg 0x30)).toNat) } }

/-- USED takes the budget counter, and PEAK the highest USED (R46). -/
def State.noteUsed (s : State) (n : Nat) : State :=
  let u := word ((s.core n).cyc)
  let s1 := s.setReg (peGroup n + 0x44) u
  if (s1.reg (peGroup n + 0x48)).toNat < u.toNat then s1.setReg (peGroup n + 0x48) u else s1

/-- Does an injection in mode REAL drive a line now (R397)? -/
def State.injDrives (s : State) (src cls : Nat) : Bool :=
  match s.flt.injection with
  | some i => i.src == src && i.cls == cls && i.mode == 1 && i.seen
  | none => false

/-- A commit of L clears INIT and, once its source's line has returned to (0,1), ENGINE on L's units (R388). In Bivouac every unit keeps INIT
(R426). -/
def State.commitReasons (s : State) (l : Nat) : State :=
  let us := s.unitsOf l
  let s1 := if s.mgt.phase = .bivouac then s else s.clearReasons us 0
  if s1.lineBroken (0x24 + l) 2 || s1.injDrives (0x24 + l) 2 then s1 else (s1.setLive (0x24 + l) 2 false).clearReasons us 1

/-- L commits on engine n (R41): outputs are released, removals applied and tick-state made current in one cycle. A re-execution ends
its takeover (R120). -/
def State.commit (s : State) (l n : Nat) : State :=
  let c := s.core n
  let s1 := (s.noteUsed n).setBit (peGroup n + 0x4C) 0 true
  let s2 := (((s1.releaseStaged l n c.staged).removals l c).flipSelectors l).setCommittedIn l true
  let s3 := s2.commitReasons l |>.onCore n (fun c => { c with
    running := false, wait := none, staged := [], rxPops := [], rxfPops := [], newClrs := [], frees := [], allocs := [],
    rxPopped := 0 })
  match s.takeover l with
  | some _ =>
    ((((s3.conclude l 0).setTakeover l none).setBindState l 2).setPeState n 4).setBit (peGroup n + 0x4C) 1 false
  | none => s3

/-- Core n is at its tick start (R69): registers, sockets, LINK, SIG and the far return queue are clear, and it begins at a bundle. Its
local memory keeps its contents, and so do transactions on their way (log entry 45). -/
def State.startCore (s : State) (n pc : Nat) : State := (s.stopCore n).setCore n { Core.reset with running := true, pc := pc }

end Sys2Proof.Machine
end

