-- ==== Sys2Proof/Machine/Jobs.lean ====
section
/-!
DEFINITION. Work that a unit does from a descriptor in memory: the segmentation jobs of the ports (R212 to R216) and the transmit descriptors
of host DMA (R455, R457). Both read the scratchpad, and an uncorrectable word that they meet is a fault of the memory (R374).
-/
namespace Sys2Proof.Machine

/-- A read by a master ended at an uncorrectable word, or did not. -/
def State.readFault (s : State) (master : Nat) (bad : Option Nat) : State :=
  match bad with
  | some a => s.memoryFault a master
  | none => s

/-! ## Segmentation jobs (R213, R215, R216) -/

/-- Bytes that a job reads under its submitter's identity; none where the read fails. -/
def State.segRead (s : State) (master a n : Nat) : State × Option (List Byte) :=
  let (bs, ok, bad) := s.spLoad master (n + 1) a n
  (s.readFault master bad, if ok then some bs else none)

/-- The first job of port p is rejected: no segment is produced. -/
def State.segStartBad (s : State) (p : Nat) (j : SegJob) (js : List SegJob) : State :=
  (s.segReject p).setSegs p ({ j with started := true, result := 1 } :: js)

/-- The header and the payload of a job are read, each once. -/
def State.segSource (s : State) (master : Nat) (x : SegDesc) : State × Option (List Byte × List Byte) :=
  match s.segRead master x.hdrAddr x.hdrLen with
  | (s1, none) => (s1, none)
  | (s1, some hdr) =>
    match s1.segRead master x.payAddr x.payLen with
    | (s2, none) => (s2, none)
    | (s2, some pay) => (s2, some (hdr, pay))

/-- The segments of a send, in order (R214). -/
def SegDesc.segments (x : SegDesc) (hdr pay : List Byte) : List (List Byte) :=
  let n := (x.payLen + x.mss - 1) / x.mss
  (List.range n).map (fun i => segment x hdr pay i (n - 1))

/-- SEG_JOB_START: the descriptor is checked, header and payload are read, and the segments are produced and enqueued in order. -/
def State.segStart (s : State) (p : Nat) : State :=
  match s.segs p with
  | [] => s
  | j :: js =>
    if j.started then s
    else
      match s.segRead j.master j.addr 128 with
      | (s1, none) => s1.segStartBad p j js
      | (s1, some d) =>
        if !(segDesc d).ok then s1.segStartBad p j js
        else
          match s1.segSource j.master (segDesc d) with
          | (s2, none) => s2.segStartBad p j js
          | (s2, some (hdr, pay)) =>
            let bs := (segDesc d).segments hdr pay
            let (s3, e, r) := s2.segEnterAll p j bs
            (s3.bumpBy (portReg p 0x3018) bs.length).setSegs p
              ({ j with started := true, enqueued := e, refused := r, result := if r = 0 then 0 else 2 } :: js)

/-- The word of COMPLETION (R216). -/
def SegJob.completion (j : SegJob) : Nat := j.refused % 2048 + j.enqueued % 2048 * 2 ^ 16 + j.result * 2 ^ 28 + 2 ^ 31

/-- SEG_JOB_COMPLETE: a started job reports and leaves the queue. A descriptor inside a tick-state area is not written. -/
def State.segComplete (s : State) (p : Nat) : State :=
  match s.segs p with
  | [] => s
  | j :: js =>
    if !j.started then s
    else
      let (s1, tag) := (s.setSegs p js).segRead j.master (j.addr + 0x10) 4
      let s2 := if j.result = 1 then s1 else (s1.bump (portReg p 0x3010)).setReg (portReg p 0x3008) (word (leNat (tag.getD [])))
      if (s2.tsAreaOf j.addr).isSome || s2.tsUpper j.addr then s2
      else (s2.spStore j.master 5 (j.addr + 0x60) (leBytes 4 j.completion)).1

/-! ## Transmit descriptors (R455) -/

/-- What a descriptor's work leaves: the state, RESULT (none: a frame is still being read), and what was written into host memory. -/
structure DescOut where
  s : State
  result : Option Nat
  writes : List (Nat × List Byte)

/-- The frame that a descriptor of KIND 0 is bringing in, where it was accepted: that of the descriptor in progress, else a new one with its first byte. -/
def State.descEnter (s : State) (bs : List Byte) : State × Option Nat :=
  match s.host.txOpen with
  | some (_, f) => ({ s with host := { s.host with txOpen := none } }, f)
  | none => if bs.isEmpty || !s.accepts 40 then (s, none) else s.beginFrame 40 none s.time bs true

/-- KIND 0: a frame enters on port 40; one that is not read to its end ends bad under CODE_ERR. -/
def State.descFrame (s : State) (r len : Nat) (h : HostData) : DescOut :=
  if len < 14 ∨ 9212 < len then ⟨s, some 1, []⟩
  else
    let (s1, f) := s.descEnter (h.bytes.take len)
    let s2 := match f with
      | some f => s1.arrive f (h.bytes.take len)
      | none => s1
    if h.readError then
      ⟨match f with | some f => (s2.endsBad f 1).release f | none => s2, some 2, []⟩
    else if h.more then ⟨{ s2 with host := { s2.host with txOpen := some (r, f) } }, none, []⟩
    else ⟨match f with | some f => s1.entered f (bytesAt h.bytes 0 len) none | none => s1, some 0, []⟩

/-- KIND 1: a segmentation job, submitted as the host's direct write would be. -/
def State.descJob (s : State) (port queue sp : Nat) : DescOut :=
  if 40 ≤ port then ⟨s, some 1, []⟩
  else
    match s.segSubmit port 40 0x00 none none (word (sp / 64 * 64 + queue)) with
    | .done s1 => ⟨s1, some 0, []⟩
    | .err s1 => ⟨s1, some 4, []⟩
    | .plain => ⟨s, some 4, []⟩

/-- KIND 2: host memory into the scratchpad. -/
def State.descCopyIn (s : State) (len sp : Nat) (h : HostData) : DescOut :=
  if len < 1 ∨ 65536 < len then ⟨s, some 1, []⟩
  else
    let bs := if h.readError then h.bytes.take len else bytesAt h.bytes 0 len
    let (s1, _, ok) := s.spStore 0x02 (len + 1) sp bs
    ⟨s1, some (if !ok then 3 else if h.readError then 2 else 0), []⟩

/-- KIND 3: the scratchpad into host memory. -/
def State.descCopyOut (s : State) (addr len sp : Nat) : DescOut :=
  if len < 1 ∨ 65536 < len then ⟨s, some 1, []⟩
  else
    let (bs, ok, bad) := s.spLoad 0x02 (len + 1) sp len
    ⟨s.readFault 0x02 bad, some (if ok then 0 else 3), if bs.isEmpty then [] else [(addr, bs)]⟩

/-- The descriptor at HEAD of ring r is completed with RESULT `result` (R455, R457). -/
def State.descDone (s : State) (r result : Nat) (wC : Word) (writes : List (Nat × List Byte)) : State :=
  let at' := s.reg64 (txRing r 0) + 16 * s.fld (txRing r 0x0C) 0 12
  let done := (setBits wC 23 4 result).toNat ||| 2 ^ 31
  let s1 := { s with host := { s.host with lastTx := r, hostWrites := writes ++ [(at' + 0x0C, leBytes 4 done)] } }
  let s2 := (s1.ringPassed (txRing r 0)).bump (hostReg 0x110)
  let s3 := if result = 0 then s2 else (s2.bump (hostReg 0x108)).raiseVector 19
  if bitOf wC 30 then s3.moderated r else s3

/-- TX_DESCRIPTOR (R455): the descriptor at HEAD of ring r is processed, and completed once its work is done. -/
def State.txDescriptor (s : State) (r addr : Nat) (w8 wC : Word) (h : HostData) : State :=
  if s.dmaRuns && s.txTurn r then
    let kind := fieldOf w8 17 2
    let len := fieldOf w8 0 17
    let sp := fieldOf wC 0 23
    let o := if kind = 0 ∨ s.host.txOpen.isSome = true then s.descFrame r len h
      else if kind = 1 then s.descJob (fieldOf w8 22 6) (fieldOf w8 19 3) sp
      else if kind = 2 then s.descCopyIn len sp h
      else s.descCopyOut addr len sp
    match o.result with
    | some k => o.s.descDone r k wC o.writes
    | none => o.s
  else s

end Sys2Proof.Machine
end

