-- ==== Sys2Proof/Machine/Bus.lean ====
section
/-!
DEFINITION. Accesses by their device address (R6 to R10, R443 to R451): which block answers, what each master may reach, and the three
paths of the host. Far stores of engines to register blocks are staged (R23, R81, R488); what a transferred write does stands here too.
-/
namespace Sys2Proof.Machine

/-! ## The holding registers (R10) -/

/-- The holding register of a master's path. -/
def State.held (s : State) (w : Who) : Option (Nat × Word) := Tab.get (fun _ => none) s.hold (whoKey w)
/-- Set it. -/
def State.setHeld (s : State) (w : Who) (h : Option (Nat × Word)) : State :=
  { s with hold := Tab.set (fun _ => none) s.hold (whoKey w) h }

/-- What an access returns: the state after it, the word read, and whether it was a bus error (R446). -/
structure BusVal where
  s : State
  val : Word
  err : Bool
  deriving DecidableEq

/-- A bus error. -/
def busError (s : State) : BusVal := ⟨s, 0xFFFFFFFF, true⟩

/-- The high word of the register whose low word stands at `a`: latched by this master's read of that low word, else live (R10). -/
def State.highWord (s : State) (w : Who) (a live : Nat) : BusVal :=
  match s.held w with
  | some (b, h) => if b = a then ⟨s.setHeld w none, h, false⟩ else ⟨s, word (live / 2 ^ 32), false⟩
  | none => ⟨s, word (live / 2 ^ 32), false⟩

/-- A unit's answer to a read at address `a`, with R10 applied. -/
def State.finishRead (s : State) (w : Who) (a : Nat) : RRes → BusVal
  | .val s1 v => ⟨s1, v, false⟩
  | .err s1 => busError s1
  | .low s1 v => ⟨s1.setHeld w (some (a, word (v / 2 ^ 32))), word v, false⟩
  | .high s1 v => s1.highWord w (a - 4) v
  | .plain => ⟨s, 0, false⟩

/-! ## Paths of the host (R427, R443, R449, R462) -/

/-- The F4 state in which the MCP is halted, from the instant of a lockstep mismatch on (R415). -/
def State.f4Halted (s : State) : Bool := s.mgt.mcpHalted && (s.flt.f4 || !s.bit mcpStat 0)

/-- Are the host's paths reduced to those of Bivouac? -/
def State.hostClosed (s : State) : Bool := s.mgt.phase == .bivouac || s.mgt.phase == .waitHost || s.f4Halted

/-- The blocks that answer in Bivouac and on the UART read service. -/
def diagBlock : Block → Bool
  | .sys => true
  | .flt => true
  | .mgt => true
  | .cairn => true
  | _ => false

/-- Does the device answer an access of a master to a block (none: no block) on its path? No BAR maps the secure memory and the engine windows (R449), and BAR0
takes accesses of one DW, with reads of two DW to a 64-bit register apart (R450). -/
def State.pathOpen (s : State) (w : Who) (b : Option Block) (write : Bool) : Bool :=
  if !isHost w then true
  else if w.path = .uart then !write && (match b with | some x => diagBlock x | none => false)
  else if w.path = .pcieOdd ∨ w.path = .pciePair ∨ b = some .secure ∨ b = some .pe ∨ (w.path = .hsl ∧ b = some .scratchpad) then false
  else if s.hostClosed then
    match b with
    | some .scratchpad => w.path == .pcie && s.mgt.phase == .waitHost && s.fld bootStat 0 3 == 1 && !s.f4Halted
    | some x => diagBlock x && !(write && s.f4Halted)
    | none => false
  else true

/-! ## What an engine may reach (R21, R81, R488) -/

/-- May an engine that serves L access the register at offset `o` of a block, device address `a`? MBX only through its own units (R359). -/
def State.engineReaches (s : State) (l : Nat) (b : Block) (o a : Nat) : Bool :=
  match b with
  | .scratchpad => true
  | .secure => false
  | .pe => false
  | .mbx => false
  | .pch => s.ownsUnit l (o / 0x4000)
  | .can => s.ownsUnit l (256 + o / 0x8000)
  | .port =>
    if o < 0x280000 then
      if 0x3000 ≤ o % 0x10000 ∧ o % 0x10000 < 0x4000 then s.grantsPage l ((a - 0x10000000) / 0x1000) else s.ownsPort l (o / 0x10000)
    else s.grantsPage l ((a - 0x10000000) / 0x1000)
  | _ => s.grantsPage l ((a - 0x10000000) / 0x1000)

/-- May an access of a master reach a register block at all: the host and the MCP any, an engine what its binding grants, others none? -/
def State.mayReach (s : State) (w : Who) (b : Block) (o a : Nat) : Bool :=
  hostOrMcp w || (match s.logicalOfMaster w.master with
    | some l => s.engineReaches l b o a
    | none => false)

/-- Does a register grant of the engine cover an address of the register range at which no block stands (R8, R81)? -/
def State.emptyPage (s : State) (w : Who) (a : Nat) : Bool :=
  decide (0x10000000 ≤ a) && decide (a < 0x20000000) && (match s.logicalOfMaster w.master with
    | some l => s.grantsPage l ((a - 0x10000000) / 0x1000)
    | none => false)

/-! ## Reads -/

/-- RXD reads that an engine has made of channel n in the tick, and RXF_POP writes for controller k (R39, R154, R196). -/
def State.rxPopsOf (s : State) (w : Who) (n : Nat) : Nat :=
  match engineOf w.master with
  | some e => Tab.get (fun _ => 0) (s.core e).rxPops n
  | none => 0
def State.rxfPopsOf (s : State) (w : Who) (k : Nat) : Nat :=
  match engineOf w.master with
  | some e => Tab.get (fun _ => 0) (s.core e).rxfPops k
  | none => 0

/-- A read of RXD by the serving engine of a held channel stages a pop (R39). -/
def State.stagePop (s : State) (w : Who) (n o : Nat) : State :=
  match engineOf w.master with
  | some e =>
    if o = 0x1124 ∧ s.pchEngine w n = true then
      s.onCore e (fun c => { c with rxPops := Tab.set (fun _ => 0) c.rxPops n (Tab.get (fun _ => 0) c.rxPops n + 1) })
    else s
  | none => s

/-- A word of the scratchpad as a master reads it (R115, R374). -/
def State.spRead (s : State) (master a : Nat) : RRes :=
  match s.spReadAddr master a with
  | none => .err s
  | some b => if s.isBad b then .err (s.memoryFault b master) else .val s (s.loadWord b)

/-- A word of another memory: one that holds an uncorrectable error is answered as a bus error (R374). -/
def State.wordAt (s : State) (master a : Nat) : RRes := if s.isBad a then .err (s.memoryFault a master) else .val s (s.loadWord a)

/-- The secure memory (R375, R376, R380). -/
def State.secureRead (s : State) (w : Who) (a : Nat) : RRes :=
  if !isMcp w || s.marchHolds 0 then .err s else if s.wiping then .val s 0 else s.wordAt w.master a

/-- The window of an engine (R26, R103). -/
def State.peRead (s : State) (a : Nat) : RRes :=
  if 0x30000 ≤ (a - peBase) % 0x40000 ∨ s.peState ((a - peBase) / 0x40000) = 0 then .val s 0 else .val s (s.loadWord a)

/-- What a block answers to a read. -/
def State.blockRead (s : State) (w : Who) (b : Block) (o a : Nat) : RRes :=
  match b with
  | .scratchpad => s.spRead w.master a
  | .secure => s.secureRead w a
  | .pe => s.peRead a
  | .sys => sysRead s o
  | .tick => .plain
  | .flt => fltRead s o
  | .mgt => mgtRead s o
  | .time => timeRead s w o
  | .mbx => mbxRead s w o
  | .mem => memRead s o
  | .pec => pecRead s o
  | .pch => (s.stagePop w (o / 0x4000) (o % 0x4000)).pchRead w (o / 0x4000) (o % 0x4000) (s.rxPopsOf w (o / 0x4000))
  | .can => s.canRead w (o / 0x8000) (o % 0x8000) (s.rxfPopsOf w (o / 0x8000))
  | .port => portRead s o
  | .sw => swRead s o
  | .rope => if isSched a && s.marchHolds 2 then .err s else .plain
  | .trav => travRead s o
  | .host => .plain
  | .cairn => if hostOrMcp w then s.cairnWord a else .err s

/-- The read of an aligned word whose rights and path are settled. -/
def State.readWord (s : State) (w : Who) (a : Nat) : BusVal :=
  match blockOf a with
  | none => if hostOrMcp w || s.emptyPage w a then ⟨s, 0, false⟩ else busError s
  | some (b, o) =>
    if !s.mayReach w b o a then busError s
    else s.finishRead w a ((s.blockRead w b o a).orPlain s a)

/-- A read of BAR4 at offset `o` (R449): the MSI-X table, the pending-bit array, and zero elsewhere. -/
def State.bar4Read (s : State) (o : Nat) : Word :=
  if o < 0x200 then s.msixWord (o / 4) else if o = 0x1000 then word s.host.msixPend else 0

/-- A read of the word at a device address by a master (R6, R8). -/
def State.busRead (s : State) (w : Who) (a : Nat) : BusVal :=
  if isHost w && w.path == .bar4 then ⟨s, s.bar4Read a, false⟩
  else if a % 4 ≠ 0 ∨ s.pathOpen w ((blockOf a).map Prod.fst) false = false then busError s else s.readWord w a

/-- The read, and what its master sees of a bus error (R446). -/
def State.busLoad (s : State) (w : Who) (a : Nat) : BusVal :=
  let r := s.busRead w a
  if r.err then ⟨r.s.masterError w a false, r.val, true⟩ else r

/-- A read of two DW in BAR0 (R450): both words of a 64-bit register from the same instant; a bus error anywhere else. -/
def State.pairLoad (s : State) (w : Who) (a : Nat) : State :=
  let p : Who := ⟨w.master, .pcie⟩
  let lo := s.busRead p a
  let wide := match lo.s.held p with
    | some (b, _) => b == a
    | none => false
  if 0x10000000 ≤ a ∧ a < 0x20000000 ∧ a % 8 = 0 ∧ lo.err = false ∧ wide = true then
    let hi := lo.s.busRead p (a + 4)
    { hi.s with reply := [lo.val, hi.val], replyErr := false }
  else { s.masterError w a false with reply := [0xFFFFFFFF, 0xFFFFFFFF], replyErr := true }

/-! ## Writes -/

/-- Are tags written or required in some context (R380)? -/
def State.tagsOn (s : State) : Bool := (List.range 4).any (fun r => s.bit (ctxReg r 0) 6 || s.bit (ctxReg r 0) 7)

/-- A write of bytes to the secure memory (R374 to R376, R380). -/
def State.secureWrite (s : State) (w : Who) (a : Nat) (bs : List Byte) : WRes :=
  if !isMcp w || s.marchHolds 0 || s.wiping || s.narrowOnBad a bs.length then .err s else .done (s.storeEnding a bs)

/-- A write of bytes to the window of an engine (R26, R103). -/
def State.peWrite (s : State) (w : Who) (a : Nat) (bs : List Byte) : WRes :=
  let st := s.peState ((a - peBase) / 0x40000)
  if 0x30000 ≤ (a - peBase) % 0x40000 || !isMcp w || !(st == 1 || st == 2 || st == 6) || s.narrowOnBad a bs.length then .err s
  else .done (s.storeEnding a bs)

/-- What a block answers to a write by the host or the MCP; `x` is what a management command brings from outside. -/
def State.blockWrite (s : State) (w : Who) (b : Block) (o a : Nat) (d : Word) (x : Signed) : WRes :=
  match b with
  | .scratchpad =>
    match s.spBurst w.master 5 a (leBytes 4 d.toNat) with
    | (s1, true) => .done s1
    | (s1, false) => .err s1
  | .secure => s.secureWrite w a (leBytes 4 d.toNat)
  | .pe => s.peWrite w a (leBytes 4 d.toNat)
  | .sys => sysWrite s w o d
  | .tick => tickWrite s o d
  | .flt => if o = 0x6C then (if isMcp w then s.f3Clear d else .err s) else fltWrite s w o d
  | .mgt => mgtWrite s w o d x
  | .time => timeWrite s w none o d
  | .mbx => mbxWrite s w o d
  | .mem => memWrite s w o d ((List.range 4).any s.ctxOn) s.tagsOn
  | .pec => pecWrite s w o d
  | .pch => s.pchWrite w (o / 0x4000) (o % 0x4000) d
  | .can => s.canWrite w (o / 0x8000) (o % 0x8000) d
  | .port => portWrite s w none o d
  | .sw => swWrite s w o d
  | .rope => if isSched a && s.marchHolds 2 then .err s else ropeWrite s w none o d
  | .trav => travWrite s false o d
  | .host => hostWrite s w o d
  | .cairn => .err s

/-- The write of an aligned word whose path is settled. -/
def State.writeWord (s : State) (w : Who) (a : Nat) (d : Word) (x : Signed) : State × Bool :=
  match blockOf a with
  | none => (s, true)
  | some (b, o) => (((s.blockWrite w b o a d x).orPlain s a d).state s)

/-! ## Staged writes (R23, R81, R147, R488) -/

/-- A released register write of L, which engine n committed in the tick with TICK_CNT value `t`, takes effect (R42, R177, R287). Writes to
pin channels and to Traverse wait for the boundary (R147, R329). -/
def State.applyStaged (s : State) (l n t a : Nat) (d : Word) : State :=
  let w : Who := ⟨0x10 + n, .internal⟩
  match blockOf a with
  | none => s
  | some (b, o) =>
    match b with
    | .pch => { s with pec := { s.pec with atBoundary := s.pec.atBoundary ++ [(n, a, d)] } }
    | .trav => { s with pec := { s.pec with atBoundary := s.pec.atBoundary ++ [(n, a, d)] } }
    | .can => s.canStaged (o / 0x8000) (o % 0x8000) d
    | .port => ((portWrite s w (some (l, t)) o d).orPlain s a d).state s |>.1
    | .rope => ((ropeWrite s w (some l) o d).orPlain s a d).state s |>.1
    | .time => ((timeWrite s w (some l) o d).orPlain s a d).state s |>.1
    | .sys => s.snapRequest d
    | .sw => ((swStore s w o d).orPlain s a d).state s |>.1
    | .tick => ((tickWrite s o d).orPlain s a d).state s |>.1
    | .pec => ((pecWrite s w o d).orPlain s a d).state s |>.1
    | _ => s

/-- Is an OP of TAQ_HI reserved (R156)? -/
def taqReserved (d : Word) : Bool := decide (4 < fieldOf d 16 4)

/-- How many writes to an address an engine has staged in the tick. -/
def Core.stagedAt (c : Core) (a : Nat) : Nat :=
  (c.staged.filter (fun x => match x with | .write b _ => b == a | .send _ _ => false)).length

/-- Registers of SW that an engine may write with a grant: all but those that R220 and the queues' rule of chapter 10 keep to the host and the
MCP (CTL, PCFG, the command interface, PAIR, MIR, VLAN and the queues). -/
def engineSwReg (o : Nat) : Bool :=
  !(decide (o < 0x10) || (decide (0x1000 ≤ o) && decide (o < 0x1300)) || (decide (0x2000 ≤ o) && decide (o < 0x2100)) ||
    (decide (0x4000 ≤ o) && decide (o < 0x4400)) || (decide (0x5000 ≤ o) && decide (o < 0x5100)) ||
    (decide (0x300000 ≤ o) && decide (o < 0x308000)) || (decide (0x400000 ≤ o) && decide (o < 0x406000)))

/-- Does a register stand at device address `a`, offset `o` of its block: one of the tables, or a shadow of SW apart from them? -/
def registerHere (b : Block) (o a : Nat) : Bool :=
  (cellAt a).isSome || (b == .sw && ((decide (0x4400 ≤ o) && decide (o < 0x4600)) || (decide (0xE000 ≤ o) && decide (o < 0x11000)) ||
    (decide (0x5C0000 ≤ o) && decide (o < 0x5E0000))))

/-- Registers that an engine writes, its grants apart. -/
def State.engineWrites (s : State) (w : Who) (l : Nat) (b : Block) (o : Nat) (d : Word) (c : Core) (a : Nat) : Bool :=
  match b with
  | .sys => o == 0x10
  | .tick => true
  | .time => if isServoReg o then s.servoOwner w (some l) else o != 0x30
  | .mbx => false
  | .sw => engineSwReg o
  | .pec => !((decide (0x2000 ≤ o) && decide (o < 0x4000)) || (decide (0x6000 ≤ o) && decide (o < 0x7000)))
  | .pch =>
    let r := o % 0x4000
    if r = 0x112C then !taqReserved d && decide (c.stagedAt a < 16)
    else if r = 0x1120 then decide (c.stagedAt a < 16)
    else r != 0x1108
  | .can => !(decide (0x2000 ≤ o % 0x8000) && decide (o % 0x8000 < 0x4080))
  | .port => decide (o < 0x3F0000)
  | .rope => decide (0x1000 ≤ o) && decide (o < 0x2000) && ropeEngineReg ((o - 0x1000) % 0x400) &&
      s.fld (ctxReg ((o - 0x1000) / 0x400) 0x2C) 0 5 == l
  | .trav => true
  | _ => false

/-- What engine n stages with a write of a register: pops of a CAN FIFO and clears of NEW bits are removals, all else outputs. -/
def State.stageOutput (s : State) (n : Nat) (b : Block) (o a : Nat) (d : Word) : State :=
  let k := o / 0x8000
  if b = .can ∧ o % 0x8000 = 0x44 then
    if bitOf d 0 then
      s.onCore n (fun c => { c with rxfPops := Tab.set (fun _ => 0) c.rxfPops k (Tab.get (fun _ => 0) c.rxfPops k + 1) })
    else s
  else if b = .can ∧ o % 0x8000 = 0x48 then s.onCore n (fun c => { c with newClrs := c.newClrs ++ [(k, d)] })
  else s.onCore n (fun c => { c with staged := c.staged ++ [.write a d] })

/-- Does a write's answer name a bus error? -/
def WRes.refused : WRes → Bool
  | .err _ => true
  | _ => false

/-- Would a write of L's engine n that its rule discards with a bus error be one? It is judged when it is issued, as if what the engine has
staged before it in this tick had been applied (R269, R287; log entry 143). Channels, controllers and Traverse judge it when it is applied
(R147, R177, R333), and so does the segmentation page (R212). -/
def State.stageRefused (s : State) (l n : Nat) (b : Block) (o : Nat) (d : Word) : Bool :=
  if b = .pch ∨ b = .can ∨ b = .trav ∨ (b = .port ∧ 0x3000 ≤ o % 0x10000) then false
  else
    let w : Who := ⟨0x10 + n, .internal⟩
    let s1 := (s.core n).staged.foldl (fun st x => match x with
      | .write a' d' => if (blockOf a').map Prod.fst = some b then st.applyStaged l n 0 a' d' else st
      | .send _ _ => st) s
    match b with
    | .port => (portWrite s1 w (some (l, 0)) o d).refused
    | .rope => (ropeWrite s1 w (some l) o d).refused
    | .time => (timeWrite s1 w (some l) o d).refused
    | .sw => (swStore s1 w o d).refused
    | .tick => (tickWrite s1 o d).refused
    | .pec => (pecWrite s1 w o d).refused
    | _ => false

/-- A far store of engine n to an aligned register word: staged, or a bus error (true). -/
def State.stageWrite (s : State) (n a : Nat) (d : Word) : State × Bool :=
  match s.logicalOf n, blockOf a with
  | some l, some (b, o) =>
    if s.engineReaches l b o a && b != .scratchpad && registerHere b o a && s.engineWrites ⟨0x10 + n, .internal⟩ l b o d (s.core n) a && !s.stageRefused l n b o d then
      (s.stageOutput n b o a d, false)
    else (s, true)
  | _, _ => (s, true)

/-- A write of BAR4 at offset `o` (R449): a table word, of whose last word only the mask bit is kept; a vector that is unmasked while it is pending sends its
message (R458). -/
def State.bar4Write (s : State) (o : Nat) (d : Word) : State :=
  if o < 0x200 then
    let i := o / 4
    let v := i / 4
    let s1 := { s with host := { s.host with
      msix := Tab.set (fun i => word (bit01 (i % 4 == 3))) s.host.msix i (if i % 4 = 3 then d &&& 1 else d) } }
    if i % 4 = 3 ∧ bitOf d 0 = false ∧ s.host.msixPend.testBit v = true then
      ({ s1 with host := { s1.host with msixPend := s1.host.msixPend - 2 ^ v } }).sendVector v
    else s1
  else s

/-- A write of the word at a device address by a master (R6 to R8). An engine's is a far store: it is staged (log entry 46). True: a bus
error. -/
def State.busWrite (s : State) (w : Who) (a : Nat) (d : Word) (x : Signed) : State × Bool :=
  match engineOf w.master with
  | some n => s.stageWrite n a d
  | none =>
    if isHost w && w.path == .bar4 then (s.bar4Write a d, false)
    else if a % 4 ≠ 0 ∨ s.pathOpen w ((blockOf a).map Prod.fst) true = false ∨ hostOrMcp w = false then (s, true) else s.writeWord w a d x

/-- What the master of an access sees of a bus error. -/
def State.accounted (w : Who) (a : Nat) (r : State × Bool) : State × Bool := if r.2 then (r.1.masterError w a true, true) else r

/-- The write, and what its master sees of a bus error (R446). -/
def State.busStore (s : State) (w : Who) (a : Nat) (d : Word) (x : Signed) : State × Bool := State.accounted w a (s.busWrite w a d x)

/-- A write that waited for the boundary takes effect (R147, R329). -/
def State.applyAtBoundary (s : State) (x : Nat × Nat × Word) : State :=
  let (n, a, d) := x
  match blockOf a with
  | some (.pch, o) => s.pchStaged ⟨0x10 + n, .internal⟩ (o / 0x4000) (o % 0x4000) d
  | some (.trav, o) => travStaged s o a d
  | _ => s

/-! ## The reply of an access (R446) -/

/-- What the master of a write sees. -/
def State.answerStore (r : State × Bool) : State := { r.1 with reply := [], replyErr := r.2 }

/-- What the master of a read sees. -/
def BusVal.answer (r : BusVal) : State := { r.s with reply := [r.val], replyErr := r.err }

end Sys2Proof.Machine
end

