-- ==== Sys2Proof/Machine/Operands.lean ====
section
/-!
DEFINITION. Moves and bundles (R56 to R63, R99, R100): the fields of a move slot, the guard, the socket map with what may be read and
written, and the slots of a bundle that are executed.
-/
namespace Sys2Proof.Machine

/-! ## The fields of a slot (R58) -/

def slotGuard (w : Word) : Nat := fieldOf w 27 5
def slotDst (w : Word) : Nat := fieldOf w 17 10
def slotImm (w : Word) : Bool := bitOf w 16
def slotSrc (w : Word) : Nat := fieldOf w 0 16

/-- The sign-extended immediate of a slot. -/
def slotImmediate (w : Word) : Word := (w.setWidth 16).signExtend 32

/-- The address of IMM.L (R62). -/
def immL : Nat := 0x001

/-- Does the slot name IMM.L, so that the next slot is a literal (R62)? A slot with SRC[15:10] ≠ 0 is reserved and not executed (R100): it does
not name IMM.L, and the next slot is a move (log entry 152). -/
def namesLiteral (w : Word) : Bool := !slotImm w && slotSrc w == immL

/-- A reserved guard encoding (R60). -/
def guardReserved (g : Nat) : Bool := decide (4 ≤ g) && decide (g < 16)

/-- Does a guard hold, given the guard bits and FRDY (R60, R61)? -/
def guardHolds (g : Nat) (b : Nat → Bool) (frdy : Bool) : Bool :=
  if g = 0 then true
  else if g = 1 then false
  else if g = 2 then frdy
  else if g = 3 then !frdy
  else if g < 24 then b (g % 8)
  else !b (g % 8)

/-- The slots that R100 reserves. -/
def slotReserved (j : Nat) (w : Word) : Bool :=
  guardReserved (slotGuard w) || (!slotImm w && decide (1024 ≤ slotSrc w)) || (j == 3 && namesLiteral w)

/-! ## Sockets (R63) -/

/-- The triggers that issue a far transaction, which R83 orders. -/
def isFarTrigger (a : Nat) : Bool :=
  (decide (0x130 ≤ a) && decide (a ≤ 0x133)) || (decide (0x188 ≤ a) && decide (a ≤ 0x18B)) ||
    (decide (0x198 ≤ a) && decide (a ≤ 0x19C)) || (decide (0x1B8 ≤ a) && decide (a ≤ 0x1BB))

/-- The far triggers that return a value (R25). -/
def returnsValue (a : Nat) : Bool :=
  isFarTrigger a && !((decide (0x131 ≤ a) && decide (a ≤ 0x133)) || a == 0x189 || a == 0x19A || a == 0x19C || a == 0x1BA)

/-- How many entries of LSU.FQ a far trigger delivers (R25, R93). -/
def farEntries (a : Nat) : Nat := if a = 0x1B9 then 2 else if returnsValue a then 1 else 0

/-- The sockets that a move can read, and their values are held as written or computed; `mcp` is the management processor, where
TIM.PHASE and TIM.LEFT are undefined (R99, R102). -/
def readable (mcp : Bool) (a : Nat) : Bool :=
  a == 0x000 || (decide (0x008 ≤ a) && decide (a ≤ 0x011)) || a == 0x013 || a == 0x015 ||
    (decide (0x040 ≤ a) && decide (a ≤ 0x07F)) || (decide (0x081 ≤ a) && decide (a ≤ 0x083)) ||
    (decide (0x0C1 ≤ a) && decide (a ≤ 0x0C3)) || a == 0x101 || a == 0x102 || (decide (0x111 ≤ a) && decide (a ≤ 0x113)) ||
    a == 0x121 || a == 0x122 || (decide (0x141 ≤ a) && decide (a ≤ 0x146)) || (decide (0x161 ≤ a) && decide (a ≤ 0x165)) ||
    (decide (0x166 ≤ a) && decide (a ≤ 0x167) && !mcp) || (decide (0x168 ≤ a) && decide (a ≤ 0x16A))

/-- The sockets that a move can write and that hold what is written. -/
def holds (a : Nat) : Bool :=
  (decide (0x008 ≤ a) && decide (a ≤ 0x010)) || (decide (0x040 ≤ a) && decide (a ≤ 0x07F)) || a == 0x080 || a == 0x083 ||
    a == 0x0C0 || a == 0x0C3 || a == 0x100 || a == 0x110 || a == 0x120 || a == 0x140 ||
    (decide (0x143 ≤ a) && decide (a ≤ 0x146)) || a == 0x160 || a == 0x180 || a == 0x1B0

/-- The trigger sockets. -/
def isTrigger (mcp : Bool) (a : Nat) : Bool :=
  (decide (0x0A0 ≤ a) && decide (a ≤ 0x0BB)) || (decide (0x0E0 ≤ a) && decide (a ≤ 0x0FB)) ||
    (decide (0x108 ≤ a) && decide (a ≤ 0x10A)) || a == 0x118 || a == 0x119 || (decide (0x128 ≤ a) && decide (a ≤ 0x133)) ||
    (decide (0x150 ≤ a) && decide (a ≤ 0x15B)) || a == 0x170 || a == 0x171 || (decide (0x188 ≤ a) && decide (a ≤ 0x18B)) ||
    (decide (0x198 ≤ a) && decide (a ≤ 0x19C)) || (decide (0x1A0 ≤ a) && decide (a ≤ 0x1A3)) ||
    (a == 0x1A8 && !mcp) || a == 0x1A9 || (decide (0x1B8 ≤ a) && decide (a ≤ 0x1BB))

/-- The sockets that a move can write: NULL, those that hold a value, the triggers, CTL.SIG_ADJ and CTL.STICKY_CLR (R63, R99). -/
def writable (mcp : Bool) (a : Nat) : Bool := a == 0 || holds a || isTrigger mcp a || a == 0x012 || a == 0x014

/-- The destination as R68 counts it: all local triggers of one unit are one destination, and so are the CTL triggers and LINK for a
call; far triggers never clash, nor do writes to NULL. -/
def clashKey (a : Nat) : Option Nat :=
  if a = 0 ∨ isFarTrigger a then none
  else if 0x0A0 ≤ a ∧ a ≤ 0x0BB then some 0x0A0
  else if 0x0E0 ≤ a ∧ a ≤ 0x0FB then some 0x0E0
  else if 0x108 ≤ a ∧ a ≤ 0x10A then some 0x108
  else if a = 0x118 ∨ a = 0x119 then some 0x118
  else if 0x128 ≤ a ∧ a ≤ 0x12F then some 0x128
  else if 0x150 ≤ a ∧ a ≤ 0x15B then some 0x150
  else if a = 0x170 ∨ a = 0x171 then some 0x170
  else if 0x1A0 ≤ a ∧ a ≤ 0x1A9 then some 0x1A0
  else some a

/-- Is the destination a call, which also writes LINK (R94)? -/
def isCall (a : Nat) : Bool := a == 0x1A2 || a == 0x1A3

/-- Is the destination a jump or call (R94)? -/
def isJump (a : Nat) : Bool := decide (0x1A0 ≤ a) && decide (a ≤ 0x1A3)

/-- A move of a bundle that executes: its slot, destination and value. -/
structure Move where
  slot : Nat
  dst : Nat
  val : Word
  deriving DecidableEq, Repr

/-- Do two destinations clash under R68? A call counts as a write of LINK too. -/
def clashes (a b : Nat) : Bool :=
  (clashKey a).isSome && ((clashKey a == clashKey b) || (isCall a && b == 0x010) || (isCall b && a == 0x010))

/-- Is slot j of a bundle a literal of the slot before it (R62)? A literal is not decoded, so it names no literal itself. -/
def isLiteral (ws : Nat → Word) : Nat → Bool
  | 0 => false
  | j + 1 => !isLiteral ws j && namesLiteral (ws j)

end Sys2Proof.Machine
end

