-- ==== Sys2Proof/Machine/Far.lean ====
section
/-!
DEFINITION. The far port of a Pydin core (R81 to R84, R88 to R93, R102, R488): what each transaction does when it reaches its target, the
results that enter LSU.FQ, and the posted-store buffer. ATM and MBX stand in Machine/Atomic.lean.
-/
namespace Sys2Proof.Machine

/-! ## Frame slots (R81, R92) -/

/-- Where the frame window of the far port stands (R81), for the MCP as well, outside the device address map (R102, log entry 44). -/
def frameWindow (a : Nat) : Option (Nat × Nat) :=
  if 0x20000000 ≤ a ∧ a < 0x20080000 then some ((a - 0x20000000) / 0x4000, (a - 0x20000000) % 0x4000) else none

/-- A word of a received frame at offset `o` of its slot: its bytes, and the stamp and tag words (R278, R320). -/
def slotWord (x : Frame) (o : Nat) : Word :=
  if o = 0x3FE8 then x.tag
  else if o = 0x3FF0 then word (nsOf x.stamp)
  else if o = 0x3FF4 then word (secOf x.stamp)
  else if o = 0x3FF8 then word (secOf x.stamp / 2 ^ 32)
  else word (leNat (bytesAt x.bytes o 4))

/-- A frame as a slot shows it: ended bad where the copy was cut (R235), and without the HSR tag that the copy loses (R241). -/
def Slot.shows (y : Slot) (x : Frame) : Frame :=
  let bs := match y.cut with
    | some n => x.bytes.take n
    | none => x.bytes
  { x with bytes := if y.strip then stripHsr bs else bs, arriving := x.arriving && y.cut.isNone, bad := x.bad || y.cut.isSome }

/-- The frame of slot i, where it holds a received one, as the slot shows it. -/
def State.slotFrame (s : State) (l i : Nat) : Option Frame :=
  match (s.slot l i).rx with
  | some f => (s.frame f).map (s.slot l i).shows
  | none => none

/-- Has the word at offset `o` of slot i not been received yet (R84)? -/
def State.slotWaits (s : State) (l i o : Nat) : Bool :=
  match s.slotFrame l i with
  | some x => x.arriving && !x.bad && decide (x.bytes.length < o + 4) && decide (o < 0x3FE8)
  | none => false

/-- A load from slot i: none where it holds no frame. -/
def State.slotLoad (s : State) (l i o : Nat) : Option Word :=
  match s.slotFrame l i with
  | some x => some (slotWord x o)
  | none => if (s.slot l i).tx then some (word (leNat (bytesAt (s.slot l i).data o 4))) else none

/-- A store to an allocated transmit slot: none elsewhere. -/
def State.slotStore (s : State) (l i o : Nat) (bs : List Byte) : Option State :=
  let x := s.slot l i
  if x.tx then
    let long := x.data ++ List.replicate (o + bs.length - x.data.length) 0
    some (s.setSlot l i { x with data := splice long o bs })
  else none

/-- FRM.T.RXPOP: the descriptor of the next received frame within the input view, or 0 (R38, R92). -/
def State.framePop (s : State) (n l : Nat) : State × Word :=
  let seen := if n = mcpCore then (s.waitingOf l).length else Tab.get (fun _ => 0) s.pec.framesSeen l
  let k := (s.core n).rxPopped
  if seen ≤ k then (s, 0)
  else
    match (s.waitingOf l)[k]? with
    | none => (s, 0)
    | some i =>
      match s.slotFrame l i with
      | none => (s, 0)
      | some x =>
        (s.onCore n (fun c => { c with rxPopped := k + 1 }),
          word (2 ^ 31 + bit01 x.arriving * 2 ^ 30 + x.ingress * 2 ^ 24 + i * 2 ^ 19 + x.bytes.length % 2 ^ 14))

/-- FRM.T.RXST. -/
def State.frameStatus (s : State) (l i : Nat) : Word :=
  match s.slotFrame l i with
  | some x => word (bit01 (!x.arriving) * 2 ^ 31 + bit01 x.bad * 2 ^ 30 + x.bytes.length % 2 ^ 14)
  | none => 0

/-- FRM.T.TXALLOC. -/
def State.frameAlloc (s : State) (n l : Nat) : State × Word :=
  match s.freeSlot l with
  | some i => ((s.setSlot l i ⟨none, true, none, false, []⟩).onCore n (fun c => { c with allocs := c.allocs ++ [i] }), word i)
  | none => (s, 0xFFFFFFFF)

/-- FRM.T.FREE: an engine stages the release of a received frame (R39); the MCP's takes effect at once. -/
def State.frameFree (s : State) (n l i : Nat) : State :=
  if (s.slot l i).rx.isNone then s
  else if n = mcpCore then
    let k := (s.waitingOf l).findIdx (fun j => j == i)
    (s.emptySlot l i).onCore n (fun c => { c with rxPopped := if k < c.rxPopped then c.rxPopped - 1 else c.rxPopped })
  else s.onCore n (fun c => { c with frees := c.frees ++ [i] })

/-- FRM.T.SEND of an allocated slot: an engine stages it (R23), and the slot stays one that the tick allocated until the tick commits (R92);
the MCP's enters the switch on port 41 at once. -/
def State.frameSend (s : State) (n l i len : Nat) : State :=
  let x := s.slot l i
  if !x.tx then s
  else if n = mcpCore then (s.emptySlot l i).enterFrame 41 none (bytesAt x.data 0 len) none
  else s.onCore n (fun c => { c with staged := c.staged ++ [.send i len] })

/-! ## Posted writes (R81, R83, R88, R92, R93) -/

/-- The bytes that a far store writes and their address: the address is aligned down (R101). -/
def farStore (op : FarOp) : Nat × List Byte :=
  if op.trig = 0x131 then (op.arg.toNat / 4 * 4, leBytes 4 op.data.toNat)
  else if op.trig = 0x132 then (op.arg.toNat / 2 * 2, leBytes 2 op.data.toNat)
  else (op.arg.toNat, leBytes 1 op.data.toNat)

/-- A far store of core n to the scratchpad: an engine's only to its tick-state area. True: a bus error. -/
def State.storeScratch (s : State) (n a : Nat) (bs : List Byte) : State × Bool :=
  if n ≠ mcpCore ∧ (s.tsAreaOf a = none ∨ s.tsAreaOf a ≠ s.logicalOf n) then (s, true)
  else
    match s.spBurst (coreMaster n) 2 a bs with
    | (s1, ok) => (s1, !ok)

/-- A far store of the MCP beyond the scratchpad: bytes of its memories, or an aligned register word (R102, R488). -/
def State.mcpStore (s : State) (trig a : Nat) (bs : List Byte) (d : Word) : State × Bool :=
  match blockOf (a / 4 * 4) with
  | some (.secure, _) => (s.secureWrite mcpWho a bs).state s
  | some (.pe, _) => (s.peWrite mcpWho a bs).state s
  | _ => if trig = 0x131 then s.busWrite mcpWho a d s.signedFree else (s, true)

/-- A far store of core n reaches its target. True: a bus error. -/
def State.farStored (s : State) (n : Nat) (op : FarOp) : State × Bool :=
  let (a, bs) := farStore op
  match frameWindow a, s.coreFrames n with
  | some (i, o), some l =>
    match s.slotStore l i o bs with
    | some s1 => (s1, false)
    | none => (s, true)
  | some _, none => (s, true)
  | none, _ =>
    if a < 0x800000 then s.storeScratch n a bs
    else if n = mcpCore then s.mcpStore op.trig a bs op.data
    else if op.trig ≠ 0x131 then (s, true)
    else if 0x10000000 ≤ a ∧ a < 0x20000000 then s.stageWrite n a op.data
    else (s, true)

/-- A posted write of core n reaches its destination. True: a bus error. -/
def State.postedDone (s : State) (n : Nat) (op : FarOp) : State × Bool :=
  match s.atomicPosted n op with
  | some r => r
  | none =>
    if op.trig = 0x19A then
      match s.coreFrames n with
      | some l => (s.frameFree n l (fieldOf op.arg 0 5), false)
      | none => (s, true)
    else if op.trig = 0x19C then
      match s.coreFrames n with
      | some l => (s.frameSend n l (fieldOf op.arg 0 5) (fieldOf op.arg 16 14), false)
      | none => (s, true)
    else s.farStored n op

/-! ## Operations that return a value (R82, R84) -/

/-- The scratchpad word at an address as a core's stores issued before `seq` leave it (R83). -/
def State.seenBy (s : State) (n seq : Nat) : State :=
  (((s.core n).posted.filter (fun op => decide (op.seq < seq) && decide (0x131 ≤ op.trig) && decide (op.trig ≤ 0x133))).foldl
    (fun (st : State) op => (st.farStored n op).1) s)

/-- A load of a scratchpad word by a core: what the code finds is corrected, or a fault of the memory (R373, R374). -/
def State.scratchLoad (s : State) (n a seq : Nat) (ecc : EccFinding) : FarVal :=
  match s.spReadAddr (coreMaster n) a with
  | none => farError s
  | some b =>
    if s.isBad b || ecc == .double then farError (s.memoryFault b (coreMaster n))
    else
      let view := s.seenBy n seq
      let v := view.loadWord ((view.spReadAddr (coreMaster n) a).getD b)
      ⟨if ecc = .single then s.corrected b else s, [v], false⟩

/-- The CAN controller whose RXF_HEAD window holds a far address (R176). -/
def rxfHeadAt (a : Nat) : Option Nat :=
  match blockOf a with
  | some (.can, o) => if 0x4000 ≤ o % 0x8000 ∧ o % 0x8000 < 0x4080 then some (o / 0x8000) else none
  | _ => none

/-- LSU.T.FLW. A load of RXF_HEAD counts the pops that were issued before it (R196). The word that a load of a received frame returns from a cell
with an uncorrectable error is stated nowhere, and is free (R266, log entry 181). -/
def State.farLoad (s : State) (n : Nat) (op : FarOp) (ecc : EccFinding) : FarVal :=
  let a := op.arg.toNat / 4 * 4
  match frameWindow a, s.coreFrames n with
  | some (i, o), some l =>
    match (s.seenBy n op.seq).slotLoad l i o with
    | some v =>
      if (s.slot l i).rx = none ∨ ecc = .clean ∨ 0x3FE8 ≤ o then ⟨s, [v], false⟩
      else if ecc = .single then ⟨s.cellCorrected, [v], false⟩
      else ⟨(s.slotCellBad l i).free, [freeValue 32 s.freeCtr], false⟩
    | none => farError s
  | some _, none => farError s
  | none, _ =>
    if a < 0x800000 then s.scratchLoad n a op.seq ecc
    else if n = mcpCore ∧ secureBase ≤ a ∧ a < secureBase + 0x40000 ∧ ecc = .double then farError (s.memoryFault a 0x01)
    else if n = mcpCore ∨ (0x10000000 ≤ a ∧ a < 0x20000000) then
      let s0 := if secureBase ≤ a ∧ a < secureBase + 0x40000 ∧ ecc = .single then s.corrected a else s
      match engineOf (coreMaster n), rxfHeadAt a with
      | some e, some k =>
        let r := (s0.onCore e (fun c => { c with rxfPops := Tab.set (fun _ => 0) c.rxfPops k op.popped })).busRead ⟨coreMaster n, .internal⟩ a
        ⟨s0, [r.val], r.err⟩
      | _, _ =>
        let r := s0.busRead ⟨coreMaster n, .internal⟩ a
        ⟨r.s, [r.val], r.err⟩
    else farError s

/-- ATM.T.LR: the word is returned and its granule reserved. -/
def State.loadReserved (s : State) (n a seq : Nat) (ecc : EccFinding) : FarVal :=
  if !s.atomicAllowed n a then farError s
  else
    let r := s.scratchLoad n a seq ecc
    if r.err then r else { r with s := r.s.setReservation (coreMaster n) (some (a / 8)) }

/-- A value-returning far operation reaches its target (R81, R88, R92, R93). -/
def State.farDone (s : State) (n : Nat) (op : FarOp) (ecc : EccFinding) : FarVal :=
  let a := op.arg.toNat / 4 * 4
  if op.trig = 0x130 then s.farLoad n op ecc
  else if op.trig = 0x18A then s.loadReserved n a op.seq ecc
  else
    match s.atomicDone n op, s.coreFrames n with
    | some r, _ => r
    | none, none => farError s
    | none, some l =>
      if op.trig = 0x198 then let (s1, v) := s.framePop n l; ⟨s1, [v], false⟩
      else if op.trig = 0x199 then ⟨s, [s.frameStatus l (fieldOf op.arg 0 5)], false⟩
      else let (s1, v) := s.frameAlloc n l; ⟨s1, [v], false⟩

/-- Does a far operation of core n still wait at its target: for a byte of an arriving frame (R84)? -/
def State.farWaits (s : State) (n : Nat) (op : FarOp) : Bool :=
  op.trig == 0x130 && match frameWindow (op.arg.toNat / 4 * 4), s.coreFrames n with
    | some (i, o), some l => s.slotWaits l i o
    | _, _ => false

/-- Results that wait at the far port enter LSU.FQ in the order of their operations, while it has room for the oldest (R82). The two entries
of an MBX.T.RECV enter together (log entry 167). -/
def Core.takeIn (c : Core) : List FarOp → Core
  | [] => { c with far := [] }
  | op :: rest =>
    match op.vals with
    | some vs => if c.fq.length + vs.length ≤ 16 then ({ c with fq := c.fq ++ vs }).takeIn rest else { c with far := op :: rest }
    | none => { c with far := op :: rest }

/-! ## The order of the operations (R83, R370) -/

/-- The oldest operation of core n that returns a value and can do so now. -/
def State.farNext (s : State) (n : Nat) : Option FarOp := (s.core n).far.find? (fun op => op.vals.isNone && !s.farWaits n op)

/-- The scratchpad bank that a far operation goes to, if it goes to one (R369). -/
def farBank (op : FarOp) : Option Nat :=
  if ((0x130 ≤ op.trig ∧ op.trig ≤ 0x133) ∨ op.trig = 0x18A ∨ op.trig = 0x18B) ∧ op.arg.toNat < 0x800000 then some (op.arg.toNat / 0x40000)
  else none

/-- Do two operations wait for one bank? -/
def sameBank (a b : FarOp) : Bool := (farBank a).isSome && farBank a == farBank b

/-- A far operation of core n returns its value: its result enters LSU.FQ when those before it have and there is room (R82). True: a bus
error. -/
def State.farTake (s : State) (n : Nat) (op : FarOp) (ecc : EccFinding) : State × Bool :=
  let r := s.farDone n op ecc
  (r.s.onCore n (fun c => c.takeIn (c.far.map (fun x => if x.seq = op.seq then { x with vals := some r.vals } else x))), r.err)

/-- The oldest posted write of core n leaves the buffer and reaches its destination. True: a bus error. -/
def State.postedTake (s : State) (n : Nat) (op : FarOp) (rest : List FarOp) : State × Bool :=
  (s.onCore n (fun c => { c with posted := rest })).postedDone n op

/-- The next operation of core n in its order of issue takes effect; with it the operation, where it is refused. None: nothing is left but
loads that wait for a byte. -/
def State.settleOne (s : State) (n : Nat) : Option (State × List FarOp) :=
  let told := fun (op : FarOp) (r : State × Bool) => (r.1, if r.2 then [op] else [])
  match (s.core n).posted, s.farNext n with
  | p :: ps, some f => some (if p.seq < f.seq then told p (s.postedTake n p ps) else told f (s.farTake n f .clean))
  | p :: ps, none => some (told p (s.postedTake n p ps))
  | [], some f => some (told f (s.farTake n f .clean))
  | [], none => none

/-- What core n has issued takes effect in the order of issue, at most `k` operations; with it the operations that are refused. -/
def State.settleFar (s : State) (n : Nat) : Nat → State × List FarOp
  | 0 => (s, [])
  | k + 1 =>
    match s.settleOne n with
    | none => (s, [])
    | some (s1, bad) =>
      let r := s1.settleFar n k
      (r.1, bad ++ r.2)

/-- The bus errors of operations count (R84). -/
def State.countRefused (s : State) (n : Nat) (bad : List FarOp) : State := bad.foldl (fun (st : State) _ => st.coreBusError n) s

/-- Their sticky events, each charged to its move (R84). -/
def refusals (bad : List FarOp) : List FlagEv := bad.map (fun op => ⟨flagBusErr, op.slot, op.bundle⟩)

/-- What core n has issued takes effect although the core halts at the end of the bundle: a refused operation sets BUS_ERR and counts (R84, R98,
R101). -/
def State.landRest (s : State) (n : Nat) : State :=
  let (s1, bad) := s.settleFar n 32
  (s1.countRefused n bad).noteFlags n (refusals bad) |>.1

/-- Core n halts by `f`, unless what took effect before has halted it already. -/
def State.haltsWith (s : State) (n : Nat) (f : State → State) : State := if n = mcpCore ∨ (s.logicalOf n).isSome then f s else s

/-- A bus error answered to a far operation sets BUS_ERR, charged to its move, and counts (R84); where that traps, the other operations issued take
effect first (R101). -/
def State.farRefused (s : State) (n : Nat) (op : FarOp) : State :=
  match (s.coreBusError n).noteFlags n (refusals [op]) with
  | (s1, some e) => (s1.landRest n).haltsWith n (fun st => st.trapTaken n e)
  | (s1, none) => s1

/-- POSTED_WRITE_COMPLETE: the oldest posted write of core n leaves the buffer (R83), unless an older operation of the core still waits for the
same scratchpad bank (R370). -/
def State.postedComplete (s : State) (n : Nat) : State :=
  match (s.core n).posted with
  | [] => s
  | op :: rest =>
    if (s.core n).far.any (fun f => f.vals.isNone && decide (f.seq < op.seq) && sameBank f op) then s
    else
      match s.postedTake n op rest with
      | (s1, true) => s1.farRefused n op
      | (s1, false) => s1

/-- The posted writes of core n up to the last one that is older than `op` and waits for the same bank have reached it when `op` has (R83,
R370). -/
def State.postedBefore (s : State) (n : Nat) (op : FarOp) : Nat → State
  | 0 => s
  | k + 1 =>
    if (s.core n).posted.any (fun p => decide (p.seq < op.seq) && sameBank p op) then (s.postedComplete n).postedBefore n op k else s

/-- FAR_RESULT: the oldest far operation that can complete does, and its result enters LSU.FQ when those before it have and there is room
(R82). -/
def State.farResult (s : State) (n : Nat) (ecc : EccFinding) : State :=
  match s.farNext n with
  | none => s
  | some op =>
    let s1 := s.postedBefore n op 16
    if (s1.core n).far.any (fun x => x.seq == op.seq && x.vals.isNone) then
      match s1.farTake n op ecc with
      | (s2, true) => s2.farRefused n op
      | (s2, false) => s2
    else s1

/-- What core n has on its way at a tick start takes effect; its results are lost with LSU.FQ (R69; log entry 45). A refused operation sets
BUS_ERR and may trap (R84, R101). -/
def State.flushFar (s : State) (n : Nat) : State :=
  let (s1, bad) := s.settleFar n 32
  ((s1.onCore n (fun c => { c with far := [], posted := [], fq := [] })).countRefused n bad).flagsWithTrap n (refusals bad)

end Sys2Proof.Machine
end

