-- ==== Sys2Proof/Machine/Engine.lean ====
section
/-!
DEFINITION. The issue of a bundle by a Pydin core (R56 to R102): fetch, stalls, reads, clashes, the local units, control flow, the commit
and the wait. One BUNDLE_ISSUE is one cycle of the core: either the bundle issues or it serves a stall cycle (R67).
-/
namespace Sys2Proof.Machine

/-! ## Sockets -/

/-- The value a socket of a core holds. -/
def Core.at (c : Core) (a : Nat) : Word := Tab.get (fun _ => 0) c.sock a
/-- Set it. -/
def Core.put (c : Core) (a : Nat) (v : Word) : Core := { c with sock := Tab.set (fun _ => 0) c.sock a v }

/-- Results that are readable by the bundle that is to issue are written to their sockets (R66). -/
def Core.deliver (c : Core) : Core :=
  let c1 := (c.mul.filter (fun x => decide (x.1 ≤ c.iss))).foldl
    (fun (k : Core) (x : Nat × DWord) => (k.put 0x101 (x.2.setWidth 32)).put 0x102 ((x.2 >>> 32).setWidth 32)) c
  let c2 := { c1 with mul := c1.mul.filter (fun x => decide (c.iss < x.1)) }
  let c3 := match c2.div with
    | some (t, q, m, v) =>
      if t ≤ c.iss then { ((c2.put 0x111 q).put 0x112 m).put 0x113 (word (bit01 v)) with div := none } else c2
    | none => c2
  let c4 := (c3.lsu.filter (fun x => decide (x.1 ≤ c.iss))).foldl (fun (k : Core) x => k.put 0x121 x.2) c3
  { c4 with lsu := c4.lsu.filter (fun x => decide (c.iss < x.1)) }

/-- FRDY (R82). -/
def Core.frdy (c : Core) : Bool := !c.fq.isEmpty

/-- The bits of BIT.CCFG that are held, and BIT.CRC as it reads (R85, R86). -/
def crcRead (ccfg crc : Word) : Word := word (crc.toNat % 2 ^ (fieldOf ccfg 0 5 + 1))

/-- What a read of a socket by core n returns (R63, R87, R99). -/
def State.readSocket (s : State) (n : Nat) (c : Core) (a : Nat) : Word :=
  if !readable (isMcpCore n) a && a != 0x122 then 0
  else if a = 0x013 then s.reg (coreSticky n)
  else if a = 0x015 then word c.pc
  else if a = 0x122 then c.fq.headD 0
  else if a = 0x144 then crcRead (c.at 0x146) (c.at 0x144)
  else if a = 0x166 then word c.cyc
  else if a = 0x167 then word ((s.reg (peGroup n + 0x40)).toNat - c.cyc)
  else if a = 0x168 then s.reg (tickReg 0x10)
  else if a = 0x169 then s.reg (tickReg 0x14)
  else if a = 0x16A then s.reg (tickReg 0x24)
  else c.at a

/-! ## Fetch (R59, R102) -/

/-- Word j of the bundle at address b of core n. -/
def State.codeWord (s : State) (n b j : Nat) : Word :=
  if n ≠ mcpCore then s.loadWord (imBase n + 16 * b + 4 * j)
  else if b < 0x2000 then word (leNat ((List.range 4).map (fun i => romByte (16 * b + 4 * j + i))))
  else s.loadWord (mcpRamBase + 16 * (b - 0x10000) + 4 * j)

/-- The address of bundle b in memory: none in the ROM. -/
def bundleAddr (n b : Nat) : Option Nat :=
  if n ≠ mcpCore then some (imBase n + 16 * b) else if b < 0x2000 then none else some (mcpRamBase + 16 * (b - 0x10000))

/-! ## The moves that execute (R60 to R62, R68, R99, R100) -/

/-- The guard bits of a core as the bundle finds them. -/
def Core.guards (c : Core) (i : Nat) : Bool := c.at (0x008 + i) != 0

/-- The source socket of slot j, where it reads one. -/
def slotReads (w : Word) : Option Nat := if slotImm w || namesLiteral w then none else some (slotSrc w)

/-- Does slot j of a bundle execute? -/
def Core.runs (c : Core) (ws : Nat → Word) (j : Nat) : Bool :=
  !isLiteral ws j && !slotReserved j (ws j) && guardHolds (slotGuard (ws j)) c.guards c.frdy

/-- The value that slot j moves. -/
def State.slotValue (s : State) (n : Nat) (c : Core) (ws : Nat → Word) (j : Nat) : Word :=
  if slotImm (ws j) then slotImmediate (ws j)
  else if namesLiteral (ws j) then ws (j + 1)
  else s.readSocket n c (slotSrc (ws j))

/-- The executing moves in slot order. -/
def State.movesOf (s : State) (n : Nat) (c : Core) (ws : Nat → Word) : List Move :=
  ((List.range 4).filter (c.runs ws)).map (fun j => ⟨j, slotDst (ws j), s.slotValue n c ws j⟩)

/-- Moves to sockets that can be written; of those that clash only the last takes effect (R68). -/
def effective (mcp : Bool) (ms : List Move) : List Move :=
  let good := ms.filter (fun m => writable mcp m.dst)
  good.filter (fun m => !good.any (fun x => decide (m.slot < x.slot) && clashes m.dst x.dst))

/-- Sticky events of decoding and of the destinations, by slot (R68, R99, R100). A reserved slot sets ILL_ENCODING whether or not its guard holds
(log entry 157). -/
def moveFlags (mcp : Bool) (pc : Nat) (ws : Nat → Word) (ms : List Move) : List FlagEv :=
  let good := ms.filter (fun m => writable mcp m.dst)
  (List.range 4).flatMap (fun j =>
    (if !isLiteral ws j && slotReserved j (ws j) then [⟨flagIllEncoding, j, pc⟩] else []) ++
    (if ms.any (fun m => m.slot == j && !writable mcp m.dst) then [⟨flagIllSocket, j, pc⟩] else []) ++
    (if good.any (fun m => m.slot == j && good.any (fun x => decide (x.slot < j) && clashes x.dst m.dst)) then
      [⟨flagWriteClash, j, pc⟩] else []))

/-- Sticky events of reads: early MUL and DIV results in GUARDED mode, and LSU.FQ with nothing at its head (R78, R82). -/
def State.readFlags (s : State) (n : Nat) (c : Core) (ws : Nat → Word) : List FlagEv :=
  ((List.range 4).filter (c.runs ws)).flatMap (fun j =>
    match slotReads (ws j) with
    | none => []
    | some a =>
      (if s.guarded n && (((a == 0x101 || a == 0x102) && !c.mul.isEmpty) || (decide (0x111 ≤ a) && decide (a ≤ 0x113) && c.div.isSome))
        then [⟨flagEarlyRead, j, c.pc⟩] else []) ++
      (if a == 0x122 && !c.frdy then [⟨flagFarEmpty, j, c.pc⟩] else []))

/-! ## Stalls (R25, R43, R65 to R67, R82, R83) -/

/-- Sockets that executing moves read. -/
def Core.reads (c : Core) (ws : Nat → Word) : List Nat := ((List.range 4).filter (c.runs ws)).filterMap (fun j => slotReads (ws j))

/-- Must the bundle wait one more cycle: for a general register or a local load in GUARDED mode, for a far result, for room among the
outstanding operations or in the posted-store buffer? -/
def State.mustStall (s : State) (n : Nat) (c : Core) (ws : Nat → Word) (ms : List Move) : Bool :=
  let rs := c.reads ws
  let ts := (ms.filter (fun m => isFarTrigger m.dst)).map (fun m => m.dst)
  let entries := (c.far.map (fun op => farEntries op.trig)).sum
  let wants := (ts.map farEntries).sum
  let posts := (ts.filter (fun t => farEntries t == 0)).length
  (s.guarded n && (rs.any (fun a => c.late.any (fun x => x.1 == a)) || (rs.contains 0x121 && !c.lsu.isEmpty) ||
      (rs.contains 0x122 && !c.frdy && !c.far.isEmpty))) ||
    (decide (0 < wants) && decide (16 < entries + wants)) || (decide (0 < posts) && decide (16 < c.posted.length + posts))

/-- The tick-state lines that a bundle's far stores are the first to write in the tick (R43), each once. -/
def State.newLines (s : State) (n : Nat) (c : Core) (ms : List Move) : List Nat :=
  match s.logicalOf n with
  | none => []
  | some l =>
    let lineOf := fun (a : Nat) =>
      if s.tsAreaOf a = some l then (if s.lineWritten l ((a - s.tsBase l) / 64) then none else some ((a - s.tsBase l) / 64)) else none
    let isStore := fun (t : Nat) => decide (0x131 ≤ t) && decide (t ≤ 0x133)
    let pend := (c.posted.filter (fun op => isStore op.trig)).filterMap (fun op => lineOf op.arg.toNat)
    (((ms.filter (fun m => isStore m.dst)).filterMap (fun m => lineOf m.val.toNat)).eraseDups).filter (fun i => !pend.contains i)

/-- The far transactions that a bundle triggers. -/
def farMoves (ms : List Move) : Nat := (ms.filter (fun m => isFarTrigger m.dst)).length

/-- The lines among them whose copy the bundle has not served yet. -/
def State.dueLines (s : State) (n : Nat) (c : Core) (ms : List Move) : List Nat :=
  (s.newLines n c ms).filter (fun i => !c.paid.2.contains i)

/-- Stall cycles that the bundle has still to serve on account of its own far transactions: one for each after the first, and the copies of
tick-state lines, each 16 to 48 cycles (R83, R84). What it has served counts no more, so that a move whose guard FRDY has turned true meanwhile
adds its own (R61). -/
def State.ownStall (s : State) (n : Nat) (c : Core) (ms : List Move) : Nat :=
  (farMoves ms - max 1 c.paid.1) + ((s.dueLines n c ms).zipIdx.map (fun x => freeBetween 16 48 (s.freeCtr + x.2))).sum

/-! ## Local operations -/

/-- What a bundle does besides its far transactions: the core, bytes stored in local memory, sticky events, and the uncorrectable word that its
local load met. -/
structure Effect where
  c : Core
  store : Option (Nat × List Byte)
  flags : List FlagEv
  lost : Option Nat := none

/-- The size of the local memory of a core (R80, R102). -/
def ldmSize (n : Nat) : Nat := if n = mcpCore then 0x100000 else 0x20000
/-- Where the local memory of a core stands in `mem`. -/
def localBase (n : Nat) : Nat := if n = mcpCore then mcpRamBase else ldmBase n

/-- Bytes that a local operation moves: 0x128 LW, LH, LHU, LB, LBU, SW, SH, 0x12F SB. -/
def localSize (t : Nat) : Nat := if t = 0x128 ∨ t = 0x12D then 4 else if t = 0x129 ∨ t = 0x12A ∨ t = 0x12E then 2 else 1

/-- The value of a local load from its bytes. -/
def loadValue (t : Nat) (bs : List Byte) : Word :=
  let v := leNat bs
  if t = 0x129 then wordOfInt (signed v 16) else if t = 0x12B then wordOfInt (signed v 8) else word v

/-- Is a local access to `k` bytes at address `a` refused: in the MCP's RAM a destructive March C− run, a load of an uncorrectable word, and a
store that does not cover one (R374, R380)? -/
def State.localRefused (s : State) (n t a k : Nat) : Bool :=
  n == mcpCore && (s.marchHolds 1 || (if t < 0x12D then s.isBad a else s.narrowOnBad a k))

/-- A local load or store (R80). A refused one is a bus error: its load delivers 0xFFFFFFFF, as R84 has it for far accesses (log entry 185). -/
def State.localOp (s : State) (n : Nat) (x : Effect) (m : Move) : Effect :=
  let k := localSize m.dst
  let a := m.val.toNat / k * k
  let ev := fun (f : Nat) => (⟨f, m.slot, x.c.pc⟩ : FlagEv)
  let fl := (if a ≠ m.val.toNat then [ev flagMisalign] else []) ++ (if ldmSize n ≤ m.val.toNat then [ev flagRange] else [])
  let inside := decide (m.val.toNat < ldmSize n)
  let refused := inside && s.localRefused n m.dst (localBase n + a) k
  let fl := if refused then fl ++ [ev flagBusErr] else fl
  if m.dst < 0x12D then
    let v := if refused then 0xFFFFFFFF else if inside then loadValue m.dst (s.bytes (localBase n + a) k) else 0
    { x with
      c := { x.c with lsu := x.c.lsu ++ [(x.c.iss + 2, v)] }, flags := x.flags ++ fl,
      lost := if refused && !s.marchHolds 1 then some (localBase n + a) else x.lost }
  else
    { x with
      store := if inside && !refused then some (localBase n + a, leBytes k (x.c.at 0x120).toNat) else none, flags := x.flags ++ fl }

/-- An operation of an integer unit whose operand socket stands at `b` (R71, R72). -/
def Core.alu (c : Core) (b k : Nat) (t : Word) : Core :=
  let r := aluOp k t (c.at b) (c.at (b + 3) != 0)
  let c1 := (c.put (b + 1) r.q).put (b + 2) (word (bit01 r.v))
  match r.c with
  | some x => c1.put (b + 3) (word (bit01 x))
  | none => c1

/-- A division (R76, R77): a division in progress is abandoned. -/
def Effect.divide (x : Effect) (m : Move) : Effect :=
  let o := x.c.at 0x110
  let r := divOp m.dst m.val o
  let fl := (if o = 0 then [(⟨flagDz, m.slot, x.c.pc⟩ : FlagEv)] else []) ++
    (if x.c.div.isSome then [⟨flagDivAbandon, m.slot, x.c.pc⟩] else [])
  { x with c := { x.c with div := some (x.c.iss + 18, r.q, r.m, r.v) }, flags := x.flags ++ fl }

/-- An operation of the BIT unit (R85, R86). -/
def Core.bitOp (c : Core) (k : Nat) (t : Word) : Core :=
  let o := c.at 0x140
  let crc := fun (n : Nat) => c.put 0x144 (crcOp (c.at 0x146) (c.at 0x145) (c.at 0x144) t n)
  if k = 0x150 then c.put 0x141 (extOp t o)
  else if k = 0x151 then c.put 0x141 (extsOp t o)
  else if k = 0x152 then c.put 0x141 (insOp (c.at 0x143) t o)
  else if k = 0x153 then c.put 0x141 (popcOp t)
  else if k = 0x154 then c.put 0x141 (clzOp t)
  else if k = 0x155 then c.put 0x141 (ctzOp t)
  else if k = 0x156 then c.put 0x141 (brevOp t)
  else if k = 0x157 then c.put 0x141 (bswapOp t)
  else if k = 0x158 then (c.put 0x141 (word (clmulOp t o))).put 0x142 (word (clmulOp t o / 2 ^ 32))
  else if k = 0x159 then crc 8
  else if k = 0x15A then crc 16
  else crc 32

/-- TIM.T.CAP and TIM.T.DUE (R87). -/
def State.timeOp (s : State) (c : Core) (k : Nat) (t : Word) : Core :=
  if k = 0x170 then
    (((c.put 0x162 (word (secOf s.time))).put 0x163 (word (secOf s.time / 2 ^ 32))).put 0x164 (word (nsOf s.time))).put 0x165
      (word (fracOf s.time))
  else c.put 0x161 (word (bit01 (decide (s.tick.start + t.toNat ≤ s.ns))))

/-- What a write to a socket that holds a value stores (R61, R65, R71, R85). Gn is readable one bundle later. -/
def Core.hold (c : Core) (a : Nat) (v : Word) : Core :=
  if 0x040 ≤ a ∧ a ≤ 0x07F then { c with late := c.late ++ [(a, v)] }
  else if (0x008 ≤ a ∧ a ≤ 0x00F) ∨ a = 0x083 ∨ a = 0x0C3 then c.put a (word (bit01 (v != 0)))
  else if a = 0x146 then c.put a (word (fieldOf v 0 5 + fieldOf v 8 1 * 256))
  else c.put a v

/-- A trigger that is neither a far transaction nor one of CTL. -/
def State.trigger (s : State) (n : Nat) (x : Effect) (m : Move) : Effect :=
  if 0x0A0 ≤ m.dst ∧ m.dst ≤ 0x0BB then { x with c := x.c.alu 0x080 (m.dst - 0x080) m.val }
  else if 0x0E0 ≤ m.dst ∧ m.dst ≤ 0x0FB then { x with c := x.c.alu 0x0C0 (m.dst - 0x0C0) m.val }
  else if 0x108 ≤ m.dst ∧ m.dst ≤ 0x10A then
    { x with c := { x.c with mul := x.c.mul ++ [(x.c.iss + 3, mulOp m.dst m.val (x.c.at 0x100))] } }
  else if m.dst = 0x118 ∨ m.dst = 0x119 then x.divide m
  else if 0x128 ≤ m.dst ∧ m.dst ≤ 0x12F then s.localOp n x m
  else if 0x150 ≤ m.dst ∧ m.dst ≤ 0x15B then { x with c := x.c.bitOp m.dst m.val }
  else if m.dst = 0x170 ∨ m.dst = 0x171 then { x with c := s.timeOp x.c m.dst m.val }
  else x

/-- Is the address of a far store or load misaligned (R101)? -/
def farMisaligned (t : Nat) (v : Word) : Bool :=
  if t = 0x130 ∨ t = 0x131 ∨ t = 0x188 ∨ t = 0x189 ∨ t = 0x18A ∨ t = 0x18B then v.toNat % 4 != 0
  else if t = 0x132 then v.toNat % 2 != 0 else false

/-- The operand socket of a far trigger's unit. -/
def farOperand (t : Nat) : Nat := if t < 0x140 then 0x120 else if t < 0x190 then 0x180 else 0x1B0

/-- The RXF_POP writes that a core has issued in the tick for the CAN controller whose RXF_HEAD stands at far address `a` (R196); 0 for another
address. -/
def Core.popsIssued (c : Core) (a : Nat) : Nat :=
  match blockOf a with
  | some (.can, o) =>
    let k := o / 0x8000
    Tab.get (fun _ => 0) c.rxfPops k +
      (c.posted.filter (fun p => p.trig == 0x131 && p.arg.toNat / 4 * 4 == canReg k 0x44 && bitOf p.data 0)).length
  | _ => 0

/-- A far trigger issues its transaction (R82, R83): a send of a length out of range is discarded (R92). -/
def Effect.issueFar (x : Effect) (m : Move) : Effect :=
  let ev := fun (f : Nat) => (⟨f, m.slot, x.c.pc⟩ : FlagEv)
  let op : FarOp := ⟨m.dst, m.val, x.c.at (farOperand m.dst), x.c.seq, x.c.pc, m.slot, none,
    if m.dst = 0x130 then x.c.popsIssued (m.val.toNat / 4 * 4) else 0⟩
  let fl := if farMisaligned m.dst m.val then [ev flagMisalign] else []
  if m.dst = 0x19C ∧ (fieldOf m.val 16 14 = 0 ∨ 9216 < fieldOf m.val 16 14) then { x with flags := x.flags ++ [ev flagRange] }
  else if farEntries m.dst = 0 then
    { x with c := { x.c with posted := x.c.posted ++ [op], seq := x.c.seq + 1 }, flags := x.flags ++ fl }
  else { x with c := { x.c with far := x.c.far ++ [op], seq := x.c.seq + 1 }, flags := x.flags ++ fl }

/-! ## Control flow (R94 to R97, R102) -/

/-- The target of a jump as an engine or the MCP takes it, and whether it sets RANGE (R96, R102). -/
def jumpTarget (n t : Nat) : Nat × Bool :=
  if n ≠ mcpCore then (t % 4096, decide (4096 ≤ t))
  else if t < 0x2000 ∨ (0x10000 ≤ t ∧ t < 0x20000) then (t, false)
  else (0, true)

/-- The bundle address that a jump trigger names: the sum of a relative jump is taken in 32 bits, so that a negative one lies above 4,095 and sets
RANGE (R96, log entry 155). -/
def jumpValue (pc : Nat) (m : Move) : Nat := if m.dst = 0x1A0 ∨ m.dst = 0x1A2 then m.val.toNat else (word pc + m.val).toNat

/-- The signature after a bundle (R97). -/
def sigAfter (sig adj : Word) (target : Option Nat) : Word :=
  match target with
  | some t => (sig ^^^ adj).rotateLeft 1 ^^^ word t
  | none => sig ^^^ adj

/-- The signature and LINK after a bundle's SIG_ADJ and jump, and the jump's event. The target that enters SIG is the address taken, modulo
4,096 or, on the MCP, 0 where T lies outside its memories (R97, log entry 42). -/
def Effect.control (x : Effect) (n : Nat) (ms : List Move) : Effect :=
  let adj := match ms.find? (fun m => m.dst == 0x012) with
    | some m => m.val
    | none => 0
  match ms.find? (fun m => isJump m.dst) with
  | none => { x with c := x.c.put 0x011 (sigAfter (x.c.at 0x011) adj none) }
  | some m =>
    let (t, out) := jumpTarget n (jumpValue x.c.pc m)
    let c1 := x.c.put 0x011 (sigAfter (x.c.at 0x011) adj (some t))
    let c2 := if isCall m.dst then c1.put 0x010 (word (x.c.pc + 3)) else c1
    { x with c := c2, flags := x.flags ++ (if out then [⟨flagRange, m.slot, x.c.pc⟩] else []) }

/-- The next bundle after one at `pc` without a jump, and whether passing there sets RANGE (R96, R102). -/
def fallThrough (n pc : Nat) : Nat × Bool :=
  if n ≠ mcpCore then (if pc = 4095 then (0, true) else (pc + 1, false))
  else if pc + 1 = 0x2000 ∨ pc + 1 = 0x20000 then (0, true) else (pc + 1, false)

/-- The core goes on to its next bundle: a jump has two delay bundles (R95). After a commit no bundle follows in the tick (R98). Passing on from
bundle 4,095 to delay bundle 0 sets RANGE also where bundle 4,095 holds the jump itself (log entry 170). -/
def Effect.advance (x : Effect) (n : Nat) (ms : List Move) : Effect :=
  let js := x.c.jumps.map (fun j => (j.1 - 1, j.2))
  let new := match ms.find? (fun m => isJump m.dst) with
    | some m => [(2, (jumpTarget n (jumpValue x.c.pc m)).1)]
    | none => []
  let (pc, out) := match js.find? (fun j => j.1 == 0) with
    | some j => (j.2, false)
    | none => if ms.any (fun m => m.dst == 0x1A8) then (x.c.pc, false) else fallThrough n x.c.pc
  { x with
    c := { x.c with
      pc := pc, jumps := js.filter (fun j => j.1 != 0) ++ new, cyc := x.c.cyc + 1, iss := x.c.iss + 1, stall := none, paid := (0, []) },
    flags := x.flags ++ (if out then [⟨flagRange, 0, x.c.pc⟩] else []) }

/-! ## The bundle as a whole -/

/-- Sockets and local units after a bundle: registers written before triggers use them (R57), the last bundle's Gn first (R65). A move that is
ignored for its destination still reads its source: it pops LSU.FQ and takes part in what R66, R78 and R82 say of reads (R99, log entry
156). -/
def State.bundleEffect (s : State) (n : Nat) (c : Core) (ws : Nat → Word) (ms : List Move) : Effect :=
  let es := effective (isMcpCore n) ms
  let c0 := c.late.foldl (fun (k : Core) x => k.put x.1 x.2) { c with late := [] }
  let popped := if (c.reads ws).contains 0x122 then ({ c0 with fq := c0.fq.drop 1 }).takeIn c0.far else c0
  let held := (es.filter (fun m => holds m.dst)).foldl (fun (k : Core) m => k.hold m.dst m.val) popped
  let x0 : Effect := ⟨held, none, moveFlags (isMcpCore n) c.pc ws ms ++ s.readFlags n c ws, none⟩
  let x1 := es.foldl (s.trigger n) x0
  let x2 := (es.filter (fun m => isFarTrigger m.dst)).foldl Effect.issueFar x1
  (x2.control n es).advance n es

/-- The events of a bundle in slot order. -/
def bySlot (fs : List FlagEv) : List FlagEv := (List.range 4).flatMap (fun j => fs.filter (fun e => e.slot == j))

/-- CTL.T.COMMIT of engine n with expected signature `t` (R98): the other moves of the bundle take effect first, whether or not the
signature fits; a bus error among them may trap. -/
def State.commitMove (s : State) (n : Nat) (t : Word) : State :=
  if (s.core n).at 0x011 ≠ t then (s.landRest n).haltsWith n (fun st => st.engineF2 n 5)
  else
    let (s1, bad) := s.settleFar n 32
    let s2 := (s1.countRefused n bad).flagsWithTrap n (refusals bad)
    match s2.logicalOf n with
    | some l => if (s2.core n).running then s2.commit l n else s2
    | none => s2

/-- The bundle issues (R56). CTL.STICKY_CLR acts before the bundle's own flags are set, so that a flag it both clears and sets stands at 1 (log
entry 153). A trap halts the core at its end, and nothing is then committed (R101, R118): a bundle that takes a trap and would
mismatch at its COMMIT halts with CAUSE 8 (log entry 154). -/
def State.runBundle (s : State) (n : Nat) (c : Core) (ws : Nat → Word) (ms : List Move) : State :=
  let x := s.bundleEffect n c ws ms
  let es := effective (isMcpCore n) ms
  let s1 := match x.store with
    | some (a, bs) => s.store a bs
    | none => s
  let s2 := match es.find? (fun m => m.dst == 0x014) with
    | some m => s1.setReg (coreSticky n) (clearBits (s1.reg (coreSticky n)) m.val)
    | none => s1
  let s3 := match x.lost with
    | some a => (s2.setCore n x.c).memoryFault a 0x01
    | none => s2.setCore n x.c
  match s3.noteFlags n (bySlot x.flags) with
  | (s4, some e) => (s4.landRest n).haltsWith n (fun st => st.trapTaken n e)
  | (s4, none) =>
    match es.find? (fun m => m.dst == 0x1A8) with
    | some m => s4.commitMove n m.val
    | none => s4

/-- The F2 that a finding of R117 means for this bundle, if any: a finding counts only where the bundle uses what it covers. -/
def findingCause (n : Nat) (c : Core) (ws : Nat → Word) (ms : List Move) : CoreFinding → Option Nat
  | .imDouble => some 1
  | .ldmDouble => if (effective (isMcpCore n) ms).any (fun m => decide (0x128 ≤ m.dst) && decide (m.dst ≤ 0x12F)) then some 2 else none
  | .rfDouble =>
    if n ≠ mcpCore ∧ ((c.reads ws).any (fun a => (decide (0x040 ≤ a) && decide (a ≤ 0x07F)) || (decide (0x008 ≤ a) && decide (a ≤ 0x00F)))
      || (List.range 4).any (fun j => !isLiteral ws j && decide (16 ≤ slotGuard (ws j)))) then some 3 else none
  | .residue =>
    if n ≠ mcpCore ∧ (effective (isMcpCore n) ms).any (fun m => (decide (0x0A0 ≤ m.dst) && decide (m.dst ≤ 0x0BB)) || (decide (0x0E0 ≤ m.dst) && decide (m.dst ≤ 0x0FB))) then some 4 else none
  | _ => none

/-- The address of a bundle's local access. -/
def localAccess (n : Nat) (ms : List Move) : Option Nat :=
  match (effective (isMcpCore n) ms).find? (fun m => decide (0x128 ≤ m.dst) && decide (m.dst ≤ 0x12F)) with
  | some m => if m.val.toNat < ldmSize n then some (localBase n + m.val.toNat) else none
  | none => none

/-- A single-bit error that the checks correct (R117, R373). -/
def State.findingFixed (s : State) (n : Nat) (c : Core) (ws : Nat → Word) (ms : List Move) : CoreFinding → State
  | .imSingle =>
    match bundleAddr n c.pc with
    | some a => s.corrected a
    | none => s
  | .ldmSingle =>
    match localAccess n ms with
    | some a => s.corrected a
    | none => s
  | .rfSingle =>
    if n ≠ mcpCore ∧ (findingCause n c ws ms .rfDouble).isSome then (s.bump (peGroup n + 0x90)).raise n 1 3 else s
  | _ => s

/-- A fault that the checks find before the bundle takes effect (R117): an engine halts. A bundle of the MCP's RAM that cannot be read raises an
F3, and is tried again; a local access of the MCP is answered as a bus error (R102, R374, log entry 48). -/
def State.findingFault (s : State) (n cause : Nat) (c : Core) (ws : Nat → Word) (ms : List Move) : State :=
  if n ≠ mcpCore then s.engineF2 n cause
  else if cause = 1 then
    let s1 := s.onCore n (fun k => { k with cyc := k.cyc + 1 })
    match bundleAddr n c.pc with
    | some a => if s.marchHolds 1 then s1 else s1.memoryFault a 0x01
    | none => s1
  else
    match localAccess n ms with
    | some a => (s.setBad a true).runBundle n c ws ms
    | none => s

/-- A bundle of the MCP whose RAM holds an uncorrectable error or is in a destructive run cannot be read (R374, R380). -/
def State.fetchFinding (s : State) (n : Nat) (c : Core) (found : CoreFinding) : CoreFinding :=
  match n == mcpCore, bundleAddr n c.pc with
  | true, some a => if s.isBad a || s.isBad (a + 8) || s.marchHolds 1 then .imDouble else found
  | _, _ => found

/-- The endpoint of a core. -/
def State.belled (s : State) (n : Nat) : Bool := s.doorbells (coreMaster n) != 0

/-- May core n issue (R47, R98, R415)? The MCP executes from RAM only once its firmware is verified (R414). -/
def State.mayIssue (s : State) (n : Nat) : Bool :=
  if n = mcpCore then s.mcpRuns && (s.bit mcpStat 1 || decide ((s.core n).pc < 0x2000))
  else (s.core n).running && decide ((s.core n).cyc < (s.reg (peGroup n + 0x40)).toNat)

/-- The bundle issues, or faults in its checks. -/
def State.issueNow (s : State) (n : Nat) (found : CoreFinding) (c : Core) (ws : Nat → Word) : State :=
  let ms := s.movesOf n c ws
  match findingCause n c ws ms (s.fetchFinding n c found) with
  | some k => s.findingFault n k c ws ms
  | none => (s.findingFixed n c ws ms found).runBundle n c ws ms

/-- A stall cycle (R67): in GUARDED mode general registers written by the last bundle become readable, and local loads come one cycle
nearer (R65, R66). -/
def State.stallCycle (s : State) (n : Nat) (c : Core) (stall : Option Nat) : State :=
  let c1 := if s.guarded n then
      c.late.foldl (fun (k : Core) x => k.put x.1 x.2) { c with late := [], lsu := c.lsu.map (fun x => (x.1 - 1, x.2)) }
    else c
  s.setCore n { c1 with cyc := c.cyc + 1, stall := stall }

/-- The bundle that may issue serves the stall cycles of its own far transactions, and then issues (R43, R83). A bundle that waits in
CTL.T.WAIT serves them when its wait has ended (log entry 131). -/
def State.issueOwn (s : State) (n : Nat) (found : CoreFinding) (c : Core) (ws : Nat → Word) : State :=
  let ms := s.movesOf n c ws
  let lines := s.dueLines n c ms
  let s1 := { s with freeCtr := s.freeCtr + lines.length }
  match s.ownStall n c ms with
  | 0 => s1.issueNow n found c ws
  | k + 1 => s1.stallCycle n { c with paid := (max c.paid.1 (farMoves ms), c.paid.2 ++ lines) } (some k)

/-- The move to CTL.T.WAIT of a bundle, if one takes effect. -/
def waitMove (n : Nat) (ms : List Move) : Option Move := (effective (isMcpCore n) ms).find? (fun m => m.dst == 0x1A9)

/-- The wait that the bundle enters, if it does: not while an unmasked doorbell is pending, nor after its wait has ended (R98). -/
def State.entersWait (s : State) (n : Nat) (c : Core) (ms : List Move) : Option Move :=
  if c.stall.isSome || s.belled n then none else waitMove n ms

/-- BUNDLE_ISSUE: one cycle of core n. The guards are evaluated anew in each cycle until the bundle issues (R61), and what they then let
execute must find room as well (R25, R83). -/
def State.bundleIssue (s : State) (n : Nat) (found : CoreFinding) : State :=
  if !s.mayIssue n then s
  else
    let c := (s.core n).deliver
    let ws := s.codeWord n c.pc
    let ms := s.movesOf n c ws
    if c.wait.isSome then s.stallCycle n c none
    else
      match c.stall with
      | some (k + 1) => s.stallCycle n c (some k)
      | settled =>
        if s.mustStall n c ws ms then s.stallCycle n c settled
        else
          match s.entersWait n c ms with
          | some m => s.setCore n { c with
              wait := some (if m.val = 0 then none else some (c.cyc + m.val.toNat)), cyc := c.cyc + 1 }
          | none => s.issueOwn n found c ws

/-- CTL_WAIT_END (R98): an unmasked doorbell is pending or the timeout has passed, and the wait is over: the bundle that waited issues with the
core's next BUNDLE_ISSUE. -/
def State.waitEnd (s : State) (n : Nat) : State :=
  match (s.core n).wait with
  | none => s
  | some t =>
    let late := match t with
      | some k => decide (k ≤ (s.core n).cyc)
      | none => false
    if s.mayIssue n && (s.belled n || late) then s.onCore n (fun c => { c with wait := none, stall := some 0 }) else s

/-! ## Results of the local units (R66, R75 to R79) -/

/-- MUL_RESULT: the oldest product is written when it is due; the checker may find a wrong residue (R79). -/
def State.mulResult (s : State) (n : Nat) (ok : Bool) : State :=
  match (s.core n).mul with
  | [] => s
  | (t, p) :: rest =>
    if (s.core n).iss < t then s
    else if !ok && n != mcpCore then s.engineF2 n 4
    else s.setCore n { ((s.core n).put 0x101 (p.setWidth 32)).put 0x102 ((p >>> 32).setWidth 32) with mul := rest }

/-- DIV_RESULT. -/
def State.divResult (s : State) (n : Nat) (ok : Bool) : State :=
  match (s.core n).div with
  | none => s
  | some (t, q, m, v) =>
    if (s.core n).iss < t then s
    else if !ok && n != mcpCore then s.engineF2 n 4
    else s.setCore n { (((s.core n).put 0x111 q).put 0x112 m).put 0x113 (word (bit01 v)) with div := none }

/-- LSU_LOAD_RESULT. -/
def State.lsuResult (s : State) (n : Nat) : State :=
  match (s.core n).lsu with
  | [] => s
  | (t, v) :: rest => if (s.core n).iss < t then s else s.setCore n { (s.core n).put 0x121 v with lsu := rest }

end Sys2Proof.Machine
end

