-- ==== Sys2Proof/Machine/Runtime.lean ====
section
/-!
DEFINITION. The course of a tick and of a takeover as the device's own events: the boundary (R33 to R38, R49), the engines' start of the tick
(R69, R44), overruns (R47, R52), takeovers and the loader (R120 to R124), bindings made and undone (R111, R112), the transfer of released
outputs (R42), and the tests of engines and memories (R119, R125, R377 to R379).
-/
namespace Sys2Proof.Machine

/-- All 32 logical engines in turn. -/
def State.eachLogical (s : State) (f : State → Nat → State) : State := (List.range 32).foldl f s

/-- All 36 engines in turn. -/
def State.eachEngine (s : State) (f : State → Nat → State) : State := (List.range 36).foldl f s

/-! ## Released outputs (R42) -/

/-- One released output enters its block: a register write, or a frame of the engine port. A slot that two sends name gives its bytes to the
first; the second finds it emptied and sends a frame of zeros (log entry 169). -/
def State.transferOne (s : State) (l n t : Nat) : Staged → State
  | .write a d => s.applyStaged l n t a d
  | .send i len =>
    (s.enterFrame (enginePort l) (some l) (bytesAt (s.slot l i).data 0 len) (some t)).emptySlot l i

/-- STAGED_OUTPUT_TRANSFER: what L's last commit released enters its queues in the order of issue. -/
def State.transferOutputs (s : State) (l : Nat) : State :=
  let (n, t) := Tab.get (fun _ => (0, 0)) s.pec.releasedBy l
  let out := Tab.get (fun _ => []) s.pec.released l
  out.foldl (fun (st : State) (x : Staged) => st.transferOne l n t x)
    { s with pec := { s.pec with released := Tab.set (fun _ => []) s.pec.released l [] } }

/-! ## Overruns (R47, R52) -/

/-- An overrun of engine n is shown: TICK_STAT.OVERRUN (and DEADLINE), TICK.STATUS.OVERRUN, OVERRUN_CNT and USED. -/
def State.noteOverrun (s : State) (n : Nat) (deadline : Bool) : State :=
  let s1 := ((s.noteUsed n).setBit (peGroup n + 0x4C) 2 true).setBit tickStatus 4 true
  (if deadline then s1.setBit (peGroup n + 0x4C) 3 true else s1).bump (peGroup n + 0x50)

/-- BUDGET_EXHAUSTED: the counter of engine n reaches the effective budget without a commit. In a re-execution that is a fault of the
image (R52). -/
def State.budgetExhausted (s : State) (n : Nat) : State :=
  let c := s.core n
  if !c.running || decide (c.cyc < (s.reg (peGroup n + 0x40)).toNat) then s
  else
    let s1 := s.noteOverrun n false
    match s.logicalOf n with
    | none => s1.engineF2 n 6
    | some l =>
      match s.takeover l with
      | some t => if s.peState n = 5 ∧ t.chosen = n then (s1.setBit (peGroup n + 0x4C) 4 true).imageFault l n 6 t else s1.engineF2 n 6
      | none => s1.engineF2 n 6

/-- The deadline finds a re-execution of L unfinished: a missed commit, and the spare goes on from the next tick (R48, R52, R124). -/
def State.lateReexec (s : State) (l : Nat) (t : Takeover) : State :=
  let n := t.chosen
  if s.peState n = 5 then
    let s1 := ((s.noteOverrun n true).stopCore n).setPeState n 4
    (((s1.setBit (peGroup n + 0x4C) 1 false).conclude l 1).setTakeover l none).setBindState l 2
  else (s.conclude l 1).setTakeover l (some { t with reexec := false })

/-- The deadline for logical engine L: uncommitted, it has overrun, unless its miss is known already. -/
def State.deadlineOf (s : State) (l : Nat) : State :=
  if s.committedIn l || s.missedIn l then s
  else if s.bindState l = 2 ∧ s.barredIn l = false ∧ s.logicalOf (s.phys l) = some l ∧ s.peState (s.phys l) = 4 then
    (s.noteOverrun (s.phys l) true).engineF2 (s.phys l) 7
  else if s.bindState l = 3 then
    match s.takeover l with
    | some t => if t.reexec then s.lateReexec l t else s
    | none => s
  else s

/-- The commit deadline passes for every logical engine. -/
def State.deadlinePass (s : State) : State :=
  let s1 := s.eachLogical (fun (st : State) (l : Nat) => st.deadlineOf l)
  { s1 with pec := { s1.pec with deadlineDue := false } }

/-- COMMIT_DEADLINE (R37, R47). -/
def State.commitDeadline (s : State) : State := if s.pec.deadlineDue && decide (s.deadline ≤ s.ns) then s.deadlinePass else s

/-! ## Takeovers (R120 to R124) -/

/-- TAKEOVER_START: L's engine has failed. Before the commit the spare re-executes the tick; after it, or where the tick can no longer be
committed, it is prepared for the next one (R48, R49). -/
def State.takeoverStart (s : State) (l : Nat) : State :=
  let st := s.bindState l
  if (st = 1 ∨ st = 2) ∧ s.logicalOf (s.phys l) ≠ some l ∧ (s.takeover l).isNone then
    let failed := s.phys l
    let cause := s.peCause failed
    let stands := s.committedIn l || s.barredIn l || st == 1
    let reexec := !stands && s.pec.deadlineDue && !s.missedIn l
    let s1 := s.bump (bindAddr l + 0x90)
    match s1.chooseSpare l with
    | some m =>
      let s2 := s1.bindSpare l m failed cause reexec
      if stands || reexec then s2 else s2.conclude l 1
    | none =>
      let s2 := s1.waitForSpare l failed cause stands
      if stands then s2.passHeld failed (takeoverDetail l failed 0xFF cause 1) else s2.conclude l 1
  else s

/-- Engine n, which serves L, begins the tick: at its first due image, or with the automatic commit where none is due (R44, R113). -/
def State.beginTick (s : State) (l n : Nat) : State :=
  let s1 := s.clearWritten l
  match s.dueImages l s.tickIndex with
  | a :: _ => s1.startCore n (s.imgEntry a)
  | [] => (s1.startCore n 0).commit l n

/-- The load of a takeover has ended well: the spare re-executes the tick, or is ready for the next one. -/
def State.spareReady (s : State) (l n : Nat) (t : Takeover) : State :=
  if t.reexec then (((s.giveBudget l n).setPeState n 5).setBit (peGroup n + 0x4C) 1 true).beginTick l n
  else
    let s1 := (s.setPeState n 4).setBindState l 2
    (if s1.missedIn l then s1 else s1.conclude l 0).setTakeover l none

/-- The first uncorrectable word that the loader meets where it loads the images of L into engine n (R121). -/
def State.loadBad (s : State) (l n : Nat) : Option Nat :=
  ((s.images l).filter (fun i => !s.preloaded n i)).findSome? (fun i => s.codeBad i)

/-- The load of engine n for L meets an uncorrectable word: the memory's fault, read under the spare's identity, and a failed load where L
still waits for it (R121, R374). -/
def State.loadFault (s : State) (l n a : Nat) : State :=
  let s1 := s.memoryFault a (0x10 + n)
  if s1.logicalOf n = some l then s1.engineF2 n 9 else s1

/-- LOADER_LOAD_COMPLETE: the load at the head of the loader ends, and its checks have passed or not (R121). -/
def State.loadComplete (s : State) (checksOk : Bool) : State :=
  match s.pec.loads with
  | [] => s
  | x :: rest =>
    let s1 := { s with pec := { s.pec with loads := rest } }
    if s.logicalOf x.engine ≠ some x.l then s1
    else if let some a := s.loadBad x.l x.engine then s1.loadFault x.l x.engine a
    else if checksOk && (s.imageAddrs x.l).all (fun a => s.codeCrcOk a) then
      let s2 := (s1.loadImages x.l x.engine).forgetPreloads x.engine
      match s2.takeover x.l with
      | some t => if x.takeover then s2.spareReady x.l x.engine t else s2
      | none => { s2 with pec := { s2.pec with loaded := Tab.set (fun _ => false) s2.pec.loaded x.engine true } }
    else s1.engineF2 x.engine 9

/-- SPARE_PRELOAD_DEAL (R123): the loader copies each dealt image under the spare's identity; one whose copy holds an uncorrectable error is
not preloaded (R374). -/
def State.preloadDeal (s : State) : State :=
  let s1 := (List.range 128).foldl (fun st i => if st.bit (imgStat i) 14 then st.setBit (imgStat i) 14 false else st) s
  (s1.dealOver s1.dealOrder s1.spares []).foldl (fun (st : State) (p : Nat × Nat) =>
    match st.codeBad p.2 with
    | some a => st.memoryFault a (0x10 + p.1)
    | none => ((st.loadCode p.1 (st.fld (imgAddr p.2) 0 23)).setFld (imgStat p.2) 8 6 p.1).setBit (imgStat p.2) 14 true) s1

/-- A request that the last boundary made due. -/
def State.isDue (s : State) (l bit : Nat) : Bool := (Tab.get (fun _ => 0) s.pec.due l).testBit bit

/-- It is served. -/
def State.dropDue (s : State) (l bit : Nat) : State :=
  if s.isDue l bit then
    { s with pec := { s.pec with due := Tab.set (fun _ => 0) s.pec.due l (Tab.get (fun _ => 0) s.pec.due l - 2 ^ bit) } }
  else s

/-- SPARE_TAKEUP: L, which waits for a spare, takes one that has come free. It commits nothing in this tick (R44, R124). -/
def State.spareTakeup (s : State) (l : Nat) : State :=
  if s.isDue l 2 then
    let s1 := s.dropDue l 2
    match s.chooseSpare l, s.takeover l with
    | some m, some t =>
      if s.bindState l = 4 then
        ((s1.bump (bindAddr l + 0x90)).bindSpare l m t.failed t.cause false).setBarredIn l true
      else s1
    | _, _ => s1
  else s

/-! ## Bindings made and undone (R111, R112) -/

/-- The binding that a GO makes, its conditions being met. -/
def State.bindNow (s : State) (l m : Nat) : State :=
  let s1 := (s.bindEngine l m false).setBindState l 1
  let s2 := (s1.epClear (0x10 + m)).setBarredIn l true
  let s3 := if s.bit (bindAddr l) 2 then s2 else s2.tsClear l
  (s3.setReg (bindAddr l + 0x10) (word (s3.worstBudget l))).setTakeover l none |>.otfPlace l

/-- BINDING: a GO is checked at the boundary; a condition that fails is named by ERR_CODE. -/
def State.binding (s : State) (l : Nat) : State :=
  if s.isDue l 0 then
    let s1 := s.dropDue l 0
    if s.bindState l = 0 ∨ s.bindState l = 5 then
      match s1.goError l, s1.chooseSpare l with
      | 0, some m => s1.bindNow l m
      | e, _ => (s1.setBit (bindAddr l + 4) 17 true).setFld (bindAddr l + 4) 20 4 e
    else s1
  else s

/-- The engine that serves L, if it still does, returns to the spares. -/
def State.freeEngine (s : State) (l : Nat) : State :=
  let n := s.phys l
  if s.logicalOf n = some l then
    (((s.stopCore n).setServes n none).dropLoads n).setPeState n (if s.peState n = 6 then 6 else 2)
  else s

/-- UNBIND: a HALT takes effect at the boundary (R112). A takeover that still waits passes its event on. -/
def State.unbind (s : State) (l : Nat) : State :=
  if s.isDue l 1 then
    let s1 := s.dropDue l 1
    if 2 ≤ s.bindState l then
      let s2 := match s1.takeover l with
        | some t => (s1.passHeld t.failed (takeoverDetail l t.failed t.chosen t.cause 1)).setTakeover l none
        | none => s1
      let s3 := (((s2.freeEngine l).setReasons (s2.unitsOf l) 0).otfRemove l).setBindState l 0
      if s3.lineBroken (0x24 + l) 2 then s3 else s3.setLive (0x24 + l) 2 false
    else s1
  else s

/-! ## The boundary (R33 to R38, R48, R49) -/

/-- What the end of the tick finds at L: an engine that failed without a takeover misses its commit (R48). -/
def State.tickEnds (s : State) (l : Nat) : State :=
  let n := s.phys l
  if s.bindState l = 2 ∧ s.logicalOf n ≠ some l ∧ (s.takeover l).isNone ∧ s.committedIn l = false ∧ s.barredIn l = false then
    let d := takeoverDetail l n 0xFF (s.peCause n) 1
    (s.passHeld n d).missedCommit l (s.peCause n) d
  else s

/-- What the new tick makes of L: one that waits for a spare misses its commit, unless a HALT ends the wait (R49, R112, R124), a loaded
binding runs, and a takeover that is still loading runs from the next tick (log entry 43). The first miss of one that lost its engine after its
commit counts although a HALT falls due with it (log entry 175). -/
def State.tickStarts (s : State) (l : Nat) : State :=
  let n := s.phys l
  match s.takeover l with
  | some t =>
    if s.standingOf l then
      (s.setStanding l false).missedCommit l t.cause (takeoverDetail l t.failed t.chosen t.cause 1)
    else if s.bindState l = 4 ∧ Tab.get (fun _ => false) s.pec.haltPend l = false then
      (((s.setMissedIn l true).bump (bindAddr l + 0x80)).setBit tickStatus 5 true).raiseVector 17
    else if s.bindState l = 3 ∧ t.reexec = false then
      ((s.passHeld t.failed (takeoverDetail l t.failed t.chosen t.cause 0)).giveBudget l t.chosen).setTakeover l (some { t with reexec := true })
    else s
  | none =>
    if s.bindState l = 1 ∧ Tab.get (fun _ => false) s.pec.loaded n = true then (s.setBindState l 2).setPeState n 4 else s

/-- The requests that the boundary makes due for L: GO, HALT, and a spare for one that waits. -/
def State.dueOf (s : State) (l : Nat) : Nat :=
  bit01 (Tab.get (fun _ => false) s.pec.goPend l) + 2 * bit01 (Tab.get (fun _ => false) s.pec.haltPend l) +
    4 * bit01 (s.bindState l == 4 && !s.spares.isEmpty)

/-- The input views at the boundary: channels, and the frames that wait for each logical engine (R38). The CAN view follows
(CAN_VIEW_CAPTURE). -/
def State.captureViews (s : State) : State :=
  let s1 := (List.range 256).foldl (fun (st : State) (n : Nat) => st.chanView n) s
  (List.range 33).foldl (fun (st : State) (l : Nat) =>
    { st with pec := { st.pec with framesSeen := Tab.set (fun _ => 0) st.pec.framesSeen l (st.waitingOf l).length } }) s1

/-- What L, which lost its engine after the commit and waits for a spare, committed for this boundary or later does not reach the pads: the writes
that the engine of its commit left for the boundary and its CAN requests are gone (R49). -/
def State.dropStanding (s : State) (l : Nat) : State :=
  if s.standingOf l then
    let n := (Tab.get (fun _ => (0, 0)) s.pec.releasedBy l).1
    let s1 := if s.committedIn l then { s with pec := { s.pec with atBoundary := s.pec.atBoundary.filter (fun x => x.1 != n) } } else s
    (List.range 32).foldl (fun (st : State) (k : Nat) => if st.ownsUnit l (256 + k) then st.canDropStaged k else st) s1
  else s

/-- What waited for the boundary takes effect in the order of issue (R147, R329). -/
def State.applyBoundaryWrites (s : State) : State :=
  s.pec.atBoundary.foldl (fun (st : State) (x : Nat × Nat × Word) => st.applyAtBoundary x)
    { s with pec := { s.pec with atBoundary := [] } }

/-- Traverse evaluates its axes at this grid point, if it has not yet, and what waited for the boundary takes effect in the order issued (R147,
R328, R329). Then the network setpoints of the tick are evaluated (R336). -/
def State.boundaryPoint (s : State) : State :=
  let s1 := (if s.onGrid then s else s.gridEval s.gridTime).applyBoundaryWrites
  (s1.afterOrders (s1.trav.grid.getD s1.gridTime)).noteSetpoints

/-- What the part keeps of the ended tick is cleared: commits, misses, and COMMITTED of every engine. -/
def State.clearTick (s : State) : State :=
  let s1 := { s with pec := { s.pec with committed := [], missed := [], barred := [] } }
  s1.eachEngine (fun (st : State) (n : Nat) => st.setBit (peGroup n + 0x4C) 0 false)

/-- The tick that starts at the boundary `e`. At the boundary at which RUNNING becomes 1 the requests that waited fall due as well (log entry
172). -/
def State.newTick (s : State) (e : Nat) : State :=
  let s0 := (s.tickBegin e).startMs.eachLogical (fun (st : State) (l : Nat) => st.dropStanding l)
  let s1 := (s0.boundaryPoint.releasesDue.captureViews).ropeTick.otfPresent
  let s2 := ({ s1 with sw := { s1.sw with auditDue := true } }).clearTick
  let s3 := s2.eachLogical (fun (st : State) (l : Nat) => st.tickStarts l)
  let due := (List.range 32).foldl (fun (t : Tab Nat) l => Tab.set (fun _ => 0) t l (s3.dueOf l)) []
  let s4 := { s3 with pec := { s3.pec with due := due, goPend := [], haltPend := [], startDue := true, deadlineDue := true, canDue := true } }
  s4.aliveCheck

/-- TICK_BOUNDARY (R37). What the ended tick still owed has taken place: transfers are complete within 2 µs of their commits (R42), and an
engine that has not committed has overrun (R47). -/
def State.tickBoundary (s : State) : State :=
  match s.boundaryReached with
  | none => s
  | some e =>
    let s1 := s.eachLogical (fun (st : State) (l : Nat) => st.transferOutputs l)
    let s2 := if s1.pec.deadlineDue then s1.deadlinePass else s1
    let s3 := if s2.running then s2.eachLogical (fun (st : State) (l : Nat) => st.tickEnds l) else s2
    if s3.tick.stopping then s3.tickEnd.aliveCheck else s3.newTick e

/-- Engine n starts the tick for L, if it serves it and may run (R69, R111). What is in flight from before takes effect first (log
entry 45). -/
def State.engineStarts (s : State) (n : Nat) : State :=
  match s.logicalOf n with
  | some l =>
    if s.peState n = 4 ∧ s.bindState l = 2 ∧ s.barredIn l = false then
      let s1 := s.flushFar n
      if s1.logicalOf n = some l then (s1.setReg (peGroup n + 0x40) (word (s1.effBudget l s1.tickIndex))).beginTick l n else s1
    else s
  | none => s

/-- CAN_VIEW_CAPTURE (R37, R185): once in a tick, at t0 + 25 ns at the latest, the controllers capture their input views and staged requests
become eligible. -/
def State.canCapture (s : State) : State :=
  if s.pec.canDue then
    let s1 := { s with pec := { s.pec with canDue := false } }
    (List.range 32).foldl (fun (st : State) (k : Nat) => st.canView k) s1
  else s

/-- ENGINE_TICK_START (R69, R89): the CAN views have been captured, the requests that are due have been served (a HALT before a GO, log entry 174),
reservations of the engines end, and the engines begin. -/
def State.engineTickStart (s : State) : State :=
  if s.pec.startDue && decide (s.tick.start + 40 ≤ s.ns) then
    let s1 := s.canCapture.eachLogical (fun (st : State) (l : Nat) => ((st.unbind l).binding l).spareTakeup l)
    let s2 := s1.eachEngine (fun (st : State) (n : Nat) => st.setReservation (0x10 + n) none)
    let s3 := s2.eachEngine (fun (st : State) (n : Nat) => st.engineStarts n)
    { s3 with pec := { s3.pec with startDue := false } }
  else s

/-! ## Tests of engines and memories (R119, R125, R377 to R379) -/

/-- LOGIC_BIST_COMPLETE: the MCP returns a halted engine to the spares, or maps it out where the test fails or the engine has failed three
times in 30 days (R125, R438). Its endpoint is no longer redirected (R364). -/
def State.bistComplete (s : State) (n : Nat) (pass : Bool) : State :=
  if s.peState n = 1 ∨ s.peState n = 6 then
    let s1 := (s.setReg (epRedir (0x10 + n)) 0).setLive n 2 false
    if pass && decide (s.recentF2 n < 3) then (s1.setPeState n 2).setBit (peStateAddr n) 20 false else s1.useSpare 1 n 0
  else s

/-- Is a region of engine n's memories held by a preloaded image? -/
def State.preloadAt (s : State) (n o : Nat) : Option Nat :=
  findFrom (fun i => s.preloaded n i && decide (o < 0x10000) &&
    (let a := s.fld (imgAddr i) 0 23
     decide (16 * s.imgCodeBase a < o + 64) && decide (o < 16 * (s.imgCodeBase a + s.imgBundles a)))) 128 0

/-- A lane finds an uncorrectable error at offset `o` of engine n's memories (R119): a preloaded image is forgotten; otherwise the
engine has failed. -/
def State.laneDouble (s : State) (n o : Nat) : State :=
  match s.preloadAt n o with
  | some i => if s.peState n = 2 then s.setBit (imgStat i) 14 false else s.engineF2 n 1
  | none => s.engineF2 n (if o < 0x10000 then 1 else 2)

/-- Has a tester's INTERVAL passed since its last region (R377)? `key` as in `bgtNext`. -/
def State.bgtDue (s : State) (key : Nat) : Bool :=
  let t := Tab.get (fun _ => 0) s.mbx.bgtAt key
  t == 0 || decide (t - 1 + s.fld (memReg 0) 16 16 * cycUs ≤ s.cyc)

/-- May a lane test engine n now: in SPARE at any time, in ACTIVE between its commit and the next tick start, which a test of 20 CORE cycles
(25 ns) does not reach (R377, R378)? A test that would reach it is abandoned, and the region stays the next one. -/
def State.laneFree (s : State) (n : Nat) : Bool :=
  s.peState n == 2 || (s.peState n == 4 && !(s.core n).running && s.bit (peGroup n + 0x4C) 0 &&
    match s.tick.next with
    | some e => decide (s.ns + 25 ≤ e)
    | none => true)

/-- May the background tester of a class (and lane) run now (R377, R378)? -/
def State.bgtRuns (s : State) (cls pe : Nat) : Bool :=
  s.bit (memReg 0) cls && s.bgtDue (if cls = 2 then 2 + pe else cls) && (if cls = 2 then s.laneFree pe else decide (cls < 2))

/-- What the save of a region finds (R373, R374). -/
def State.bgtFound (s : State) (cls pe a : Nat) : EccFinding → State
  | .clean => s
  | .single =>
    if cls = 0 then ({ s with freeCtr := s.freeCtr + 1 }).correctedPacket ((freeValue 8 s.freeCtr).toNat) ((freeValue 6 s.freeCtr).toNat)
    else s.corrected a
  | .double => if cls = 0 then s.cellUe else if cls = 1 then s.memoryFault a 0x05 else s.laneDouble pe ((a - peBase) % 0x40000)

/-- BGT_REGION_TEST: one region of a class is tested. A scratchpad region's test writes it, and a spare whose own memory fails its
patterns leaves the spares (R119). -/
def State.bgtTest (s : State) (cls pe : Nat) (found : EccFinding) (fails : Bool) : State :=
  if s.bgtRuns cls pe then
    let key := if cls = 2 then 2 + pe else cls
    let a := bgtAddr cls pe (Tab.get (fun _ => 0) s.mbx.bgtNext key)
    let s0 := { s with mbx := { s.mbx with bgtAt := Tab.set (fun _ => 0) s.mbx.bgtAt key (s.cyc + 1) } }
    let s1 := s0.bgtFound cls pe a found
    let s2 := if cls = 1 then (List.range 8).foldl (fun (st : State) (j : Nat) => st.endReservations 0x05 (a / 8 + j)) s1 else s1
    let s3 := if fails then s2.bgtFail cls a else s2
    let s4 := if fails && cls == 2 && s3.peState pe == 2 then s3.engineF2 pe (if (a - peBase) % 0x40000 < 0x10000 then 1 else 2) else s3
    s4.bgtAdvance cls pe
  else s

/-! ## Faults that an engine's checkers find (R117) -/

/-- The line of an engine is handled as in fault by the collector alone: the engine halts and a takeover starts (R120, R385, R397; log entry
32). One that is OFF or halted already stays so. -/
def State.engineHit (s : State) (n : Nat) : State := if s.peState n = 0 ∨ s.peState n = 6 then s else s.engineFails n 16 false

/-- Does the collector take an injection in mode REAL on the line of an engine now? -/
def State.hitByInjection (s : State) (src cls : Nat) : Bool :=
  decide (src < 36) && cls == 2 && !s.flt.detected.any (onLine src cls) &&
    match s.unseenInjection src cls with
    | some i => i.mode == 1
    | none => false

/-- FAULT_TAKEN for any line (R387). An F2 that a checker of engine `src` finds now halts the engine first; one that is OFF or halted already
finds none. -/
def State.faultSeen (s : State) (src cls cause : Nat) (vector : Word) : State :=
  if src < 36 ∧ cls = 2 ∧ s.flt.detected.any (onLine src cls) = false ∧ (s.unseenInjection src cls).isNone then
    if s.peState src = 0 ∨ s.peState src = 6 then s else (s.engineF2 src cause).faultTaken src cls cause vector
  else
    let s1 := s.faultTaken src cls cause vector
    if s.hitByInjection src cls then s1.engineHit src else s1

/-- A line that the collector has newly found broken, where it is an engine's (R385). -/
def State.afterBreak (s : State) (before : State) (src cls : Nat) : State :=
  if src < 36 ∧ cls = 2 ∧ before.lineBroken src cls = false ∧ s.lineBroken src cls = true then s.engineHit src else s

/-- PATH_BROKEN, PATH_TEST and INJ_MISSED for any line (R385, R386, R397). -/
def State.pathSeen (s : State) (src cls : Nat) : State := (s.pathBroken src cls).afterBreak s src cls
def State.pathTested (s : State) (src cls : Nat) (pulseSeen : Bool) : State := (s.pathTest src cls pulseSeen).afterBreak s src cls
def State.missedSeen (s : State) : State :=
  match s.flt.injection with
  | some i => s.injMissed.afterBreak s i.src i.cls
  | none => s

/-- LOCKSTEP_MISMATCH (R415): both MCP cores halt, LOCKSTEP_OK falls, and source 0x65 raises an F4. -/
def State.lockstepMismatch (s : State) : State :=
  if s.mgt.mcpHalted then s
  else
    let s1 := (s.stopCore mcpCore).setBit mcpStat 0 false
    ({ s1 with mgt := { s1.mgt with mcpHalted := true } }).raise 0x65 4 0x0100

end Sys2Proof.Machine
end

