-- ==== Sys2Proof/Machine/Cmd.lean ====
section
/-!
DEFINITION. What the meanings of the commands share: events of the units and accesses to one register by a master (R6, R446). The files
named Exec hold one meaning for each row of the table; a row that a master's write or read causes is that access to the row's own register.
-/
namespace Sys2Proof.Machine

/-- What a write that names no management command brings from outside: nothing. -/
def nothingSigned : Signed := ⟨noBundle, 0, 0, false⟩

/-- A write of the register at device address `a` by a master. -/
def regWrite (w : Who) (a : Nat) (d : Word) (s : State) : State := State.answerStore (s.busStore w a d nothingSigned)

/-- A write of MGT.CMD or LC_CMD, with what it brings from outside. -/
def signedWrite (w : Who) (a : Nat) (d : Word) (x : Signed) (s : State) : State := State.answerStore (s.busStore w a d x)

/-- A read of the register at device address `a` by a master. -/
def regRead (w : Who) (a : Nat) (s : State) : State :=
  if isHost w && w.path == .pciePair then s.pairLoad w a else (s.busLoad w a).answer

/-- An event of a unit: its effect `s1`, or nothing where the part has no such unit (log entries 3 and 9). -/
def event (ok : Bool) (s s1 : State) : Host.Outcome State Fault Refusal := .next (if ok then s1 else s)

/-- An address at which the device map places nothing (R445): where an access that names a unit the part does not have goes. -/
def nowhere : Nat := 2 ^ 40 - 4

/-- A write by a master to a register of a unit: its effect `s1`, or the bus error of R8 where the part has no such unit. A master that does not
exist makes none (log entry 3). -/
def access (w : Who) (ok : Bool) (s s1 : State) : Host.Outcome State Fault Refusal :=
  .next (if w.ok then (if ok then s1 else regWrite w nowhere 0 s) else s)

/-- A read by a master of a register of a unit: its effect `s1`, or the zero of R8 where the part has no such unit. -/
def query (w : Who) (ok : Bool) (s s1 : State) : Host.Outcome State Fault Refusal :=
  .next (if w.ok then (if ok then s1 else regRead w nowhere s) else s)

/-- A write of any register: what a management command would bring from outside is free (log entry 6). -/
def anyWrite (w : Who) (a : Nat) (d : Word) (s : State) : State :=
  signedWrite w a d s.signedFree { s with freeCtr := s.freeCtr + 4 }

end Sys2Proof.Machine
end

