-- ==== Sys2Proof/Machine/ExecCan.lean ====
section
/-!
DEFINITION. Meanings: CAN FD controllers (chapter 07).
-/
namespace Sys2Proof.Machine

/-- CAN_MODE_WRITE (R179). -/
def execCanModeWrite (w : Who) (k : Nat) (data : Word) (s : State) : Host.Outcome State Fault Refusal :=
  access w (isCan k) s (regWrite w (canReg k 0) data s)

/-- CAN_MODE_CHANGE (R179). -/
def execCanModeChange (k : Nat) (s : State) : Host.Outcome State Fault Refusal := event (isCan k) s (s.canModeChange k)

/-- CAN_INTEGRATION_COMPLETE (R178). -/
def execCanIntegrationComplete (k : Nat) (s : State) : Host.Outcome State Fault Refusal := event (isCan k) s (s.canIntegrated k)

/-- BO_REC (R189): CTL.BO_REC is written. -/
def execBoRec (w : Who) (k : Nat) (data : Word) (s : State) : Host.Outcome State Fault Refusal :=
  access w (isCan k) s (regWrite w (canReg k 0) data s)

/-- BUS_OFF_RECOVERY_COMPLETE (R189). -/
def execBusOffRecoveryComplete (k : Nat) (s : State) : Host.Outcome State Fault Refusal := event (isCan k) s (s.canRecovered k)

/-- CAN_TX_REQ (R182). -/
def execCanTxReq (w : Who) (k : Nat) (slots : Word) (s : State) : Host.Outcome State Fault Refusal :=
  access w (isCan k) s (regWrite w (canReg k 0x24) slots s)

/-- CAN_TX_CXL (R188). -/
def execCanTxCxl (w : Who) (k : Nat) (slots : Word) (s : State) : Host.Outcome State Fault Refusal :=
  access w (isCan k) s (regWrite w (canReg k 0x28) slots s)

/-- CAN_NEW_CLR (R194). -/
def execCanNewClr (w : Who) (k : Nat) (data : Word) (s : State) : Host.Outcome State Fault Refusal :=
  access w (isCan k) s (regWrite w (canReg k 0x48) data s)

/-- CAN_RXF_POP (R196). -/
def execCanRxfPop (w : Who) (k : Nat) (data : Word) (s : State) : Host.Outcome State Fault Refusal :=
  access w (isCan k) s (regWrite w (canReg k 0x44) data s)

/-- CAN_VIEW_CAPTURE (R37, R38, R185): every controller captures its input view, once in a tick. -/
def execCanViewCapture (s : State) : Host.Outcome State Fault Refusal :=
  .next s.canCapture

/-- CAN_ATTEMPT_START (R187). -/
def execCanAttemptStart (k : Nat) (s : State) : Host.Outcome State Fault Refusal := event (isCan k) s (s.canStart k)

/-- CAN_ATTEMPT_END (R187). -/
def execCanAttemptEnd (k : Nat) (how : CanEnd) (s : State) : Host.Outcome State Fault Refusal := event (isCan k) s (s.canEnd k how)

/-- CAN_FRAME_RECEIVED (R192). -/
def execCanFrameReceived (k : Nat) (frame : CanFrame) (stampLag : Nat) (s : State) : Host.Outcome State Fault Refusal :=
  event (isCan k) s (s.canReceived k frame stampLag)

/-- CAN_RECEIVE_ERROR (R189). -/
def execCanReceiveError (k : Nat) (how : CanRxErr) (s : State) : Host.Outcome State Fault Refusal := event (isCan k) s (s.canRxError k how)

end Sys2Proof.Machine
end

