-- ==== Sys2Proof/Machine/ExecFlt.lean ====
section
/-!
DEFINITION. Meanings: faults and the Cairn record (chapter 15).
-/
namespace Sys2Proof.Machine

/-- FAULT_TAKEN (R387, R396). -/
def execFaultTaken (src : Nat) (cls : Nat) (cause : Nat) (vector : Word) (s : State) : Host.Outcome State Fault Refusal :=
  event (isLine src cls) s (s.faultSeen src cls cause vector)

/-- PATH_BROKEN (R385). -/
def execPathBroken (src : Nat) (cls : Nat) (s : State) : Host.Outcome State Fault Refusal := event (isLine src cls) s (s.pathSeen src cls)

/-- PATH_TEST (R386). -/
def execPathTest (src : Nat) (cls : Nat) (pulseSeen : Bool) (s : State) : Host.Outcome State Fault Refusal :=
  event (isLine src cls) s (s.pathTested src cls pulseSeen)

/-- EVENT_ENQUEUE (R399). -/
def execEventEnqueue (s : State) : Host.Outcome State Fault Refusal := .next s.eventEnqueue

/-- CAIRN_RECORD_WRITE (R399). -/
def execCairnRecordWrite (s : State) : Host.Outcome State Fault Refusal := .next s.cairnRecordWrite

/-- TALLY_RECORD_WRITE (R402). -/
def execTallyRecordWrite (src : Nat) (s : State) : Host.Outcome State Fault Refusal := event (isSource src) s (s.tallyRecordWrite src)

/-- INT_HOLDOFF_END (R404). -/
def execIntHoldoffEnd (s : State) : Host.Outcome State Fault Refusal := .next s.intHoldoffEnd

/-- OUT_REL (R388). -/
def execOutRel (w : Who) (data : Word) (s : State) : Host.Outcome State Fault Refusal := access w true s (regWrite w (fltReg 0x2800) data s)

/-- UNIT_RELEASE (R389). -/
def execUnitRelease (o : Nat) (s : State) : Host.Outcome State Fault Refusal := event (isUnit o) s (if s.releaseDue o then s.releaseUnit o else s)

/-- ALIVE_TOGGLE (R391). -/
def execAliveToggle (s : State) : Host.Outcome State Fault Refusal := .next s.aliveToggle

/-- HEARTBEAT (R392). -/
def execHeartbeat (w : Who) (data : Word) (s : State) : Host.Outcome State Fault Refusal := access w true s (regWrite w (fltReg 0x50) data s)

/-- HEARTBEAT_LOSS (R392). -/
def execHeartbeatLoss (s : State) : Host.Outcome State Fault Refusal := .next s.heartbeatLoss

/-- WDOG_KICK (R393). -/
def execWdogKick (w : Who) (data : Word) (s : State) : Host.Outcome State Fault Refusal := access w true s (regWrite w (fltReg 0x5C) data s)

/-- WDOG_EXPIRY (R393). -/
def execWdogExpiry (s : State) : Host.Outcome State Fault Refusal := .next s.wdogExpiry

/-- NSAFE_ASSERT (R394). -/
def execNsafeAssert (s : State) : Host.Outcome State Fault Refusal := .next s.nsafeAssert

/-- NSAFE_CLEAR (R394). -/
def execNsafeClear (s : State) : Host.Outcome State Fault Refusal := .next s.nsafeClear

/-- INJ_GO (R397). -/
def execInjGo (w : Who) (data : Word) (s : State) : Host.Outcome State Fault Refusal := access w true s (regWrite w (fltReg 0x70) data s)

/-- INJ_MISSED (R397). -/
def execInjMissed (s : State) : Host.Outcome State Fault Refusal := .next s.missedSeen

/-- INJ_END (R397). -/
def execInjEnd (s : State) : Host.Outcome State Fault Refusal := .next s.injEnd

/-- F3_CLR (R383). -/
def execF3Clr (w : Who) (data : Word) (s : State) : Host.Outcome State Fault Refusal := access w true s (regWrite w (fltReg 0x6C) data s)

/-- CAIRN_SCAN_COMPLETE (R407). -/
def execCairnScanComplete (s : State) : Host.Outcome State Fault Refusal := .next s.cairnScan

/-- POWER_FAIL_THRESHOLD (R408). -/
def execPowerFailThreshold (s : State) : Host.Outcome State Fault Refusal := .next s.powerFail

/-- SCRUB_GO (R410). -/
def execScrubGo (w : Who) (data : Word) (s : State) : Host.Outcome State Fault Refusal := access w true s (regWrite w (fltReg 0x8020) data s)

/-- SCRUB_COMPLETE (R410). -/
def execScrubComplete (correctedBits : Nat) (s : State) : Host.Outcome State Fault Refusal := .next (s.scrubbed correctedBits)

/-- POST (R412). -/
def execPost (w : Who) (data : Word) (s : State) : Host.Outcome State Fault Refusal := access w true s (regWrite w (fltReg 0x90) data s)

end Sys2Proof.Machine
end

