-- ==== Sys2Proof/Machine/ExecHost.lean ====
section
/-!
DEFINITION. Meanings: the host interface: PCIe function and DMA rings, the host serial link and the management UART (chapter 17).
-/
namespace Sys2Proof.Machine

/-- FUNCTION_LEVEL_RESET (R452). -/
def execFunctionLevelReset (s : State) : Host.Outcome State Fault Refusal := .next s.flr

/-- BUS_MASTER_DISABLE (R452). -/
def execBusMasterDisable (s : State) : Host.Outcome State Fault Refusal := .next s.bmeClear

/-- DMA_DOORBELL_TAKE (R454): bit r of endpoint 0x02 for transmit ring r, bit 8 + r for receive ring r. -/
def execDmaDoorbellTake (bit : Nat) (s : State) : Host.Outcome State Fault Refusal := event (decide (bit < 16)) s (s.doorbellTake bit)

/-- TX_DESCRIPTOR (R455). -/
def execTxDescriptor (r : Nat) (addr : DWord) (word8 : Word) (wordC : Word) (host : HostData) (s : State) :
    Host.Outcome State Fault Refusal :=
  event (isRing r) s (s.txDescriptor r addr.toNat word8 wordC host)

/-- RX_DESCRIPTOR_COMPLETE (R457). -/
def execRxDescriptorComplete (r : Nat) (addr : DWord) (s : State) : Host.Outcome State Fault Refusal :=
  event (isRing r) s (s.rxComplete r addr.toNat)

/-- RING_DISABLE (R453): CTL of a ring is written. -/
def execRingDisable (w : Who) (receive : Bool) (r : Nat) (data : Word) (s : State) : Host.Outcome State Fault Refusal :=
  access w (isRing r) s (regWrite w (ringAddr (r + 8 * bit01 receive) + 0x14) data s)

/-- IMOD_HOLDOFF_END (R459). -/
def execImodHoldoffEnd (v : Nat) (s : State) : Host.Outcome State Fault Refusal := event (isVector v) s (s.imodEnd v)

/-! ## The host serial link (R460, R461) -/

/-- The host on the serial link, and on the UART's read service. -/
def hslWho : Who := ⟨0x00, .hsl⟩
def uartWho : Who := ⟨0x00, .uart⟩

/-- The device address of a BAR0 offset; one past BAR0 lies at no register (R449). -/
def barAddr (offset : Word) : Nat := if offset.toNat < 0x10000000 then 0x10000000 + offset.toNat else 2 ^ 40

/-- The six reply bytes: STATUS, the data word, and their CRC-8. -/
def hslReply (status : Byte) (data : Word) (s : State) : State :=
  let bs := status :: beBytes 4 data.toNat
  { s with line := bs ++ [BitVec.ofNat 8 (crc8 bs)] }

/-- HSL_READ_WORD (R460, R461): a bad CRC is answered before an unknown command (log entry 59). -/
def hslRead (cmd : Byte) (offset : Word) (crc : Byte) (s : State) : State :=
  if crc.toNat ≠ crc8 (cmd :: beBytes 4 offset.toNat) then hslReply 0x02 0 s
  else if cmd ≠ 0x0B then hslReply 0x04 0 s
  else
    let r := s.busLoad hslWho (barAddr offset)
    if r.err then hslReply 0x01 0 r.s else hslReply 0x00 r.val r.s

/-- HSL_READ_WORD: a part that is held in reset or without power does not answer (R468). -/
def execHslReadWord (cmd : Byte) (offset : Word) (crc : Byte) (s : State) : Host.Outcome State Fault Refusal :=
  event (cmd != 0x02 && s.awake) s (hslRead cmd offset crc s)

/-- The write transaction: what a management command would bring from outside is free (log entry 6). -/
def hslWrite (cmd : Byte) (offset : Word) (data : Word) (crc : Byte) (s : State) : State :=
  if crc.toNat ≠ crc8 (cmd :: beBytes 4 offset.toNat ++ beBytes 4 data.toNat) then hslReply 0x02 0 s
  else
    match ({ s with freeCtr := s.freeCtr + 4 }).busStore hslWho (barAddr offset) data s.signedFree with
    | (s1, true) => hslReply 0x01 0 s1
    | (s1, false) => hslReply 0x00 0 s1

/-- HSL_WRITE_WORD (R460, R461). -/
def execHslWriteWord (cmd : Byte) (offset : Word) (data : Word) (crc : Byte) (s : State) : Host.Outcome State Fault Refusal :=
  event (cmd == 0x02 && s.awake) s (hslWrite cmd offset data crc s)

/-! ## The management UART (R462) -/

/-- The words of a read-service reply up to the first that is a bus error, and whether all were read. -/
def uartWords (s : State) (a : Nat) : Nat → List Byte → State × List Byte × Bool
  | 0, bs => (s, bs, true)
  | n + 1, bs =>
    let r := s.busLoad uartWho a
    if r.err then (r.s, bs, false) else uartWords r.s (a + 4) n (bs ++ beBytes 4 r.val.toNat)

/-- Bytes that go to the console one after the other. -/
def toConsole (s : State) (bs : List Byte) : State := bs.foldl (fun (st : State) (b : Byte) => st.consoleByte b) s

/-- The time of n bytes on the management UART, 10 bits each at 115,200 bit/s, in TIME cycles. -/
def uartTime (n : Nat) : Nat := n * 10 * (1000000 * cycUs) / 115200

/-- Is a reply still being sent as a request begins, eight bytes before its end (R462)? -/
def State.uartBusy (s : State) : Bool := decide (s.cyc - uartTime 8 < s.host.uartUntil)

/-- A reply of the read service is sent. -/
def uartReply (bs : List Byte) (s : State) : State :=
  let r := bs ++ [BitVec.ofNat 8 (crc8 bs)]
  { s with line := r, host := { s.host with uartUntil := s.cyc + uartTime r.length } }

/-- UART_READ_REQUEST (R462): the reply to a request of 1 to 64 words; one of another count is no request and goes to the console (log
entry 60). A request that begins while a reply is still being sent is discarded. -/
def uartRead (offset : Word) (count : Nat) (crc : Byte) (s : State) : State :=
  let req := [0xA5, 0x52] ++ beBytes 4 offset.toNat ++ [BitVec.ofNat 8 count]
  if count = 0 ∨ 64 < count then toConsole s (req ++ [crc])
  else if s.uartBusy then s
  else if crc.toNat ≠ crc8 req then uartReply [0x5A, 0x02] s
  else
    let (s1, ws, ok) := uartWords s (barAddr offset) count []
    uartReply ([0x5A, if ok then 0x00 else 0x01] ++ ws) s1

/-- UART_READ_REQUEST. -/
def execUartReadRequest (offset : Word) (count : Nat) (crc : Byte) (s : State) : Host.Outcome State Fault Refusal :=
  event s.awake s (uartRead offset count crc s)

/-- UART_CONSOLE_BYTE (R462). -/
def execUartConsoleByte (byte : Byte) (s : State) : Host.Outcome State Fault Refusal := .next (s.consoleByte byte)

end Sys2Proof.Machine
end

