-- ==== Sys2Proof/Machine/ExecMbx.lean ====
section
/-!
DEFINITION. Meanings: mailboxes, doorbells, locks and memory control (chapter 14). An engine reaches mailboxes, its own doorbells and locks
with its MBX and ATM units, which need no grant and are not staged (R93, R88).
-/
namespace Sys2Proof.Machine

/-- A write to MBX by a master: an engine's acts at once. -/
def mbxStore (w : Who) (o : Nat) (d : Word) (s : State) : State :=
  if (engineOf w.master).isSome then State.answerStore (State.accounted w (mbxBase + o) ((mbxWrite s w o d).state s))
  else regWrite w (mbxBase + o) d s

/-- A read of MBX by a master: an engine's acts at once. Its MBX unit reaches its own endpoint only (R93, R359), and its ATM.T.TAS returns
HELD alone (R88, R366). -/
def mbxLoad (w : Who) (o : Nat) (s : State) : State :=
  if (engineOf w.master).isSome then
    if 0x10000 ≤ o then
      let (s1, held) := s.lockTas w.master ((o - 0x10000) / 4)
      { s1 with reply := [held], replyErr := false }
    else if o / 0x200 = w.master then (s.finishRead w (mbxBase + o) (mbxRead s w o)).answer
    else (busError (s.masterError w (mbxBase + o) false)).answer
  else regRead w (mbxBase + o) s

/-- MB_SEND by a master: an engine's is its MBX.T.SEND, which a full mailbox answers with 1 and no bus error (R93, R356). -/
def mbxSend (w : Who) (e i : Nat) (d : Word) (s : State) : State :=
  if (engineOf w.master).isSome && s.epReachable e then
    let (s1, ok) := s.mbSend w.master e i d
    { s1 with reply := [word (bit01 (!ok))], replyErr := false }
  else mbxStore w (0x200 * e + 4 * i) d s

/-- MB_SEND (R355, R356). -/
def execMbSend (w : Who) (e : Nat) (i : Nat) (data : Word) (s : State) : Host.Outcome State Fault Refusal :=
  access w (isEp e && isMailbox i) s (mbxSend w e i data s)

/-- MB_RECV (R357). -/
def execMbRecv (w : Who) (e : Nat) (i : Nat) (s : State) : Host.Outcome State Fault Refusal :=
  query w (isEp e && isMailbox i) s (mbxLoad w (0x200 * e + 0x80 + 4 * i) s)

/-- DB_SET (R360). -/
def execDbSet (w : Who) (e : Nat) (data : Word) (s : State) : Host.Outcome State Fault Refusal :=
  access w (isEp e) s (mbxStore w (0x200 * e + 0x104) data s)

/-- DB_MASK_WRITE (R360). -/
def execDbMaskWrite (w : Who) (e : Nat) (data : Word) (s : State) : Host.Outcome State Fault Refusal :=
  access w (isEp e) s (regWrite w (mbxBase + 0x200 * e + 0x108) data s)

/-- DB_TAKE (R361). -/
def execDbTake (w : Who) (e : Nat) (s : State) : Host.Outcome State Fault Refusal :=
  query w (isEp e) s (mbxLoad w (0x200 * e + 0x10C) s)

/-- WAIT_TMR_WRITE (R362). -/
def execWaitTmrWrite (w : Who) (e : Nat) (data : Word) (s : State) : Host.Outcome State Fault Refusal :=
  access w (isEp e) s (regWrite w (mbxBase + 0x200 * e + 0x110) data s)

/-- WAIT_TMR_EXPIRY (R362). -/
def execWaitTmrExpiry (e : Nat) (s : State) : Host.Outcome State Fault Refusal := event (isEp e) s (s.waitExpire e)

/-- LOCK_TEST_AND_SET (R366). -/
def execLockTestAndSet (w : Who) (n : Nat) (s : State) : Host.Outcome State Fault Refusal :=
  query w (isLock n) s (mbxLoad w (0x10000 + 4 * n) s)

/-- LOCK_RELEASE (R367): a write of 0. -/
def execLockRelease (w : Who) (n : Nat) (s : State) : Host.Outcome State Fault Refusal :=
  access w (isLock n) s (mbxStore w (0x10000 + 4 * n) 0 s)

/-- CE_LOG_READ (R373). -/
def execCeLogRead (w : Who) (s : State) : Host.Outcome State Fault Refusal := query w true s (regRead w (memReg 0x50) s)

/-- WIPE_GO (R376). -/
def execWipeGo (w : Who) (data : Word) (s : State) : Host.Outcome State Fault Refusal := access w true s (regWrite w (memReg 0x20) data s)

/-- WIPE_COMPLETE (R376). -/
def execWipeComplete (s : State) : Host.Outcome State Fault Refusal := .next (if s.wiping then s.wipeEnd else s)

/-- BGT_REGION_TEST (R377 to R379). -/
def execBgtRegionTest (cls : Nat) (pe : Nat) (found : EccFinding) (patternFails : Bool) (s : State) : Host.Outcome State Fault Refusal :=
  event (isTester cls pe) s (s.bgtTest cls pe found patternFails)

/-- MARCH_GO (R380). -/
def execMarchGo (w : Who) (data : Word) (s : State) : Host.Outcome State Fault Refusal := access w true s (regWrite w (memReg 0x10) data s)

/-- MARCH_COMPLETE (R380). -/
def execMarchComplete (failAddr : Option Nat) (s : State) : Host.Outcome State Fault Refusal := .next (s.marched failAddr)

/-- REPAIR_GO (R381). -/
def execRepairGo (w : Who) (data : Word) (s : State) : Host.Outcome State Fault Refusal := access w true s (regWrite w (memReg 0x40) data s)

/-- REPAIR_COMPLETE (R381). -/
def execRepairComplete (s : State) : Host.Outcome State Fault Refusal := .next s.repaired

end Sys2Proof.Machine
end

