-- ==== Sys2Proof/Machine/ExecMgt.lean ====
section
/-!
DEFINITION. Meanings: power, start-up, the intake of bundles, life cycle, sensors and the two-wire bus (chapters 16 and 18).
-/
namespace Sys2Proof.Machine

/-- POWER_GOOD (R421). -/
def execPowerGood (facts : BootFacts) (s : State) : Host.Outcome State Fault Refusal := .next (s.powerGood facts)

/-- PORST_ASSERT (R467). -/
def execPorstAssert (s : State) : Host.Outcome State Fault Refusal := .next s.porst

/-- VDD_AON_APPLY (R468). -/
def execVddAonApply (fuses : Fuses) (s : State) : Host.Outcome State Fault Refusal := .next (s.aonApply fuses)

/-- VDD_AON_REMOVAL (R383). -/
def execVddAonRemoval (s : State) : Host.Outcome State Fault Refusal := .next s.aonRemove

/-- SOFT_RESET (R428). -/
def execSoftReset (w : Who) (data : Word) (s : State) : Host.Outcome State Fault Refusal := access w true s (regWrite w (sysReg 0x34) data s)

/-- SYSTEM_PLL_LOSS_OF_LOCK (R438). -/
def execSystemPllLossOfLock (s : State) : Host.Outcome State Fault Refusal := .next s.pllLost

/-- CONFIRM (R432). -/
def execConfirm (w : Who) (s : State) : Host.Outcome State Fault Refusal := access w true s (regWrite w (mgtReg 0x10) 1 s)

/-- TRIAL_AUTO_CONFIRM (R432). -/
def execTrialAutoConfirm (s : State) : Host.Outcome State Fault Refusal := .next s.autoConfirm

/-- REVOKE (R435): of a key slot, by a signer, whose signature is good or not. -/
def execRevoke (w : Who) (slot : Nat) (signer : Nat) (signatureOk : Bool) (s : State) : Host.Outcome State Fault Refusal :=
  access w (decide (slot < 4) && decide (signer < 4)) s (signedWrite w (mgtReg 0x10) 2 ⟨noBundle, slot, signer, signatureOk⟩ s)

/-- LOAD (R424): of a bundle that the checks of R431 find as given. -/
def execLoad (w : Who) (bundle : BundleFacts) (s : State) : Host.Outcome State Fault Refusal :=
  access w true s (signedWrite w (mgtReg 0x10) 3 ⟨bundle, 0, 0, false⟩ s)

/-- BIVOUAC_REQ (R426). -/
def execBivouacReq (w : Who) (data : Word) (s : State) : Host.Outcome State Fault Refusal := access w true s (regWrite w (mgtReg 0x1C) data s)

/-- HOST_BUNDLE_WRITE (R424). -/
def execHostBundleWrite (w : Who) (data : Word) (s : State) : Host.Outcome State Fault Refusal := access w true s (regWrite w (mgtReg 0x18) data s)

/-- BUNDLE_DATA (R424). -/
def execBundleData (w : Who) (data : Word) (s : State) : Host.Outcome State Fault Refusal := access w true s (regWrite w (mgtReg 0x24) data s)

/-- UART_BUNDLE_FRAME (R425). -/
def execUartBundleFrame (declaredLen : Nat) (bytes : List Byte) (crc : Word) (gapTooLong : Bool) (bundle : BundleFacts) (s : State) :
    Host.Outcome State Fault Refusal :=
  .next (s.uartBundle declaredLen bytes crc gapTooLong bundle)

/-- LC_CMD (R436): with an authorisation that is good or not. -/
def execLcCmd (w : Who) (data : Word) (authorised : Bool) (s : State) : Host.Outcome State Fault Refusal :=
  access w true s (signedWrite w (mgtReg 0x204) data ⟨noBundle, 0, 0, authorised⟩ s)

/-- TAMPER_TRIP (R437). -/
def execTamperTrip (bit : Nat) (s : State) : Host.Outcome State Fault Refusal := event (isTamper bit) s (s.tamperTrip bit)

/-- SENSOR_SAMPLE (R417, R418). -/
def execSensorSample (temps : List Word) (volts : List Word) (slow : SlowReadings) (s : State) : Host.Outcome State Fault Refusal :=
  .next (s.sensorsRead temps volts slow)

/-- TWB_GO (R420). -/
def execTwbGo (w : Who) (data : Word) (s : State) : Host.Outcome State Fault Refusal := access w true s (regWrite w (mgtReg 0x804) data s)

/-- TWB_COMPLETE (R420). -/
def execTwbComplete (outcome : TwbOutcome) (s : State) : Host.Outcome State Fault Refusal := .next (s.twbEnd outcome)

end Sys2Proof.Machine
end

