-- ==== Sys2Proof/Machine/ExecPec.lean ====
section
/-!
DEFINITION. Meanings: takeovers, cores, images, bindings and on-the-fly pairs (chapters 03, 04, 05).
-/
namespace Sys2Proof.Machine

/-- TAKEOVER_START (R120). -/
def execTakeoverStart (l : Nat) (s : State) : Host.Outcome State Fault Refusal := event (isLogical l) s (s.takeoverStart l)

/-- LOADER_LOAD_COMPLETE (R121). -/
def execLoaderLoadComplete (checksOk : Bool) (s : State) : Host.Outcome State Fault Refusal := .next (s.loadComplete checksOk)

/-- SPARE_TAKEUP (R124). -/
def execSpareTakeup (l : Nat) (s : State) : Host.Outcome State Fault Refusal := event (isLogical l) s (s.spareTakeup l)

/-- BUNDLE_ISSUE (R56). -/
def execBundleIssue (core : Nat) (found : CoreFinding) (s : State) : Host.Outcome State Fault Refusal :=
  event (isCore core) s (s.bundleIssue core found)

/-- MUL_RESULT (R75, R79). -/
def execMulResult (core : Nat) (residueOk : Bool) (s : State) : Host.Outcome State Fault Refusal :=
  event (isCore core) s (s.mulResult core residueOk)

/-- DIV_RESULT (R76, R79). -/
def execDivResult (core : Nat) (residueOk : Bool) (s : State) : Host.Outcome State Fault Refusal :=
  event (isCore core) s (s.divResult core residueOk)

/-- LSU_LOAD_RESULT (R80). -/
def execLsuLoadResult (core : Nat) (s : State) : Host.Outcome State Fault Refusal := event (isCore core) s (s.lsuResult core)

/-- FAR_RESULT (R82). -/
def execFarResult (core : Nat) (ecc : EccFinding) (s : State) : Host.Outcome State Fault Refusal :=
  event (isCore core) s (s.farResult core ecc)

/-- POSTED_WRITE_COMPLETE (R83). -/
def execPostedWriteComplete (core : Nat) (s : State) : Host.Outcome State Fault Refusal := event (isCore core) s (s.postedComplete core)

/-- CTL_WAIT_END (R98). -/
def execCtlWaitEnd (core : Nat) (s : State) : Host.Outcome State Fault Refusal := event (isCore core) s (s.waitEnd core)

/-- LOCKSTEP_MISMATCH (R415). -/
def execLockstepMismatch (s : State) : Host.Outcome State Fault Refusal := .next s.lockstepMismatch

/-- IMG_VERIFY_START (R108): 1 is written to VERIFIED. -/
def execImgVerifyStart (w : Who) (i : Nat) (s : State) : Host.Outcome State Fault Refusal :=
  access w (isImage i) s (regWrite w (imgStat i) 1 s)

/-- IMG_CHECK_COMPLETE (R108). -/
def execImgCheckComplete (i : Nat) (s : State) : Host.Outcome State Fault Refusal := event (isImage i) s (s.imgCheckEnd i)

/-- IMG_WITHDRAW (R108): 0 is written to VERIFIED. -/
def execImgWithdraw (w : Who) (i : Nat) (s : State) : Host.Outcome State Fault Refusal :=
  access w (isImage i) s (regWrite w (imgStat i) 0 s)

/-- IMG_ADDR_LEN_WRITE (R108): ADDR, or with `isLen` LEN, is written. -/
def execImgAddrLenWrite (w : Who) (i : Nat) (isLen : Bool) (data : Word) (s : State) : Host.Outcome State Fault Refusal :=
  access w (isImage i) s (regWrite w (imgAddr i + 4 * bit01 isLen) data s)

/-- BIND_GO (R111). -/
def execBindGo (w : Who) (l : Nat) (data : Word) (s : State) : Host.Outcome State Fault Refusal :=
  access w (isLogical l) s (regWrite w (bindAddr l) data s)

/-- BINDING (R111). -/
def execBinding (l : Nat) (s : State) : Host.Outcome State Fault Refusal := event (isLogical l) s (s.binding l)

/-- BIND_HALT (R112). -/
def execBindHalt (w : Who) (l : Nat) (data : Word) (s : State) : Host.Outcome State Fault Refusal :=
  access w (isLogical l) s (regWrite w (bindAddr l) data s)

/-- UNBIND (R112). -/
def execUnbind (l : Nat) (s : State) : Host.Outcome State Fault Refusal := event (isLogical l) s (s.unbind l)

/-- TS_AREA_WRITE (R114): TS_BASE and TS_LINES are written. -/
def execTsAreaWrite (w : Who) (l : Nat) (data : Word) (s : State) : Host.Outcome State Fault Refusal :=
  access w (isLogical l) s (regWrite w (bindAddr l + 8) data s)

/-- LOGIC_BIST_COMPLETE (R125, R364, R438). -/
def execLogicBistComplete (pe : Nat) (pass : Bool) (s : State) : Host.Outcome State Fault Refusal :=
  event (isEngine pe) s (s.bistComplete pe pass)

/-- SPARE_PRELOAD_DEAL (R123). -/
def execSparePreloadDeal (s : State) : Host.Outcome State Fault Refusal := .next s.preloadDeal

/-- OTF_FRAME (R140). -/
def execOtfFrame (j : Nat) (fromLower : Bool) (bytes : List Byte) (codeError : Bool) (s : State) : Host.Outcome State Fault Refusal :=
  event (isPair j) s (s.otfFrame j fromLower bytes codeError)

/-- OTF_MODE_WRITE (R138): PCS.OTF of the lower port of a pair is written. -/
def execOtfModeWrite (w : Who) (p : Nat) (data : Word) (s : State) : Host.Outcome State Fault Refusal :=
  access w (isPort p) s (regWrite w (portReg p 0) data s)

end Sys2Proof.Machine
end

