-- ==== Sys2Proof/Machine/ExecPin.lean ====
section
/-!
DEFINITION. Meanings: pin channels (chapter 06).
-/
namespace Sys2Proof.Machine

/-- SEQUENCER_STEP (R151). -/
def execSequencerStep (n : Nat) (ecc : EccFinding) (s : State) : Host.Outcome State Fault Refusal := event (isChan n) s (s.seqStep n ecc)

/-- COMPARE_MATCH (R155). -/
def execCompareMatch (n : Nat) (s : State) : Host.Outcome State Fault Refusal := event (isChan n) s (s.compareMatch n)

/-- TAQ_HI_WRITE (R156). -/
def execTaqHiWrite (w : Who) (n : Nat) (data : Word) (s : State) : Host.Outcome State Fault Refusal :=
  access w (isChan n) s (regWrite w (pchReg n 0x112C) data s)

/-- TIMED_ACTION_EXECUTE (R157). -/
def execTimedActionExecute (n : Nat) (s : State) : Host.Outcome State Fault Refusal := event (isChan n) s (s.timedAction n)

/-- TXD_WRITE (R153). -/
def execTxdWrite (w : Who) (n : Nat) (data : Word) (s : State) : Host.Outcome State Fault Refusal :=
  access w (isChan n) s (regWrite w (pchReg n 0x1120) data s)

/-- RXD_READ (R154). -/
def execRxdRead (w : Who) (n : Nat) (s : State) : Host.Outcome State Fault Refusal :=
  query w (isChan n) s (regRead w (pchReg n 0x1124) s)

/-- SWAP_REQUEST (R162): SWAP.REQ without FORCE. -/
def execSwapRequest (w : Who) (n : Nat) (data : Word) (s : State) : Host.Outcome State Fault Refusal :=
  access w (isChan n) s (regWrite w (pchReg n 0x1104) data s)

/-- FORCED_SWAP_REQUEST (R163): SWAP.REQ with FORCE. -/
def execForcedSwapRequest (w : Who) (n : Nat) (data : Word) (s : State) : Host.Outcome State Fault Refusal :=
  access w (isChan n) s (regWrite w (pchReg n 0x1104) data s)

/-- SWAP_TAKE_EFFECT (R162): a pending swap meets state 0 with count 0. -/
def execSwapTakeEffect (n : Nat) (s : State) : Host.Outcome State Fault Refusal :=
  let c := s.chan n
  event (isChan n) s (if s.stepBegins n && c.pending && !c.force && c.state == 0 && c.count == 0 then s.swapNormal n else s)

/-- SWAP_TIMEOUT (R163). -/
def execSwapTimeout (n : Nat) (s : State) : Host.Outcome State Fault Refusal := event (isChan n) s (s.swapTimeout n)

/-- FORCED_SWAP_APPLY (R163). -/
def execForcedSwapApply (n : Nat) (s : State) : Host.Outcome State Fault Refusal :=
  event (isChan n) s (if s.stepBegins n && (s.chan n).force then s.swapForced n else s)

/-- CFLAG_SET (R160). -/
def execCflagSet (w : Who) (n : Nat) (data : Word) (s : State) : Host.Outcome State Fault Refusal :=
  access w (isChan n) s (regWrite w (pchReg n 0x1148) data s)

/-- CFLAG_CLR (R160). -/
def execCflagClr (w : Who) (n : Nat) (data : Word) (s : State) : Host.Outcome State Fault Refusal :=
  access w (isChan n) s (regWrite w (pchReg n 0x114C) data s)

/-- DFLAG_SET (R160). -/
def execDflagSet (w : Who) (n : Nat) (data : Word) (s : State) : Host.Outcome State Fault Refusal :=
  access w (isChan n) s (regWrite w (pchReg n 0x1150) data s)

/-- DFLAG_CLR (R160). -/
def execDflagClr (w : Who) (n : Nat) (data : Word) (s : State) : Host.Outcome State Fault Refusal :=
  access w (isChan n) s (regWrite w (pchReg n 0x1154) data s)

/-- MUX_CAN_AB_WRITE (R165). -/
def execMuxCanAbWrite (w : Who) (n : Nat) (data : Word) (s : State) : Host.Outcome State Fault Refusal :=
  access w (isChan n) s (regWrite w (pchReg n 0x1108) data s)

/-- MUX_TRAV_WRITE (R165). -/
def execMuxTravWrite (w : Who) (n : Nat) (data : Word) (s : State) : Host.Outcome State Fault Refusal :=
  access w (isChan n) s (regWrite w (pchReg n 0x1108) data s)

/-- SPARE_CORE_STEER (R171): MUX.CORE names a spare core. The MCP so brings one in (R438). -/
def execSpareCoreSteer (w : Who) (n : Nat) (data : Word) (s : State) : Host.Outcome State Fault Refusal :=
  let core := fieldOf data 8 4
  let begins := core != 0 && core != s.muxCore n && (s.chan n).copy != some core
  access w (isChan n) s ((regWrite w (pchReg n 0x1108) data s).spareWritten w 2 n (core - 1) begins)

/-- CORE_STEER_BACK (R172): MUX.CORE is written while a spare core serves. -/
def execCoreSteerBack (w : Who) (n : Nat) (data : Word) (s : State) : Host.Outcome State Fault Refusal :=
  access w (isChan n) s (regWrite w (pchReg n 0x1108) data s)

/-- CORE_COPY_COMPLETE (R171). -/
def execCoreCopyComplete (n : Nat) (ecc : EccFinding) (s : State) : Host.Outcome State Fault Refusal := event (isChan n) s (s.copyEnd n ecc)

/-- CORE_COPY_FORCE (R171). -/
def execCoreCopyForce (n : Nat) (s : State) : Host.Outcome State Fault Refusal := event (isChan n) s (s.copyForce n)

/-- SHORT_DETECT (R166). -/
def execShortDetect (n : Nat) (pin : Nat) (s : State) : Host.Outcome State Fault Refusal :=
  event (isChan n && isPin pin) s (s.shortDetect n pin)

/-- OPEN_WIRE_TEST (R167). -/
def execOpenWireTest (n : Nat) (pin : Nat) (followed : Bool) (s : State) : Host.Outcome State Fault Refusal :=
  event (isChan n && isPin pin) s (s.openWireTest n pin followed)

/-- REVERSAL_DETECT (R168). -/
def execReversalDetect (n : Nat) (s : State) : Host.Outcome State Fault Refusal := event (isChan n) s (s.reversalDetect n)

/-- XCVR_FAULT_DETECT (R169). -/
def execXcvrFaultDetect (n : Nat) (s : State) : Host.Outcome State Fault Refusal := event (isChan n) s (s.xcvrFault n)

/-- BRING_IN (R170): LEG.BRING_IN is written. The MCP so brings in the leg in reserve (R438). -/
def execBringIn (w : Who) (n : Nat) (pin : Nat) (data : Word) (s : State) : Host.Outcome State Fault Refusal :=
  access w (isChan n && isPin pin) s
    ((regWrite w (legReg n pin) data s).spareWritten w 3 (4 * n + pin) (s.fld (legReg n pin) 8 2) (bitOf data 12))

/-- LEG_EXCHANGE_COMPLETE (R170). -/
def execLegExchangeComplete (n : Nat) (pin : Nat) (s : State) : Host.Outcome State Fault Refusal :=
  event (isChan n && isPin pin) s (s.legEnd n pin)

end Sys2Proof.Machine
end

