-- ==== Sys2Proof/Machine/ExecPort.lean ====
section
/-!
DEFINITION. Meanings: Ethernet ports, segmentation and the MDIO bus (chapter 08; R223, R243, R248, R255).
-/
namespace Sys2Proof.Machine

/-- PCS_MODE_WRITE (R200). -/
def execPcsModeWrite (w : Who) (p : Nat) (data : Word) (s : State) : Host.Outcome State Fault Refusal :=
  access w (isPort p) s (regWrite w (portReg p 0) data s)

/-- AN_RESTART (R200). -/
def execAnRestart (w : Who) (p : Nat) (data : Word) (s : State) : Host.Outcome State Fault Refusal :=
  access w (isPort p) s (regWrite w (portReg p 0) data s)

/-- LINK_UP (R199). -/
def execLinkUp (p : Nat) (facts : LinkFacts) (s : State) : Host.Outcome State Fault Refusal := event (isPort p) s (s.linkRise p facts)

/-- LINK_DOWN (R200). -/
def execLinkDown (p : LostLink) (s : State) : Host.Outcome State Fault Refusal := event (isPort p.port) s (s.linkLost p)

/-- POLARITY_CORRECTION (R201). -/
def execPolarityCorrection (p : Nat) (s : State) : Host.Outcome State Fault Refusal := event (isPort p) s (s.polarityFix p)

/-- LANE_SWAP_EXCHANGE (R202). -/
def execLaneSwapExchange (p : Nat) (s : State) : Host.Outcome State Fault Refusal := event (isPort p) s (s.laneExchange p)

/-- SERDES_SWAP_WRITE (R202). -/
def execSerdesSwapWrite (w : Who) (p : Nat) (data : Word) (s : State) : Host.Outcome State Fault Refusal :=
  access w (isPort p) s (regWrite w (portReg p 0x10) data s)

/-- SERDES_RX_INV_WRITE (R201). -/
def execSerdesRxInvWrite (w : Who) (p : Nat) (data : Word) (s : State) : Host.Outcome State Fault Refusal :=
  access w (isPort p) s (regWrite w (portReg p 0x10) data s)

/-- FRAME_HEAD_CLASSIFIED (R223). -/
def execFrameHeadClassified (p : Nat) (bytes : List Byte) (s : State) : Host.Outcome State Fault Refusal :=
  event (isPort p) s (s.rxHead p bytes)

/-- INGRESS_CELL_TAKEN (R248): bytes arrive that begin a further cell. -/
def execIngressCellTaken (p : Nat) (bytes : List Byte) (s : State) : Host.Outcome State Fault Refusal :=
  event (isPort p) s (s.rxMore p bytes)

/-- INGRESS_OVERSIZE_BYTE (R203): bytes arrive that pass MAX_LEN. -/
def execIngressOversizeByte (p : Nat) (bytes : List Byte) (s : State) : Host.Outcome State Fault Refusal :=
  event (isPort p) s (s.rxMore p bytes)

/-- INGRESS_CAPTURE_POINT (R243): bytes arrive that complete the first 128. -/
def execIngressCapturePoint (p : Nat) (bytes : List Byte) (s : State) : Host.Outcome State Fault Refusal :=
  event (isPort p) s (s.rxMore p bytes)

/-- MAC_FRAME_END (R203). -/
def execMacFrameEnd (p : Nat) (bytes : List Byte) (codeError : Bool) (s : State) : Host.Outcome State Fault Refusal :=
  event (isPort p) s (s.macEnd p bytes codeError)

/-- PAUSE_HOLD_EXPIRY (R210). -/
def execPauseHoldExpiry (q : Nat) (s : State) : Host.Outcome State Fault Refusal := event (isQueue q) s (s.holdExpiry q)

/-- PAUSE_FRAME_SEND (R209). -/
def execPauseFrameSend (p : Nat) (s : State) : Host.Outcome State Fault Refusal := event (isPort p) s (s.pauseSend p)

/-- PAUSE_REFRESH (R208): of the link (8) or of a priority. -/
def execPauseRefresh (p : Nat) (prio : Nat) (s : State) : Host.Outcome State Fault Refusal :=
  event (isPort p && decide (prio ≤ 8)) s (s.pauseRefresh p prio)

/-- FRAME_TX_START (R255). -/
def execFrameTxStart (p : Nat) (found : EccFinding) (s : State) : Host.Outcome State Fault Refusal := event (isEgress p) s (s.txStart p found)

/-- FRAME_TX_END (R204). -/
def execFrameTxEnd (p : Nat) (found : EccFinding) (s : State) : Host.Outcome State Fault Refusal := event (isEgress p) s (s.frameTxEnd p found)

/-- SEG_SUBMIT (R212). -/
def execSegSubmit (w : Who) (p : Nat) (data : Word) (s : State) : Host.Outcome State Fault Refusal :=
  access w (isPort p) s (regWrite w (portReg p 0x3000) data s)

/-- SEG_JOB_START (R213). -/
def execSegJobStart (p : Nat) (s : State) : Host.Outcome State Fault Refusal := event (isPort p) s (s.segStart p)

/-- SEG_JOB_COMPLETE (R216). -/
def execSegJobComplete (p : Nat) (s : State) : Host.Outcome State Fault Refusal := event (isPort p) s (s.segComplete p)

/-- MDIO_GO (R218). -/
def execMdioGo (w : Who) (data : Word) (s : State) : Host.Outcome State Fault Refusal := access w true s (regWrite w mdioCmd data s)

/-- MDIO_COMPLETE (R218). -/
def execMdioComplete (value : Word) (s : State) : Host.Outcome State Fault Refusal := .next (s.mdioEnd value)

end Sys2Proof.Machine
end

