-- ==== Sys2Proof/Machine/ExecRope.lean ====
section
/-!
DEFINITION. Meanings: Ropeline (chapter 12).
-/
namespace Sys2Proof.Machine

/-- ROPE_CONTEXT_ENABLE (R326): CTX.CFG is written with a role. -/
def execRopeContextEnable (w : Who) (r : Nat) (data : Word) (s : State) : Host.Outcome State Fault Refusal :=
  access w (isCtx r) s (regWrite w (ctxReg r 0) data s)

/-- ROPE_CONTEXT_DISABLE (R326). -/
def execRopeContextDisable (w : Who) (r : Nat) (data : Word) (s : State) : Host.Outcome State Fault Refusal :=
  access w (isCtx r) s (regWrite w (ctxReg r 0) data s)

/-- REF_BUILD (R302). -/
def execRefBuild (r : Nat) (s : State) : Host.Outcome State Fault Refusal := event (isCtx r) s (s.refBuild r)

/-- SLOT_RELEASE (R301). -/
def execSlotRelease (r : Nat) (slot : Nat) (p : Nat) (s : State) : Host.Outcome State Fault Refusal :=
  event (isCtx r && isSlot slot && isPort p) s (s.slotRelease r slot p)

/-- REF_TAKE_EFFECT (R304). -/
def execRefTakeEffect (r : Nat) (s : State) : Host.Outcome State Fault Refusal := event (isCtx r) s (s.refTake r)

/-- REF_SLOT_CLOSE (R305). -/
def execRefSlotClose (r : Nat) (s : State) : Host.Outcome State Fault Refusal := event (isCtx r) s (s.refClose r)

/-- COLD_ENTRY (R305). -/
def execColdEntry (r : Nat) (s : State) : Host.Outcome State Fault Refusal := event (isCtx r) s (s.coldEntry r)

/-- ANCHOR_WINDOW_OPEN (R307, R313); slot 4,096 is the cold window. -/
def execAnchorWindowOpen (r : Nat) (slot : Nat) (s : State) : Host.Outcome State Fault Refusal :=
  event (isCtx r && isWindow slot) s (s.anchorOpen r slot)

/-- SHARED_WINDOW_DECISION (R308). -/
def execSharedWindowDecision (r : Nat) (s : State) : Host.Outcome State Fault Refusal := event (isCtx r) s (s.sharedDecision r)

/-- ANCHOR_TRUNCATION (R309). -/
def execAnchorTruncation (p : Nat) (s : State) : Host.Outcome State Fault Refusal := event (isPort p) s (s.anchorTruncate p)

/-- ANCHOR_WINDOW_END (R313). -/
def execAnchorWindowEnd (r : Nat) (slot : Nat) (s : State) : Host.Outcome State Fault Refusal :=
  event (isCtx r && isWindow slot) s (s.anchorEnd r slot)

/-- ANCHOR_LOCK_TIMEOUT (R311). -/
def execAnchorLockTimeout (r : Nat) (s : State) : Host.Outcome State Fault Refusal := event (isCtx r) s (s.lockTimeout r)

/-- RECONNECT (R310). -/
def execReconnect (w : Who) (p : Nat) (data : Word) (s : State) : Host.Outcome State Fault Refusal :=
  access w (isPort p) s (regWrite w (aport p 4) data s)

end Sys2Proof.Machine
end

