-- ==== Sys2Proof/Machine/ExecSwitch.lean ====
section
/-!
DEFINITION. Meanings: the path table, mirrors, queues, meters and ledgers (chapters 09 and 10).
-/
namespace Sys2Proof.Machine

/-- PT_INSERT (R229). -/
def execPtInsert (w : Who) (data : Word) (s : State) : Host.Outcome State Fault Refusal := access w true s (regWrite w ptCmd data s)

/-- PT_DELETE (R229). -/
def execPtDelete (w : Who) (data : Word) (s : State) : Host.Outcome State Fault Refusal := access w true s (regWrite w ptCmd data s)

/-- PT_LOOKUP (R229). -/
def execPtLookup (w : Who) (data : Word) (s : State) : Host.Outcome State Fault Refusal := access w true s (regWrite w ptCmd data s)

/-- PT_WRITE_MASKED (R229). -/
def execPtWriteMasked (w : Who) (data : Word) (s : State) : Host.Outcome State Fault Refusal := access w true s (regWrite w ptCmd data s)

/-- PT_CLEAR_LEARNED (R229). -/
def execPtClearLearned (w : Who) (data : Word) (s : State) : Host.Outcome State Fault Refusal := access w true s (regWrite w ptCmd data s)

/-- PT_COMMAND_COMPLETE (R229). -/
def execPtCommandComplete (s : State) : Host.Outcome State Fault Refusal := .next s.ptEnd

/-- SOURCE_LEARN (R231). -/
def execSourceLearn (s : State) : Host.Outcome State Fault Refusal := .next s.sourceLearn

/-- ADDRESS_AGE_VISIT (R232). -/
def execAddressAgeVisit (index : Nat) (s : State) : Host.Outcome State Fault Refusal := event (isPathEntry index) s (s.ageVisit index)

/-- MIRROR_RECORD_WRITE (R245). -/
def execMirrorRecordWrite (s : State) : Host.Outcome State Fault Refusal := .next s.mirrorWrite

/-- MIR_EN_WRITE (R245). -/
def execMirEnWrite (w : Who) (r : Nat) (data : Word) (s : State) : Host.Outcome State Fault Refusal :=
  access w (isMirror r) s (regWrite w (mirReg r 0x10) data s)

/-- RED_AVERAGE_UPDATE (R259). -/
def execRedAverageUpdate (s : State) : Host.Outcome State Fault Refusal := .next s.redUpdate

/-- RED_SEED_WRITE (R259). -/
def execRedSeedWrite (w : Who) (data : Word) (s : State) : Host.Outcome State Fault Refusal := access w true s (regWrite w (swReg 0x9004) data s)

/-- AGE_GRANULE (R260, R261). -/
def execAgeGranule (s : State) : Host.Outcome State Fault Refusal := .next s.ageGranule

/-- METER_ENABLE (R258). -/
def execMeterEnable (w : Who) (m : Nat) (data : Word) (s : State) : Host.Outcome State Fault Refusal :=
  access w (isMeter m) s (regWrite w (meterReg m 0) data s)

/-- LEDGER_AUDIT (R264). -/
def execLedgerAudit (s : State) : Host.Outcome State Fault Refusal := .next s.audit

/-- RESTART_SWITCH (R265, R429). -/
def execRestartSwitch (w : Who) (data : Word) (s : State) : Host.Outcome State Fault Refusal := access w true s (regWrite w (sysReg 0x20) data s)

end Sys2Proof.Machine
end

