-- ==== Sys2Proof/Machine/ExecTick.lean ====
section
/-!
DEFINITION. Meanings: accesses to registers and to the scratchpad, snapshots, and the base tick (chapters 01, 02).
-/
namespace Sys2Proof.Machine

/-- REGISTER_WRITE (R6 to R8). -/
def execRegisterWrite (w : Who) (addr : Nat) (data : Word) (s : State) : Host.Outcome State Fault Refusal :=
  access w (decide (addr < 2 ^ 40)) s (anyWrite w addr data s)

/-- LOW_WORD_READ (R10): a read of a 32-bit register, or of the low word of a 64-bit one, whose high word is then held. -/
def execLowWordRead (w : Who) (addr : Nat) (s : State) : Host.Outcome State Fault Refusal :=
  query w (decide (addr < 2 ^ 40)) s (regRead w addr s)

/-- HIGH_WORD_READ (R10): the word held for the low word's read, or the live one. -/
def execHighWordRead (w : Who) (addr : Nat) (s : State) : Host.Outcome State Fault Refusal :=
  query w (decide (addr < 2 ^ 40)) s (regRead w addr s)

/-- SNAP_REQ (R14). -/
def execSnapReq (w : Who) (data : Word) (s : State) : Host.Outcome State Fault Refusal :=
  access w true s (regWrite w (sysReg 0x10) data s)

/-- SNAPSHOT_COPY (R14, R53, R54): with the shadows the ledger audit's sample of open frames is taken. -/
def execSnapshotCopy (s : State) : Host.Outcome State Fault Refusal := .next s.snapshotCopy

/-- The state after a write of bytes to the scratchpad by a master (R89, R108, R115): the host reaches it on PCIe only (R449, R460). -/
def scratchWrite (w : Who) (addr : Nat) (bytes : List Byte) (s : State) : State :=
  if s.pathOpen w (some .scratchpad) true then
    match s.spBurst w.master (bytes.length + 1) addr bytes with
    | (s1, true) => State.answerStore (s1, false)
    | (s1, false) => State.answerStore (s1.masterError w addr true, true)
  else State.answerStore (s.masterError w addr true, true)

/-- SCRATCHPAD_WRITE (R89): the write ends other masters' reservations of the granules it touches. -/
def execScratchpadWrite (w : Who) (addr : Nat) (bytes : List Byte) (s : State) : Host.Outcome State Fault Refusal :=
  access w (decide (addr + bytes.length ≤ 0x800000)) s (scratchWrite w addr bytes s)

/-- TICK_BOUNDARY (R37). -/
def execTickBoundary (s : State) : Host.Outcome State Fault Refusal := .next s.tickBoundary

/-- TICK_RUN_START (R34): RUN is written 1. -/
def execTickRunStart (w : Who) (s : State) : Host.Outcome State Fault Refusal := access w true s (regWrite w (tickReg 0) 1 s)

/-- TICK_RUN_STOP (R34): RUN is written 0. -/
def execTickRunStop (w : Who) (s : State) : Host.Outcome State Fault Refusal := access w true s (regWrite w (tickReg 0) 0 s)

/-- TICK_PERIOD_WRITE (R35). -/
def execTickPeriodWrite (w : Who) (period : Word) (s : State) : Host.Outcome State Fault Refusal :=
  access w true s (regWrite w (tickReg 4) period s)

/-- ENGINE_TICK_START (R69, R44). -/
def execEngineTickStart (s : State) : Host.Outcome State Fault Refusal := .next s.engineTickStart

/-- STAGED_OUTPUT_TRANSFER (R42). -/
def execStagedOutputTransfer (l : Nat) (s : State) : Host.Outcome State Fault Refusal := event (isLogical l) s (s.transferOutputs l)

/-- BUDGET_EXHAUSTED (R47, R52). -/
def execBudgetExhausted (pe : Nat) (s : State) : Host.Outcome State Fault Refusal := event (isEngine pe) s (s.budgetExhausted pe)

/-- COMMIT_DEADLINE (R47, R48). -/
def execCommitDeadline (s : State) : Host.Outcome State Fault Refusal := .next s.commitDeadline

end Sys2Proof.Machine
end

