-- ==== Sys2Proof/Machine/ExecTime.lean ====
section
/-!
DEFINITION. Meanings: the time base (chapter 11; R471).
-/
namespace Sys2Proof.Machine

/-- RATE_WRITE (R269, R272). -/
def execRateWrite (w : Who) (data : Word) (s : State) : Host.Outcome State Fault Refusal := access w true s (regWrite w (timeReg 0x10) data s)

/-- STEP_GO (R271). -/
def execStepGo (w : Who) (data : Word) (s : State) : Host.Outcome State Fault Refusal := access w true s (regWrite w (timeReg 0x24) data s)

/-- STEP_APPLY (R271, R34). -/
def execStepApply (s : State) : Host.Outcome State Fault Refusal := .next s.stepApply

/-- NOW_NS_READ (R270). -/
def execNowNsRead (w : Who) (s : State) : Host.Outcome State Fault Refusal := query w true s (regRead w (timeReg 0) s)

/-- SERVO_UPD (R273). -/
def execServoUpd (w : Who) (data : Word) (s : State) : Host.Outcome State Fault Refusal := access w true s (regWrite w (timeReg 0x34) data s)

/-- HOLDOVER_ENTRY (R273). -/
def execHoldoverEntry (s : State) : Host.Outcome State Fault Refusal := .next s.holdoverEntry

/-- OWNER_WRITE (R272, R273). -/
def execOwnerWrite (w : Who) (data : Word) (s : State) : Host.Outcome State Fault Refusal := access w true s (regWrite w (timeReg 0x30) data s)

/-- REFERENCE_BAD (R274, R275). -/
def execReferenceBad (isB : Bool) (s : State) : Host.Outcome State Fault Refusal := .next (s.refFails (bit01 isB))

/-- REFERENCE_GOOD (R274, R275). -/
def execReferenceGood (isB : Bool) (s : State) : Host.Outcome State Fault Refusal := .next (s.refDeclareGood (bit01 isB))

/-- REFERENCE_REVERT (R275). -/
def execReferenceRevert (s : State) : Host.Outcome State Fault Refusal := .next s.refRevert

/-- REF_SEL_WRITE (R275). -/
def execRefSelWrite (w : Who) (data : Word) (s : State) : Host.Outcome State Fault Refusal := access w true s (regWrite w (timeReg 0x48) data s)

/-- SDREF_SWITCH (R471). -/
def execSdrefSwitch (toB : SdrefFinding) (s : State) : Host.Outcome State Fault Refusal := .next (s.sdrefSwitch toB)

/-- TXTS_INFO_READ (R280). -/
def execTxtsInfoRead (w : Who) (p : Nat) (s : State) : Host.Outcome State Fault Refusal :=
  query w (isPort p) s (regRead w (timeReg (0x10010 + 0x100 * p)) s)

/-- GATE_WINDOW_OPEN (R284). -/
def execGateWindowOpen (n : Nat) (s : State) : Host.Outcome State Fault Refusal := event (isLaunch n) s (s.gateOpen n)

/-- GATE_WINDOW_CLOSE (R284). -/
def execGateWindowClose (n : Nat) (s : State) : Host.Outcome State Fault Refusal := event (isLaunch n) s (s.gateClose n)

/-- LAUNCH_ONCE_ELIGIBLE (R285, R286). -/
def execLaunchOnceEligible (n : Nat) (s : State) : Host.Outcome State Fault Refusal := event (isLaunch n) s (s.onceEligible n)

/-- LAUNCH_ARM (R287): CFG of a launch entry is written. -/
def execLaunchArm (w : Who) (n : Nat) (data : Word) (s : State) : Host.Outcome State Fault Refusal :=
  access w (isLaunch n) s (regWrite w (launchAddr n) data s)

/-- LQ_MODE_WRITE (R283). -/
def execLqModeWrite (w : Who) (q : Nat) (data : Word) (s : State) : Host.Outcome State Fault Refusal :=
  access w (isLaunchQueue q) s (regWrite w (lqAddr q) data s)

/-- PPS_OUT_PULSE (R288). -/
def execPpsOutPulse (o : Nat) (s : State) : Host.Outcome State Fault Refusal := event (isPps o) s (s.ppsPulse o)

/-- PPS_OUT_PULSE_END (R288). -/
def execPpsOutPulseEnd (o : Nat) (s : State) : Host.Outcome State Fault Refusal := event (isPps o) s (s.ppsPulseEnd o)

/-- PPS_IN_CAPTURE (R289). -/
def execPpsInCapture (i : Nat) (rising : Bool) (s : State) : Host.Outcome State Fault Refusal := event (isPps i) s (s.ppsCapture i rising)

/-- CAP_INFO_READ (R289). -/
def execCapInfoRead (w : Who) (i : Nat) (s : State) : Host.Outcome State Fault Refusal :=
  query w (isPps i) s (regRead w (timeReg (0x504 + 0x40 * i)) s)

end Sys2Proof.Machine
end

