-- ==== Sys2Proof/Machine/ExecTrav.lean ====
section
/-!
DEFINITION. Meanings: Traverse (chapter 13).
-/
namespace Sys2Proof.Machine

/-- GRID_POINT (R328). -/
def execGridPoint (s : State) : Host.Outcome State Fault Refusal := .next s.gridPoint

/-- HOME_CAPTURE (R349). -/
def execHomeCapture (a : Nat) (s : State) : Host.Outcome State Fault Refusal := event (isAxis a) s (s.homeCapture a)

/-- SETPOINT_VIEW (R336). -/
def execSetpointView (s : State) : Host.Outcome State Fault Refusal := .next s.setpointView

/-- TRAV_RUN (R332). -/
def execTravRun (w : Who) (a : Nat) (s : State) : Host.Outcome State Fault Refusal :=
  access w (isAxis a) s (regWrite w (axisReg a 0x30) 1 s)

/-- TRAV_TARGET (R341). -/
def execTravTarget (w : Who) (a : Nat) (s : State) : Host.Outcome State Fault Refusal :=
  access w (isAxis a) s (regWrite w (axisReg a 0x30) 2 s)

/-- TRAV_STOP (R335). -/
def execTravStop (w : Who) (a : Nat) (s : State) : Host.Outcome State Fault Refusal :=
  access w (isAxis a) s (regWrite w (axisReg a 0x30) 3 s)

/-- TRAV_HOME (R349). -/
def execTravHome (w : Who) (a : Nat) (s : State) : Host.Outcome State Fault Refusal :=
  access w (isAxis a) s (regWrite w (axisReg a 0x30) 4 s)

/-- TRAV_GEAR (R343). -/
def execTravGear (w : Who) (a : Nat) (s : State) : Host.Outcome State Fault Refusal :=
  access w (isAxis a) s (regWrite w (axisReg a 0x30) 5 s)

/-- TRAV_CLEAR (R352). -/
def execTravClear (w : Who) (a : Nat) (s : State) : Host.Outcome State Fault Refusal :=
  access w (isAxis a) s (regWrite w (axisReg a 0x30) 6 s)

/-- SEG_WR_WRITE (R333). -/
def execSegWrWrite (w : Who) (a : Nat) (data : Word) (s : State) : Host.Outcome State Fault Refusal :=
  access w (isAxis a) s (regWrite w (axisReg a 0x2C) data s)

/-- GEAR_Q_PUSH (R344). -/
def execGearQPush (w : Who) (a : Nat) (data : Word) (s : State) : Host.Outcome State Fault Refusal :=
  access w (isAxis a) s (regWrite w (axisReg a 0xA0) data s)

/-- GROUP_GO (R345). -/
def execGroupGo (w : Who) (g : Nat) (data : Word) (s : State) : Host.Outcome State Fault Refusal :=
  access w (isAxisGroup g) s (regWrite w (groupReg g 8) data s)

/-- KICK (R351). -/
def execKick (w : Who) (a : Nat) (data : Word) (s : State) : Host.Outcome State Fault Refusal :=
  access w (isAxis a) s (regWrite w (axisReg a 0xAC) data s)

/-- TRAV_WATCHDOG_EXPIRY (R351). -/
def execTravWatchdogExpiry (a : Nat) (s : State) : Host.Outcome State Fault Refusal := event (isAxis a) s (s.travWatchdog a)

end Sys2Proof.Machine
end

