-- ==== Sys2Proof/Machine/Dispatch.lean ====
section
/-!
DEFINITION. The dispatcher: one arm for each command.
-/
namespace Sys2Proof.Machine

/-- The effect of a command on everything but the queue. -/
def exec (i : Instr) (s : State) : Host.Outcome State Fault Refusal :=
  match i with
  | .registerWrite w addr data => Sys2Proof.Machine.execRegisterWrite w addr data s
  | .lowWordRead w addr => Sys2Proof.Machine.execLowWordRead w addr s
  | .highWordRead w addr => Sys2Proof.Machine.execHighWordRead w addr s
  | .snapReq w data => Sys2Proof.Machine.execSnapReq w data s
  | .snapshotCopy => Sys2Proof.Machine.execSnapshotCopy s
  | .scratchpadWrite w addr bytes => Sys2Proof.Machine.execScratchpadWrite w addr bytes s
  | .tickBoundary => Sys2Proof.Machine.execTickBoundary s
  | .tickRunStart w => Sys2Proof.Machine.execTickRunStart w s
  | .tickRunStop w => Sys2Proof.Machine.execTickRunStop w s
  | .tickPeriodWrite w period => Sys2Proof.Machine.execTickPeriodWrite w period s
  | .engineTickStart => Sys2Proof.Machine.execEngineTickStart s
  | .stagedOutputTransfer l => Sys2Proof.Machine.execStagedOutputTransfer l s
  | .budgetExhausted pe => Sys2Proof.Machine.execBudgetExhausted pe s
  | .commitDeadline => Sys2Proof.Machine.execCommitDeadline s
  | .takeoverStart l => Sys2Proof.Machine.execTakeoverStart l s
  | .loaderLoadComplete checksOk => Sys2Proof.Machine.execLoaderLoadComplete checksOk s
  | .spareTakeup l => Sys2Proof.Machine.execSpareTakeup l s
  | .bundleIssue core found => Sys2Proof.Machine.execBundleIssue core found s
  | .mulResult core residueOk => Sys2Proof.Machine.execMulResult core residueOk s
  | .divResult core residueOk => Sys2Proof.Machine.execDivResult core residueOk s
  | .lsuLoadResult core => Sys2Proof.Machine.execLsuLoadResult core s
  | .farResult core ecc => Sys2Proof.Machine.execFarResult core ecc s
  | .postedWriteComplete core => Sys2Proof.Machine.execPostedWriteComplete core s
  | .ctlWaitEnd core => Sys2Proof.Machine.execCtlWaitEnd core s
  | .lockstepMismatch => Sys2Proof.Machine.execLockstepMismatch s
  | .imgVerifyStart w idx => Sys2Proof.Machine.execImgVerifyStart w idx s
  | .imgCheckComplete idx => Sys2Proof.Machine.execImgCheckComplete idx s
  | .imgWithdraw w idx => Sys2Proof.Machine.execImgWithdraw w idx s
  | .imgAddrLenWrite w idx isLen data => Sys2Proof.Machine.execImgAddrLenWrite w idx isLen data s
  | .bindGo w l data => Sys2Proof.Machine.execBindGo w l data s
  | .binding l => Sys2Proof.Machine.execBinding l s
  | .bindHalt w l data => Sys2Proof.Machine.execBindHalt w l data s
  | .unbind l => Sys2Proof.Machine.execUnbind l s
  | .tsAreaWrite w l data => Sys2Proof.Machine.execTsAreaWrite w l data s
  | .otfFrame j fromLower bytes codeError => Sys2Proof.Machine.execOtfFrame j fromLower bytes codeError s
  | .otfModeWrite w p data => Sys2Proof.Machine.execOtfModeWrite w p data s
  | .sequencerStep n ecc => Sys2Proof.Machine.execSequencerStep n ecc s
  | .compareMatch n => Sys2Proof.Machine.execCompareMatch n s
  | .taqHiWrite w n data => Sys2Proof.Machine.execTaqHiWrite w n data s
  | .timedActionExecute n => Sys2Proof.Machine.execTimedActionExecute n s
  | .txdWrite w n data => Sys2Proof.Machine.execTxdWrite w n data s
  | .rxdRead w n => Sys2Proof.Machine.execRxdRead w n s
  | .swapRequest w n data => Sys2Proof.Machine.execSwapRequest w n data s
  | .forcedSwapRequest w n data => Sys2Proof.Machine.execForcedSwapRequest w n data s
  | .swapTakeEffect n => Sys2Proof.Machine.execSwapTakeEffect n s
  | .swapTimeout n => Sys2Proof.Machine.execSwapTimeout n s
  | .forcedSwapApply n => Sys2Proof.Machine.execForcedSwapApply n s
  | .cflagSet w n data => Sys2Proof.Machine.execCflagSet w n data s
  | .cflagClr w n data => Sys2Proof.Machine.execCflagClr w n data s
  | .dflagSet w n data => Sys2Proof.Machine.execDflagSet w n data s
  | .dflagClr w n data => Sys2Proof.Machine.execDflagClr w n data s
  | .muxCanAbWrite w n data => Sys2Proof.Machine.execMuxCanAbWrite w n data s
  | .muxTravWrite w n data => Sys2Proof.Machine.execMuxTravWrite w n data s
  | .spareCoreSteer w n data => Sys2Proof.Machine.execSpareCoreSteer w n data s
  | .coreSteerBack w n data => Sys2Proof.Machine.execCoreSteerBack w n data s
  | .coreCopyComplete n ecc => Sys2Proof.Machine.execCoreCopyComplete n ecc s
  | .shortDetect n pin => Sys2Proof.Machine.execShortDetect n pin s
  | .openWireTest n pin followed => Sys2Proof.Machine.execOpenWireTest n pin followed s
  | .reversalDetect n => Sys2Proof.Machine.execReversalDetect n s
  | .xcvrFaultDetect n => Sys2Proof.Machine.execXcvrFaultDetect n s
  | .bringIn w n pin data => Sys2Proof.Machine.execBringIn w n pin data s
  | .legExchangeComplete n pin => Sys2Proof.Machine.execLegExchangeComplete n pin s
  | .canModeWrite w k data => Sys2Proof.Machine.execCanModeWrite w k data s
  | .canModeChange k => Sys2Proof.Machine.execCanModeChange k s
  | .canIntegrationComplete k => Sys2Proof.Machine.execCanIntegrationComplete k s
  | .boRec w k data => Sys2Proof.Machine.execBoRec w k data s
  | .busOffRecoveryComplete k => Sys2Proof.Machine.execBusOffRecoveryComplete k s
  | .canTxReq w k slots => Sys2Proof.Machine.execCanTxReq w k slots s
  | .canTxCxl w k slots => Sys2Proof.Machine.execCanTxCxl w k slots s
  | .canNewClr w k data => Sys2Proof.Machine.execCanNewClr w k data s
  | .canRxfPop w k data => Sys2Proof.Machine.execCanRxfPop w k data s
  | .canViewCapture => Sys2Proof.Machine.execCanViewCapture s
  | .canAttemptStart k => Sys2Proof.Machine.execCanAttemptStart k s
  | .canAttemptEnd k how => Sys2Proof.Machine.execCanAttemptEnd k how s
  | .canFrameReceived k frame stampLag => Sys2Proof.Machine.execCanFrameReceived k frame stampLag s
  | .pcsModeWrite w p data => Sys2Proof.Machine.execPcsModeWrite w p data s
  | .anRestart w p data => Sys2Proof.Machine.execAnRestart w p data s
  | .linkUp p facts => Sys2Proof.Machine.execLinkUp p facts s
  | .linkDown p => Sys2Proof.Machine.execLinkDown p s
  | .polarityCorrection p => Sys2Proof.Machine.execPolarityCorrection p s
  | .laneSwapExchange p => Sys2Proof.Machine.execLaneSwapExchange p s
  | .serdesSwapWrite w p data => Sys2Proof.Machine.execSerdesSwapWrite w p data s
  | .serdesRxInvWrite w p data => Sys2Proof.Machine.execSerdesRxInvWrite w p data s
  | .frameHeadClassified p bytes => Sys2Proof.Machine.execFrameHeadClassified p bytes s
  | .macFrameEnd p bytes codeError => Sys2Proof.Machine.execMacFrameEnd p bytes codeError s
  | .pauseHoldExpiry q => Sys2Proof.Machine.execPauseHoldExpiry q s
  | .pauseFrameSend p => Sys2Proof.Machine.execPauseFrameSend p s
  | .pauseRefresh p prio => Sys2Proof.Machine.execPauseRefresh p prio s
  | .frameTxStart p found => Sys2Proof.Machine.execFrameTxStart p found s
  | .frameTxEnd p found => Sys2Proof.Machine.execFrameTxEnd p found s
  | .segSubmit w p data => Sys2Proof.Machine.execSegSubmit w p data s
  | .segJobStart p => Sys2Proof.Machine.execSegJobStart p s
  | .segJobComplete p => Sys2Proof.Machine.execSegJobComplete p s
  | .mdioGo w data => Sys2Proof.Machine.execMdioGo w data s
  | .mdioComplete value => Sys2Proof.Machine.execMdioComplete value s
  | .ptInsert w data => Sys2Proof.Machine.execPtInsert w data s
  | .ptDelete w data => Sys2Proof.Machine.execPtDelete w data s
  | .ptLookup w data => Sys2Proof.Machine.execPtLookup w data s
  | .ptWriteMasked w data => Sys2Proof.Machine.execPtWriteMasked w data s
  | .ptClearLearned w data => Sys2Proof.Machine.execPtClearLearned w data s
  | .ptCommandComplete => Sys2Proof.Machine.execPtCommandComplete s
  | .sourceLearn => Sys2Proof.Machine.execSourceLearn s
  | .addressAgeVisit index => Sys2Proof.Machine.execAddressAgeVisit index s
  | .mirrorRecordWrite => Sys2Proof.Machine.execMirrorRecordWrite s
  | .mirEnWrite w r data => Sys2Proof.Machine.execMirEnWrite w r data s
  | .redAverageUpdate => Sys2Proof.Machine.execRedAverageUpdate s
  | .redSeedWrite w data => Sys2Proof.Machine.execRedSeedWrite w data s
  | .ageGranule => Sys2Proof.Machine.execAgeGranule s
  | .meterEnable w m data => Sys2Proof.Machine.execMeterEnable w m data s
  | .ledgerAudit => Sys2Proof.Machine.execLedgerAudit s
  | .restartSwitch w data => Sys2Proof.Machine.execRestartSwitch w data s
  | .rateWrite w data => Sys2Proof.Machine.execRateWrite w data s
  | .stepGo w data => Sys2Proof.Machine.execStepGo w data s
  | .stepApply => Sys2Proof.Machine.execStepApply s
  | .nowNsRead w => Sys2Proof.Machine.execNowNsRead w s
  | .servoUpd w data => Sys2Proof.Machine.execServoUpd w data s
  | .holdoverEntry => Sys2Proof.Machine.execHoldoverEntry s
  | .ownerWrite w data => Sys2Proof.Machine.execOwnerWrite w data s
  | .referenceBad isB => Sys2Proof.Machine.execReferenceBad isB s
  | .referenceGood isB => Sys2Proof.Machine.execReferenceGood isB s
  | .referenceRevert => Sys2Proof.Machine.execReferenceRevert s
  | .refSelWrite w data => Sys2Proof.Machine.execRefSelWrite w data s
  | .sdrefSwitch toB => Sys2Proof.Machine.execSdrefSwitch toB s
  | .txtsInfoRead w p => Sys2Proof.Machine.execTxtsInfoRead w p s
  | .gateWindowOpen n => Sys2Proof.Machine.execGateWindowOpen n s
  | .gateWindowClose n => Sys2Proof.Machine.execGateWindowClose n s
  | .launchOnceEligible n => Sys2Proof.Machine.execLaunchOnceEligible n s
  | .launchArm w n data => Sys2Proof.Machine.execLaunchArm w n data s
  | .lqModeWrite w q data => Sys2Proof.Machine.execLqModeWrite w q data s
  | .ppsOutPulse o => Sys2Proof.Machine.execPpsOutPulse o s
  | .ppsOutPulseEnd o => Sys2Proof.Machine.execPpsOutPulseEnd o s
  | .ppsInCapture idx rising => Sys2Proof.Machine.execPpsInCapture idx rising s
  | .capInfoRead w idx => Sys2Proof.Machine.execCapInfoRead w idx s
  | .ropeContextEnable w r data => Sys2Proof.Machine.execRopeContextEnable w r data s
  | .ropeContextDisable w r data => Sys2Proof.Machine.execRopeContextDisable w r data s
  | .refBuild r => Sys2Proof.Machine.execRefBuild r s
  | .slotRelease r slot p => Sys2Proof.Machine.execSlotRelease r slot p s
  | .refTakeEffect r => Sys2Proof.Machine.execRefTakeEffect r s
  | .refSlotClose r => Sys2Proof.Machine.execRefSlotClose r s
  | .coldEntry r => Sys2Proof.Machine.execColdEntry r s
  | .anchorWindowOpen r slot => Sys2Proof.Machine.execAnchorWindowOpen r slot s
  | .sharedWindowDecision r => Sys2Proof.Machine.execSharedWindowDecision r s
  | .anchorTruncation p => Sys2Proof.Machine.execAnchorTruncation p s
  | .anchorWindowEnd r slot => Sys2Proof.Machine.execAnchorWindowEnd r slot s
  | .anchorLockTimeout r => Sys2Proof.Machine.execAnchorLockTimeout r s
  | .reconnect w p data => Sys2Proof.Machine.execReconnect w p data s
  | .gridPoint => Sys2Proof.Machine.execGridPoint s
  | .homeCapture a => Sys2Proof.Machine.execHomeCapture a s
  | .setpointView => Sys2Proof.Machine.execSetpointView s
  | .travRun w a => Sys2Proof.Machine.execTravRun w a s
  | .travTarget w a => Sys2Proof.Machine.execTravTarget w a s
  | .travStop w a => Sys2Proof.Machine.execTravStop w a s
  | .travHome w a => Sys2Proof.Machine.execTravHome w a s
  | .travGear w a => Sys2Proof.Machine.execTravGear w a s
  | .travClear w a => Sys2Proof.Machine.execTravClear w a s
  | .segWrWrite w a data => Sys2Proof.Machine.execSegWrWrite w a data s
  | .gearQPush w a data => Sys2Proof.Machine.execGearQPush w a data s
  | .groupGo w g data => Sys2Proof.Machine.execGroupGo w g data s
  | .kick w a data => Sys2Proof.Machine.execKick w a data s
  | .travWatchdogExpiry a => Sys2Proof.Machine.execTravWatchdogExpiry a s
  | .mbSend w e idx data => Sys2Proof.Machine.execMbSend w e idx data s
  | .mbRecv w e idx => Sys2Proof.Machine.execMbRecv w e idx s
  | .dbSet w e data => Sys2Proof.Machine.execDbSet w e data s
  | .dbMaskWrite w e data => Sys2Proof.Machine.execDbMaskWrite w e data s
  | .dbTake w e => Sys2Proof.Machine.execDbTake w e s
  | .waitTmrWrite w e data => Sys2Proof.Machine.execWaitTmrWrite w e data s
  | .waitTmrExpiry e => Sys2Proof.Machine.execWaitTmrExpiry e s
  | .lockTestAndSet w n => Sys2Proof.Machine.execLockTestAndSet w n s
  | .lockRelease w n => Sys2Proof.Machine.execLockRelease w n s
  | .ceLogRead w => Sys2Proof.Machine.execCeLogRead w s
  | .wipeGo w data => Sys2Proof.Machine.execWipeGo w data s
  | .wipeComplete => Sys2Proof.Machine.execWipeComplete s
  | .bgtRegionTest cls pe found patternFails => Sys2Proof.Machine.execBgtRegionTest cls pe found patternFails s
  | .marchGo w data => Sys2Proof.Machine.execMarchGo w data s
  | .marchComplete failAddr => Sys2Proof.Machine.execMarchComplete failAddr s
  | .repairGo w data => Sys2Proof.Machine.execRepairGo w data s
  | .repairComplete => Sys2Proof.Machine.execRepairComplete s
  | .faultTaken src cls cause vector => Sys2Proof.Machine.execFaultTaken src cls cause vector s
  | .pathBroken src cls => Sys2Proof.Machine.execPathBroken src cls s
  | .pathTest src cls pulseSeen => Sys2Proof.Machine.execPathTest src cls pulseSeen s
  | .eventEnqueue => Sys2Proof.Machine.execEventEnqueue s
  | .cairnRecordWrite => Sys2Proof.Machine.execCairnRecordWrite s
  | .tallyRecordWrite src => Sys2Proof.Machine.execTallyRecordWrite src s
  | .intHoldoffEnd => Sys2Proof.Machine.execIntHoldoffEnd s
  | .outRel w data => Sys2Proof.Machine.execOutRel w data s
  | .unitRelease o => Sys2Proof.Machine.execUnitRelease o s
  | .aliveToggle => Sys2Proof.Machine.execAliveToggle s
  | .heartbeat w data => Sys2Proof.Machine.execHeartbeat w data s
  | .heartbeatLoss => Sys2Proof.Machine.execHeartbeatLoss s
  | .wdogKick w data => Sys2Proof.Machine.execWdogKick w data s
  | .wdogExpiry => Sys2Proof.Machine.execWdogExpiry s
  | .nsafeAssert => Sys2Proof.Machine.execNsafeAssert s
  | .nsafeClear => Sys2Proof.Machine.execNsafeClear s
  | .injGo w data => Sys2Proof.Machine.execInjGo w data s
  | .injMissed => Sys2Proof.Machine.execInjMissed s
  | .injEnd => Sys2Proof.Machine.execInjEnd s
  | .f3Clr w data => Sys2Proof.Machine.execF3Clr w data s
  | .cairnScanComplete => Sys2Proof.Machine.execCairnScanComplete s
  | .powerFailThreshold => Sys2Proof.Machine.execPowerFailThreshold s
  | .scrubGo w data => Sys2Proof.Machine.execScrubGo w data s
  | .scrubComplete correctedBits => Sys2Proof.Machine.execScrubComplete correctedBits s
  | .post w data => Sys2Proof.Machine.execPost w data s
  | .powerGood facts => Sys2Proof.Machine.execPowerGood facts s
  | .porstAssert => Sys2Proof.Machine.execPorstAssert s
  | .vddAonApply fuses => Sys2Proof.Machine.execVddAonApply fuses s
  | .vddAonRemoval => Sys2Proof.Machine.execVddAonRemoval s
  | .softReset w data => Sys2Proof.Machine.execSoftReset w data s
  | .confirm w => Sys2Proof.Machine.execConfirm w s
  | .trialAutoConfirm => Sys2Proof.Machine.execTrialAutoConfirm s
  | .revoke w slot signer signatureOk => Sys2Proof.Machine.execRevoke w slot signer signatureOk s
  | .load w bundle => Sys2Proof.Machine.execLoad w bundle s
  | .bivouacReq w data => Sys2Proof.Machine.execBivouacReq w data s
  | .hostBundleWrite w data => Sys2Proof.Machine.execHostBundleWrite w data s
  | .bundleData w data => Sys2Proof.Machine.execBundleData w data s
  | .uartBundleFrame declaredLen bytes crc gapTooLong bundle => Sys2Proof.Machine.execUartBundleFrame declaredLen bytes crc gapTooLong bundle s
  | .lcCmd w data authorised => Sys2Proof.Machine.execLcCmd w data authorised s
  | .tamperTrip bit => Sys2Proof.Machine.execTamperTrip bit s
  | .sensorSample temps volts slow => Sys2Proof.Machine.execSensorSample temps volts slow s
  | .twbGo w data => Sys2Proof.Machine.execTwbGo w data s
  | .twbComplete outcome => Sys2Proof.Machine.execTwbComplete outcome s
  | .functionLevelReset => Sys2Proof.Machine.execFunctionLevelReset s
  | .busMasterDisable => Sys2Proof.Machine.execBusMasterDisable s
  | .dmaDoorbellTake bit => Sys2Proof.Machine.execDmaDoorbellTake bit s
  | .txDescriptor r addr word8 wordC host => Sys2Proof.Machine.execTxDescriptor r addr word8 wordC host s
  | .rxDescriptorComplete r addr => Sys2Proof.Machine.execRxDescriptorComplete r addr s
  | .ringDisable w receive r data => Sys2Proof.Machine.execRingDisable w receive r data s
  | .imodHoldoffEnd v => Sys2Proof.Machine.execImodHoldoffEnd v s
  | .hslReadWord cmd offset crc => Sys2Proof.Machine.execHslReadWord cmd offset crc s
  | .hslWriteWord cmd offset data crc => Sys2Proof.Machine.execHslWriteWord cmd offset data crc s
  | .uartReadRequest offset count crc => Sys2Proof.Machine.execUartReadRequest offset count crc s
  | .uartConsoleByte byte => Sys2Proof.Machine.execUartConsoleByte byte s
  | .canReceiveError k how => Sys2Proof.Machine.execCanReceiveError k how s
  | .systemPllLossOfLock => Sys2Proof.Machine.execSystemPllLossOfLock s
  | .coreCopyForce n => Sys2Proof.Machine.execCoreCopyForce n s
  | .logicBistComplete pe pass => Sys2Proof.Machine.execLogicBistComplete pe pass s
  | .sparePreloadDeal => Sys2Proof.Machine.execSparePreloadDeal s
  | .ingressCellTaken p bytes => Sys2Proof.Machine.execIngressCellTaken p bytes s
  | .ingressOversizeByte p bytes => Sys2Proof.Machine.execIngressOversizeByte p bytes s
  | .ingressCapturePoint p bytes => Sys2Proof.Machine.execIngressCapturePoint p bytes s

end Sys2Proof.Machine
end

