-- ==== Sys2Proof/Safety.lean ====
section
/-!
DEFINITION. What statements about the block say in common: which masters a register answers, that a command completes, and the invariant
that every step keeps.
-/
namespace Sys2Proof.Machine

/-- The master reaches every register of the device that is not reserved to another: the MCP, or the host over PCIe while its paths are not
reduced to those of Bivouac (R443, R444, R427). -/
def Admitted (w : Who) (s : State) : Prop :=
  (w.master = 0x01 ∧ w.path = .internal) ∨ (w.master = 0x00 ∧ w.path = .pcie ∧ s.hostClosed = false)

/-- The master is the MCP. -/
def ByMcp (w : Who) : Prop := w.master = 0x01 ∧ w.path = .internal

/-- The master is an engine, of number n. -/
def ByEngine (w : Who) (n : Nat) : Prop := w.master = 0x10 + n ∧ n < 36 ∧ w.path = .internal

/-- The command completes, and the state it leaves has a property. -/
def Leaves (c : Instr) (s : State) (p : State → Prop) : Prop := ∃ t, exec c s = .next t ∧ p t

/-- The write of a register is acknowledged: no bus error, and nothing read. -/
def acked (s : State) : State := { s with reply := [], replyErr := false }

/-- The write of a register is answered with a bus error. -/
def refusedWrite (s : State) : State := { s with reply := [], replyErr := true }

/-- The read of a register is answered with a word. -/
def answered (s : State) (v : Word) : State := { s with reply := [v], replyErr := false }

/-- The memories are in their canonical form (addresses rising, nothing listed that an unlisted address reads as). -/
def MemoryCanonical (s : State) : Prop := Memory.wf s.mem = true

/-- Nothing outside `s.reply` and `s.regs` differs between two states. -/
def OnlyRegs (s t : State) : Prop := t = { s with regs := t.regs, reply := t.reply, replyErr := t.replyErr }

/-- Channel n is left as `c`, and nothing else of the pin channels differs. -/
def OnlyChan (s t : State) (n : Nat) (c : Chan) : Prop :=
  t.chan n = c ∧ (∀ m, m ≠ n → t.chan m = s.chan m) ∧ t.pch.flags = s.pch.flags

/-- Controller k is left as `c`, and no other differs. -/
def OnlyCanc (s t : State) (k : Nat) (c : CanSt) : Prop := t.canc k = c ∧ ∀ m, m ≠ k → t.canc m = s.canc m

/-- The register words outside a list of addresses are those of before. -/
def OtherRegs (s t : State) (as : List Nat) : Prop := ∀ a, a ∉ as → t.reg a = s.reg a

/-- The counters outside a list of addresses are those of before. -/
def OtherCounts (s t : State) (as : List Nat) : Prop := ∀ a, a ∉ as → t.count a = s.count a

/-- Core n, which is c, may issue its next bundle: nothing is under way in its local units, it waits for nothing and serves no stall cycle, and its
bundle can be read (R56, R67, R102). -/
def Ready (s : State) (n : Nat) (c : Core) : Prop :=
  n ≤ 36 ∧ c = s.core n ∧ s.mayIssue n = true ∧ s.fetchFinding n c .clean = .clean ∧ c.mul = [] ∧ c.div = none ∧ c.lsu = [] ∧ c.late = [] ∧
    (c.stall = none ∨ c.stall = some 0) ∧ c.wait = none

/-- The bundle at the core's pc executes the moves `ms`, in slot order; none of its slots is reserved, and none reads LSU.FQ. -/
def Moves (s : State) (n : Nat) (c : Core) (ms : List Move) : Prop :=
  (∀ i, i < 4 → isLiteral (s.codeWord n c.pc) i = true ∨ slotReserved i (s.codeWord n c.pc i) = false) ∧
    0x122 ∉ c.reads (s.codeWord n c.pc) ∧ s.movesOf n c (s.codeWord n c.pc) = ms

/-- No jump is on its way, and the next bundle follows in the core's memory (R95, R96, R102). -/
def Straight (n : Nat) (c : Core) : Prop :=
  c.jumps = [] ∧ ((n < 36 ∧ c.pc < 4095) ∨ (n = 36 ∧ c.pc ≠ 0x1FFF ∧ c.pc ≠ 0x1FFFF))

/-- The core one bundle later, which did nothing else: SIG is rewritten with SIG_ADJ of 0 (R97). -/
def Core.passed (c : Core) : Core :=
  { c.put 0x011 (c.at 0x011) with pc := c.pc + 1, cyc := c.cyc + 1, iss := c.iss + 1, stall := none, paid := (0, []) }

/-- The core of channel n, which is c once the pads have been sampled, takes a step on the LUT entry e, with no swap due (R148, R151). -/
def StepsOn (s : State) (n : Nat) (c : Chan) (e : Word) : Prop :=
  n < 256 ∧ c = (s.sense n).chan n ∧ s.coreSteps n = true ∧ c.stepAt ≤ s.stepNo ∧ c.force = false ∧ c.pending = false ∧
    setReserved (s.inputSet n) = false ∧ e = s.reg (pchReg n (0x800 * bit01 c.active + 4 * s.lutIndex n (s.pinsIn n)))

/-- The operations of a LUT entry (R149): POUT of the four pins, FIFO, SHIFT, the two flags, TIMER, CNT and ERR. -/
def Operations (e : Word) (pout fifo shift flag0 flag1 timer cnt : Nat) (err : Bool) : Prop :=
  fieldOf e 5 8 = pout ∧ fieldOf e 19 2 = fifo ∧ fieldOf e 17 2 = shift ∧ fieldOf e 21 2 = flag0 ∧ fieldOf e 23 2 = flag1 ∧
    fieldOf e 25 3 = timer ∧ fieldOf e 30 2 = cnt ∧ bitOf e 29 = err

/-- A channel after a step on the entry e: NEXT, and the input set of the next step (R149). -/
def Chan.stepped (c : Chan) (e : Word) (stepNo : Nat) : Chan :=
  { c with state := fieldOf e 0 5, isel := bitOf e 28, stepAt := stepNo + 1 }

/-- Axis a alone is evaluated at the next grid point t, by itself: it is in no group, has a network output only, and no limit or home flag, and no fault of all axes stands. -/
def AloneOnGrid (s : State) (a : Nat) (t : Int) : Prop :=
  (∀ x, x < 64 → (s.axisOn x = true ↔ x = a)) ∧ a < 64 ∧ s.trav.groups = [] ∧ s.stepsOut a = false ∧ (s.axis a).mvalNew = false ∧
    s.limKey a 0 = none ∧ s.limKey a 8 = none ∧ s.limKey a 16 = none ∧ t = Int.ofNat (s.ns / 1000 * 1000) - s.trav.skew ∧
    s.allFault = false ∧ (∀ g, s.trav.grid = some g → g < t)

/-- A master's Traverse command, by its OP, to axis a is noted for the next grid point. -/
def noted (s : State) (a op : Nat) : State :=
  { s with trav := { s.trav with cmds := s.trav.cmds ++ [.cmd a op (signed (s.reg64 (axisReg a 0x38)) 64)] } }

/-- The device after a reset of everything but AON: RESET_CAUSE names the cause, the F4 latch, the tamper registers, fuses, flash and MRAM
are those of before, all else is as reset leaves it (R383, R405, R428, R437, R467). Every unit stands at safe level. While F4 is latched its reaction stands
on: reason DEVICE of every unit, and forwarding is halted (R383, R388). -/
def ResetButAon (s t : State) (cause : Nat) : Prop :=
  t.mgt.phase = .held ∧ t.reg resetCause = word (2 ^ cause) ∧ t.flt.f4 = s.flt.f4 ∧ t.flt.f3 = s.flt.f4 ∧ t.bit (swReg 0) 1 = s.flt.f4 ∧
    t.reg (mgtReg 0x220) = s.reg (mgtReg 0x220) ∧ t.reg (mgtReg 0x224) = s.reg (mgtReg 0x224) ∧
    OtherRegs State.reset t ([resetCause, mgtReg 0x220, mgtReg 0x224] ++ if s.flt.f4 then swReg 0 :: allUnits.map outSafe else []) ∧
    (∀ o, o < 288 → t.unitSafe o = true ∧ t.bit (outSafe o) 0 = true ∧ t.bit (outSafe o) 4 = s.flt.f4) ∧
    t.mgt.fuses = s.mgt.fuses ∧ t.mgt.bootCopies = s.mgt.bootCopies ∧ t.mgt.slotA = s.mgt.slotA ∧ t.mgt.slotB = s.mgt.slotB ∧ t.mgt.lcNext = s.mgt.lcNext ∧ t.mgt.tamperDue = s.mgt.tamperDue ∧
    (∀ a, cairnBase ≤ a → a < cairnBase + 0x400000 → t.byte a = s.byte a) ∧
    (∀ a, (a < cairnBase ∨ cairnBase + 0x400000 ≤ a) → t.byte a = 0) ∧ t.cnts = State.reset.cnts ∧ t.tick = State.reset.tick ∧
    t.tb = State.reset.tb ∧ t.pec = State.reset.pec ∧ t.pch = State.reset.pch ∧ (s.flt.f4 = false → t.can = State.reset.can) ∧
    t.sw = State.reset.sw ∧ t.rope = State.reset.rope ∧ t.trav = State.reset.trav ∧ t.cores = State.reset.cores ∧
    t.host = State.reset.host ∧ t.pending = s.pending

end Sys2Proof.Machine
end

