-- ==== Sys2Proof/Certificates/Slice0/Obligations.lean ====
section
/-!
DEFINITION. The statements for the provers: what the commands do, family by family, the state after reset, and the invariant that every step keeps.
-/
open Sys2Proof Sys2Proof.Machine

/-- A step takes the command at the front of the queue and runs it on the rest. On an empty queue one TIME cycle passes: the device time advances by
INC (in 2^−32 ns; R268, R269), and Traverse writes what it has due into the timed-action queues of its channels (R339); nothing else changes. That an
empty queue stands for a passing cycle, and when Traverse writes, are the model's choice (log entries 4 and 151). -/
def Obligations.StepRunsTheFrontCommandOrPassesACycle : Prop :=
  (∀ (c : Instr) (rest : List Instr) (s : State), s.pending = c :: rest → step s = exec c { s with pending := rest }) ∧
  (∀ (s : State) (r : Int), s.pending = [] → r = signed (s.reg (timeBase + 0x10)).toNat 32 → (∀ x, x ∈ s.trav.axes → x.2.acts = []) →
    step s = .next { s with time := s.time + (2 ^ 33 + 2 * r).toNat, cyc := s.cyc + 1 }) ∧
  (∀ (s : State) (r : Int), s.pending = [] → r = signed (s.reg (timeBase + 0x10)).toNat 32 →
    ∃ t, step s = .next t ∧ t.time = s.time + (2 ^ 33 + 2 * r).toNat ∧ t.cyc = s.cyc + 1 ∧
      (∀ n, t.chan n = { s.chan n with taq := (t.chan n).taq } ∧ ∃ xs, (t.chan n).taq = (s.chan n).taq ++ xs) ∧
      t.pch = { s.pch with chans := t.pch.chans } ∧ t.trav = { s.trav with axes := t.trav.axes } ∧
      t = { s with time := t.time, cyc := t.cyc, pch := t.pch, trav := t.trav, cnts := t.cnts }) ∧
  (∀ (s : State) (a n : Nat) (c : AxisSt) (x : StepAct), s.pending = [] → s.reg (timeBase + 0x10) = 0 → a < 64 → s.trav.axes = [(a, c)] →
    c.acts = [x] → x.at' ≤ Int.ofNat ((s.time + 2 ^ 33) / 2 ^ 32) - s.trav.skew + 1000 → n = s.stepCh a → s.bit (pchReg n 0x1108) 1 = true →
    (s.chan n).taq.length < 16 →
    ∃ t, step s = .next t ∧ (t.axis a).acts = [] ∧ (∃ w, (t.chan n).taq = (s.chan n).taq ++ [((x.at' + s.trav.skew).toNat / 2 % 2 ^ 48, w)]) ∧
      t.count (axisReg a 0x108) = s.count (axisReg a 0x108) + bit01 (x.step != 0))

/-- Every command completes in every state: none ends in a fault and none is refused, so that a unit or a master that does not exist cannot stop the
block (log entries 3 and 9). An event of a unit that the part does not have changes nothing, and an access to one is answered as R8 answers an address
at which nothing stands. -/
def Obligations.EveryCommandCompletes : Prop :=
  (∀ (c : Instr) (s : State), ∃ t, exec c s = .next t) ∧
  (∀ (s : State) (n : Nat) (f : CoreFinding) (e : EccFinding), 37 ≤ n →
    exec (.bundleIssue n f) s = .next s ∧ exec (.ctlWaitEnd n) s = .next s ∧ exec (.farResult n e) s = .next s) ∧
  (∀ (w : Who) (s : State) (n : Nat) (d : Word), w.ok = false → exec (.txdWrite w n d) s = .next s ∧ exec (.rxdRead w n) s = .next s) ∧
  (∀ (w : Who) (s : State) (n : Nat) (d : Word), ByMcp w → 256 ≤ n →
    exec (.txdWrite w n d) s = .next (refusedWrite (s.coreRefused 36 0 (s.core 36).pc)) ∧ exec (.rxdRead w n) s = .next (answered s 0))

/-- R6, R7, R8: a write of any register by the host or the MCP is what its unit answers, acknowledged or refused with a bus error; one at an address
that no block has, or that is not aligned, is refused, and so is an engine's write that is not staged. A register of any block to whose access
its unit adds nothing: a write stores the RW bits, clears the W1C bits that are written 1 and leaves every other bit; a read returns the word; an
offset without a register reads as zero and refuses a write. No BAR maps the secure memory and the engine windows (R449). -/
def Obligations.RegisterAccessFollowsItsAccessCodes : Prop :=
  (∀ (w : Who) (s s1 t : State) (a o : Nat) (b : Block) (d : Word), Admitted w s → a % 4 = 0 → blockOf a = some (b, o) →
    s1 = { s with freeCtr := s.freeCtr + 4 } → ((s1.blockWrite w b o a d s.signedFree).orPlain s1 a d).state s1 = (t, false) →
    exec (.registerWrite w a d) s = .next (acked t)) ∧
  (∀ (w : Who) (s s1 t : State) (a o : Nat) (b : Block) (d : Word), Admitted w s → a % 4 = 0 → blockOf a = some (b, o) →
    s1 = { s with freeCtr := s.freeCtr + 4 } → ((s1.blockWrite w b o a d s.signedFree).orPlain s1 a d).state s1 = (t, true) →
    exec (.registerWrite w a d) s = .next (refusedWrite (t.masterError w a true))) ∧
  (∀ (w : Who) (s : State) (a : Nat) (d : Word), Admitted w s → a < 2 ^ 40 → (a % 4 ≠ 0 ∨ blockOf a = none) →
    exec (.registerWrite w a d) s = .next (refusedWrite ({ s with freeCtr := s.freeCtr + 4 }.masterError w a true))) ∧
  (∀ (w : Who) (s s1 t : State) (a n : Nat) (d : Word), ByEngine w n → a < 2 ^ 40 → s1 = { s with freeCtr := s.freeCtr + 4 } →
    (s1.stageWrite n a d = (t, false) → exec (.registerWrite w a d) s = .next (acked t)) ∧
    (s1.stageWrite n a d = (t, true) → exec (.registerWrite w a d) s = .next (refusedWrite (t.masterError w a true)))) ∧
  (∀ (w : Who) (s t : State) (a o : Nat) (b : Block) (v : Word), Admitted w s → a % 4 = 0 → blockOf a = some (b, o) →
    (isHost w = true → b ≠ .secure ∧ b ≠ .pe) → s.finishRead w a ((s.blockRead w b o a).orPlain s a) = ⟨t, v, false⟩ → exec (.lowWordRead w a) s = .next (answered t v)) ∧
  (∀ (w : Who) (s : State) (a o : Nat) (b : Block), Admitted w s → isHost w = true → a % 4 = 0 → blockOf a = some (b, o) → (b = .secure ∨ b = .pe) →
    exec (.lowWordRead w a) s = .next { s.masterError w a false with reply := [0xFFFFFFFF], replyErr := true }) ∧
  (∀ (w : Who) (s s1 : State) (a o rw w1c r : Nat) (b : Block) (d : Word), Admitted w s → a % 4 = 0 → blockOf a = some (b, o) →
    s1 = { s with freeCtr := s.freeCtr + 4 } → cellAt a = some (.word rw w1c r) → s1.blockWrite w b o a d s.signedFree = .plain →
    exec (.registerWrite w a d) s = .next (acked (s1.setReg a
      (clearBits ((s.reg a &&& ~~~(word rw)) ||| (d &&& word rw)) (d &&& word w1c))))) ∧
  (∀ (w : Who) (s s1 : State) (a o rw r : Nat) (b : Block) (d : Word), Admitted w s → a % 4 = 0 → blockOf a = some (b, o) →
    s1 = { s with freeCtr := s.freeCtr + 4 } → (cellAt a = some (.wideLo rw r) ∨ cellAt a = some (.wideHi rw r)) →
    s1.blockWrite w b o a d s.signedFree = .plain →
    exec (.registerWrite w a d) s = .next (acked (s1.setReg a ((s.reg a &&& ~~~(word rw)) ||| (d &&& word rw))))) ∧
  (∀ (w : Who) (s : State) (a o rw w1c r : Nat) (b : Block), Admitted w s → a % 4 = 0 → blockOf a = some (b, o) → cellAt a = some (.word rw w1c r) →
    s.blockRead w b o a = .plain → exec (.lowWordRead w a) s = .next (answered s (s.reg a))) ∧
  (∀ (w : Who) (s s1 : State) (a o : Nat) (b : Block) (d : Word), Admitted w s → a % 4 = 0 → blockOf a = some (b, o) → cellAt a = none →
    s1 = { s with freeCtr := s.freeCtr + 4 } → s1.blockWrite w b o a d s.signedFree = .plain →
    exec (.registerWrite w a d) s = .next (refusedWrite (s1.masterError w a true))) ∧
  (∀ (w : Who) (s : State) (a o : Nat) (b : Block), Admitted w s → a % 4 = 0 → blockOf a = some (b, o) → cellAt a = none → s.blockRead w b o a = .plain →
    exec (.lowWordRead w a) s = .next (answered s 0))

/-- R10 on TICK.INDEX: the read of the low word latches the high word for that master and path; the next read of the high word returns the latched
word, and without one the live word. R14: a 1 written to SNAP_REQ requests a snapshot and a 0 does nothing; the snapshot copies every counter into its
shadow and counts in SNAP_SEQ, once for all requests that it serves (the register at swBase + 0x9024 holds the sample of open frames of R53). -/
def Obligations.WideReadsAndSnapshots : Prop :=
  (∀ (w : Who) (s : State), Admitted w s →
    exec (.lowWordRead w (tickReg 0x10)) s =
      .next (answered (s.setHeld w (some (tickReg 0x10, s.reg (tickReg 0x14)))) (s.reg (tickReg 0x10)))) ∧
  (∀ (w : Who) (s : State) (h : Word), Admitted w s → s.held w = some (tickReg 0x10, h) →
    exec (.highWordRead w (tickReg 0x14)) s = .next (answered (s.setHeld w none) h)) ∧
  (∀ (w : Who) (s : State), Admitted w s → (∀ h, s.held w ≠ some (tickReg 0x10, h)) →
    exec (.highWordRead w (tickReg 0x14)) s = .next (answered s (s.reg (tickReg 0x14)))) ∧
  (∀ (w : Who) (s : State) (d : Word), Admitted w s →
    exec (.snapReq w d) s =
      .next (acked (if bitOf d 0 then { s with tick := { s.tick with snapReq := true } } else s))) ∧
  (∀ (s : State), (s.tick.snapDue = true ∨ (s.tick.snapReq = true ∧ s.bit tickStatus 0 = false)) →
    Leaves .snapshotCopy s (fun t => (∀ k, t.snap k = s.count k ∧ t.count k = s.count k) ∧
      t.reg (sysReg 0x14) = s.reg (sysReg 0x14) + 1 ∧ t.tick.snapDue = false ∧
      t.tick.snapReq = (s.tick.snapDue && s.tick.snapReq) ∧
      (∀ a, a ≠ sysReg 0x14 → a ≠ swBase + 0x9024 → t.reg a = s.reg a) ∧
      t = { s with regs := t.regs, snaps := t.snaps, tick := t.tick })) ∧
  (∀ (s : State), s.tick.snapDue = false → (s.tick.snapReq = false ∨ s.bit tickStatus 0 = true) → exec .snapshotCopy s = .next s)

/-- R32 to R35: RUN 0 to 1 chooses the first boundary where no tick runs (and ends a fault that had stopped the tick generator: the model's choice,
log entry 188), RUN 1 to 0 lets the current tick run to its end, and PERIOD takes a value in range at once, or at the next boundary while ticks run. -/
def Obligations.TickControlIsByRunAndPeriod : Prop :=
  (∀ (w : Who) (s : State), Admitted w s → s.bit (tickReg 0) 0 = false → s.bit tickStatus 0 = false →
    exec (.tickRunStart w) s = .next (acked ({ s with
      flt := { s.flt with tickFault := false },
      tick := { s.tick with next := some ((s.ns + 2000 + s.tick.inForce * 1000 - 1) / (s.tick.inForce * 1000) * (s.tick.inForce * 1000)) } }.setReg
        (tickReg 0) 1))) ∧
  (∀ (w : Who) (s : State), Admitted w s → s.bit (tickReg 0) 0 = true → exec (.tickRunStart w) s = .next (acked s)) ∧
  (∀ (w : Who) (s : State), Admitted w s → s.bit tickStatus 0 = true →
    exec (.tickRunStop w) s = .next (acked ({ s with tick := { s.tick with stopping := true } }.setReg (tickReg 0) 0))) ∧
  (∀ (w : Who) (s : State), Admitted w s → s.bit tickStatus 0 = false →
    exec (.tickRunStop w) s = .next (acked ({ s with tick := { s.tick with next := none } }.setReg (tickReg 0) 0))) ∧
  (∀ (w : Who) (s : State) (v : Nat), Admitted w s → 10 ≤ v → v ≤ 1000000 → s.minPeriod ≤ v → s.bit tickStatus 0 = true →
    exec (.tickPeriodWrite w (word v)) s = .next (acked ((s.setReg (tickReg 4) (word v)).setBit tickStatus 1 true))) ∧
  (∀ (w : Who) (s : State) (v : Nat), Admitted w s → 10 ≤ v → v ≤ 1000000 → s.minPeriod ≤ v → s.bit tickStatus 0 = false →
    s.bit (tickReg 0) 0 = false →
    exec (.tickPeriodWrite w (word v)) s = .next (acked ({ s with tick := { s.tick with inForce := v } }.setReg (tickReg 4) (word v)))) ∧
  (∀ (w : Who) (s : State) (v : Nat), Admitted w s → v < 2 ^ 20 → (v < 10 ∨ 1000000 < v) →
    exec (.tickPeriodWrite w (word v)) s = .next (refusedWrite (s.masterError w (tickReg 4) true)))

/-- R33, R35 to R37: a boundary that is not reached does nothing; one at which the grid stops ends the ticks; any other starts a tick on its grid. The
start and the length of the new tick are shown in the registers of TICK. The writes of pin channels and of Traverse that were released wait for the
boundary and take effect there in the order issued (R147). -/
def Obligations.BoundaryStartsTheNextTick : Prop :=
  (∀ s : State, (s.tick.next = none ∨ ∃ e, s.tick.next = some e ∧ s.ns < e) → exec .tickBoundary s = .next s) ∧
  (∀ (s : State) (e p : Nat), s.tick.next = some e → e ≤ s.ns → s.tick.stopping = false → s.tb.step = none → s.pec.released = [] →
    s.pec.deadlineDue = false → (∀ l, l < 32 → s.bindState l = 2 → s.logicalOf (s.phys l) = some l) → p = s.fld (tickReg 4) 0 20 →
    Leaves .tickBoundary s (fun t =>
      t.tick = ⟨some ((e + (p * 1000 + 1) / 2 + p * 1000 - 1) / (p * 1000) * (p * 1000)), false, p, e, false,
        s.tick.snapReq || s.tick.snapDue⟩ ∧
      t.pec.startDue = true ∧ t.pec.deadlineDue = true ∧ t.pec.goPend = [] ∧ t.pec.haltPend = [] ∧ t.time = s.time)) ∧
  (∀ (s : State) (e : Nat), s.tick.next = some e → e ≤ s.ns → s.tick.stopping = true → s.pec.released = [] →
    s.pec.deadlineDue = false → (∀ l, l < 32 → s.bindState l = 2 → s.logicalOf (s.phys l) = some l) →
    Leaves .tickBoundary s (fun t => t.tick.next = none ∧ t.tick.stopping = false ∧ t.tick.inForce = s.fld (tickReg 4) 0 20 ∧
      t.bit tickStatus 0 = false ∧ t.bit tickStatus 1 = false ∧ (∀ a, a ≠ tickStatus → t.reg a = s.reg a) ∧ t.mem = s.mem)) ∧
  (∀ (s : State) (start fin : Nat), start ≤ fin → fin < 2 ^ 64 →
    let t := s.tickRegs start fin
    t.reg64 (tickReg 0x10) = fin / s.periodNs - 1 ∧ t.reg64 (tickReg 0x18) = start / 1000000000 ∧
    t.reg (tickReg 0x20) = word (start % 1000000000) ∧ t.reg (tickReg 0x24) = word ((fin - start) / 1000) ∧
    t.reg (tickReg 0x28) = word (fin - start) ∧ t.count (tickReg 0x30) = s.count (tickReg 0x30) + 1 ∧
    t.count (tickReg 0x38) = s.count (tickReg 0x38) + (if fin - start = s.periodNs then 0 else 1)) ∧
  (∀ (s : State) (e n m c : Nat) (d1 d2 : Word), s.tick.next = some e → e ≤ s.ns → s.tick.stopping = false → s.pec.released = [] →
    s.pec.deadlineDue = false → (∀ l, l < 32 → s.bindState l = 2 → s.logicalOf (s.phys l) = some l) → (∀ l, l < 32 → s.standingOf l = false) →
    s.bit (travReg 0) 0 = false → c < 256 → (s.chan c).tx.length < 15 →
    s.pec.atBoundary = [(n, pchReg c 0x1120, d1), (m, pchReg c 0x1120, d2)] →
    Leaves .tickBoundary s (fun t => (t.chan c).tx = (s.chan c).tx ++ [d1, d2] ∧ t.pec.atBoundary = []))

/-- R69, R42, R44, R92, R113, R147: at the start of the tick every engine that serves a running logical engine begins at the entry of its first due
image, or commits at once where none is due. What the last commit released enters the block that it is for: writes of pin channels and of Traverse wait
for the boundary, a CAN request joins the controller's queue, and a frame enters the switch on the engine port 42 + (l mod 6), where it counts as
accepted and is offered or dropped. -/
def Obligations.EnginesBeginAndOutputsTransfer : Prop :=
  (∀ s : State, (s.pec.startDue = false ∨ s.ns < s.tick.start + 40) → exec .engineTickStart s = .next s) ∧
  (∀ s : State, s.pec.startDue = true → s.tick.start + 40 ≤ s.ns → Leaves .engineTickStart s (fun t => t.pec.startDue = false)) ∧
  (∀ (s : State), s.pec.startDue = true → s.tick.start + 40 ≤ s.ns → s.pec.due = [] → s.pec.canDue = false →
    (∀ m, m < 36 → (s.core m).far = [] ∧ (s.core m).posted = [] ∧ (s.core m).allocs = []) →
    (∀ n, n < 36 → ∀ m, m < 36 → s.logicalOf n ≠ none → s.logicalOf n = s.logicalOf m → n = m) →
    (∀ l, l < 32 → s.bindState l = 2 → s.takeover l = none) →
    Leaves .engineTickStart s (fun t =>
      (∀ n, n < 36 → ∀ l, l < 32 → s.logicalOf n = some l → s.peState n = 4 → s.bindState l = 2 → s.barredIn l = false →
        ∀ a, (s.dueImages l s.tickIndex).head? = some a →
        t.core n = { Core.reset with running := true, pc := s.imgEntry a } ∧
        t.reg (peGroup n + 0x40) = word (s.effBudget l s.tickIndex) ∧ (∀ i, t.lineWritten l i = false)) ∧
      (∀ n, n < 36 → ∀ l, l < 32 → s.logicalOf n = some l → s.peState n = 4 → s.bindState l = 2 → s.barredIn l = false →
        s.dueImages l s.tickIndex = [] →
        (t.core n).running = false ∧ t.committedIn l = true ∧ t.bit (peGroup n + 0x4C) 0 = true ∧ (∀ i, t.selector l i = s.selector l i)) ∧
      (∀ n, n < 36 → s.logicalOf n = none → t.core n = s.core n ∧ t.reg (peGroup n + 0x40) = s.reg (peGroup n + 0x40)) ∧
      t.pec.startDue = false ∧ (∀ m, m < 36 → t.reservation (0x10 + m) = none) ∧ t.mem = s.mem)) ∧
  (∀ (s : State) (l : Nat), l < 32 → Tab.get (fun _ => []) s.pec.released l = [] →
    Leaves (.stagedOutputTransfer l) s (fun t => (∀ m, Tab.get (fun _ => []) t.pec.released m = Tab.get (fun _ => []) s.pec.released m) ∧
      t = { s with pec := { s.pec with released := t.pec.released } })) ∧
  (∀ (s : State) (l n tk : Nat) (ws : List (Nat × Word)), l < 32 → Tab.get (fun _ => (0, 0)) s.pec.releasedBy l = (n, tk) →
    Tab.get (fun _ => []) s.pec.released l = ws.map (fun x => Staged.write x.1 x.2) →
    (∀ x, x ∈ ws → (blockOf x.1).map Prod.fst = some .pch ∨ (blockOf x.1).map Prod.fst = some .trav) →
    exec (.stagedOutputTransfer l) s = .next { s with pec := { s.pec with
      released := Tab.set (fun _ => []) s.pec.released l [], atBoundary := s.pec.atBoundary ++ ws.map (fun x => (n, x.1, x.2)) } }) ∧
  (∀ (s : State) (l k j : Nat), l < 32 → k < 32 → j < 32 → Tab.get (fun _ => []) s.pec.released l = [.write (canReg k 0x24) (word (2 ^ j))] →
    s.slotState k j ≠ 1 → s.slotState k j ≠ 2 → (s.bit (slotAddr k j + 4) 4 = false ∨ (s.bit (canReg k 0) 2 = true ∧ s.bit (slotAddr k j) 30 = false)) →
    exec (.stagedOutputTransfer l) s =
      .next ((({ s with pec := { s.pec with released := Tab.set (fun _ => []) s.pec.released l [] } }).setCanc k
        { s.canc k with queue := (s.canc k).queue ++ [(⟨j, false, false⟩ : CanEntry)] }).setReg (txStat k j) 1)) ∧
  (∀ (s s1 : State) (l i len n tk : Nat), l < 32 → Tab.get (fun _ => []) s.pec.released l = [.send i len] →
    Tab.get (fun _ => (0, 0)) s.pec.releasedBy l = (n, tk) →
    s1 = { s with pec := { s.pec with released := Tab.set (fun _ => []) s.pec.released l [] } } →
    exec (.stagedOutputTransfer l) s =
      .next ((s1.enterFrame (42 + l % 6) (some l) (bytesAt (s.slot l i).data 0 len) (some tk)).emptySlot l i)) ∧
  (∀ (s : State) (l i len : Nat), l < 32 → Tab.get (fun _ => []) s.pec.released l = [.send i len] → s.bit (swReg 0) 0 = true →
    Leaves (.stagedOutputTransfer l) s (fun t => t.slot l i = Slot.empty ∧ Tab.get (fun _ => []) t.pec.released l = [] ∧
      t.count acceptedCnt = s.count acceptedCnt + 1 ∧ t.mem = s.mem)) ∧
  (∀ (s : State) (l i len : Nat), l < 32 → Tab.get (fun _ => []) s.pec.released l = [.send i len] → s.bit (swReg 0) 0 = true →
    s.firstCell (42 + l % 6) = none →
    Leaves (.stagedOutputTransfer l) s (fun t => t.count (dropCnt 12) = s.count (dropCnt 12) + 1 ∧ t.sw.queues = s.sw.queues)) ∧
  (∀ (s : State) (l i len : Nat), l < 32 → Tab.get (fun _ => []) s.pec.released l = [.send i len] → s.bit (swReg 0) 0 = false →
    Leaves (.stagedOutputTransfer l) s (fun t => t.slot l i = Slot.empty ∧ t.sw.queues = s.sw.queues ∧ t.count acceptedCnt = s.count acceptedCnt))

/-- R47, R52, R117: an engine whose counter reaches the budget, or that has not committed by the deadline, has overrun: it halts with an F2 of its
own, and its event waits for the outcome of the takeover. -/
def Obligations.OverrunsHaltTheEngine : Prop :=
  (∀ (s : State) (n : Nat), n < 36 → ((s.core n).running = false ∨ (s.core n).cyc < (s.reg (peGroup n + 0x40)).toNat) →
    exec (.budgetExhausted n) s = .next s) ∧
  (∀ (s : State) (n l : Nat), n < 36 → (s.core n).running = true → (s.reg (peGroup n + 0x40)).toNat ≤ (s.core n).cyc →
    s.logicalOf n = some l → s.takeover l = none → (s.core n).posted = [] → (s.core n).far = [] →
    Leaves (.budgetExhausted n) s (fun t =>
      t.peState n = 6 ∧ t.peCause n = 6 ∧ t.logicalOf n = none ∧ t.core n = Core.reset ∧ t.reservation (0x10 + n) = none ∧
      t.bit (peGroup n + 0x4C) 2 = true ∧ t.bit (peGroup n + 0x4C) 3 = s.bit (peGroup n + 0x4C) 3 ∧ t.bit tickStatus 4 = true ∧
      t.reg (peGroup n + 0x44) = word (s.core n).cyc ∧
      t.count (peGroup n + 0x50) = s.count (peGroup n + 0x50) + 1 ∧ t.count (peGroup n + 0x80) = s.count (peGroup n + 0x80) + 1 ∧
      t.flt.detected = s.flt.detected ++ [{ s.newEvent n 2 6 0 [] with waits := true }] ∧
      t = { s with regs := t.regs, cnts := t.cnts, cores := t.cores, flt := t.flt, mgt := t.mgt, pec := t.pec, sw := t.sw })) ∧
  (∀ s : State, (s.pec.deadlineDue = false ∨ s.ns < s.deadline) → exec .commitDeadline s = .next s) ∧
  (∀ s : State, s.pec.deadlineDue = true → s.deadline ≤ s.ns →
    (∀ l, l < 32 → s.committedIn l = true ∨ s.missedIn l = true ∨ s.bindState l = 0) →
    exec .commitDeadline s = .next { s with pec := { s.pec with deadlineDue := false } }) ∧
  (∀ (s : State) (l n : Nat), s.pec.deadlineDue = true → s.deadline ≤ s.ns → l < 32 → n < 36 → n = s.phys l →
    (∀ m, m < 32 → m ≠ l → s.bindState m = 0) → s.committedIn l = false → s.missedIn l = false → s.barredIn l = false →
    s.bindState l = 2 → s.logicalOf n = some l → s.peState n = 4 → s.takeover l = none → (s.core n).posted = [] → (s.core n).far = [] →
    Leaves .commitDeadline s (fun t => t.peState n = 6 ∧ t.peCause n = 7 ∧ t.logicalOf n = none ∧ t.core n = Core.reset ∧
      t.bit (peGroup n + 0x4C) 2 = true ∧ t.bit (peGroup n + 0x4C) 3 = true ∧
      t.count (peGroup n + 0x50) = s.count (peGroup n + 0x50) + 1 ∧ t.pec.deadlineDue = false ∧ t.mem = s.mem))

/-- R120 to R124: a logical engine whose engine has failed is given the chosen spare, or waits for one; the load of a takeover that ended well lets
the spare re-execute the tick or run from the next one; a spare that comes free is taken. -/
def Obligations.TakeoversBringInASpare : Prop :=
  (∀ (s : State) (l : Nat), l < 32 →
    ((s.bindState l ≠ 1 ∧ s.bindState l ≠ 2) ∨ s.logicalOf (s.phys l) = some l ∨ s.takeover l ≠ none) →
    exec (.takeoverStart l) s = .next s) ∧
  (∀ (s : State) (l m : Nat), l < 32 → (s.bindState l = 1 ∨ s.bindState l = 2) → s.logicalOf (s.phys l) ≠ some l →
    s.takeover l = none → s.chooseSpare l = some m →
    Leaves (.takeoverStart l) s (fun t => t.bindState l = 3 ∧ t.phys l = m ∧ t.peState m = 3 ∧ t.logicalOf m = some l ∧
      t.core m = Core.reset ∧ t.pec.loads = s.pec.loads ++ [⟨m, l, true⟩] ∧
      t.count (bindAddr l + 0x90) = s.count (bindAddr l + 0x90) + 1 ∧ t.mem = s.mem ∧ t.pch = s.pch ∧ t.can = s.can ∧ t.sw = s.sw)) ∧
  (∀ (s : State) (l : Nat), l < 32 → (s.bindState l = 1 ∨ s.bindState l = 2) → s.logicalOf (s.phys l) ≠ some l →
    s.takeover l = none → s.chooseSpare l = none →
    Leaves (.takeoverStart l) s (fun t => t.bindState l = 4 ∧ t.takeover l = some ⟨s.phys l, s.peCause (s.phys l), 0xFF, false⟩ ∧
      t.count (bindAddr l + 0x90) = s.count (bindAddr l + 0x90) + 1 ∧ t.mem = s.mem ∧ t.cores = s.cores ∧ t.sw = s.sw)) ∧
  (∀ (s : State) (l m : Nat) (t0 : Takeover), l < 32 → s.isDue l 2 = true → s.bindState l = 4 → s.takeover l = some t0 →
    s.chooseSpare l = some m →
    Leaves (.spareTakeup l) s (fun t => t.bindState l = 3 ∧ t.phys l = m ∧ t.peState m = 3 ∧ t.logicalOf m = some l ∧
      t.barredIn l = true ∧ t.takeover l = some ⟨t0.failed, t0.cause, m, false⟩ ∧
      t.count (bindAddr l + 0x90) = s.count (bindAddr l + 0x90) + 1 ∧ t.mem = s.mem)) ∧
  (∀ (s : State) (l : Nat), l < 32 → s.isDue l 2 = false → exec (.spareTakeup l) s = .next s) ∧
  (∀ (s : State) (ok : Bool), s.pec.loads = [] → exec (.loaderLoadComplete ok) s = .next s) ∧
  (∀ (s : State) (n l : Nat) (rest : List Load), n < 36 → l < 32 → s.pec.loads = ⟨n, l, false⟩ :: rest → s.logicalOf n = some l →
    s.takeover l = none → s.loadBad l n = none → (s.imageAddrs l).all (fun a => s.codeCrcOk a) = true →
    (∀ a, a ∈ s.imageAddrs l → s.imgCodeBase a + s.imgBundles a ≤ 4096) →
    Leaves (.loaderLoadComplete true) s (fun t => t.pec.loads = rest ∧ Tab.get (fun _ => false) t.pec.loaded n = true ∧
      OtherRegs s t ((List.range 128).map imgStat) ∧ (∀ i, i < 128 → t.preloaded n i = false) ∧
      (∀ e, e ∈ t.flt.bus → e ∈ s.flt.bus ∨ (e.src = 0x6C ∧ e.kind = 3)) ∧
      t = { s with mem := t.mem, pec := t.pec, regs := t.regs, flt := { s.flt with bus := t.flt.bus } } ∧
      (∀ b, b < imBase n ∨ imBase n + 0x10000 ≤ b → t.byte b = s.byte b))) ∧
  (∀ (s : State) (n l a : Nat) (as : List Nat) (rest : List Load) (t0 : Takeover), n < 36 → l < 32 →
    s.pec.loads = ⟨n, l, true⟩ :: rest → s.logicalOf n = some l → s.takeover l = some t0 → t0.reexec = true →
    s.loadBad l n = none → (s.imageAddrs l).all (fun b => s.codeCrcOk b) = true → s.dueImages l s.tickIndex = a :: as → (s.core n).allocs = [] →
    Leaves (.loaderLoadComplete true) s (fun t => t.peState n = 5 ∧ t.core n = { Core.reset with running := true, pc := s.imgEntry a } ∧
      t.bit (peGroup n + 0x4C) 1 = true ∧ t.pec.loads = rest ∧ t.bindState l = s.bindState l)) ∧
  (∀ (s : State) (n l : Nat) (rest : List Load), n < 36 → l < 32 → s.pec.loads = ⟨n, l, false⟩ :: rest → s.logicalOf n = some l →
    s.takeover l = none → Leaves (.loaderLoadComplete false) s (fun t => t.peState n = 6 ∧ t.peCause n = 9 ∧ t.logicalOf n = none))

/-- R111, R112, R114: GO and HALT are requests that the next boundary makes due; a GO whose conditions hold binds the chosen spare, one whose
conditions do not hold names the first that fails; a HALT frees the engine. -/
def Obligations.BindingsAreMadeAndUndone : Prop :=
  (∀ (w : Who) (s : State) (l : Nat), ByMcp w → l < 32 → (s.bindState l = 0 ∨ s.bindState l = 5) →
    exec (.bindGo w l 1) s = .next (acked { s.setReg (bindAddr l) 0 with
      pec := { s.pec with goPend := Tab.set (fun _ => false) s.pec.goPend l true } })) ∧
  (∀ (w : Who) (s : State) (l : Nat), ByMcp w → l < 32 → (s.bindState l = 2 ∨ s.bindState l = 4) →
    exec (.bindHalt w l 2) s = .next (acked { s with
      pec := { s.pec with haltPend := Tab.set (fun _ => false) s.pec.haltPend l true } })) ∧
  (∀ (w : Who) (s : State) (l : Nat) (d : Word), ByMcp w → l < 32 → s.bindState l = 3 →
    exec (.bindGo w l d) s = .next (refusedWrite (s.masterError w (bindAddr l) true)) ∧
    exec (.bindHalt w l d) s = .next (refusedWrite (s.masterError w (bindAddr l) true))) ∧
  (∀ (w : Who) (s : State) (l : Nat) (d : Word), ByMcp w → l < 32 → (s.bindState l = 0 ∨ s.bindState l = 5) →
    exec (.tsAreaWrite w l d) s = .next (acked { s.setReg (bindAddr l + 8) (d &&& word (2 ^ 17 - 1)) with
      pec := { s.pec with selectors := Tab.set (fun _ => 0) s.pec.selectors l 0 } })) ∧
  (∀ (w : Who) (s : State) (l : Nat) (d : Word), ByMcp w → l < 32 → s.bindState l ≠ 0 → s.bindState l ≠ 5 →
    exec (.tsAreaWrite w l d) s = .next (refusedWrite (s.masterError w (bindAddr l + 8) true))) ∧
  (∀ (w : Who) (s : State) (l : Nat) (d : Word), w.master = 0 → Admitted w s → l < 32 →
    exec (.bindGo w l d) s = .next (refusedWrite (s.masterError w (bindAddr l) true))) ∧
  (∀ (s : State) (l m : Nat), l < 32 → s.isDue l 0 = true → (s.bindState l = 0 ∨ s.bindState l = 5) → s.goError l = 0 →
    s.chooseSpare l = some m →
    Leaves (.binding l) s (fun t => t.bindState l = 1 ∧ t.phys l = m ∧ t.peState m = 3 ∧ t.logicalOf m = some l ∧
      t.pec.loads = s.pec.loads ++ [⟨m, l, false⟩] ∧ t.takeover l = none ∧ t.barredIn l = true ∧
      t.reg (bindAddr l + 0x10) = word (t.worstBudget l) ∧
      (∀ b, t.byte b = if s.bit (bindAddr l) 2 = false ∧ s.tsBase l ≤ b ∧ b < s.tsBase l + 0x8000 then 0 else s.byte b) ∧
      (s.otfPairs l = [] → t = { s with regs := t.regs, mem := t.mem, pec := t.pec, cores := t.cores }) ∧
      t = { s with regs := t.regs, mem := t.mem, pec := t.pec, cores := t.cores, freeCtr := t.freeCtr, sw := { s.sw with otfMap := t.sw.otfMap } })) ∧
  (∀ (s : State) (l : Nat), l < 32 → s.isDue l 0 = true → (s.bindState l = 0 ∨ s.bindState l = 5) → s.goError l ≠ 0 →
    exec (.binding l) s = .next (((s.dropDue l 0).setBit (bindAddr l + 4) 17 true).setFld (bindAddr l + 4) 20 4 (s.goError l))) ∧
  (∀ (s : State) (l : Nat), l < 32 → s.isDue l 0 = false → exec (.binding l) s = .next s) ∧
  (∀ (s : State) (l n : Nat), l < 32 → n < 36 → s.isDue l 1 = true → s.bindState l = 2 → n = s.phys l → s.logicalOf n = some l →
    s.takeover l = none → s.peState n = 4 →
    Leaves (.unbind l) s (fun t => t.bindState l = 0 ∧ t.peState n = 2 ∧ t.logicalOf n = none ∧ t.core n = Core.reset ∧ t.mem = s.mem)) ∧
  (∀ (s : State) (l : Nat), l < 32 → s.isDue l 1 = false → exec (.unbind l) s = .next s)

/-- R108, R123: VERIFIED starts the check of an entry, the check's end shows its result, and an entry that a bound run list names keeps its place. An
entry that is withdrawn, placed anew or verified again is no preload any more. -/
def Obligations.ImagesAreVerifiedByTheirCheck : Prop :=
  (∀ (w : Who) (s : State) (i : Nat), ByMcp w → i < 128 → s.imgVerified i = false → s.imgChecking i = false →
    exec (.imgVerifyStart w i) s = .next (acked ((((s.setBit (imgStat i) 0 false).setBit (imgStat i) 14 false).setBit (imgStat i) 1 false).setChecking
      i true))) ∧
  (∀ (w : Who) (s : State) (i : Nat), ByMcp w → i < 128 → (s.imgVerified i = true ∨ s.imgChecking i = true) →
    exec (.imgVerifyStart w i) s = .next (acked s)) ∧
  (∀ (s : State) (i : Nat), i < 128 → s.imgChecking i = true → s.imgCheck i = true →
    exec (.imgCheckComplete i) s = .next ((((s.setChecking i false).setBit (imgStat i) 0 true).setReg (imgAddr i + 8)
      (word (s.img (s.fld (imgAddr i) 0 23) 8 4))).setFld (imgStat i) 16 4 (s.img (s.fld (imgAddr i) 0 23) 0x1F 1))) ∧
  (∀ (s : State) (i : Nat), i < 128 → s.imgChecking i = true → s.imgCheck i = false →
    exec (.imgCheckComplete i) s = .next ((s.setChecking i false).setBit (imgStat i) 1 true)) ∧
  (∀ (s : State) (i : Nat), i < 128 → s.imgChecking i = false → exec (.imgCheckComplete i) s = .next s) ∧
  (∀ (s : State) (i : Nat), s.fld (imgAddr i) 0 23 % 64 ≠ 0 ∨ s.img (s.fld (imgAddr i) 0 23) 0 4 ≠ 0x4E4D5049 → s.imgCheck i = false) ∧
  (∀ (w : Who) (s : State) (i : Nat), ByMcp w → i < 128 → (s.imgVerified i && s.imgNamed i) = false →
    exec (.imgWithdraw w i) s = .next (acked (((s.setBit (imgStat i) 0 false).setBit (imgStat i) 14 false).setChecking i false))) ∧
  (∀ (w : Who) (s : State) (i : Nat) (isLen : Bool) (d : Word), ByMcp w → i < 128 → (s.imgVerified i && s.imgNamed i) = false →
    exec (.imgAddrLenWrite w i isLen d) s = .next (acked (((s.setBit (imgStat i) 0 false).setBit (imgStat i) 14 false).setReg
      (imgAddr i + 4 * bit01 isLen) (d &&& word (if isLen then 2 ^ 17 - 1 else 2 ^ 23 - 1))))) ∧
  (∀ (w : Who) (s : State) (i : Nat) (isLen : Bool) (d : Word), ByMcp w → i < 128 → s.imgVerified i = true → s.imgNamed i = true →
    exec (.imgWithdraw w i) s = .next (refusedWrite (s.masterError w (imgStat i) true)) ∧
    exec (.imgAddrLenWrite w i isLen d) s = .next (refusedWrite (s.masterError w (imgAddr i + 4 * bit01 isLen) true))) ∧
  (∀ (w : Who) (s : State) (i : Nat), w.master = 0 → Admitted w s → i < 128 →
    exec (.imgVerifyStart w i) s = .next (refusedWrite (s.masterError w (imgStat i) true)))

/-- R56 to R62, R65 to R67, R71, R76, R80, R83 to R86, R94 to R98, R101: a bundle of an engine or of the MCP (core 36) issues all its moves in one
cycle: registers are written before triggers use them, a general register is readable one bundle later, a product three and a quotient eighteen bundles
later, a local load two later; guards and literals decide what moves there are; a jump takes effect after its two delay bundles; far triggers put
transactions under way; an event sets its sticky flag, and with its trap enabled halts the engine with CAUSE 8. A core that serves stall cycles, waits
in CTL.T.WAIT or must wait passes the cycle. -/
def Obligations.BundlesIssueTheirMoves : Prop :=
  (∀ (s : State) (n j d : Nat) (v : Word) (c : Core), Ready s n c → Straight n c → Moves s n c [⟨j, d, v⟩] → 0x040 ≤ d → d ≤ 0x07F →
    exec (.bundleIssue n .clean) s = .next (s.setCore n { c.passed with late := [(d, v)] })) ∧
  (∀ (s : State) (n j d : Nat) (v : Word) (c : Core), Ready s n c → Straight n c → Moves s n c [⟨j, d, v⟩] → 0x108 ≤ d → d ≤ 0x10A →
    exec (.bundleIssue n .clean) s = .next (s.setCore n { c.passed with mul := [(c.iss + 3, mulOp d v (c.at 0x100))] })) ∧
  (∀ (s : State) (n j d : Nat) (v : Word) (c : Core), Ready s n c → Straight n c → Moves s n c [⟨j, d, v⟩] → d = 0x118 ∨ d = 0x119 →
    c.at 0x110 ≠ 0 →
    exec (.bundleIssue n .clean) s = .next (s.setCore n { c.passed with
      div := some (c.iss + 18, (divOp d v (c.at 0x110)).q, (divOp d v (c.at 0x110)).m, (divOp d v (c.at 0x110)).v) })) ∧
  (∀ (s : State) (n i j d : Nat) (o v : Word) (c : Core) (r : AluRes), Ready s n c → Straight n c →
    Moves s n c [⟨i, 0x080, o⟩, ⟨j, d, v⟩] ∨ Moves s n c [⟨i, d, v⟩, ⟨j, 0x080, o⟩] → 0x0A0 ≤ d → d ≤ 0x0BB →
    r = aluOp (d - 0x080) v o (c.at 0x083 != 0) →
    Leaves (.bundleIssue n .clean) s (fun t => (t.core n).at 0x080 = o ∧ (t.core n).at 0x081 = r.q ∧ (t.core n).at 0x082 = word (bit01 r.v) ∧
      (∀ x, r.c = some x → (t.core n).at 0x083 = word (bit01 x)) ∧ (r.c = none → (t.core n).at 0x083 = c.at 0x083) ∧
      (∀ a, a < 0x080 ∨ 0x083 < a → (t.core n).at a = c.at a) ∧
      t.core n = { c.passed with sock := (t.core n).sock } ∧ t = s.setCore n (t.core n))) ∧
  (∀ (s : State) (n j d : Nat) (v : Word) (c : Core), Ready s n c → Straight n c → Moves s n c [⟨j, d, v⟩] → 0x150 ≤ d → d ≤ 0x158 →
    Leaves (.bundleIssue n .clean) s (fun t =>
      (d = 0x150 → (t.core n).at 0x141 = extOp v (c.at 0x140)) ∧ (d = 0x151 → (t.core n).at 0x141 = extsOp v (c.at 0x140)) ∧
      (d = 0x152 → (t.core n).at 0x141 = insOp (c.at 0x143) v (c.at 0x140)) ∧ (d = 0x153 → (t.core n).at 0x141 = popcOp v) ∧
      (d = 0x154 → (t.core n).at 0x141 = clzOp v) ∧ (d = 0x155 → (t.core n).at 0x141 = ctzOp v) ∧
      (d = 0x156 → (t.core n).at 0x141 = brevOp v) ∧ (d = 0x157 → (t.core n).at 0x141 = bswapOp v) ∧
      (d = 0x158 → (t.core n).at 0x141 = word (clmulOp v (c.at 0x140)) ∧ (t.core n).at 0x142 = word (clmulOp v (c.at 0x140) / 2 ^ 32)) ∧
      (∀ a, a ≠ 0x141 → a ≠ 0x142 → (t.core n).at a = c.at a) ∧ t = s.setCore n (t.core n))) ∧
  (∀ (s : State) (n i j : Nat) (d a : Word) (c : Core), Ready s n c → Straight n c → Moves s n c [⟨i, 0x120, d⟩, ⟨j, 0x12D, a⟩] → a.toNat % 4 = 0 →
    a.toNat < ldmSize n → s.localRefused n 0x12D (localBase n + a.toNat) 4 = false →
    Leaves (.bundleIssue n .clean) s (fun t => t.bytes (localBase n + a.toNat) 4 = leBytes 4 d.toNat ∧
      (∀ b, b < localBase n + a.toNat ∨ localBase n + a.toNat + 4 ≤ b → t.byte b = s.byte b) ∧
      t.core n = { c.passed with sock := (t.core n).sock } ∧ t = { s with mem := t.mem, cores := t.cores })) ∧
  (∀ (s : State) (n j : Nat) (a : Word) (c : Core), Ready s n c → Straight n c → Moves s n c [⟨j, 0x128, a⟩] → a.toNat % 4 = 0 →
    a.toNat < ldmSize n → s.localRefused n 0x128 (localBase n + a.toNat) 4 = false →
    exec (.bundleIssue n .clean) s = .next (s.setCore n { c.passed with lsu := [(c.iss + 2, s.loadWord (localBase n + a.toNat))] })) ∧
  (∀ (s : State) (n j : Nat) (a : Word) (c : Core), Ready s n c → Straight n c → Moves s n c [⟨j, 0x130, a⟩] → a.toNat % 4 = 0 → c.far = [] →
    exec (.bundleIssue n .clean) s = .next (s.setCore n { c.passed with
      far := [⟨0x130, a, c.at 0x120, c.seq, c.pc, j, none, c.popsIssued a.toNat⟩], seq := c.seq + 1 })) ∧
  (∀ (s : State) (n i j : Nat) (d a : Word) (c : Core), Ready s n c → Straight n c → Moves s n c [⟨i, 0x120, d⟩, ⟨j, 0x131, a⟩] → a.toNat % 4 = 0 →
    0x800000 ≤ a.toNat → c.posted.length < 16 → (∀ x, x ∈ c.posted → 0x800000 ≤ x.arg.toNat) →
    Leaves (.bundleIssue n .clean) s (fun t => (t.core n).posted = c.posted ++ [⟨0x131, a, d, c.seq, c.pc, j, none, 0⟩] ∧
      (t.core n).at 0x120 = d ∧ t = s.setCore n (t.core n))) ∧
  (∀ (s : State) (n i j : Nat) (a b : Word) (c : Core), Ready s n c → Moves s n c [⟨i, 0x130, a⟩, ⟨j, 0x130, b⟩] → c.far = [] → c.paid = (0, []) →
    exec (.bundleIssue n .clean) s = .next (s.setCore n { c with cyc := c.cyc + 1, stall := some 0, paid := (2, []) })) ∧
  (∀ (s : State) (n i j : Nat) (d a : Word) (c : Core), Ready s n c → Moves s n c [⟨i, 0x120, d⟩, ⟨j, 0x131, a⟩] → c.posted.length = 16 →
    exec (.bundleIssue n .clean) s = .next (s.setCore n { c with cyc := c.cyc + 1 })) ∧
  (∀ (s : State) (n j d : Nat) (v : Word) (c : Core), Ready s n c → Straight n c → n < 36 → Moves s n c [⟨j, d, v⟩] → d = 0x1A0 ∨ d = 0x1A2 →
    v.toNat < 4096 →
    Leaves (.bundleIssue n .clean) s (fun t => (t.core n).jumps = [(2, v.toNat)] ∧ (t.core n).pc = c.pc + 1 ∧
      (t.core n).at 0x011 = (c.at 0x011).rotateLeft 1 ^^^ v ∧ (d = 0x1A2 → (t.core n).at 0x010 = word (c.pc + 3)) ∧
      (∀ a, a ≠ 0x010 → a ≠ 0x011 → (t.core n).at a = c.at a) ∧ t = s.setCore n (t.core n))) ∧
  (∀ (s : State) (n j : Nat) (v : Word) (c : Core), Ready s n c → Straight n c → n < 36 → Moves s n c [⟨j, 0x1A0, v⟩] → 4096 ≤ v.toNat →
    s.bit (coreSticky n + 4) flagRange = false →
    Leaves (.bundleIssue n .clean) s (fun t => (t.core n).jumps = [(2, v.toNat % 4096)] ∧ t.bit (coreSticky n) flagRange = true ∧
      OtherRegs s t [coreSticky n])) ∧
  (∀ (s : State) (n a : Nat) (c : Core), Ready s n c → n < 36 → c.pc < 4095 → Moves s n c [] → c.jumps = [(2, a)] →
    exec (.bundleIssue n .clean) s = .next (s.setCore n { c.passed with jumps := [(1, a)] })) ∧
  (∀ (s : State) (n a : Nat) (c : Core), Ready s n c → Moves s n c [] → c.jumps = [(1, a)] →
    exec (.bundleIssue n .clean) s = .next (s.setCore n { c.passed with pc := a, jumps := [] })) ∧
  (∀ (s : State) (n j d : Nat) (v : Word) (c : Core), Ready s n c → Straight n c → Moves s n c [⟨j, d, v⟩] → d = 0x118 ∨ d = 0x119 →
    c.at 0x110 = 0 → s.bit (coreSticky n + 4) flagDz = false →
    Leaves (.bundleIssue n .clean) s (fun t => t.bit (coreSticky n) flagDz = true ∧
      t.core n = { c.passed with div := some (c.iss + 18, 0xFFFFFFFF, v, false) } ∧ OtherRegs s t [coreSticky n])) ∧
  (∀ (s : State) (n l j d : Nat) (v : Word) (c : Core), Ready s n c → Straight n c → n < 36 → l < 32 → Moves s n c [⟨j, d, v⟩] →
    d = 0x118 ∨ d = 0x119 → c.at 0x110 = 0 → s.bit (coreSticky n + 4) flagDz = true → s.logicalOf n = some l → s.takeover l = none →
    c.posted = [] → c.far = [] → s.peState n = 4 → s.bit (coreSticky n + 8) 31 = false →
    Leaves (.bundleIssue n .clean) s (fun t => t.peState n = 6 ∧ t.peCause n = 8 ∧ t.logicalOf n = none ∧ t.core n = Core.reset ∧
      t.bit (coreSticky n) flagDz = true ∧ t.reg (coreSticky n + 8) = word (flagDz + j * 2 ^ 4 + c.pc * 2 ^ 8 + 2 ^ 31) ∧
      t.pec.released = s.pec.released ∧ t.mem = s.mem)) ∧
  (∀ (s : State) (n : Nat) (c : Core) (ws : Nat → Word) (j : Nat), j < 4 →
    ((∃ v, (⟨j, slotDst (ws j), v⟩ : Move) ∈ s.movesOf n c ws) ↔ isLiteral ws j = false ∧ slotReserved j (ws j) = false ∧
      (slotGuard (ws j) = 0 ∨ (slotGuard (ws j) = 2 ∧ c.fq ≠ []) ∨ (slotGuard (ws j) = 3 ∧ c.fq = []) ∨
        (16 ≤ slotGuard (ws j) ∧ slotGuard (ws j) < 24 ∧ c.at (0x008 + (slotGuard (ws j) - 16)) ≠ 0) ∨
        (24 ≤ slotGuard (ws j) ∧ c.at (0x008 + (slotGuard (ws j) - 24)) = 0)))) ∧
  (∀ (s : State) (n : Nat) (c : Core) (ws : Nat → Word) (j : Nat) (m : Move), m ∈ s.movesOf n c ws → m.slot = j →
    m.dst = slotDst (ws j) ∧ isLiteral ws j = false ∧
    (slotImm (ws j) = true → m.val = (BitVec.setWidth 16 (ws j)).signExtend 32) ∧
    (slotImm (ws j) = false → slotSrc (ws j) = 1 → m.val = ws (j + 1) ∧ ∀ x, x ∈ s.movesOf n c ws → x.slot ≠ j + 1) ∧
    (slotImm (ws j) = false → slotSrc (ws j) ≠ 1 → m.val = s.readSocket n c (slotSrc (ws j)))) ∧
  (∀ (s : State) (n : Nat) (f : CoreFinding), n ≤ 36 → s.mayIssue n = false → exec (.bundleIssue n f) s = .next s) ∧
  (∀ (s : State) (n k : Nat) (f : CoreFinding) (c : Core), n ≤ 36 → c = s.core n → s.mayIssue n = true → c.mul = [] → c.div = none → c.lsu = [] →
    c.late = [] → c.wait = none → c.stall = some (k + 1) →
    exec (.bundleIssue n f) s = .next (s.setCore n { c with cyc := c.cyc + 1, stall := some k })) ∧
  (∀ (s : State) (n : Nat) (f : CoreFinding) (t : Option Nat) (c : Core), n ≤ 36 → c = s.core n → s.mayIssue n = true → c.mul = [] →
    c.div = none → c.lsu = [] → c.late = [] → c.wait = some t →
    exec (.bundleIssue n f) s = .next (s.setCore n { c with cyc := c.cyc + 1, stall := none })) ∧
  (∀ (s : State) (n j : Nat) (v : Word) (c : Core), Ready s n c → c.stall = none → Moves s n c [⟨j, 0x1A9, v⟩] → s.belled n = false →
    exec (.bundleIssue n .clean) s = .next (s.setCore n { c with
      wait := some (if v = 0 then none else some (c.cyc + v.toNat)), cyc := c.cyc + 1 })) ∧
  (∀ (s : State) (n j : Nat) (v : Word) (c : Core), Ready s n c → Straight n c → Moves s n c [⟨j, 0x1A9, v⟩] → s.belled n = true ∨ c.stall = some 0 →
    exec (.bundleIssue n .clean) s = .next (s.setCore n c.passed)) ∧
  (∀ (s : State) (n : Nat), n ≤ 36 → (s.core n).wait = none → exec (.ctlWaitEnd n) s = .next s) ∧
  (∀ (s : State) (n : Nat) (t : Option Nat), n ≤ 36 → (s.core n).wait = some t → s.mayIssue n = true →
    (s.belled n = true ∨ ∃ k, t = some k ∧ k ≤ (s.core n).cyc) →
    exec (.ctlWaitEnd n) s = .next (s.setCore n { s.core n with wait := none, stall := some 0 })) ∧
  (∀ (s : State) (n : Nat) (t : Option Nat), n ≤ 36 → (s.core n).wait = some t → s.belled n = false → (∀ k, t = some k → (s.core n).cyc < k) →
    exec (.ctlWaitEnd n) s = .next s)

/-- R41, R98, R117: CTL.T.COMMIT with the right signature ends the tick of the engine and releases what it staged; with a wrong one the engine halts
with CAUSE 5 and nothing is released. -/
def Obligations.CommitReleasesWhatIsStaged : Prop :=
  (∀ (s : State) (n l j : Nat) (c : Core), Ready s n c → n < 36 → l < 32 → c.jumps = [] → c.posted = [] → c.far = [] →
    Moves s n c [⟨j, 0x1A8, c.at 0x011⟩] →
    s.logicalOf n = some l → s.takeover l = none →
    Leaves (.bundleIssue n .clean) s (fun t => t.committedIn l = true ∧ (t.core n).running = false ∧ (t.core n).staged = [] ∧
      Tab.get (fun _ => []) t.pec.released l = Tab.get (fun _ => []) s.pec.released l ++ c.staged ∧
      (∀ i, t.selector l i = (s.selector l i ^^ s.lineWritten l i) ∧ t.lineWritten l i = false) ∧
      t.bit (peGroup n + 0x4C) 0 = true ∧ t.mem = s.mem ∧ t.rope = s.rope ∧ t.trav = s.trav)) ∧
  (∀ (s : State) (n l j : Nat) (v : Word) (c : Core), Ready s n c → n < 36 → l < 32 → c.jumps = [] → c.posted = [] → c.far = [] →
    Moves s n c [⟨j, 0x1A8, v⟩] →
    v ≠ c.at 0x011 → s.logicalOf n = some l → s.takeover l = none →
    Leaves (.bundleIssue n .clean) s (fun t => t.peState n = 6 ∧ t.peCause n = 5 ∧ t.logicalOf n = none ∧ t.core n = Core.reset ∧
      t.pec.released = s.pec.released ∧ t.committedIn l = s.committedIn l ∧ t.mem = s.mem))

/-- R66, R75, R76, R79: a product, a quotient or a local load is written to its sockets once it is due; a wrong residue halts the engine with CAUSE 4.
-/
def Obligations.LocalResultsReachTheirSockets : Prop :=
  (∀ (s : State) (n : Nat) (t : Nat) (p : DWord) (rest : List (Nat × DWord)), n < 37 → (s.core n).mul = (t, p) :: rest →
    t ≤ (s.core n).iss →
    exec (.mulResult n true) s =
      .next (s.setCore n { ((s.core n).put 0x101 (p.setWidth 32)).put 0x102 ((p >>> 32).setWidth 32) with mul := rest })) ∧
  (∀ (s : State) (n t : Nat) (q m : Word) (v : Bool), n < 37 → (s.core n).div = some (t, q, m, v) → t ≤ (s.core n).iss →
    exec (.divResult n true) s =
      .next (s.setCore n { (((s.core n).put 0x111 q).put 0x112 m).put 0x113 (word (bit01 v)) with div := none })) ∧
  (∀ (s : State) (n t : Nat) (v : Word) (rest : List (Nat × Word)), n < 37 → (s.core n).lsu = (t, v) :: rest → t ≤ (s.core n).iss →
    exec (.lsuLoadResult n) s = .next (s.setCore n { (s.core n).put 0x121 v with lsu := rest })) ∧
  (∀ (s : State) (n : Nat) (ok : Bool), n < 37 → ((s.core n).mul = [] → exec (.mulResult n ok) s = .next s) ∧
    ((s.core n).div = none → exec (.divResult n ok) s = .next s) ∧ ((s.core n).lsu = [] → exec (.lsuLoadResult n) s = .next s)) ∧
  (∀ (s : State) (n l t : Nat) (p : DWord) (rest : List (Nat × DWord)), n < 36 → l < 32 → (s.core n).mul = (t, p) :: rest →
    t ≤ (s.core n).iss → s.logicalOf n = some l → s.takeover l = none → (s.core n).posted = [] → (s.core n).far = [] →
    Leaves (.mulResult n false) s (fun u => u.peState n = 6 ∧ u.peCause n = 4 ∧ u.core n = Core.reset ∧ u.mem = s.mem)) ∧
  (∀ (s : State) (n l t : Nat) (q m : Word) (v : Bool), n < 36 → l < 32 → (s.core n).div = some (t, q, m, v) → t ≤ (s.core n).iss →
    s.logicalOf n = some l → s.takeover l = none → (s.core n).posted = [] → (s.core n).far = [] →
    Leaves (.divResult n false) s (fun u => u.peState n = 6 ∧ u.peCause n = 4 ∧ u.core n = Core.reset ∧ u.mem = s.mem))

/-- R82 to R84, R88 to R90: the oldest far operation returns its value through LSU.FQ; a posted write reaches its target; what the target refuses sets
BUS_ERR, counts, and returns 0xFFFFFFFF. -/
def Obligations.FarAccessesReachTheirTargets : Prop :=
  (∀ (s : State) (n : Nat) (ecc : EccFinding), n < 37 → ((s.core n).far = [] → exec (.farResult n ecc) s = .next s) ∧
    ((s.core n).posted = [] → exec (.postedWriteComplete n) s = .next s)) ∧
  (∀ (s : State) (n a : Nat) (op : FarOp) (rest : List FarOp), n < 36 → (s.core n).far = op :: rest → op.vals = none →
    (∀ x, x ∈ rest → x.vals = none ∧ x.seq ≠ op.seq) → (s.core n).fq.length < 16 →
    (s.core n).posted = [] → op.trig = 0x130 → a = op.arg.toNat / 4 * 4 → a < 0x800000 → s.tsUpper a = false → s.tsAreaOf a = none →
    s.isBad a = false →
    exec (.farResult n .clean) s =
      .next (s.setCore n { s.core n with far := rest, fq := (s.core n).fq ++ [s.loadWord a] })) ∧
  (∀ (s : State) (n i : Nat) (op : FarOp) (rest : List FarOp), n < 36 → i < 256 → (s.core n).far = op :: rest → op.vals = none →
    (∀ x, x ∈ rest → x.vals = none ∧ x.seq ≠ op.seq) → (s.core n).fq.length < 16 →
    op.trig = 0x188 → op.arg.toNat = 0x10510000 + 4 * i → s.bit (lockView i) 0 = false →
    exec (.farResult n .clean) s = .next ((s.setReg (lockView i) (word (1 + (0x10 + n) * 256))).setCore n
      { s.core n with far := rest, fq := (s.core n).fq ++ [0] })) ∧
  (∀ (s : State) (n i : Nat) (op : FarOp) (rest : List FarOp), n < 36 → i < 256 → (s.core n).far = op :: rest → op.vals = none →
    (∀ x, x ∈ rest → x.vals = none ∧ x.seq ≠ op.seq) → (s.core n).fq.length < 16 →
    op.trig = 0x188 → op.arg.toNat = 0x10510000 + 4 * i → s.bit (lockView i) 0 = true →
    exec (.farResult n .clean) s = .next (s.setCore n { s.core n with far := rest, fq := (s.core n).fq ++ [1] })) ∧
  (∀ (s : State) (n : Nat) (op : FarOp) (rest : List FarOp), n < 36 → (s.core n).far = op :: rest → op.vals = none →
    (∀ x, x ∈ rest → x.vals = none ∧ x.seq ≠ op.seq) → (s.core n).fq.length < 16 →
    op.trig = 0x130 → 0x800000 ≤ op.arg.toNat → op.arg.toNat < 0x10000000 → s.bit (peGroup n + 0x64) 8 = false →
    exec (.farResult n .clean) s = .next (((s.setCore n { s.core n with far := rest, fq := (s.core n).fq ++ [0xFFFFFFFF] }).bump
      (peGroup n + 0x70)).setBit (peGroup n + 0x60) 8 true)) ∧
  (∀ (s : State) (n l a o : Nat) (b : Block) (op : FarOp) (rest : List FarOp), n < 36 → l < 32 → (s.core n).posted = op :: rest →
    op.trig = 0x131 → a = op.arg.toNat → a % 4 = 0 → s.logicalOf n = some l → blockOf a = some (b, o) → b = .tick → 8 ≤ o →
    s.grantsPage l ((a - 0x10000000) / 0x1000) = true → (cellAt a).isSome = true →
    exec (.postedWriteComplete n) s =
      .next ((s.setCore n { s.core n with posted := rest }).setCore n
        { s.core n with posted := rest, staged := (s.core n).staged ++ [.write a op.data] })) ∧
  (∀ (s : State) (n l a o : Nat) (b : Block) (op : FarOp) (rest : List FarOp), n < 36 → l < 32 → (s.core n).posted = op :: rest →
    op.trig = 0x131 → a = op.arg.toNat → a % 4 = 0 → s.logicalOf n = some l → blockOf a = some (b, o) →
    (b = .mgt ∨ b = .flt ∨ b = .mem ∨ b = .mbx ∨ b = .host ∨ (b = .sw ∧ engineSwReg o = false)) → s.bit (peGroup n + 0x64) 8 = false →
    exec (.postedWriteComplete n) s = .next (((s.setCore n { s.core n with posted := rest }).bump (peGroup n + 0x70)).setBit
      (peGroup n + 0x60) 8 true)) ∧
  (∀ (s : State) (n i : Nat) (op : FarOp) (rest : List FarOp), n < 36 → i < 256 → (s.core n).posted = op :: rest → op.trig = 0x189 →
    op.arg.toNat = 0x10510000 + 4 * i → s.bit (lockView i) 0 = true → s.fld (lockView i) 8 8 = 0x10 + n →
    exec (.postedWriteComplete n) s =
      .next ((s.setCore n { s.core n with posted := rest }).setBit (lockView i) 0 false))

/-- R71 to R76: results of the integer units and their flags, the products, and the quotients with their edge cases. -/
def Obligations.ArithmeticOfACore : Prop :=
  (∀ t o c, (aluOp 0x20 t o c).q = t + o ∧ (aluOp 0x20 t o c).c = some (decide (2 ^ 32 ≤ t.toNat + o.toNat)) ∧
    (aluOp 0x20 t o c).v = decide ((t + o).toInt ≠ t.toInt + o.toInt)) ∧
  (∀ t o c, (aluOp 0x21 t o c).q = t - o ∧ (aluOp 0x21 t o c).c = some (decide (t.toNat < o.toNat)) ∧
    (aluOp 0x21 t o c).v = decide ((t - o).toInt ≠ t.toInt - o.toInt)) ∧
  (∀ t o c, (aluOp 0x22 t o c).q = t + o + word (bit01 c) ∧ (aluOp 0x23 t o c).q = t - o - word (bit01 c)) ∧
  (∀ t o c, (aluOp 0x24 t o c).q = -t ∧ ((aluOp 0x24 t o c).v = true ↔ t = 0x80000000)) ∧
  (∀ t o c, 32 ≤ o.toNat → (aluOp 0x2C t o c).q = 0 ∧ (aluOp 0x2D t o c).q = 0 ∧
    (aluOp 0x2E t o c).q = if t.msb then 0xFFFFFFFF else 0) ∧
  (∀ t o c, (aluOp 0x32 t o c).q = (if t.toInt < o.toInt then 1 else 0) ∧ (aluOp 0x33 t o c).q = (if t.toNat < o.toNat then 1 else 0)) ∧
  (∀ k t o c, 0x24 ≤ k → (aluOp k t o c).c = none) ∧
  (∀ t o, (mulOp 0x108 t o).toInt = t.toInt * o.toInt ∧ (mulOp 0x109 t o).toNat = t.toNat * o.toNat) ∧
  (∀ k t, (divOp k t 0).q = 0xFFFFFFFF ∧ (divOp k t 0).m = t ∧ (divOp k t 0).v = false) ∧
  (∀ t o : Word, o ≠ 0 → (divOp 0x119 t o).q.toNat = t.toNat / o.toNat ∧ (divOp 0x119 t o).m.toNat = t.toNat % o.toNat) ∧
  divOp 0x118 0x80000000 0xFFFFFFFF = ⟨0x80000000, 0, true⟩ ∧
  (∀ t o : Word, o ≠ 0 → ¬(t = 0x80000000 ∧ o = 0xFFFFFFFF) →
    (divOp 0x118 t o).q.toInt = Int.tdiv t.toInt o.toInt ∧ (divOp 0x118 t o).m.toInt = Int.tmod t.toInt o.toInt)

/-- R355 to R358, R93: a send fills an empty mailbox of the endpoint that the number reaches and counts it, a full one refuses it and counts that, and
an endpoint that does not answer refuses it. An engine's send is answered with 0 or 1, and a full mailbox is no bus error to it. -/
def Obligations.MailboxSends : Prop :=
  (∀ (w : Who) (s : State) (e i t : Nat) (d : Word), Admitted w s → isEp e = true → i < 16 → s.epReachable e = true →
    t = s.epTarget e → s.bit (mbStat t i) 0 = false →
    exec (.mbSend w e i d) s = .next (acked (((s.setReg (mbWord t i) d).setReg (mbStat t i) (word (1 + w.master * 256))).bump
      (epAddr t + 0x120)))) ∧
  (∀ (w : Who) (s : State) (e i t : Nat) (d : Word), Admitted w s → isEp e = true → i < 16 → s.epReachable e = true →
    t = s.epTarget e → s.bit (mbStat t i) 0 = true →
    exec (.mbSend w e i d) s = .next (refusedWrite ((s.bump (epAddr t + 0x128)).masterError w (epAddr e + 4 * i) true))) ∧
  (∀ (w : Who) (s : State) (n e i t : Nat) (d : Word), ByEngine w n → isEp e = true → i < 16 → s.epReachable e = true →
    t = s.epTarget e → s.bit (mbStat t i) 0 = false →
    exec (.mbSend w e i d) s = .next (answered (((s.setReg (mbWord t i) d).setReg (mbStat t i) (word (1 + w.master * 256))).bump
      (epAddr t + 0x120)) 0)) ∧
  (∀ (w : Who) (s : State) (n e i t : Nat) (d : Word), ByEngine w n → isEp e = true → i < 16 → s.epReachable e = true →
    t = s.epTarget e → s.bit (mbStat t i) 0 = true →
    exec (.mbSend w e i d) s = .next (answered (s.bump (epAddr t + 0x128)) 1)) ∧
  (∀ (w : Who) (s : State) (e i : Nat) (d : Word), (Admitted w s ∨ ∃ n, ByEngine w n) → isEp e = true → i < 16 → s.epReachable e = false →
    exec (.mbSend w e i d) s = .next (refusedWrite (s.masterError w (epAddr e + 4 * i) true)))

/-- R357: the owner's read of MB_RECV returns the word of a full mailbox and empties it; an empty one, and another master's read, returns 0. An
engine's MBX unit reaches its own endpoint alone (R93): elsewhere it meets a bus error. -/
def Obligations.MailboxReceives : Prop :=
  (∀ (w : Who) (s : State) (e i : Nat), (Admitted w s ∨ (0x10 ≤ e ∧ ByEngine w (e - 0x10))) → isEp e = true → i < 16 → s.mayEmpty e w = true →
    s.bit (mbStat e i) 0 = true →
    exec (.mbRecv w e i) s = .next (answered ((s.setReg (mbWord e i) 0).setReg (mbStat e i) 0) (s.reg (mbWord e i)))) ∧
  (∀ (w : Who) (s : State) (e i : Nat), (Admitted w s ∨ (0x10 ≤ e ∧ ByEngine w (e - 0x10))) → isEp e = true → i < 16 →
    (s.mayEmpty e w = false ∨ s.bit (mbStat e i) 0 = false) → exec (.mbRecv w e i) s = .next (answered s 0)) ∧
  (∀ (w : Who) (s : State) (n e i : Nat), ByEngine w n → isEp e = true → e ≠ 0x10 + n → i < 16 →
    exec (.mbRecv w e i) s =
      .next { s.masterError w (epAddr e + 0x80 + 4 * i) false with reply := [0xFFFFFFFF], replyErr := true })

/-- R360 to R362: a ring makes doorbells pending and counts each; the mask and the wait timer are the owner's; a take returns the pending unmasked
doorbells and clears them; a wait timer that expires rings its doorbell. -/
def Obligations.DoorbellsRingAndAreTaken : Prop :=
  (∀ (w : Who) (s : State) (e t : Nat) (d : Word), (Admitted w s ∨ ∃ n, ByEngine w n) → isEp e = true → s.epReachable e = true →
    t = s.epTarget e → (t ≠ 0 ∨ d &&& ~~~(s.reg (dbPend t)) &&& ~~~(s.reg (dbMask t)) = 0) →
    exec (.dbSet w e d) s =
      .next (acked ((s.setReg (dbPend t) (s.reg (dbPend t) ||| d)).bumpBy (epAddr t + 0x130) (popCount d)))) ∧
  (∀ (w : Who) (s : State) (e : Nat) (d : Word), (Admitted w s ∨ ∃ n, ByEngine w n) → isEp e = true → s.epReachable e = true →
    s.epTarget e = 0 → d &&& ~~~(s.reg (dbPend 0)) &&& ~~~(s.reg (dbMask 0)) ≠ 0 →
    exec (.dbSet w e d) s =
      .next (acked (((s.setReg (dbPend 0) (s.reg (dbPend 0) ||| d)).bumpBy (epAddr 0 + 0x130) (popCount d)).raiseVector 18))) ∧
  (∀ (w : Who) (s : State) (e : Nat) (d : Word), Admitted w s → isEp e = true → dbOwner e w = true → e ≠ 0 →
    exec (.dbMaskWrite w e d) s = .next (acked (s.setReg (dbMask e) d))) ∧
  (∀ (w : Who) (s : State) (d : Word), Admitted w s →
    exec (.dbMaskWrite w 0 d) s = .next (acked (if s.reg (dbPend 0) &&& s.reg (dbMask 0) &&& ~~~d = 0 then s.setReg (dbMask 0) d
      else (s.setReg (dbMask 0) d).raiseVector 18))) ∧
  (∀ (w : Who) (s : State) (e : Nat) (d : Word), Admitted w s → isEp e = true → dbOwner e w = false →
    exec (.dbMaskWrite w e d) s = .next (refusedWrite (s.masterError w (dbMask e) true)) ∧
    exec (.waitTmrWrite w e d) s = .next (refusedWrite (s.masterError w (waitTmr e) true)) ∧
    exec (.dbTake w e) s = .next (answered s 0)) ∧
  (∀ (w : Who) (s : State) (n e : Nat), ByEngine w n → isEp e = true → e ≠ 0x10 + n →
    exec (.dbTake w e) s = .next { s.masterError w (epAddr e + 0x10C) false with reply := [0xFFFFFFFF], replyErr := true }) ∧
  (∀ (w : Who) (s : State) (e : Nat), (Admitted w s ∨ ∃ n, ByEngine w n) → isEp e = true → dbOwner e w = true →
    exec (.dbTake w e) s = .next (answered (s.setReg (dbPend e) (clearBits (s.reg (dbPend e)) (s.doorbells e))) (s.doorbells e))) ∧
  (∀ (w : Who) (s : State) (e us b : Nat), Admitted w s → isEp e = true → dbOwner e w = true → 0 < us → us < 2 ^ 24 → b < 32 →
    exec (.waitTmrWrite w e (word (us + b * 2 ^ 24))) s = .next (acked { s.setReg (waitTmr e) (word (us + b * 2 ^ 24 + 2 ^ 31)) with
      mbx := { s.mbx with waitAt := Tab.set (fun _ => 0) s.mbx.waitAt e (s.cyc + us * 500) } })) ∧
  (∀ (w : Who) (s : State) (e b : Nat), Admitted w s → isEp e = true → dbOwner e w = true → b < 32 →
    exec (.waitTmrWrite w e (word (b * 2 ^ 24))) s = .next (acked { s.setReg (waitTmr e) (word (b * 2 ^ 24)) with
      mbx := { s.mbx with waitAt := Tab.set (fun _ => 0) s.mbx.waitAt e 0 } })) ∧
  (∀ (s : State) (e : Nat), isEp e = true → s.bit (waitTmr e) 31 = true → Tab.get (fun _ => 0) s.mbx.waitAt e ≤ s.cyc →
    exec (.waitTmrExpiry e) s = .next ((s.setBit (waitTmr e) 31 false).ring e (word (2 ^ s.fld (waitTmr e) 24 5)))) ∧
  (∀ (s : State) (e : Nat), isEp e = true → (s.bit (waitTmr e) 31 = false ∨ s.cyc < Tab.get (fun _ => 0) s.mbx.waitAt e) →
    exec (.waitTmrExpiry e) s = .next s)

/-- R365 to R367: a read of a lock word returns it as it was, an engine's test-and-set only whether it was held, and takes a free one for the reader;
a write of 0 releases it, counting where another master held it. -/
def Obligations.LocksAreTakenAndReleased : Prop :=
  (∀ (w : Who) (s : State) (n : Nat), Admitted w s → n < 256 → s.bit (lockView n) 0 = false →
    exec (.lockTestAndSet w n) s = .next (answered (s.setReg (lockView n) (word (1 + w.master * 256))) (s.reg (lockView n)))) ∧
  (∀ (w : Who) (s : State) (n : Nat), Admitted w s → n < 256 → s.bit (lockView n) 0 = true →
    exec (.lockTestAndSet w n) s = .next (answered s (s.reg (lockView n)))) ∧
  (∀ (w : Who) (s : State) (m n : Nat), ByEngine w m → n < 256 → s.bit (lockView n) 0 = false →
    exec (.lockTestAndSet w n) s = .next (answered (s.setReg (lockView n) (word (1 + w.master * 256))) 0)) ∧
  (∀ (w : Who) (s : State) (m n : Nat), ByEngine w m → n < 256 → s.bit (lockView n) 0 = true →
    exec (.lockTestAndSet w n) s = .next (answered s 1)) ∧
  (∀ (w : Who) (s : State) (n : Nat), (Admitted w s ∨ ∃ m, ByEngine w m) → n < 256 → s.bit (lockView n) 0 = true →
    s.fld (lockView n) 8 8 = w.master → exec (.lockRelease w n) s = .next (acked (s.setBit (lockView n) 0 false))) ∧
  (∀ (w : Who) (s : State) (n : Nat), (Admitted w s ∨ ∃ m, ByEngine w m) → n < 256 → s.bit (lockView n) 0 = true →
    s.fld (lockView n) 8 8 ≠ w.master →
    exec (.lockRelease w n) s = .next (acked ((s.setBit (lockView n) 0 false).bump (mbxBase + 0x10800)))) ∧
  (∀ (w : Who) (s : State) (n : Nat), (Admitted w s ∨ ∃ m, ByEngine w m) → n < 256 → s.bit (lockView n) 0 = false →
    exec (.lockRelease w n) s = .next (acked s))

/-- R373, R376: a read of CE_LOG takes its oldest entry; a wipe, once started, ends with every byte of the secure memory zero. -/
def Obligations.TheLogIsReadAndTheSecureMemoryWiped : Prop :=
  (∀ (w : Who) (s : State) (v : Word) (q : List Word), Admitted w s → s.mbx.ceLog = v :: q →
    exec (.ceLogRead w) s = .next (answered { s with mbx := { s.mbx with ceLog := q } } v)) ∧
  (∀ (w : Who) (s : State), Admitted w s → s.mbx.ceLog = [] → exec (.ceLogRead w) s = .next (answered s 0)) ∧
  (∀ (w : Who) (s : State), ByMcp w → Leaves (.wipeGo w 1) s (fun t => t.bit (memReg 0x20) 1 = true ∧
    (∀ a, a ≠ memReg 0x20 → t.reg a = s.reg a) ∧ OnlyRegs s t)) ∧
  (∀ (w : Who) (s : State) (d : Word), Admitted w s → isMcp w = false →
    exec (.wipeGo w d) s = .next (refusedWrite (s.masterError w (memReg 0x20) true))) ∧
  (∀ s : State, s.bit (memReg 0x20) 1 = true → Leaves .wipeComplete s (fun t =>
    (∀ a, t.byte a = if secureBase ≤ a ∧ a < secureBase + 0x40000 then 0 else s.byte a) ∧
    (∀ a, secureBase ≤ a → a < secureBase + 0x40000 → t.isBad a = false) ∧
    t.bit (memReg 0x20) 1 = false ∧ t.bit (memReg 0x20) 2 = true ∧ t.count (memReg 0x150) = s.count (memReg 0x150) + 1 ∧
    (∀ a, a ≠ memReg 0x20 → t.reg a = s.reg a) ∧ t = { s with mem := t.mem, regs := t.regs, cnts := t.cnts, mbx := t.mbx })) ∧
  (∀ s : State, s.bit (memReg 0x20) 1 = false → exec .wipeComplete s = .next s)

/-- R377 to R381: the testers go through their regions and record a first failure, a March C− run is started where it is permitted and leaves its
result, and a soft repair uses up a spare. -/
def Obligations.MemoriesAreTestedAndRepaired : Prop :=
  (∀ (s : State) (i : Nat), s.bit (memReg 0) 0 = true → s.bgtDue 0 = true → i = Tab.get (fun _ => 0) s.mbx.bgtNext 0 → i + 1 < 262144 →
    exec (.bgtRegionTest 0 0 .clean false) s =
      .next { s with mbx := { s.mbx with
        bgtAt := Tab.set (fun _ => 0) s.mbx.bgtAt 0 (s.cyc + 1), bgtNext := Tab.set (fun _ => 0) s.mbx.bgtNext 0 (i + 1) } }) ∧
  (∀ (s : State) (i : Nat), s.bit (memReg 0) 0 = true → s.bgtDue 0 = true → i = Tab.get (fun _ => 0) s.mbx.bgtNext 0 → 262144 ≤ i + 1 →
    exec (.bgtRegionTest 0 0 .clean false) s =
      .next ({ s with mbx := { s.mbx with
        bgtAt := Tab.set (fun _ => 0) s.mbx.bgtAt 0 (s.cyc + 1), bgtNext := Tab.set (fun _ => 0) s.mbx.bgtNext 0 0 } }.bump (memReg 0x130))) ∧
  (∀ (s : State) (i : Nat), s.bit (memReg 0) 0 = true → s.bgtDue 0 = true → i = Tab.get (fun _ => 0) s.mbx.bgtNext 0 → s.bit (memReg 4) 0 = false →
    64 * i < 2 ^ 32 →
    Leaves (.bgtRegionTest 0 0 .clean true) s (fun t => t.bit (memReg 4) 0 = true ∧ t.reg64 (memReg 8) = 64 * i ∧
      t.count (memReg 0x148) = s.count (memReg 0x148) + 1 ∧ (∃ e, t.flt = { s.flt with bus := s.flt.bus ++ [e] } ∧ e.src = 0x63 ∧ e.cls = 1 ∧ e.cause = 3) ∧ t.mem = s.mem)) ∧
  (∀ (s : State) (c pe : Nat) (f : EccFinding) (b : Bool), c < 2 → (s.bit (memReg 0) c = false ∨ s.bgtDue c = false) →
    exec (.bgtRegionTest c pe f b) s = .next s) ∧
  (∀ (w : Who) (s : State) (d : Word), ByMcp w → bitOf d 3 = true → s.bit (memReg 0x10) 31 = false →
    s.marchAllowed d ((List.range 4).any s.ctxOn) s.tagsOn = true →
    exec (.marchGo w d) s = .next (acked (s.setReg (memReg 0x10) (word (fieldOf d 0 3 + 2 ^ 31))))) ∧
  (∀ (w : Who) (s : State) (d : Word), ByMcp w → bitOf d 3 = true →
    (s.bit (memReg 0x10) 31 = true ∨ s.marchAllowed d ((List.range 4).any s.ctxOn) s.tagsOn = false) →
    exec (.marchGo w d) s = .next (refusedWrite (s.masterError w (memReg 0x10) true))) ∧
  (∀ s : State, s.bit (memReg 0x10) 31 = true → Leaves (.marchComplete none) s (fun t =>
    t.bit (memReg 0x10) 31 = false ∧ t.bit (memReg 0x14) 0 = true ∧ t.bit (memReg 0x14) 1 = s.bit (memReg 0x14) 1 ∧
    (∀ a, t.byte a = if s.bit (memReg 0x10) 2 = false ∧ ((s.fld (memReg 0x10) 0 2 = 0 ∧ secureBase ≤ a ∧ a < secureBase + 0x40000) ∨
      (s.fld (memReg 0x10) 0 2 = 1 ∧ 2 ^ 40 ≤ a ∧ a < 2 ^ 40 + 0x100000)) then 0 else s.byte a) ∧
    (∀ a, a ≠ memReg 0x10 → a ≠ memReg 0x14 →
      t.reg a = if s.bit (memReg 0x10) 2 = false ∧ s.fld (memReg 0x10) 0 2 = 2 ∧ isSched a = true then 0 else s.reg a) ∧
    (s.mcpRuns = true → ∃ e, t.flt = { s.flt with bus := s.flt.bus ++ [e] } ∧ e.src = 0x6C ∧ e.cls = 0 ∧ e.detail = postDetail 1 0 0 0) ∧
    (s.mcpRuns = false → t.flt = s.flt) ∧ t = { s with mem := t.mem, regs := t.regs, flt := t.flt, mbx := { s.mbx with bad := t.mbx.bad } })) ∧
  (∀ (s : State) (a : Nat), s.bit (memReg 0x10) 31 = true → a < 2 ^ 40 → Leaves (.marchComplete (some a)) s (fun t =>
    t.bit (memReg 0x10) 31 = false ∧ t.bit (memReg 0x14) 1 = true ∧ t.reg64 (memReg 0x18) = a)) ∧
  (∀ (s : State) (x : Option Nat), s.bit (memReg 0x10) 31 = false → exec (.marchComplete x) s = .next s) ∧
  (∀ (w : Who) (s : State) (d : Word) (k : Nat), ByMcp w → bitOf d 30 = true → bitOf d 14 = false → s.bit (memReg 0x40) 31 = false →
    k = arrayKey (s.fld (memReg 0x48) 0 3) (fieldOf d 0 8) → fieldOf d 0 8 < arraysOf (s.fld (memReg 0x48) 0 3) → 0 < s.rowsLeft k →
    exec (.repairGo w d) s = .next (acked ((s.setReg (memReg 0x40) (word (fieldOf d 0 15))).setBit (memReg 0x40) 31 true))) ∧
  (∀ (w : Who) (s : State) (d : Word) (k : Nat), ByMcp w → bitOf d 30 = true → bitOf d 14 = false → s.bit (memReg 0x40) 31 = false →
    k = arrayKey (s.fld (memReg 0x48) 0 3) (fieldOf d 0 8) → s.rowsLeft k = 0 →
    exec (.repairGo w d) s = .next (acked ((s.setReg (memReg 0x40) (word (fieldOf d 0 15))).setBit (memReg 0x44) 8 true))) ∧
  (∀ (s : State) (k : Nat), s.bit (memReg 0x40) 31 = true → s.bit (memReg 0x40) 14 = false →
    k = arrayKey (s.fld (memReg 0x48) 0 3) (s.fld (memReg 0x40) 0 8) →
    Leaves .repairComplete s (fun t => t.bit (memReg 0x40) 31 = false ∧ t.count (memReg 0x158) = s.count (memReg 0x158) + 1 ∧
      t.rowsLeft k = s.rowsLeft k - 1 ∧ t.colsLeft k = s.colsLeft k ∧
      (s.mcpRuns = false → t = { s with regs := t.regs, cnts := t.cnts, mbx := t.mbx }) ∧
      (s.mcpRuns = true → t.sparesUsedOf 4 = s.sparesUsedOf 4 + 1 ∧ t.mgt.spareSeq = s.mgt.spareSeq + 1 ∧
        (∃ e, t.flt.bus = s.flt.bus ++ [e] ∧ e.src = 0x6C ∧ e.cls = 0) ∧
        t = { s with regs := t.regs, cnts := t.cnts, mbx := t.mbx, mgt := t.mgt, flt := t.flt, mem := t.mem, freeCtr := s.freeCtr + 1 }))) ∧
  (∀ s : State, s.bit (memReg 0x40) 31 = false → exec .repairComplete s = .next s)

/-- R144, R148 to R155, R159 to R161, R173: a step of a channel's core takes the entry that state and inputs select, its NEXT state and input set, and
performs its operations: CNT on POS, pushes and pops of the FIFOs with their overflow and underrun, shifts, POUT of the four pins, the two flags, the
timer, and ERR. A core that does not run, or has stepped already, does nothing; an entry with an uncorrectable error is not executed and stops the core,
which finds it again once its pads have been released (R388). -/
def Obligations.SequencerSteps : Prop :=
  (∀ (s : State) (n : Nat) (ecc : EccFinding), n < 256 → (s.coreSteps n = false ∨ s.stepNo < (s.chan n).stepAt) →
    (s.bit (pchReg n 0x1100) 0 = false ∨ (s.chan n).bad = 0 ∨ (s.chan n).copy ≠ none ∨ s.padsSafe n = true) →
    exec (.sequencerStep n ecc) s = .next s) ∧
  (∀ (s : State) (n : Nat) (ecc : EccFinding), n < 256 → s.bit (pchReg n 0x1100) 0 = true → (s.chan n).bad ≠ 0 → (s.chan n).copy = none →
    s.padsSafe n = false →
    Leaves (.sequencerStep n ecc) s (fun t => OnlyChan s t n { s.chan n with localSafe := true } ∧ t.bit (pchReg n 0x1110) 7 = true ∧
      OtherRegs s t [pchReg n 0x1110] ∧
      t.flt.detected = s.flt.detected ++ [s.newEvent (0x44 + n / 16) 2 (n % 16 * 256 + 7) (word (2 ^ (n % 16))) []] ∧
      t = { s with pch := t.pch, flt := t.flt, regs := t.regs })) ∧
  (∀ (s : State) (n k : Nat) (c : Chan) (e : Word), StepsOn s n c e → Operations e 0 0 0 0 0 0 k false →
    Leaves (.sequencerStep n .clean) s (fun t => OnlyChan s t n (c.stepped e s.stepNo) ∧
      (k = 0 → t.cnts = s.cnts) ∧ (k = 1 → t.count (pchReg n 0x1160) = s.count (pchReg n 0x1160) + 1) ∧
      (k = 2 → t.count (pchReg n 0x1160) = s.count (pchReg n 0x1160) - 1) ∧
      (k = 3 → t.count (pchReg n 0x1160) = dword (s.reg64 (pchReg n 0x1170))) ∧
      OtherCounts s t [pchReg n 0x1160] ∧ OtherRegs (s.sense n) t [] ∧
      t = { s with pch := t.pch, cnts := t.cnts, freeCtr := s.freeCtr + 8, regs := t.regs })) ∧
  (∀ (s : State) (n f : Nat) (c : Chan) (e : Word), StepsOn s n c e → Operations e 0 f 0 0 0 0 0 false → 2 ≤ f →
    Leaves (.sequencerStep n .clean) s (fun t =>
      (c.rx.length < 16 → (t.chan n).rx = c.rx ++ [if s.bit (pchCfg n c.active 0) 8 then word (c.sr.toNat % 2 ^ c.count)
        else if c.count = 0 then 0 else c.sr >>> (32 - c.count)] ∧ t.count (pchReg n 0x1308) = s.count (pchReg n 0x1308)) ∧
      (16 ≤ c.rx.length → (t.chan n).rx = c.rx ∧ t.bit (pchReg n 0x1110) 1 = true ∧
        t.count (pchReg n 0x1308) = s.count (pchReg n 0x1308) + 1) ∧
      (f = 2 → t.chan n = { c.stepped e s.stepNo with rx := (t.chan n).rx }) ∧ (∀ m, m ≠ n → t.chan m = s.chan m))) ∧
  (∀ (s : State) (n f : Nat) (c : Chan) (e : Word), StepsOn s n c e → Operations e 0 f 0 0 0 0 0 false → f = 1 ∨ f = 3 →
    Leaves (.sequencerStep n .clean) s (fun t => (t.chan n).count = 0 ∧ (t.chan n).tx = c.tx.drop 1 ∧ (t.chan n).state = fieldOf e 0 5 ∧
      (∀ w q, c.tx = w :: q → (t.chan n).sr = (if s.bit (pchCfg n c.active 0) 8 then w <<< (32 - s.fld (pchCfg n c.active 0) 0 6) else w) ∧
        t.count (pchReg n 0x1300) = s.count (pchReg n 0x1300)) ∧
      (c.tx = [] → (t.chan n).sr = (if s.bit (pchCfg n c.active 0) 11 then 0xFFFFFFFF else 0) ∧ t.bit (pchReg n 0x1110) 0 = true ∧
        t.count (pchReg n 0x1300) = s.count (pchReg n 0x1300) + 1))) ∧
  (∀ (s : State) (n h : Nat) (c : Chan) (e : Word) (i : Bool), StepsOn s n c e → Operations e 0 0 h 0 0 0 0 false →
    i = s.pinIn n (s.fld (pchCfg n c.active 0) 9 2) →
    Leaves (.sequencerStep n .clean) s (fun t =>
      (h = 1 → t.chan n = { c.stepped e s.stepNo with
        sr := if s.bit (pchCfg n c.active 0) 8 then (c.sr <<< 1) ||| word (bit01 i) else (c.sr >>> 1) ||| word (bit01 i * 2 ^ 31),
        count := min (c.count + 1) 32 }) ∧
      (h = 2 → t.chan n = { c.stepped e s.stepNo with count := 0 }) ∧
      (h = 3 → t.chan n = c.stepped e s.stepNo ∧ t.bit (pchReg n 0x1110) 6 = true))) ∧
  (∀ (s : State) (n o h p x : Nat) (c : Chan) (e : Word), StepsOn s n c e → Operations e o 0 h 0 0 0 0 false → h ≤ 1 → p < 4 →
    x = fieldOf e (5 + 2 * p) 2 → c.taqAt ≠ s.cyc + 1 →
    Leaves (.sequencerStep n .clean) s (fun t =>
      (x = 0 → (t.chan n).out.testBit p = c.out.testBit p ∧ (t.chan n).oe.testBit p = c.oe.testBit p) ∧
      (x ≠ 0 → (t.chan n).oe.testBit p = bitOf e (13 + p)) ∧ (x = 1 → (t.chan n).out.testBit p = false) ∧
      (x = 2 → (t.chan n).out.testBit p = true) ∧
      (x = 3 → (t.chan n).out.testBit p = if s.bit (pchCfg n c.active 0) 8 then bitOf c.sr 31 else bitOf c.sr 0))) ∧
  (∀ (s : State) (n g k : Nat) (c : Chan) (e : Word), StepsOn s n c e → Operations e 0 0 0 g 0 0 0 false →
    k = flagKey n (s.fld (pchCfg n c.active 0x0C) 0 6) →
    Leaves (.sequencerStep n .clean) s (fun t => t.chan n = c.stepped e s.stepNo ∧
      (g = 1 → t.sharedFlag k = { (s.sharedFlag k).moved s.stepNo with clear := true }) ∧
      (g = 2 → t.sharedFlag k = { (s.sharedFlag k).moved s.stepNo with set := true }) ∧
      (g = 3 → t.sharedFlag k = { (s.sharedFlag k).moved s.stepNo with pulse := true }) ∧
      (∀ j, j ≠ k → t.sharedFlag j = s.sharedFlag j))) ∧
  (∀ (s : State) (n g k : Nat) (c : Chan) (e : Word), StepsOn s n c e → Operations e 0 0 0 0 g 0 0 false →
    k = flagKey n (s.fld (pchCfg n c.active 0x0C) 8 6) →
    Leaves (.sequencerStep n .clean) s (fun t => t.chan n = c.stepped e s.stepNo ∧
      (g = 1 → t.sharedFlag k = { (s.sharedFlag k).moved s.stepNo with clear := true }) ∧
      (g = 2 → t.sharedFlag k = { (s.sharedFlag k).moved s.stepNo with set := true }) ∧
      (g = 3 → t.sharedFlag k = { (s.sharedFlag k).moved s.stepNo with pulse := true }) ∧
      (∀ j, j ≠ k → t.sharedFlag j = s.sharedFlag j))) ∧
  (∀ (s : State) (n o a b : Nat) (c d : Chan) (e : Word), StepsOn s n c e → Operations e 0 0 0 0 0 o 0 false → d = c.stepped e s.stepNo →
    a = (s.reg (pchCfg n c.active 0x10)).toNat → b = (s.reg (pchCfg n c.active 0x14)).toNat →
    Leaves (.sequencerStep n .clean) s (fun t =>
      (o = 1 → t.chan n = { d with cmp := (c.cmp + a) % 2 ^ 56, armed := true, matched := false }) ∧
      (o = 2 → t.chan n = { d with cmp := (c.cmp + b) % 2 ^ 56, armed := true, matched := false }) ∧
      (o = 3 → t.chan n = { d with cmp := (s.pinTime * 256 + a) % 2 ^ 56, armed := true, matched := false }) ∧
      (o = 4 → t.chan n = { d with cmp := (s.pinTime * 256 + b) % 2 ^ 56, armed := true, matched := false }) ∧
      (o = 5 → t.chan n = { d with armed := false, matched := false }) ∧
      (o = 6 → c.rx.length < 16 → t.chan n = { d with rx := c.rx ++ [word s.pinTime] }) ∧
      (o = 7 → t.chan n = d ∧ t.bit (pchReg n 0x1110) 6 = true))) ∧
  (∀ (s : State) (n : Nat) (c : Chan) (e : Word), StepsOn s n c e → Operations e 0 0 0 0 0 0 0 true →
    Leaves (.sequencerStep n .clean) s (fun t => t.chan n = c.stepped e s.stepNo ∧ t.bit (pchReg n 0x1110) 5 = true ∧
      t.count (pchReg n 0x1320) = s.count (pchReg n 0x1320) + 1 ∧ OtherCounts s t [pchReg n 0x1320])) ∧
  (∀ (s : State) (n : Nat) (c : Chan), n < 256 → c = (s.sense n).chan n → s.coreSteps n = true → c.stepAt ≤ s.stepNo →
    c.force = false → c.pending = false → setReserved (s.inputSet n) = false →
    Leaves (.sequencerStep n .double) s (fun t =>
      OnlyChan s t n { c with
        stepAt := s.stepNo + 1, localSafe := true, bad := c.bad ||| 2 ^ (512 * bit01 c.active + s.lutIndex n (s.pinsIn n)) } ∧
      t.bit (pchReg n 0x1110) 7 = true ∧ OtherRegs (s.sense n) t [pchReg n 0x1110] ∧
      t.flt.detected = s.flt.detected ++ [s.newEvent (0x44 + n / 16) 2 (n % 16 * 256 + 7) (word (2 ^ (n % 16))) []] ∧
      t = { s with pch := t.pch, flt := t.flt, freeCtr := s.freeCtr + 8, regs := t.regs }))

/-- R155 to R158: MATCH follows CMP once it is armed and reached; a timed action joins the queue of a channel that nothing else serves, is executed
once its time is reached, and one that is late is marked and, where DROP_LATE says so, dropped. -/
def Obligations.TimedActionsAndCompares : Prop :=
  (∀ (s : State) (n : Nat), n < 256 → (s.chan n).armed = true → s.pinReached ((s.chan n).cmp / 256) = true →
    exec (.compareMatch n) s = .next (s.setChan n { s.chan n with matched := true })) ∧
  (∀ (s : State) (n : Nat), n < 256 → ((s.chan n).armed = false ∨ s.pinReached ((s.chan n).cmp / 256) = false) →
    exec (.compareMatch n) s = .next s) ∧
  (∀ (w : Who) (s : State) (n : Nat) (d : Word), Admitted w s → n < 256 → s.holderOf n = none → s.bit (pchReg n 0x1108) 1 = false →
    fieldOf d 16 4 ≤ 4 → (s.chan n).taq.length < 16 →
    exec (.taqHiWrite w n d) s = .next (acked (s.setChan n { s.chan n with taq := (s.chan n).taq ++
      [(((Tab.get (fun _ => 0) (s.chan n).taqLo w.master).toNat + fieldOf d 0 16 * 2 ^ 32) % 2 ^ 48, d)] }))) ∧
  (∀ (w : Who) (s : State) (n : Nat) (d : Word), Admitted w s → n < 256 →
    (s.holderOf n ≠ none ∨ s.bit (pchReg n 0x1108) 1 = true ∨ 4 < fieldOf d 16 4 ∨ 16 ≤ (s.chan n).taq.length) →
    exec (.taqHiWrite w n d) s = .next (refusedWrite (s.masterError w (pchReg n 0x112C) true))) ∧
  (∀ (s : State) (n : Nat), n < 256 → (s.chan n).taq = [] → exec (.timedActionExecute n) s = .next s) ∧
  (∀ (s : State) (n x : Nat) (w : Word) (q : List (Nat × Word)), n < 256 → (s.chan n).taq = (x, w) :: q → s.pinReached x = false →
    exec (.timedActionExecute n) s = .next s) ∧
  (∀ (s : State) (n x : Nat) (w : Word) (q : List (Nat × Word)), n < 256 → (s.chan n).taq = (x, w) :: q → s.pinReached x = true →
    (s.chan n).taqAt ≤ s.cyc → (s.chan n).copy = none → s.pinPast x ≤ 8 → fieldOf w 16 4 = 1 →
    Leaves (.timedActionExecute n) s (fun t =>
      OnlyChan s t n { s.chan n with taq := q, taqAt := s.cyc + 1, pinsAt := 0, matched := true } ∧ t = { s with pch := t.pch })) ∧
  (∀ (s : State) (n x : Nat) (w : Word) (q : List (Nat × Word)), n < 256 → (s.chan n).taq = (x, w) :: q → s.pinReached x = true →
    (s.chan n).taqAt ≤ s.cyc → (s.chan n).copy = none → s.pinPast x ≤ 8 → fieldOf w 16 4 = 0 → (s.chan n).out < 16 → (s.chan n).oe < 16 →
    Leaves (.timedActionExecute n) s (fun t => (t.chan n).taq = q ∧ (t.chan n).pinsAt = fieldOf w 20 4 ∧
      (∀ p, p < 4 → (t.chan n).out.testBit p = (if bitOf w (20 + p) then bitOf w (24 + p) else (s.chan n).out.testBit p) ∧
        (t.chan n).oe.testBit p = (if bitOf w (20 + p) then bitOf w (28 + p) else (s.chan n).oe.testBit p)) ∧
      OtherRegs s t [pchReg n 0x1210, legReg n 0, legReg n 1, legReg n 2, legReg n 3] ∧
      t = { s with pch := t.pch, regs := t.regs, freeCtr := t.freeCtr })) ∧
  (∀ (s : State) (n x : Nat) (w : Word) (q : List (Nat × Word)), n < 256 → (s.chan n).taq = (x, w) :: q → s.pinReached x = true →
    (s.chan n).taqAt ≤ s.cyc → (s.chan n).copy = none → 8 < s.pinPast x → s.bit (pchReg n 0x1100) 1 = true →
    exec (.timedActionExecute n) s = .next (((s.setChan n { s.chan n with taq := q, taqAt := s.cyc + 1, pinsAt := 0 }).setBit
      (pchReg n 0x1110) 2 true).bump (pchReg n 0x1310)))

/-- R146, R153, R154: a word written to TXD of a free channel joins its transmit FIFO, and a full FIFO refuses it; a read of RXD takes the oldest
received word, and 0 from an empty FIFO; the words of a held channel are its engine's. -/
def Obligations.ChannelFifos : Prop :=
  (∀ (w : Who) (s : State) (n : Nat) (d : Word), Admitted w s → n < 256 → s.holderOf n = none → (s.chan n).tx.length < 16 →
    exec (.txdWrite w n d) s = .next (acked (s.setChan n { s.chan n with tx := (s.chan n).tx ++ [d] }))) ∧
  (∀ (w : Who) (s : State) (n : Nat) (d : Word), Admitted w s → n < 256 → (s.holderOf n ≠ none ∨ 16 ≤ (s.chan n).tx.length) →
    exec (.txdWrite w n d) s = .next (refusedWrite (s.masterError w (pchReg n 0x1120) true))) ∧
  (∀ (w : Who) (s : State) (n : Nat) (v : Word) (q : List Word), Admitted w s → n < 256 → s.holderOf n = none → (s.chan n).rx = v :: q →
    exec (.rxdRead w n) s = .next (answered (s.setChan n { s.chan n with rx := q }) v)) ∧
  (∀ (w : Who) (s : State) (n : Nat), Admitted w s → n < 256 → (s.holderOf n ≠ none ∨ (s.chan n).rx = []) →
    exec (.rxdRead w n) s = .next (answered s 0))

/-- R162, R163: a swap request waits for a step that begins at state 0 with count 0 and then changes the active bank; a forced one takes effect where
the next step begins, drops what the channel holds and counts; a request that has waited for its limit becomes a forced one. -/
def Obligations.BankSwaps : Prop :=
  (∀ (w : Who) (s : State) (n x : Nat), Admitted w s → n < 256 → s.holderOf n = none → (s.chan n).pending = false → x < 2 ^ 16 →
    Leaves (.swapRequest w n (word (2 + x * 2 ^ 8))) s (fun t =>
      OnlyChan s t n { s.chan n with pending := true, swapAt := if x = 0 then none else some (s.cyc + x * 500) } ∧
      t.fld (pchReg n 0x1104) 8 16 = x ∧ OtherRegs s t [pchReg n 0x1104] ∧ t = { acked s with pch := t.pch, regs := t.regs })) ∧
  (∀ (w : Who) (s : State) (n x : Nat), Admitted w s → n < 256 → s.holderOf n = none → x < 2 ^ 16 →
    Leaves (.forcedSwapRequest w n (word (6 + x * 2 ^ 8))) s (fun t =>
      OnlyChan s t n { s.chan n with force := true } ∧ t.fld (pchReg n 0x1104) 8 16 = x ∧ OtherRegs s t [pchReg n 0x1104] ∧
      t = { acked s with pch := t.pch, regs := t.regs })) ∧
  (∀ (w : Who) (s : State) (n : Nat) (d : Word), Admitted w s → n < 256 → s.holderOf n ≠ none →
    exec (.swapRequest w n d) s = .next (refusedWrite (s.masterError w (pchReg n 0x1104) true)) ∧
    exec (.forcedSwapRequest w n d) s = .next (refusedWrite (s.masterError w (pchReg n 0x1104) true))) ∧
  (∀ (s : State) (n : Nat), n < 256 → s.stepBegins n = true → (s.chan n).pending = true → (s.chan n).force = false → (s.chan n).state = 0 →
    (s.chan n).count = 0 →
    exec (.swapTakeEffect n) s = .next (s.setChan n { s.chan n with
      active := !(s.chan n).active, pending := false, swapAt := none, force := false, state := 0, isel := false, corrected := false })) ∧
  (∀ (s : State) (n : Nat), n < 256 →
    (s.stepBegins n = false ∨ (s.chan n).pending = false ∨ (s.chan n).force = true ∨ (s.chan n).state ≠ 0 ∨ (s.chan n).count ≠ 0) →
    exec (.swapTakeEffect n) s = .next s) ∧
  (∀ (s : State) (n x : Nat), n < 256 → (s.chan n).swapAt = some x → (s.chan n).pending = true → (s.chan n).force = false → x ≤ s.cyc →
    exec (.swapTimeout n) s = .next ((s.setChan n { s.chan n with force := true }).setBit (pchReg n 0x1110) 13 true)) ∧
  (∀ (s : State) (n : Nat), n < 256 → (s.chan n).swapAt = none → exec (.swapTimeout n) s = .next s) ∧
  (∀ (s : State) (n : Nat), n < 256 → s.stepBegins n = true → (s.chan n).force = true → Leaves (.forcedSwapApply n) s (fun t =>
    OnlyChan s t n { s.chan n with
      active := !(s.chan n).active, pending := false, swapAt := none, force := false, state := 0, isel := false, corrected := false,
      sr := 0, count := 0, tx := [], rx := [], armed := false, matched := false, viewLeft := 0 } ∧
    t.bit (pchReg n 0x1110) 4 = true ∧ OtherRegs s t [pchReg n 0x1110] ∧ t.count (pchReg n 0x1328) = s.count (pchReg n 0x1328) + 1 ∧
    OtherCounts s t [pchReg n 0x1328] ∧ t = { s with pch := t.pch, regs := t.regs, cnts := t.cnts })) ∧
  (∀ (s : State) (n : Nat), n < 256 → (s.stepBegins n = false ∨ (s.chan n).force = false) → exec (.forcedSwapApply n) s = .next s)

/-- R160: a register write sets or clears the flags whose bits are 1, those of the channel's cluster or the device-wide ones, as operations of the
first step that begins after the write; the others keep what they have. -/
def Obligations.SharedFlagsAreWritten : Prop :=
  (∀ (w : Who) (s : State) (n : Nat) (d : Word), Admitted w s → n < 256 → s.holderOf n = none →
    Leaves (.cflagSet w n d) s (fun t => t = { acked s with pch := t.pch } ∧ t.pch.chans = s.pch.chans ∧
      (∀ k, t.sharedFlag k = if 32 * (n / 16) ≤ k ∧ k < 32 * (n / 16) + 32 ∧ bitOf d (k - 32 * (n / 16)) = true then
        ((s.sharedFlag k).moved s.stepNo).await (s.stepNo + 1, true) else s.sharedFlag k)) ∧
    Leaves (.cflagClr w n d) s (fun t => t = { acked s with pch := t.pch } ∧ t.pch.chans = s.pch.chans ∧
      (∀ k, t.sharedFlag k = if 32 * (n / 16) ≤ k ∧ k < 32 * (n / 16) + 32 ∧ bitOf d (k - 32 * (n / 16)) = true then
        ((s.sharedFlag k).moved s.stepNo).await (s.stepNo + 1, false) else s.sharedFlag k)) ∧
    Leaves (.dflagSet w n d) s (fun t => t = { acked s with pch := t.pch } ∧ t.pch.chans = s.pch.chans ∧
      (∀ k, t.sharedFlag k = if 512 ≤ k ∧ k < 528 ∧ bitOf d (k - 512) = true then
        ((s.sharedFlag k).moved s.stepNo).await (s.stepNo + 1, true) else s.sharedFlag k)) ∧
    Leaves (.dflagClr w n d) s (fun t => t = { acked s with pch := t.pch } ∧ t.pch.chans = s.pch.chans ∧
      (∀ k, t.sharedFlag k = if 512 ≤ k ∧ k < 528 ∧ bitOf d (k - 512) = true then
        ((s.sharedFlag k).moved s.stepNo).await (s.stepNo + 1, false) else s.sharedFlag k))) ∧
  (∀ (f : SharedFlag) (i k : Nat) (b : Bool), f.later = [(i, b)] → (k < i → f.due k = f) ∧
    (i ≤ k → (f.due k).regSet = b ∧ (f.due k).regClear = !b ∧ (f.due k).later = [])) ∧
  (∀ (f : SharedFlag) (i j k : Nat) (b c : Bool), f.later = [(j, c)] → i < j → (i ≤ k ∧ k < j →
      ((f.await (i, b)).due k).regSet = b ∧ ((f.await (i, b)).due k).later = [(j, c)]) ∧
    (j ≤ k → ((f.await (i, b)).due k).regSet = c ∧ ((f.await (i, b)).due k).later = [])) ∧
  (∀ f : SharedFlag, f.set = false → f.pulse = false → f.clear = false → (f.regSet = true → f.next = true) ∧
    (f.regSet = false → f.regClear = true → f.next = false) ∧
    (f.regSet = false → f.regClear = false → f.pulsed = false → f.next = f.was))

/-- R165, R171, R172, R175: the MCP writes MUX; one channel of a group gives its pins to the controller, which then integrates; a change of CORE asks
for a copy to the core that it names, which is refused where that core is in use, and the channel goes on from the copy, or at safe level where an
uncorrectable word is met. -/
def Obligations.MultiplexingAndSpareCores : Prop :=
  (∀ (w : Who) (s : State) (n : Nat) (d : Word), ByMcp w → n < 256 → fieldOf d 8 4 = s.muxCore n → s.muxCore n ≤ 8 → bitOf d 0 = true →
    s.canAB n = false → (∀ i, i < 8 → 8 * (n / 8) + i ≠ n → s.canAB (8 * (n / 8) + i) = false) →
    Leaves (.muxCanAbWrite w n d) s (fun t => t.canAB n = true ∧ OnlyCanc s t (n / 8) { s.canc (n / 8) with sync := false } ∧
      OnlyChan s t n { s.chan n with copy := none, copyForced := false } ∧ OtherRegs s t [pchReg n 0x1108] ∧
      t = { acked s with regs := t.regs, can := t.can, pch := t.pch })) ∧
  (∀ (w : Who) (s : State) (n i : Nat) (d : Word), ByMcp w → n < 256 → i < 8 → 8 * (n / 8) + i ≠ n → s.canAB (8 * (n / 8) + i) = true →
    bitOf d 0 = true → exec (.muxCanAbWrite w n d) s = .next (refusedWrite (s.masterError w (pchReg n 0x1108) true))) ∧
  (∀ (w : Who) (s : State) (n : Nat) (d : Word), ByMcp w → n < 256 → fieldOf d 8 4 = s.muxCore n → s.muxCore n ≤ 8 → bitOf d 0 = false →
    Leaves (.muxTravWrite w n d) s (fun t => t.bit (pchReg n 0x1108) 1 = bitOf d 1 ∧ t.canAB n = false ∧
      OnlyChan s t n { s.chan n with copy := none, copyForced := false } ∧ OtherRegs s t [pchReg n 0x1108] ∧
      t = { acked s with regs := t.regs, pch := t.pch })) ∧
  (∀ (w : Who) (s : State) (n i : Nat) (d : Word), ByMcp w → n < 256 → i < 8 → fieldOf d 8 4 = i + 1 → s.muxCore n ≠ i + 1 →
    bitOf d 0 = false → (s.chan n).copy ≠ some (i + 1) → s.spareCoreUsed i = false →
    Leaves (.spareCoreSteer w n d) s (fun t => s.muxCore n = t.muxCore n ∧
      OnlyChan s t n { s.chan n with copy := some (i + 1), copyAt := s.cyc, copyForced := false } ∧ OtherRegs s t [pchReg n 0x1108] ∧
      t.sparesUsedOf 2 = s.sparesUsedOf 2 + 1 ∧ t.mgt.spareSeq = s.mgt.spareSeq + 1 ∧
      (∃ e, t.flt.bus = s.flt.bus ++ [e] ∧ e.src = 0x6C ∧ e.cls = 0 ∧ e.detail = postDetail 2 2 (n) 0) ∧
      t = { acked s with regs := t.regs, pch := t.pch, mgt := t.mgt, flt := t.flt, mem := t.mem, freeCtr := s.freeCtr + 1 })) ∧
  (∀ (w : Who) (s : State) (n i : Nat) (d : Word), ByMcp w → n < 256 → i < 8 → fieldOf d 8 4 = i + 1 → s.muxCore n ≠ i + 1 →
    bitOf d 0 = false → (s.chan n).copy ≠ some (i + 1) → s.spareCoreUsed i = true →
    exec (.spareCoreSteer w n d) s = .next (refusedWrite (s.masterError w (pchReg n 0x1108) true))) ∧
  (∀ (w : Who) (s : State) (n : Nat) (d : Word), ByMcp w → n < 256 → fieldOf d 8 4 = 0 → s.muxCore n ≠ 0 → bitOf d 0 = false →
    (s.chan n).copy ≠ some 0 →
    Leaves (.coreSteerBack w n d) s (fun t => s.muxCore n = t.muxCore n ∧
      OnlyChan s t n { s.chan n with copy := some 0, copyAt := s.cyc, copyForced := false } ∧ OtherRegs s t [pchReg n 0x1108] ∧
      t = { acked s with regs := t.regs, pch := t.pch })) ∧
  (∀ (w : Who) (s : State) (n : Nat) (d : Word), Admitted w s → isMcp w = false → n < 256 →
    exec (.muxCanAbWrite w n d) s = .next (refusedWrite (s.masterError w (pchReg n 0x1108) true))) ∧
  (∀ (s : State) (n x : Nat), n < 256 → (s.chan n).copy = some x → (s.chan n).bad = 0 →
    ((s.chan n).copyForced = true ∨ ((s.chan n).state = 0 ∧ (s.chan n).count = 0)) →
    exec (.coreCopyComplete n .clean) s = .next ((s.setChan n { s.chan n with copy := none, copyForced := false, isel := false }).setFld
      (pchReg n 0x1108) 8 4 x)) ∧
  (∀ (s : State) (n x : Nat) (ecc : EccFinding), n < 256 → (s.chan n).copy = some x → x ≠ 0 → x < 16 → (s.chan n).bad ≠ 0 →
    Leaves (.coreCopyComplete n ecc) s (fun t =>
      OnlyChan s t n { s.chan n with
        copy := none, copyForced := false, bad := 2 ^ 1024 - 1, isel := false, held := true, localSafe := true } ∧
      t.muxCore n = x ∧ t.bit (pchReg n 0x1110) 7 = true ∧ OtherRegs s t [pchReg n 0x1108, pchReg n 0x1110] ∧
      t.flt.detected = s.flt.detected ++ [s.newEvent (0x44 + n / 16) 2 (n % 16 * 256 + 7) (word (2 ^ (n % 16))) []])) ∧
  (∀ (s : State) (n : Nat) (ecc : EccFinding), n < 256 → (s.chan n).copy = some 0 → (s.chan n).bad ≠ 0 →
    exec (.coreCopyComplete n ecc) s = .next (s.setChan n { s.chan n with copy := none, copyForced := false })) ∧
  (∀ (s : State) (n : Nat) (ecc : EccFinding), n < 256 → s.copyReady n = false → exec (.coreCopyComplete n ecc) s = .next s) ∧
  (∀ (s : State) (n x : Nat), n < 256 → (s.chan n).copy = some x → (s.chan n).bad = 0 → (s.chan n).copyForced = false →
    ((s.chan n).state ≠ 0 ∨ (s.chan n).count ≠ 0) → (s.chan n).copyAt + 5000000 ≤ s.cyc →
    exec (.coreCopyForce n) s = .next ((s.setChan n { s.chan n with copyForced := true }).setBit (pchReg n 0x1110) 4 true)) ∧
  (∀ (s : State) (n : Nat), n < 256 → ((s.chan n).copy = none ∨ s.cyc < (s.chan n).copyAt + 5000000) → exec (.coreCopyForce n) s = .next s)

/-- R166 to R170: the electrical findings set their bit of DIAG_STAT and STICKY, count, and are reported in the class that DIAG_CFG names; a leg is
brought in by the MCP and serves in the place of the one it retires. -/
def Obligations.DiagnosticsOfTheLegs : Prop :=
  (∀ (s : State) (n p : Nat), n < 256 → p < 4 → s.bit (pchReg n 0x1200) p = true → (s.chan n).oe.testBit p = true →
    s.bit (pchReg n 0x1210) p = false → s.bit (pchReg n 0x1210) (4 + p) = false → s.fld (pchReg n 0x1200) 20 2 = 1 →
    Tab.get (fun _ => 0) (s.chan n).outAt p + 500 ≤ s.cyc →
    Leaves (.shortDetect n p) s (fun t =>
      t.bit (pchReg n 0x1210) (if ((s.chan n).out.testBit p != s.pinInv n p) = true then p else 4 + p) = true ∧
      t.bit (pchReg n 0x1110) 8 = true ∧ t.count (pchReg n 0x1330) = s.count (pchReg n 0x1330) + 1 ∧
      t.flt.bus = s.flt.bus ++ [s.newEvent (0x44 + n / 16) 1 (n % 16 * 256 + 8) (word (2 ^ (n % 16))) []] ∧ t.pch = s.pch ∧
      t.bit (pchReg n 0x1110) 12 = (s.bit (pchReg n 0x1110) 12 || (s.padDriven n p).isSome) ∧
      OtherRegs s t [pchReg n 0x1210, pchReg n 0x1110] ∧
      t = { s with regs := t.regs, cnts := t.cnts, flt := t.flt, pch := t.pch })) ∧
  (∀ (s : State) (n p : Nat), n < 256 → p < 4 → (s.bit (pchReg n 0x1200) p = false ∨ (s.chan n).oe.testBit p = false ∨
      s.cyc < Tab.get (fun _ => 0) (s.chan n).outAt p + 500) →
    exec (.shortDetect n p) s = .next s) ∧
  (∀ (s : State) (n p : Nat), n < 256 → p < 4 → s.owDue n p = true →
    s.bit (pchReg n 0x1210) (8 + p) = false → s.fld (pchReg n 0x1204) 16 4 ≤ s.openRun n p + 1 → s.fld (pchReg n 0x1200) 22 2 = 1 →
    Leaves (.openWireTest n p true) s (fun t => t.bit (pchReg n 0x1210) (8 + p) = true ∧ t.openRun n p = 0 ∧
      t.bit (pchReg n 0x1110) 9 = true ∧ t.count (pchReg n 0x1330) = s.count (pchReg n 0x1330) + 1 ∧
      t.flt.bus = s.flt.bus ++ [s.newEvent (0x44 + n / 16) 1 (n % 16 * 256 + 9) (word (2 ^ (n % 16))) []] ∧
      OnlyChan s t n { (s.owDone n p).chan n with openRuns := Tab.set (fun _ => 0) (s.chan n).openRuns p 0 } ∧
      OtherRegs s t [pchReg n 0x1210, pchReg n 0x1110] ∧
      t = { s with regs := t.regs, cnts := t.cnts, flt := t.flt, pch := t.pch, freeCtr := s.freeCtr + 1 })) ∧
  (∀ (s : State) (n p : Nat), n < 256 → p < 4 → s.owDue n p = true →
    s.bit (pchReg n 0x1210) (8 + p) = false → s.openRun n p + 1 < s.fld (pchReg n 0x1204) 16 4 →
    exec (.openWireTest n p true) s = .next ((s.owDone n p).setOpenRun n p (s.openRun n p + 1))) ∧
  (∀ (s : State) (n p : Nat), n < 256 → p < 4 → s.owDue n p = true → s.bit (pchReg n 0x1210) (8 + p) = false →
    exec (.openWireTest n p false) s = .next ((s.owDone n p).setOpenRun n p 0)) ∧
  (∀ (s : State) (n p : Nat), n < 256 → p < 4 → s.owDue n p = true → s.bit (pchReg n 0x1210) (8 + p) = true →
    s.fld (pchReg n 0x1204) 16 4 ≤ s.openRun n p + 1 →
    exec (.openWireTest n p false) s = .next (((s.owDone n p).setOpenRun n p 0).setBit (pchReg n 0x1210) (8 + p) false)) ∧
  (∀ (s : State) (n p : Nat) (b : Bool), n < 256 → p < 4 → s.owDue n p = false → exec (.openWireTest n p b) s = .next s) ∧
  (∀ (s : State) (n : Nat), n < 256 → s.reversed n = true → s.bit (pchReg n 0x1210) 16 = false → s.bit (pchReg n 0x1200) 12 = false →
    s.fld (pchReg n 0x1200) 24 2 = 1 →
    Leaves (.reversalDetect n) s (fun t => t.bit (pchReg n 0x1210) 16 = true ∧ t.bit (pchReg n 0x1110) 10 = true ∧
      t.count (pchReg n 0x1330) = s.count (pchReg n 0x1330) + 1 ∧ t.pch = s.pch ∧ OtherRegs s t [pchReg n 0x1210, pchReg n 0x1110])) ∧
  (∀ (s : State) (n : Nat), n < 256 → s.reversed n = true → s.bit (pchReg n 0x1210) 16 = false → s.bit (pchReg n 0x1200) 12 = true →
    (s.chan n).corrected = false → s.fld (pchReg n 0x1200) 24 2 = 1 →
    Leaves (.reversalDetect n) s (fun t => t.bit (pchReg n 0x1210) 16 = true ∧ t.bit (pchReg n 0x1110) 10 = true ∧
      t.reg (pchReg n 0x120C) = word (s.fld (pchReg n 0x120C) 0 4 ^^^ s.fld (pchReg n 0x1208) 16 4) ∧
      OnlyChan s t n { s.chan n with corrected := true } ∧ OtherRegs s t [pchReg n 0x1210, pchReg n 0x1110, pchReg n 0x120C])) ∧
  (∀ (s : State) (n : Nat), n < 256 → (s.bit (pchReg n 0x1200) 10 = false ∨ (∃ b, (s.chan n).shown.testBit (shownKey (s.revPin n) b) = false) ∨
      s.cyc < s.shownLast n (s.revPin n) (s.revIdle n) + 3 * (s.fld (pchReg n 0x1208) 0 16 * 50000)) →
    exec (.reversalDetect n) s = .next s) ∧
  (∀ (s : State) (n : Nat), n < 256 → s.bit (pchReg n 0x1200) 18 = true → s.bit (pchReg n 0x1210) 17 = false →
    (s.chan n).xfOffAt + 500 ≤ s.cyc → s.fld (pchReg n 0x1200) 26 2 = 2 →
    Leaves (.xcvrFaultDetect n) s (fun t => t.bit (pchReg n 0x1210) 17 = true ∧ t.bit (pchReg n 0x1110) 11 = true ∧
      OnlyChan s t n { s.chan n with localSafe := true } ∧
      t.flt.detected = s.flt.detected ++ [s.newEvent (0x44 + n / 16) 2 (n % 16 * 256 + 11) (word (2 ^ (n % 16))) []] ∧
      OtherRegs s t [pchReg n 0x1210, pchReg n 0x1110])) ∧
  (∀ (s : State) (n : Nat), n < 256 → (s.bit (pchReg n 0x1200) 18 = false ∨ s.cyc < (s.chan n).xfOffAt + 500) →
    exec (.xcvrFaultDetect n) s = .next s) ∧
  (∀ (w : Who) (s : State) (n p r : Nat), ByMcp w → n < 256 → p < 4 → s.holderOf n = none → r < 3 → s.fld (legReg n p) 8 2 ≠ 3 →
    s.fld (legReg n p) 8 2 ≠ r → s.bit (legReg n p) 13 = false →
    Leaves (.bringIn w n p (word (2 ^ 12 + r * 2 ^ 10))) s (fun t => t.regs = ((s.setFld (legReg n p) 10 2 r).setBit (legReg n p) 13 true).regs ∧
      t.sparesUsedOf 3 = s.sparesUsedOf 3 + 1 ∧ t.mgt.spareSeq = s.mgt.spareSeq + 1 ∧
      (∃ e, t.flt.bus = s.flt.bus ++ [e] ∧ e.src = 0x6C ∧ e.cls = 0 ∧ e.detail = postDetail 2 3 (4 * n + p) 0) ∧
      t = { acked s with regs := t.regs, mgt := t.mgt, flt := t.flt, mem := t.mem, freeCtr := s.freeCtr + 1 })) ∧
  (∀ (w : Who) (s : State) (n p : Nat) (d : Word), Admitted w s → n < 256 → p < 4 → bitOf d 12 = true →
    (isMcp w = false ∨ s.fld (legReg n p) 8 2 = 3 ∨ s.bit (legReg n p) 13 = true ∨ fieldOf d 10 2 = 3 ∨ fieldOf d 10 2 = s.fld (legReg n p) 8 2) →
    exec (.bringIn w n p d) s = .next (refusedWrite (s.masterError w (legReg n p) true))) ∧
  (∀ (s : State) (n p : Nat), n < 256 → p < 4 → s.bit (legReg n p) 13 = true →
    exec (.legExchangeComplete n p) s = .next ((s.setBit (legReg n p) 13 false).setFld (legReg n p) 8 2 3)) ∧
  (∀ (s : State) (n p : Nat), n < 256 → p < 4 → s.bit (legReg n p) 13 = false → exec (.legExchangeComplete n p) s = .next s)

/-- R178, R179: CTL.MODE leaves CONFIG only with timing that holds, waits for the end of a frame on the bus, and is followed by integration; a change
that waits takes effect once the frame has ended. -/
def Obligations.CanModes : Prop :=
  (∀ (w : Who) (s : State) (k m : Nat), Admitted w s → k < 32 → s.holderOf (256 + k) = none → (s.canc k).mode = 0 → 0 < m → m < 4 →
    (s.canc k).pend = none → (s.canc k).sync = false → s.canTimingOk k = true →
    Leaves (.canModeWrite w k (word m)) s (fun t => OnlyCanc s t k { s.canc k with mode := m, sync := false } ∧
      t.fld (canReg k 0) 0 2 = m ∧ OtherRegs s t [canReg k 0] ∧ t = { acked s with regs := t.regs, can := t.can, freeCtr := t.freeCtr })) ∧
  (∀ (w : Who) (s : State) (k m : Nat), Admitted w s → k < 32 → s.holderOf (256 + k) = none → (s.canc k).mode = 0 → 0 < m → m < 4 →
    (s.canc k).pend = none → (s.canc k).sync = false → s.canTimingOk k = false →
    Leaves (.canModeWrite w k (word m)) s (fun t => OnlyCanc s t k (s.canc k) ∧ t.fld (canReg k 0) 0 2 = 0 ∧
      t.bit (canReg k 0x18) 7 = true ∧ OtherRegs s t [canReg k 0, canReg k 0x18])) ∧
  (∀ (w : Who) (s : State) (k m : Nat), Admitted w s → k < 32 → s.holderOf (256 + k) = none → m < 4 → m ≠ (s.canc k).mode →
    (s.canc k).sync = true → (s.canc k).attempt = true →
    Leaves (.canModeWrite w k (word m)) s (fun t => OnlyCanc s t k { s.canc k with pend := some m })) ∧
  (∀ (w : Who) (s : State) (k : Nat) (d : Word), Admitted w s → k < 32 → s.holderOf (256 + k) ≠ none →
    exec (.canModeWrite w k d) s = .next (refusedWrite (s.masterError w (canReg k 0) true)) ∧
    exec (.boRec w k d) s = .next (refusedWrite (s.masterError w (canReg k 0) true))) ∧
  (∀ (s : State) (k m : Nat), k < 32 → (s.canc k).pend = some m → (s.canc k).attempt = false → (s.canc k).mode ≠ 0 → m ≠ (s.canc k).mode →
    exec (.canModeChange k) s = .next (s.setCanc k { s.canc k with pend := none, mode := m, sync := false })) ∧
  (∀ (s : State) (k : Nat), k < 32 → ((s.canc k).pend = none ∨ (s.canc k).attempt = true) → exec (.canModeChange k) s = .next s) ∧
  (∀ (s : State) (k : Nat), k < 32 → (s.canc k).mode ≠ 0 → (s.canc k).sync = false → (s.canc k).busOff = false →
    exec (.canIntegrationComplete k) s = .next (s.setCanc k { s.canc k with sync := true })) ∧
  (∀ (s : State) (k : Nat), k < 32 → ((s.canc k).mode = 0 ∨ (s.canc k).sync = true ∨ (s.canc k).busOff = true) →
    exec (.canIntegrationComplete k) s = .next s)

/-- R189: BO_REC asks a controller that is bus-off to recover, and after 128 occurrences of 11 recessive bits it takes part again with both error
counters at zero. -/
def Obligations.CanBusOffRecovery : Prop :=
  (∀ (w : Who) (s : State) (k m : Nat), Admitted w s → k < 32 → s.holderOf (256 + k) = none → (s.canc k).busOff = true →
    m = (s.canc k).mode → m < 4 → s.fld (canReg k 0) 2 2 = 0 →
    Leaves (.boRec w k (word (64 + m))) s (fun t => OnlyCanc s t k { s.canc k with boGo := true, pend := none } ∧
      OtherRegs s t [canReg k 0] ∧ t = { acked s with regs := t.regs, can := t.can })) ∧
  (∀ (s : State) (k : Nat), k < 32 → (s.canc k).busOff = true → (s.canc k).mode ≠ 0 → s.canCounts k = true → s.canOnBus k = true →
    ((s.canc k).boGo = true ∨ s.bit (canReg k 0) 5 = true) →
    exec (.busOffRecoveryComplete k) s =
      .next (s.setCanc k { s.canc k with busOff := false, boGo := false, tec := 0, rec' := 0, sync := true })) ∧
  (∀ (s : State) (k : Nat), k < 32 → (s.canOnBus k = false ∨ (s.canc k).busOff = false ∨ ((s.canc k).boGo = false ∧ s.bit (canReg k 0) 5 = false)) →
    exec (.busOffRecoveryComplete k) s = .next s)

/-- R182, R188, R194, R196, R38: a request queues its slot at the tail, a cancel takes a queued slot out and marks one that is being sent, NEW bits
and the receive FIFO are cleared and popped, and the view captures them once in a tick; a held controller refuses the host and the MCP. -/
def Obligations.CanRequests : Prop :=
  (∀ (w : Who) (s : State) (k j : Nat), Admitted w s → k < 32 → j < 32 → s.holderOf (256 + k) = none →
    s.slotState k j ≠ 1 → s.slotState k j ≠ 2 → (s.bit (slotAddr k j + 4) 4 = false ∨ (s.bit (canReg k 0) 2 = true ∧ s.bit (slotAddr k j) 30 = false)) →
    exec (.canTxReq w k (word (2 ^ j))) s = .next (acked ((s.setCanc k { s.canc k with queue := (s.canc k).queue ++ [⟨j, true, false⟩] }).setReg
      (txStat k j) 1))) ∧
  (∀ (w : Who) (s : State) (k j : Nat), Admitted w s → k < 32 → j < 32 → s.holderOf (256 + k) = none →
    (s.slotState k j = 1 ∨ s.slotState k j = 2 ∨
      (s.bit (slotAddr k j + 4) 4 = true ∧ (s.bit (canReg k 0) 2 = false ∨ s.bit (slotAddr k j) 30 = true))) →
    exec (.canTxReq w k (word (2 ^ j))) s = .next (acked (s.setBit (canReg k 0x18) 8 true))) ∧
  (∀ (w : Who) (s : State) (k j : Nat), Admitted w s → k < 32 → j < 32 → s.holderOf (256 + k) = none → s.slotState k j = 1 →
    exec (.canTxCxl w k (word (2 ^ j))) s =
      .next (acked ((s.setCanc k { s.canc k with queue := (s.canc k).queue.filter (fun e => e.slot != j) }).setReg (txStat k j) 4))) ∧
  (∀ (w : Who) (s : State) (k j : Nat), Admitted w s → k < 32 → j < 32 → s.holderOf (256 + k) = none → s.slotState k j = 2 →
    exec (.canTxCxl w k (word (2 ^ j))) s = .next (acked (s.setCanc k { s.canc k with cancelled := true }))) ∧
  (∀ (w : Who) (s : State) (k j : Nat), Admitted w s → k < 32 → j < 32 → s.holderOf (256 + k) = none → s.slotState k j ≠ 1 →
    s.slotState k j ≠ 2 → exec (.canTxCxl w k (word (2 ^ j))) s = .next (acked s)) ∧
  (∀ (w : Who) (s : State) (k : Nat) (d : Word), Admitted w s → k < 32 → s.holderOf (256 + k) = none →
    exec (.canNewClr w k d) s = .next (acked (if s.fld (bufStat k (fieldOf d 0 6)) 8 8 = fieldOf d 8 8 then
      (s.setBit (bufStat k (fieldOf d 0 6)) 0 false).setBit (bufStat k (fieldOf d 0 6)) 2 false else s))) ∧
  (∀ (w : Who) (s : State) (k : Nat) (d : Word), Admitted w s → k < 32 → s.holderOf (256 + k) = none →
    exec (.canRxfPop w k d) s = .next (acked (if bitOf d 0 then
      s.setCanc k { s.canc k with rxf := (s.canc k).rxf.drop 1, viewLeft := (s.canc k).viewLeft - 1 } else s))) ∧
  (∀ (w : Who) (s : State) (k : Nat) (d : Word), Admitted w s → k < 32 → s.holderOf (256 + k) ≠ none →
    exec (.canTxReq w k d) s = .next (refusedWrite (s.masterError w (canReg k 0x24) true)) ∧
    exec (.canTxCxl w k d) s = .next (refusedWrite (s.masterError w (canReg k 0x28) true)) ∧
    exec (.canNewClr w k d) s = .next (refusedWrite (s.masterError w (canReg k 0x48) true)) ∧
    exec (.canRxfPop w k d) s = .next (refusedWrite (s.masterError w (canReg k 0x44) true))) ∧
  (∀ s : State, s.pec.canDue = false → exec .canViewCapture s = .next s) ∧
  (∀ s : State, s.pec.canDue = true → Leaves .canViewCapture s (fun t =>
    t = { s with can := t.can, regs := t.regs, pec := { s.pec with canDue := false } } ∧
    ∀ k, k < 32 → t.canc k = { s.canc k with
      viewRxf := (s.canc k).rxf.length, viewLeft := (s.canc k).rxf.length,
      queue := (s.canc k).queue.map (fun e => { e with eligible := true }) } ∧
      t.reg (canReg k 0x38) = s.newBits k 0 ∧ t.reg (canReg k 0x3C) = s.newBits k 32))

/-- R183, R187 to R191: the head of the queue is sent once the controller may start; a success stamps and ends the slot and lowers TEC, a lost
arbitration leaves it queued, an error raises TEC by 8 and above 255 puts the controller bus-off. -/
def Obligations.CanAttempts : Prop :=
  (∀ (s : State) (k : Nat) (e : CanEntry) (q : List CanEntry), k < 32 → s.canMayStart k = true → (s.canc k).queue = e :: q → e.tried = false →
    Leaves (.canAttemptStart k) s (fun t =>
      OnlyCanc s t k { s.canc k with
        queue := { e with tried := true } :: q, attempt := true, cancelled := false, sofAt := s.ns, sofCyc := s.cyc, filterLog := [] } ∧
      t.reg (txStat k e.slot) = 2 ∧ OtherRegs s t [txStat k e.slot, slotAddr k e.slot + 4] ∧ t = { s with can := t.can, regs := t.regs })) ∧
  (∀ (s : State) (k : Nat) (e : CanEntry) (q : List CanEntry), k < 32 → s.canMayStart k = true → (s.canc k).queue = e :: q → e.tried = true →
    e.slot < 32 → (s.reg (canReg k 0x1C)).toNat < 0xFFFFFFFE →
    Leaves (.canAttemptStart k) s (fun t => (t.canc k).attempt = true ∧ t.reg (canReg k 0x1C) = s.reg (canReg k 0x1C) + 1 ∧
      t.reg (txStat k e.slot) = 2 ∧ t = { s with can := t.can, regs := t.regs })) ∧
  (∀ (s : State) (k : Nat), k < 32 → s.canMayStart k = false → exec (.canAttemptStart k) s = .next s) ∧
  (∀ (s : State) (k : Nat) (e : CanEntry) (q : List CanEntry), k < 32 → (s.canc k).attempt = true → (s.canc k).queue = e :: q → e.slot < 32 →
    (s.canc k).mode = 1 → s.canOnBus k = true → s.bit (canReg k 0) 8 = false →
    Leaves (.canAttemptEnd k (.success 0)) s (fun t =>
      OnlyCanc s t k { s.canc k with queue := q, attempt := false, cancelled := false, ackRun := 0, tec := (s.canc k).tec - 1 } ∧
      t.reg (txStat k e.slot) = word (3 + bit01 (s.canc k).cancelled * 8) ∧ t.reg (slotAddr k e.slot + 8) = s.sofStamp k ∧
      t.count (canReg k 0x100) = s.count (canReg k 0x100) + 1 ∧ OtherCounts s t [canReg k 0x100])) ∧
  (∀ (s : State) (k : Nat) (e : CanEntry) (q : List CanEntry), k < 32 → (s.canc k).attempt = true → (s.canc k).queue = e :: q →
    (s.canc k).cancelled = false → s.canOnBus k = true →
    Leaves (.canAttemptEnd k .arbitrationLost) s (fun t => OnlyCanc s t k { s.canc k with ackRun := 0, attempt := false } ∧
      t.reg (txStat k e.slot) = 1 ∧ OtherRegs s t (txStat k e.slot :: (List.range 8).map (fun i => legReg (8 * k + i) 0)) ∧
      t.count (canReg k 0x110) = s.count (canReg k 0x110) + 1 ∧
      t = { s with can := t.can, regs := t.regs, cnts := t.cnts, freeCtr := t.freeCtr })) ∧
  (∀ (s : State) (k more : Nat) (e : CanEntry) (q : List CanEntry), k < 32 → (s.canc k).attempt = true → (s.canc k).queue = e :: q → e.slot < 32 →
    (s.canc k).mode = 1 → s.canOnBus k = true → s.bit (canReg k 0) 8 = false → (s.canc k).busOff = false → (s.canc k).tec - 1 + 8 * more ≤ 255 →
    Leaves (.canAttemptEnd k (.success more)) s (fun t =>
      OnlyCanc s t k { s.canc k with
        queue := q, attempt := false, cancelled := false, ackRun := 0, tec := (s.canc k).tec - 1 + 8 * more } ∧
      t.reg (txStat k e.slot) = word (3 + bit01 (s.canc k).cancelled * 8) ∧ t.count (canReg k 0x100) = s.count (canReg k 0x100) + 1)) ∧
  (∀ (s : State) (k more : Nat) (e : CanEntry) (q : List CanEntry), k < 32 → (s.canc k).attempt = true → (s.canc k).queue = e :: q →
    (s.canc k).cancelled = false → (s.canc k).busOff = false → s.canOnBus k = true → (s.canc k).tec + 8 * (more + 1) ≤ 255 →
    s.bit (canReg k 0) 8 = false → e.slot < 32 →
    Leaves (.canAttemptEnd k (.error .bit0 false more)) s (fun t =>
      OnlyCanc s t k { s.canc k with lec := 5, ackRun := 0, attempt := false, tec := (s.canc k).tec + 8 * (more + 1) } ∧
      t.reg (txStat k e.slot) = 1 ∧ t.count (canReg k 0x118) = s.count (canReg k 0x118) + 1)) ∧
  (∀ (s : State) (k more : Nat) (e : CanEntry) (q : List CanEntry), k < 32 → (s.canc k).attempt = true → (s.canc k).queue = e :: q →
    (s.canc k).cancelled = false → s.canOnBus k = false → s.bit (canReg k 0) 8 = false → e.slot < 32 →
    Leaves (.canAttemptEnd k (.error .bit0 false more)) s (fun t => OnlyCanc s t k { s.canc k with lec := 5, attempt := false } ∧
      t.reg (txStat k e.slot) = 1 ∧ t.count (canReg k 0x118) = s.count (canReg k 0x118) + 1)) ∧
  (∀ (s : State) (k more : Nat) (e : CanEntry) (q : List CanEntry), k < 32 → (s.canc k).attempt = true → (s.canc k).queue = e :: q →
    (s.canc k).cancelled = false → s.canOnBus k = true → (s.canc k).busOff = false → 255 < (s.canc k).tec + 8 * (more + 1) → s.bit (canReg k 0) 8 = false →
    e.slot < 32 →
    Leaves (.canAttemptEnd k (.error .bit0 false more)) s (fun t => (t.canc k).busOff = true ∧ (t.canc k).tec = 256 ∧ (t.canc k).sync = false ∧
      (t.canc k).attempt = false ∧ t.bit (canReg k 0x18) 0 = true ∧ t.count (canReg k 0x130) = s.count (canReg k 0x130) + 1 ∧
      t.reg (txStat k e.slot) = 1)) ∧
  (∀ (s : State) (k : Nat) (how : CanEnd), k < 32 → ((s.canc k).attempt = false ∨ (s.canc k).queue = []) →
    exec (.canAttemptEnd k how) s = .next s)

/-- R189, R192, R196: a valid frame that the bus carries is counted and goes where the first matching filter sends it; by the filters as they stood at
its SOF; a receive error raises REC, which saturates at 255, and shows in LEC; a controller that does not receive is not touched. -/
def Obligations.CanReception : Prop :=
  (∀ (s : State) (k lag b f : Nat) (x : CanFrame), k < 32 → s.canReceives k = true → bitOf x.ctlWord 4 = false → s.canCounts k = true →
    s.canFate k (s.cyc - lag) (recordId x) = (2, b, f) → (s.canc k).rxf.length < 64 → (s.canc k).rec' ≤ 127 →
    Leaves (.canFrameReceived k x lag) s (fun t =>
      OnlyCanc s t k { s.canc k with
        rxf := (s.canc k).rxf ++ [recordWords s.freeCtr x f (word (s.pinTime + 2 ^ 48 - lag % 2 ^ 48))],
        ackRun := 0, rec' := (s.canc k).rec' - 1,
        filterLog := (s.canc k).filterLog.filter (fun y => decide (s.cyc - lag ≤ y.1)) } ∧
      t.count (canReg k 0x108) = s.count (canReg k 0x108) + 1 ∧ OtherCounts s t [canReg k 0x108] ∧ t.time = s.time ∧ t.mem = s.mem)) ∧
  (∀ (s : State) (k lag b f : Nat) (x : CanFrame), k < 32 → s.canReceives k = true → bitOf x.ctlWord 4 = false → s.canCounts k = true →
    s.canFate k (s.cyc - lag) (recordId x) = (3, b, f) → (s.canc k).rec' ≤ 127 →
    Leaves (.canFrameReceived k x lag) s (fun t => OnlyCanc s t k { s.canc k with
        ackRun := 0, rec' := (s.canc k).rec' - 1,
        filterLog := (s.canc k).filterLog.filter (fun y => decide (s.cyc - lag ≤ y.1)) } ∧
      t.count (canReg k 0x108) = s.count (canReg k 0x108) + 1 ∧ t.count (canReg k 0x148) = s.count (canReg k 0x148) + 1)) ∧
  (∀ (s : State) (k lag : Nat) (x : CanFrame), k < 32 → s.canReceives k = false → exec (.canFrameReceived k x lag) s = .next s) ∧
  (∀ (s : State) (k more : Nat) (e : CanErr) (eight : Bool), k < 32 → s.canReceives k = true → s.canCounts k = true → (s.canc k).rec' < 255 →
    Leaves (.canReceiveError k (.error e eight more)) s (fun t =>
      OnlyCanc s t k { s.canc k with lec := lecOf e, rec' := min ((s.canc k).rec' + (if eight then 8 else 1) + 8 * more) 255 } ∧
      t.count (canReg k 0x128) = s.count (canReg k 0x128) + 1 ∧ t.mem = s.mem)) ∧
  (∀ (s : State) (k : Nat), k < 32 → s.canReceives k = true → s.bit (canReg k 0) 4 = true →
    exec (.canReceiveError k .protocolException) s =
      .next ((s.setCanc k { s.canc k with sync := false }).setBit (canReg k 0x18) 9 true)) ∧
  (∀ (s : State) (k : Nat) (how : CanRxErr), k < 32 → s.canReceives k = false → exec (.canReceiveError k how) s = .next s)

/-- R199 to R202, R471: a link comes up once its lane is locked or its negotiation is complete and nothing speaks against it, a fault of 10GBASE-R
keeps it down and shows, and a link goes down with a flag, an F0 and a count, its frame ended with an error; PCS takes a mode that its port has, and a
port in 1000BASE-X advertises its abilities; polarity is corrected and lanes are exchanged. The SerDes leave SDREF_A while it is bad and SDREF_B good,
and return once SDREF_A has been good for 10 s. How long a frame has got when its link fails, and the base page's pause bits, are the model's
(log entries 180 and 182). -/
def Obligations.LinksAndTheirLanes : Prop :=
  (∀ (s : State) (p : Nat) (x : LinkFacts), p < 40 → s.linkUp p = false → s.pcsMode p = 1 → s.otfPort p = false → x.speed = .g10 →
    x.localFault = false → x.remoteFault = false →
    exec (.linkUp p x) s = .next (s.setReg (portReg p 4) (word 7))) ∧
  (∀ (s : State) (p : Nat) (x : LinkFacts), p < 40 → s.linkUp p = false → s.pcsMode p = 1 → (x.localFault = true ∨ x.remoteFault = true) →
    Leaves (.linkUp p x) s (fun t => t.linkUp p = false ∧ t.bit (portReg p 4) 6 = x.localFault ∧ t.bit (portReg p 4) 7 = x.remoteFault ∧
      OtherRegs s t [portReg p 4] ∧
      t = { s with regs := t.regs, sw := if x.localFault then { s.sw with wire := Tab.set (fun _ => []) s.sw.wire p remoteFaultSet } else s.sw })) ∧
  (∀ (s : State) (p : Nat) (x : LinkFacts), p < 40 → s.linkUp p = false → s.pcsMode p = 2 → s.otfPort p = false → x.speed = .g1 →
    s.bit (portReg p 0x10) 3 = false → s.bit (portReg p 0) 3 = true → Tab.get (fun _ => 0) s.sw.anUntil p ≤ s.cyc → x.negotiated = true →
    x.halfDuplex = false →
    Leaves (.linkUp p x) s (fun t => t.reg (portReg p 4) = word (13 + x.partnerPause % 4 * 16) ∧ Tab.get (fun _ => false) t.sw.synced p = true ∧
      OtherRegs s t [portReg p 4] ∧ t = { s with regs := t.regs, sw := { s.sw with synced := t.sw.synced } })) ∧
  (∀ (s : State) (p : Nat) (x : LinkFacts), p < 40 → s.linkUp p = false → s.pcsMode p = 2 → s.otfPort p = false → x.speed = .g1 →
    s.bit (portReg p 0x10) 3 = false → s.bit (portReg p 0) 3 = true → Tab.get (fun _ => 0) s.sw.anUntil p ≤ s.cyc → x.negotiated = true →
    x.halfDuplex = true →
    Leaves (.linkUp p x) s (fun t => t.linkUp p = false ∧ t.bit (portReg p 0x0C) 1 = true ∧ OtherRegs s t [portReg p 0x0C] ∧
      t = { s with regs := t.regs, flt := t.flt, sw := { s.sw with synced := t.sw.synced } })) ∧
  (∀ (s : State) (p : Nat) (x : LinkFacts), p < 40 → s.linkUp p = false → s.pcsMode p = 2 → s.bit (portReg p 0x10) 3 = false →
    s.bit (portReg p 0) 3 = true → (x.negotiated = false ∨ s.cyc < Tab.get (fun _ => 0) s.sw.anUntil p) →
    Leaves (.linkUp p x) s (fun t => Tab.get (fun _ => false) t.sw.synced p = true ∧ t = { s with sw := { s.sw with synced := t.sw.synced } })) ∧
  (∀ (s : State) (p : Nat) (x : LinkFacts), p < 40 → (s.linkUp p = true ∨ s.pcsMode p = 0) → exec (.linkUp p x) s = .next s) ∧
  (∀ (s : State) (p : Nat) (x : LostLink), p < 40 → p = x.port → s.linkUp p = true → s.tx p = none → s.rx p = none →
    Leaves (.linkDown x) s (fun t => t.linkUp p = false ∧ t.bit (portReg p 4) 3 = false ∧ t.bit (portReg p 0x0C) 0 = true ∧
      (s.pcsMode p = 1 → t.bit (portReg p 4) 6 = x.localFault ∧ t.bit (portReg p 4) 7 = x.remoteFault) ∧
      (x.syncLost = true → Tab.get (fun _ => false) t.sw.synced p = false) ∧
      t.count (portReg p 0x1088) = s.count (portReg p 0x1088) + 1 ∧ OtherCounts s t [portReg p 0x1088] ∧
      (∀ c, c < 8 → t.pauseHeld (8 * p + c) = false) ∧ OtherRegs s t [portReg p 4, portReg p 0x0C] ∧ t.sw.queues = s.sw.queues ∧
      t.flt = { s.flt with bus := s.flt.bus ++ [s.newEvent (0x58 + p / 8) 0 (p % 8 * 256) 0 []] } ∧
      t = { s with regs := t.regs, cnts := t.cnts, sw := t.sw, flt := t.flt })) ∧
  (∀ (s : State) (p : Nat) (x : LostLink) (y : Tx) (m : List Byte), p < 40 → p = x.port → s.linkUp p = true → s.tx p = some y →
    m = ((s.frame y.copy.frame).map (fun f => s.outBytes y.copy f.bytes y.edits)).getD [] →
    Leaves (.linkDown x) s (fun t => t.linkUp p = false ∧ t.tx p = none ∧ t.rx p = none ∧
      (y.copy.egress = p → s.rx p = none → x.localFault = false →
        Tab.get (fun _ => []) t.sw.wire p = s.laneBytes p ((framed m 0).take (freeBetween 0 (m.length + 8) s.freeCtr)) ++ s.errorEnd p) ∧
      t = { s with regs := t.regs, cnts := t.cnts, sw := t.sw, flt := t.flt, mbx := t.mbx, freeCtr := t.freeCtr })) ∧
  (∀ (s : State) (x : LostLink), x.port < 40 → s.linkUp x.port = false → x.syncLost = false → s.pcsMode x.port ≠ 1 →
    exec (.linkDown x) s = .next s) ∧
  (∀ (s : State) (x : LostLink), x.port < 40 → s.linkUp x.port = false → x.syncLost = true → s.pcsMode x.port ≠ 1 →
    Tab.get (fun _ => false) s.sw.synced x.port = true →
    exec (.linkDown x) s = .next { s with sw := { s.sw with
      synced := Tab.set (fun _ => false) s.sw.synced x.port false, swapAt := Tab.set (fun _ => 0) s.sw.swapAt x.port s.cyc } }) ∧
  (∀ (w : Who) (s : State) (p m : Nat) (d : Word), Admitted w s → p < 40 → s.portHolder p = none → s.linkUp p = false → fieldOf d 0 3 = m →
    m ≤ 3 → (m = 1 → p < 8) → (m = 3 → 8 ≤ p) → fieldOf d 4 2 ≠ 3 → bitOf d 7 = false → bitOf d 6 = false →
    Leaves (.pcsModeWrite w p d) s (fun t => t.reg (portReg p 0) = (s.reg (portReg p 0) &&& ~~~(word 0xBF)) ||| (d &&& word 0xBF) ∧
      OtherRegs s t [portReg p 0, portReg p 4] ∧ t.linkUp p = false ∧
      ((m ≠ s.pcsMode p ∨ fieldOf d 4 2 ≠ s.fld (portReg p 0) 4 2) → Tab.get (fun _ => false) t.sw.synced p = false ∧
        t.bit (portReg p 4) 6 = false ∧ t.bit (portReg p 4) 7 = false) ∧
      ((m = s.pcsMode p ∧ fieldOf d 4 2 = s.fld (portReg p 0) 4 2) → t.reg (portReg p 4) = s.reg (portReg p 4) ∧
        t.sw = { s.sw with wire := t.sw.wire }) ∧
      (m = 2 → bitOf d 3 = true → m ≠ s.pcsMode p ∨ s.bit (portReg p 0) 3 = false → Tab.get (fun _ => []) t.sw.wire p =
        [0xBC, 0xB5] ++ leBytes 2 (s.advert p) ++ [0xBC, 0x42] ++ leBytes 2 (s.advert p)) ∧
      (m ≠ 2 ∨ bitOf d 3 = false → t.sw.wire = s.sw.wire) ∧
      t = { acked s with regs := t.regs, sw := { s.sw with synced := t.sw.synced, swapAt := t.sw.swapAt, wire := t.sw.wire } })) ∧
  (∀ (w : Who) (s : State) (p : Nat) (d : Word), Admitted w s → p < 40 → s.portHolder p = none → s.linkUp p = false → fieldOf d 0 3 = 2 →
    fieldOf d 4 2 ≠ 3 → bitOf d 7 = false → bitOf d 6 = true → bitOf d 3 = true →
    Leaves (.anRestart w p d) s (fun t => t.reg (portReg p 0) = (s.reg (portReg p 0) &&& ~~~(word 0xBF)) ||| (d &&& word 0xBF) ∧
      Tab.get (fun _ => 0) t.sw.anUntil p = s.cyc + 10 * cycMs ∧ OtherRegs s t [portReg p 0, portReg p 4] ∧ t = { acked s with regs := t.regs, sw := t.sw })) ∧
  (∀ (w : Who) (s : State) (p : Nat) (d : Word), Admitted w s → p < 40 → s.portHolder p = none →
    (3 < fieldOf d 0 3 ∨ (fieldOf d 0 3 = 1 ∧ 8 ≤ p) ∨ (fieldOf d 0 3 = 3 ∧ p < 8)) →
    exec (.pcsModeWrite w p d) s = .next (refusedWrite (s.masterError w (portReg p 0) true)) ∧
    exec (.anRestart w p d) s = .next (refusedWrite (s.masterError w (portReg p 0) true))) ∧
  (∀ (s : State) (p : Nat), p < 40 → s.linkUp p = false → s.bit (portReg p 0x10) 2 = true → 2 ≤ s.pcsMode p →
    Leaves (.polarityCorrection p) s (fun t => Tab.get (fun _ => false) t.sw.polFix p = !Tab.get (fun _ => false) s.sw.polFix p ∧
      t.bit (portReg p 0x0C) 2 = true ∧ t.count (portReg p 0x1090) = s.count (portReg p 0x1090) + 1 ∧ OtherCounts s t [portReg p 0x1090] ∧
      OtherRegs s t [portReg p 0x0C] ∧ t = { s with regs := t.regs, cnts := t.cnts, sw := t.sw, flt := t.flt })) ∧
  (∀ (s : State) (p : Nat), p < 40 → (s.bit (portReg p 0x10) 2 = false ∨ s.pcsMode p < 2) → exec (.polarityCorrection p) s = .next s) ∧
  (∀ (s : State) (p : Nat), p < 40 → Tab.get (fun _ => false) s.sw.synced p = false → s.bit (portReg p 0x10) 3 = true → 2 ≤ s.pcsMode p →
    Tab.get (fun _ => 0) s.sw.swapAt p + 100 * cycMs ≤ s.cyc →
    exec (.laneSwapExchange p) s = .next { s with
      sw := { s.sw with
        swapped := Tab.set (fun _ => false) s.sw.swapped p (!Tab.get (fun _ => false) s.sw.swapped p),
        swapAt := Tab.set (fun _ => 0) s.sw.swapAt p s.cyc } }) ∧
  (∀ (s : State) (p : Nat), p < 40 →
    (Tab.get (fun _ => false) s.sw.synced p = true ∨ s.pcsMode p < 2 ∨ s.bit (portReg p 0x10) 3 = false ∨ s.cyc < Tab.get (fun _ => 0) s.sw.swapAt p + 100 * cycMs) →
    exec (.laneSwapExchange p) s = .next s) ∧
  (∀ (w : Who) (s : State) (p : Nat) (d : Word), Admitted w s → p < 40 → s.portHolder p = none →
    (Leaves (.serdesSwapWrite w p d) s (fun t => Tab.get (fun _ => false) t.sw.swapped p = bitOf d 4 ∧
      Tab.get (fun _ => false) t.sw.polFix p = false ∧ t.bit (portReg p 0x10) 4 = bitOf d 4 ∧ OtherRegs s t [portReg p 0x10] ∧
      t = { acked s with regs := t.regs, sw := t.sw })) ∧
    (Leaves (.serdesRxInvWrite w p d) s (fun t => t.bit (portReg p 0x10) 0 = bitOf d 0 ∧
      Tab.get (fun _ => false) t.sw.polFix p = false ∧ OtherRegs s t [portReg p 0x10] ∧ t = { acked s with regs := t.regs, sw := t.sw }))) ∧
  (∀ (s : State) (x : SdrefFinding), (s.tb.sdB = false → x.aBad = false ∨ x.bGood = false) →
    (s.tb.sdB = true → x.aBad = true ∨ s.cyc < (if s.tb.sdABad then s.cyc else s.tb.sdAGoodAt) + 10000 * cycMs) →
    exec (.sdrefSwitch x) s = .next { s with tb := { s.tb with
      sdABad := x.aBad, sdBGood := x.bGood, sdAGoodAt := if s.tb.sdABad && !x.aBad then s.cyc else s.tb.sdAGoodAt } }) ∧
  (∀ (s : State) (x : SdrefFinding), (s.tb.sdB = false ∧ x.aBad = true ∧ x.bGood = true) ∨
      (s.tb.sdB = true ∧ x.aBad = false ∧ s.tb.sdABad = false ∧ s.tb.sdAGoodAt + 10000 * cycMs ≤ s.cyc) →
    Leaves (.sdrefSwitch x) s (fun t => t.tb.sdB = (!s.tb.sdB) ∧ t.tb.sdABad = x.aBad ∧ (∀ p, p < 40 → t.linkUp p = false) ∧
      t.bit timeSticky 1 = true ∧ t.count (timeReg 0x110) = s.count (timeReg 0x110) + 1 ∧
      s.newEvent 0x61 0 1 0 [] ∈ t.flt.bus ∧ t.mem = s.mem ∧ t.rope = s.rope ∧ t.trav = s.trav ∧ t.pch = s.pch))

/-- R203, R221 to R225, R231, R243, R247, R248, R253, R263: a frame takes its first cell and its class when its head is in, its copies join their
queues, it takes further cells as it grows, a frame that passes MAX_LEN or finds no cell goes bad, the first 128 bytes are captured, and its end is
judged and counted. -/
def Obligations.FramesAreReceived : Prop :=
  (∀ (s : State) (p e : Nat) (bs h : List Byte) (a : Action) (c : Copy), p < 40 → h = bs.take (bs.length - 4) → s.linkUp p = true → s.otfPort p = false → s.rx p = none →
    64 ≤ bs.length → bs.length ≤ s.maxLen p → s.bit (portReg p 8) 0 = true → s.bit (swReg 0) 0 = true → s.bit (swReg 0) 1 = false →
    isControl bs = false → s.fld (portReg p 0x100) 0 2 = 0 → s.sw.pre.testBit p = true → s.sw.pre < 2 ^ 48 → 1000 ≤ s.sw.free →
    s.bit (swReg 0x9000) 0 = false → s.pairMode p = 0 → s.pairOf p = none → s.frame s.sw.nextFrame = none → bs.length < 20000 →
    s.chooseAction p h = a → a.hit.isSome = true → bitOf a.act 21 = false → bitOf a.act 16 = false → s.vlanInDrops p (s.frameVid p h) = false →
    s.anchorOf p = none → s.destCopies s.sw.nextFrame p none h false a none = (s, [c]) → c.egress = e → c.frame = s.sw.nextFrame →
    c.ct = false → s.bit (pcfg e) 18 = false → s.bit (qReg (8 * e + s.frameClass p h a) 0) 2 = false →
    s.depth (8 * e + s.frameClass p h a) < s.fld (qReg (8 * e + s.frameClass p h a) 4) 0 17 → s.copies < 131072 → s.isQueued s.sw.nextFrame = false →
    Leaves (.frameHeadClassified p bs) s (fun t =>
      t.queue (8 * e + s.frameClass p h a) = s.queue (8 * e + s.frameClass p h a) ++ [c] ∧
      (∀ q, q ≠ 8 * e + s.frameClass p h a → t.queue q = s.queue q) ∧ t.sw.nextFrame = s.sw.nextFrame + 1 ∧
      (∃ x, t.frame s.sw.nextFrame = some x ∧ x.bytes = h ∧ x.ingress = p ∧ x.arriving = true ∧ x.classed = true ∧ x.bad = false ∧
        x.tc = s.frameClass p h a ∧ x.act = a.act ∧ x.cells = max 1 ((h.length + 255) / 256)) ∧
      (∃ r, t.rx p = some r ∧ r.bytes = bs ∧ r.frame = some s.sw.nextFrame) ∧ t.count acceptedCnt = s.count acceptedCnt + 1)) ∧
  (∀ (s : State) (p : Nat) (bs : List Byte), p < 40 → s.linkUp p = true → s.otfPort p = false → s.rx p = none → 64 ≤ bs.length →
    bs.length ≤ s.maxLen p → s.entersSwitch p bs = true → s.sw.pre.testBit p = false → s.sw.free = 0 →
    exec (.frameHeadClassified p bs) s = .next (((s.free.bump acceptedCnt).bump (dropCnt 12)).setRx p (some ⟨bs, none, false⟩))) ∧
  (∀ (s : State) (p : Nat) (bs : List Byte), p < 40 → s.linkUp p = true → s.otfPort p = false → s.rx p = none → 64 ≤ bs.length →
    bs.length ≤ s.maxLen p → s.entersSwitch p bs = false →
    exec (.frameHeadClassified p bs) s = .next (s.setRx p (some ⟨bs, none, false⟩))) ∧
  (∀ (s : State) (p : Nat) (bs : List Byte), p < 40 → (s.linkUp p = false ∨ s.otfPort p = true ∨ s.rx p ≠ none ∨ bs.length < 64) →
    exec (.frameHeadClassified p bs) s = .next s) ∧
  (∀ (s : State) (p f : Nat) (r : Rx) (x : Frame) (bytes : List Byte), p < 40 → s.rx p = some r → r.frame = some f → s.frame f = some x →
    r.capture = false → x.bad = false → x.late = false → x.ingress = p → s.fld (portReg p 0x100) 0 2 = 0 →
    (r.bytes ++ bytes).length ≤ s.maxLen p → (∀ k y, s.tx k = some y → y.copy.frame ≠ f) →
    cellsFor ((r.bytes ++ bytes).length - 4) x.kind - x.cells ≤ s.sw.free →
    Leaves (.ingressCellTaken p bytes) s (fun t => t.rx p = some { r with bytes := r.bytes ++ bytes } ∧
      t.frame f = some { x with
        bytes := (r.bytes ++ bytes).take ((r.bytes ++ bytes).length - 4), cells := max x.cells (cellsFor ((r.bytes ++ bytes).length - 4) x.kind) } ∧
      t.sw.free + (cellsFor ((r.bytes ++ bytes).length - 4) x.kind - x.cells) = s.sw.free ∧ t.sw.queues = s.sw.queues ∧ t = { s with sw := t.sw })) ∧
  (∀ (s : State) (p f : Nat) (r : Rx) (x : Frame) (bytes : List Byte), p < 40 → s.rx p = some r → r.frame = some f → s.frame f = some x →
    x.bad = false → x.late = false → x.reason = 0 → x.arriving = true → x.ingress = p → s.fld (portReg p 0x100) 0 2 = 0 → s.isQueued f = false →
    (128 ≤ r.bytes.length ∨ (r.bytes ++ bytes).length < 128) → (r.bytes ++ bytes).length ≤ s.maxLen p → s.sw.free < cellsFor ((r.bytes ++ bytes).length - 4) x.kind - x.cells →
    Leaves (.ingressCellTaken p bytes) s (fun t => t.sw.free = 0 ∧
      ∃ y, t.frame f = some y ∧ y.bad = true ∧ y.reason = 12 ∧ y.cells = x.cells + s.sw.free ∧
        y.bytes = ((r.bytes ++ bytes).take ((r.bytes ++ bytes).length - 4)).take (y.cells * 256 + foldSaving x.kind))) ∧
  (∀ (s : State) (p f : Nat) (r : Rx) (x : Frame) (bytes : List Byte), p < 40 → s.rx p = some r → r.frame = some f → s.frame f = some x →
    x.bad = false → x.late = false → x.reason = 0 → x.arriving = true → x.ingress = p → s.fld (portReg p 0x100) 0 2 = 0 → s.isQueued f = false →
    (128 ≤ r.bytes.length ∨ (r.bytes ++ bytes).length < 128) → s.maxLen p < (r.bytes ++ bytes).length →
    cellsFor (s.maxLen p - 3) x.kind - x.cells ≤ s.sw.free →
    Leaves (.ingressOversizeByte p bytes) s (fun t => t.rx p = some { r with bytes := r.bytes ++ bytes } ∧
      ∃ y, t.frame f = some y ∧ y.bad = true ∧ y.reason = 3 ∧ y.bytes = (r.bytes ++ bytes).take (s.maxLen p - 3))) ∧
  (∀ (s : State) (p f g : Nat) (r : Rx) (x : Frame) (bytes : List Byte), p < 40 → s.rx p = some r → r.frame = some f → s.frame f = some x →
    r.capture = true → r.bytes.length < 128 → x.classed = true → x.bad = false → x.late = false → x.arriving = true → x.ingress = p → s.fld (portReg p 0x100) 0 2 = 0 →
    (r.bytes ++ bytes).length ≤ s.maxLen p →
    128 ≤ (r.bytes ++ bytes).length → cellsFor ((r.bytes ++ bytes).length - 4) x.kind ≤ x.cells → s.bit (pcfg p) 22 = true →
    s.fld (pcfg p) 23 2 = g → bitOf x.act 19 = false → s.sw.captures.length < 64 →
    Leaves (.ingressCapturePoint p bytes) s (fun t => t.rx p = some { r with bytes := r.bytes ++ bytes, capture := false } ∧
      t.sw.captures = s.sw.captures ++ [⟨f, g, 128, false, false, 0x3F, (r.bytes ++ bytes).take 128⟩] ∧ t = { s with sw := t.sw })) ∧
  (∀ (s : State) (p : Nat) (bytes : List Byte), p < 40 → s.rx p = none → exec (.ingressCellTaken p bytes) s = .next s ∧
    exec (.ingressOversizeByte p bytes) s = .next s ∧ exec (.ingressCapturePoint p bytes) s = .next s) ∧
  (∀ (s : State) (p : Nat) (r : Rx) (bytes : List Byte), p < 40 → s.linkUp p = true → s.otfPort p = false → s.rx p = some r → r.frame = none →
    (r.bytes ++ bytes) ≠ [] → s.macJudge p (r.bytes ++ bytes) false = 0 → isControl (r.bytes ++ bytes) = false → s.bit (portReg p 8) 0 = true →
    exec (.macFrameEnd p bytes false) s =
      .next (((s.bump (portReg p 0x1000)).bumpBy (portReg p 0x1008) ((r.bytes ++ bytes).length - 4)).setRx p none)) ∧
  (∀ (s : State) (p : Nat) (r : Rx) (bytes : List Byte) (ce : Bool), p < 40 → s.linkUp p = true → s.otfPort p = false → s.rx p = some r →
    r.frame = none → (r.bytes ++ bytes) ≠ [] → s.macJudge p (r.bytes ++ bytes) ce ≠ 0 → s.bit (portReg p 8) 0 = true →
    exec (.macFrameEnd p bytes ce) s = .next ((s.bump (portReg p (0x1008 + 8 * s.macJudge p (r.bytes ++ bytes) ce))).setRx p none)) ∧
  (∀ (s : State) (p f : Nat) (r : Rx) (x : Frame) (bytes : List Byte), p < 40 → s.linkUp p = true → s.otfPort p = false → s.rx p = some r →
    r.frame = some f → s.frame f = some x → s.macJudge p (r.bytes ++ bytes) false = 0 → isControl (r.bytes ++ bytes) = false → r.capture = false →
    s.bit (portReg p 8) 0 = true → x.bad = false → x.waits = false → x.late = false → x.reason = 0 → x.ingress = p → x.limit = none → x.debits = [] →
    s.fld (portReg p 0x100) 0 2 = 0 → s.pairOf p = none → s.ctxOf p = none → s.isQueued f = true →
    cellsFor ((r.bytes ++ bytes).length - 4) x.kind ≤ x.cells →
    Leaves (.macFrameEnd p bytes false) s (fun t => t.rx p = none ∧
      t.frame f = some { x with bytes := (r.bytes ++ bytes).take ((r.bytes ++ bytes).length - 4), arriving := false } ∧
      t.count (portReg p 0x1000) = s.count (portReg p 0x1000) + 1 ∧
      t.count (portReg p 0x1008) = s.count (portReg p 0x1008) + dword ((r.bytes ++ bytes).length - 4) ∧
      OtherCounts s t [portReg p 0x1000, portReg p 0x1008] ∧ t = { s with sw := t.sw, cnts := t.cnts })) ∧
  (∀ (s : State) (p : Nat) (bytes : List Byte) (ce : Bool), p < 40 → (s.linkUp p = false ∨ s.otfPort p = true) →
    exec (.macFrameEnd p bytes ce) s = .next s)

/-- R138 to R141, R203, R206: PCS.OTF is set at the lower port of a pair alone; in that mode a frame that enters at the upper port leaves the lower
one as it came, and one that enters at the lower port leaves the upper one, with its FCS recomputed, or with the complement where it came in bad. A
good MAC control frame ends in the MAC, and with RX_EN = 0 no other frame passes. -/
def Obligations.FramesPassOnTheFly : Prop :=
  (∀ (w : Who) (s : State) (p : Nat) (d : Word), Admitted w s → 8 ≤ p → p < 40 → p % 2 = 0 → s.portHolder p = none → s.linkUp p = false →
    fieldOf d 0 3 ≤ 3 → fieldOf d 0 3 ≠ 1 → fieldOf d 4 2 ≠ 3 → bitOf d 6 = false → (bitOf d 7 = true → s.otfFree p = true) →
    Leaves (.otfModeWrite w p d) s (fun t => t.otfPort p = bitOf d 7 ∧ t.otfPort (p + 1) = bitOf d 7 ∧
      OtherRegs s t [portReg p 0, portReg p 4] ∧
      t = { acked s with regs := t.regs, sw := { s.sw with synced := t.sw.synced, swapAt := t.sw.swapAt } })) ∧
  (∀ (w : Who) (s : State) (p : Nat) (d : Word), Admitted w s → p < 40 → (p < 8 ∨ p % 2 = 1 ∨ s.otfFree p = false) → s.portHolder p = none →
    bitOf d 7 = true → exec (.otfModeWrite w p d) s = .next (refusedWrite (s.masterError w (portReg p 0) true))) ∧
  (∀ (s : State) (j lo r : Nat) (bs : List Byte) (ce : Bool), j < 16 → lo = 2 * j + 8 → s.otfPort lo = true → s.otfUp (lo + 1) = true →
    s.otfUp lo = true → r = s.macJudge (lo + 1) bs ce → r ≠ 0 ∨ isControl bs = false → s.bit (portReg (lo + 1) 8) 0 = true →
    s.bit (portReg lo 8) 1 = true → 4 ≤ bs.length → bs.length ≤ s.maxLen lo →
    Leaves (.otfFrame j false bs ce) s (fun t =>
      Tab.get (fun _ => []) t.sw.wire lo = s.laneBytes lo (List.replicate 7 0x55 ++ [0xD5] ++ bs) ∧
      t.count (portReg (lo + 1) (if r = 0 then 0x1000 else 0x1008 + 8 * r)) =
        s.count (portReg (lo + 1) (if r = 0 then 0x1000 else 0x1008 + 8 * r)) + 1 ∧
      (r = 0 → t.count (portReg lo 0x1050) = s.count (portReg lo 0x1050) + 1) ∧
      t.sw = { s.sw with wire := t.sw.wire } ∧ t = { s with sw := t.sw, cnts := t.cnts })) ∧
  (∀ (s : State) (j lo dst r : Nat) (bs body : List Byte) (ce ok : Bool), j < 16 → lo = 2 * j + 8 → s.otfPort lo = true → s.otfUp lo = true →
    dst = (if s.otfUp (lo + 1) then lo + 1 else lo) → r = s.macJudge lo bs ce → r ≠ 0 ∨ isControl bs = false →
    s.bit (portReg lo 8) 0 = true → s.bit (portReg dst 8) 1 = true → 4 ≤ bs.length → bs.length ≤ s.maxLen dst →
    body = bs.take (bs.length - 4) → ok = (!ce && leNat (bs.drop (bs.length - 4)) == crc32 body) → frameType body ≠ 0x88A4 →
    Leaves (.otfFrame j true bs ce) s (fun t =>
      Tab.get (fun _ => []) t.sw.wire dst = s.laneBytes dst (framed body (if ok then crc32 body else crc32 body ^^^ 0xFFFFFFFF)) ∧
      t.count (portReg lo (if r = 0 then 0x1000 else 0x1008 + 8 * r)) = s.count (portReg lo (if r = 0 then 0x1000 else 0x1008 + 8 * r)) + 1 ∧
      t.count (portReg dst (if ok then 0x1050 else 0x1060)) = s.count (portReg dst (if ok then 0x1050 else 0x1060)) + 1 ∧
      t.sw = { s.sw with wire := t.sw.wire } ∧ t = { s with sw := t.sw, cnts := t.cnts })) ∧
  (∀ (s : State) (j src : Nat) (bs : List Byte) (ce lower : Bool), j < 16 → src = 2 * j + 8 + (if lower then 0 else 1) →
    s.otfPort (2 * j + 8) = true → s.otfUp src = true → bs ≠ [] → s.macJudge src bs ce = 0 → isControl bs = true →
    exec (.otfFrame j lower bs ce) s = .next (s.controlFrame src (bs.take (bs.length - 4)))) ∧
  (∀ (s : State) (j src : Nat) (bs : List Byte) (ce lower : Bool), j < 16 → src = 2 * j + 8 + (if lower then 0 else 1) →
    isControl bs = false → s.bit (portReg src 8) 0 = false → exec (.otfFrame j lower bs ce) s = .next s) ∧
  (∀ (s : State) (j src : Nat) (bs : List Byte) (ce lower : Bool), j < 16 → src = 2 * j + 8 + (if lower then 0 else 1) →
    (s.otfPort (2 * j + 8) = false ∨ s.otfUp src = false) → exec (.otfFrame j lower bs ce) s = .next s)

/-- R204, R205, R208 to R210, R236, R238, R255: an idle port starts the eligible head of its highest queue, a copy leaves with its FCS or stomped, one
that is too long is dropped at its port; stops are announced by pause frames, repeated, and end. -/
def Obligations.CopiesAndPauseFramesAreSent : Prop :=
  (∀ (s : State) (p k n : Nat) (c : Copy) (cs : List Copy) (x : Frame), p < 40 → s.tx p = none → s.portSends p = true →
    (∀ i, i < 8 → s.lqMode (8 * p + i) ≠ 2) → (List.range 8).reverse.find? (s.eligible p) = some k → s.queue (8 * p + k) = c :: cs →
    s.frame c.frame = some x → c.egress = p → s.overage (8 * p + k) c = false → s.tooLong p k c x = false →
    Tab.get (fun _ => none) s.sw.shapers (8 * p + k) = none → s.copyPtp c x = none → x.limit = none → s.bit (pcfg p) 25 = false →
    x.arriving = false → n = min (portCredits p - Tab.get (fun _ => 0) s.sw.creditsOut p) (max 1 x.cells) →
    Leaves (.frameTxStart p .clean) s (fun t => t.tx p = some ⟨c, n, [], 8 * p + k, shaperBytes p c x, none, none⟩ ∧ t.queue (8 * p + k) = cs ∧
      Tab.get (fun _ => 0) t.sw.creditsOut p = Tab.get (fun _ => 0) s.sw.creditsOut p + n ∧ (∀ q, q ≠ 8 * p + k → t.queue q = s.queue q) ∧
      t = { s with
        sw := { s.sw with
          queues := t.sw.queues, txs := t.sw.txs, creditsOut := t.sw.creditsOut,
          queuedCells := t.sw.queuedCells, inflightCells := t.sw.inflightCells },
        freeCtr := s.freeCtr + 1 })) ∧
  (∀ (s : State) (p k i n : Nat) (c : Copy) (cs : List Copy) (x : Frame), 41 ≤ p → p < 48 → s.portBusy p = false →
    (∀ i, i < 8 → s.lqMode (8 * p + i) ≠ 2) → (List.range 8).reverse.find? (s.eligible p) = some k → s.queue (8 * p + k) = c :: cs →
    s.frame c.frame = some x → s.overage (8 * p + k) c = false → Tab.get (fun _ => none) s.sw.shapers (8 * p + k) = none →
    s.freeSlot c.l = some i → s.bit (pcfg p) 25 = false → c.egress = p → c.l ≤ 32 →
    n = (if 42 ≤ p ∧ x.arriving = true then 1 else min (portCredits p - Tab.get (fun _ => 0) s.sw.creditsOut p) (max 1 x.cells)) →
    Leaves (.frameTxStart p .clean) s (fun t =>
      t.tx (if p = 41 then 41 else 64 + c.l) = some ⟨c, n, [], 8 * p + k, shaperBytes p c x, none, none⟩ ∧ t.queue (8 * p + k) = cs ∧
      Tab.get (fun _ => 0) t.sw.creditsOut p = Tab.get (fun _ => 0) s.sw.creditsOut p + n ∧ t.slot c.l i = ⟨some c.frame, false, none, c.strip, []⟩ ∧
      t.waitingOf c.l = s.waitingOf c.l ++ [i] ∧ t = { s with sw := t.sw, freeCtr := s.freeCtr + 1 })) ∧
  (∀ (s : State) (p k : Nat) (c : Copy) (cs : List Copy) (x : Frame) (found : EccFinding), p < 40 → s.tx p = none → s.portSends p = true →
    (∀ i, i < 8 → s.lqMode (8 * p + i) ≠ 2) → (List.range 8).reverse.find? (s.eligible p) = some k → s.queue (8 * p + k) = c :: cs →
    s.frame c.frame = some x → s.overage (8 * p + k) c = false → s.tooLong p k c x = true → x.reason ≤ 18 → x.failed ≤ 18 →
    Leaves (.frameTxStart p found) s (fun t => t.tx p = none ∧ t.queue (8 * p + k) = cs ∧
      t.count (portReg p 0x1070) = s.count (portReg p 0x1070) + 1 ∧ t.count (portDrop c.egress 15) = s.count (portDrop c.egress 15) + 1)) ∧
  (∀ (s : State) (p : Nat) (found : EccFinding), p < 40 → (s.tx p ≠ none ∨ s.portSends p = false) → exec (.frameTxStart p found) s = .next s) ∧
  (∀ (s : State) (p : Nat) (t : Tx) (x : Frame), p < 40 → s.tx p = some t → s.frame t.copy.frame = some x → x.bad = false → x.arriving = false →
    t.copy.egress = p → t.copy.ct = false → t.stomped = none → t.stamp = none →
    Leaves (.frameTxEnd p .clean) s (fun u => u.tx p = none ∧
      Tab.get (fun _ => []) u.sw.wire p =
        s.laneBytes p (framed (s.outBytes t.copy x.bytes t.edits) (crc32 (s.outBytes t.copy x.bytes t.edits))) ∧
      u.count (portReg p 0x1050) = s.count (portReg p 0x1050) + 1 ∧
      u.count (portReg p 0x1058) = s.count (portReg p 0x1058) + dword (t.copy.length x) ∧
      (u.frame t.copy.frame = none ∨ u.frame t.copy.frame = some { x with left := true }) ∧ u.sw.queues = s.sw.queues)) ∧
  (∀ (s : State) (p : Nat) (t : Tx) (x : Frame), p < 40 → s.tx p = some t → s.frame t.copy.frame = some x → x.bad = true → t.copy.egress = p →
    t.stomped = none → t.stamp = none → x.reason ≤ 18 → x.failed ≤ 18 →
    Leaves (.frameTxEnd p .clean) s (fun u => u.tx p = none ∧
      Tab.get (fun _ => []) u.sw.wire p =
        s.laneBytes p (framed (s.outBytes t.copy x.bytes t.edits) (crc32 (s.outBytes t.copy x.bytes t.edits) ^^^ 0xFFFFFFFF)) ∧
      u.count (portReg p 0x1060) = s.count (portReg p 0x1060) + 1 ∧
      u.count (portDrop t.copy.egress 16) = s.count (portDrop t.copy.egress 16) + 1)) ∧
  (∀ (s : State) (p m : Nat) (t : Tx) (x : Frame) (bs : List Byte), p < 40 → s.tx p = some t → s.frame t.copy.frame = some x →
    t.copy.egress = p → t.stomped = some m → t.stamp = none → x.reason ≤ 18 → x.failed ≤ 18 → bs = s.outBytes t.copy (x.bytes.take m) t.edits →
    Leaves (.frameTxEnd p .clean) s (fun u => u.tx p = none ∧
      Tab.get (fun _ => []) u.sw.wire p = s.laneBytes p (framed bs (crc32 bs ^^^ 0xFFFFFFFF)) ∧
      u.count (portReg p 0x1060) = s.count (portReg p 0x1060) + 1 ∧
      u.count (portDrop p 17) = s.count (portDrop p 17) + 1)) ∧
  (∀ (s : State) (p k : Nat) (t : Tx) (x : Frame), 41 ≤ p → p < 48 → k = s.endLane p → s.tx k = some t → s.frame t.copy.frame = some x →
    t.copy.egress = p → t.copy.lane = k → x.bad = false → x.arriving = false → t.stomped = none → t.stamp = none → x.reason = 0 →
    Leaves (.frameTxEnd p .clean) s (fun u => u.tx k = none ∧ (u.frame t.copy.frame = none ∨ u.frame t.copy.frame = some { x with left := true }) ∧
      u.sw.queues = s.sw.queues ∧ u.mem = s.mem)) ∧
  (∀ (s : State) (p : Nat) (found : EccFinding), p < 48 → s.tx (s.endLane p) = none → exec (.frameTxEnd p found) s = .next s) ∧
  (∀ (s : State) (p : Nat), p < 40 → s.pauseDue p ≠ 0 → s.tx p = none → s.linkUp p = true → s.bit (portReg p 8) 1 = true →
    Leaves (.pauseFrameSend p) s (fun t => t.pauseDue p = 0 ∧ t.xoff p = s.xoff p ∧
      Tab.get (fun _ => []) t.sw.wire p = s.laneBytes p (framed (s.pauseBytes p (s.pauseDue p)) (crc32 (s.pauseBytes p (s.pauseDue p)))) ∧
      (∀ i, i < 9 → (s.pauseDue p).testBit i = true → (s.xoff p).testBit i = true → Tab.get (fun _ => 0) t.sw.stopAt (16 * p + i) = s.cyc) ∧
      t.count (portReg p (if (s.pauseDue p).testBit 8 then 0x1078 else 0x1080)) =
        s.count (portReg p (if (s.pauseDue p).testBit 8 then 0x1078 else 0x1080)) + 1 ∧ t.sw.queues = s.sw.queues ∧
      t = { s with sw := t.sw, cnts := t.cnts, freeCtr := s.freeCtr + 1 })) ∧
  (∀ (s : State) (p : Nat), p < 40 → (s.pauseDue p = 0 ∨ s.tx p ≠ none ∨ s.linkUp p = false) → exec (.pauseFrameSend p) s = .next s) ∧
  (∀ (s : State) (p i : Nat), p < 40 → i ≤ 8 → (s.xoff p).testBit i = true →
    Tab.get (fun _ => 0) s.sw.stopAt (16 * p + i) + (s.fld (portReg p 0x104) 0 16 * 64 * byteTenths (s.linkSpeed p) + 19) / 20 ≤ s.cyc →
    exec (.pauseRefresh p i) s =
      .next { s with sw := { s.sw with pauseDue := Tab.set (fun _ => 0) s.sw.pauseDue p (s.pauseDue p ||| 2 ^ i) } }) ∧
  (∀ (s : State) (p i : Nat), p < 40 → i ≤ 8 → (s.xoff p).testBit i = false → exec (.pauseRefresh p i) s = .next s) ∧
  (∀ (s : State) (q : Nat), q < 384 → s.pauseHeld q = false →
    exec (.pauseHoldExpiry q) s = .next { s with sw := { s.sw with holdUntil := Tab.set (fun _ => 0) s.sw.holdUntil q 0 } }) ∧
  (∀ (s : State) (q : Nat), q < 384 → s.pauseHeld q = true → exec (.pauseHoldExpiry q) s = .next s)

/-- R212, R213, R215, R216, R218: a submission of the host, of the MCP or, once its commit is released, of a logical engine joins the port's queue of 16
jobs or is refused; the first job is checked and its segments join the queue of the job's port and class in order, those that are refused left out; a
started job reports, writes COMPLETION and leaves the queue; an MDIO command makes the bus busy until its transaction ends. -/
def Obligations.SegmentationAndMdio : Prop :=
  (∀ (w : Who) (s : State) (p : Nat) (d : Word), Admitted w s → p < 40 → (s.segs p).length < 16 →
    exec (.segSubmit w p d) s = .next (acked (s.setSegs p (s.segs p ++
      [(⟨fieldOf d 6 17 * 64, fieldOf d 0 3, if w.master = 0x01 then 41 else 40, w.master, none, none, false, 0, 0, 0⟩ : SegJob)])))) ∧
  (∀ (w : Who) (s : State) (p : Nat) (d : Word), Admitted w s → p < 40 → 16 ≤ (s.segs p).length →
    exec (.segSubmit w p d) s = .next (refusedWrite ((((s.setBit (portReg p 0x0C) 5 true).raise (0x58 + p / 8) 0 (p % 8 * 256 + 5)).bump
      (portReg p 0x3020)).masterError w (portReg p 0x3000) true))) ∧
  (∀ (w : Who) (s : State) (n l p : Nat) (d : Word), ByEngine w n → p < 40 → l < 32 → s.logicalOf n = some l →
    s.grantsPage l ((portReg p 0x3000 - 0x10000000) / 0x1000) = true →
    exec (.segSubmit w p d) s = .next (acked (s.setCore n { s.core n with staged := (s.core n).staged ++ [Staged.write (portReg p 0x3000) d] }))) ∧
  (∀ (s : State) (l p n tk : Nat) (d : Word), l < 32 → p < 40 → Tab.get (fun _ => []) s.pec.released l = [.write (portReg p 0x3000) d] →
    Tab.get (fun _ => (0, 0)) s.pec.releasedBy l = (n, tk) → (s.segs p).length < 16 →
    exec (.stagedOutputTransfer l) s =
      .next (({ s with pec := { s.pec with released := Tab.set (fun _ => []) s.pec.released l [] } }).setSegs p (s.segs p ++
        [(⟨fieldOf d 6 17 * 64, fieldOf d 0 3, 42 + l % 6, 0x10 + n, some l, some tk, false, 0, 0, 0⟩ : SegJob)]))) ∧
  (∀ (s : State) (p : Nat) (j : SegJob) (js : List SegJob), p < 40 → s.segs p = j :: js → j.started = false →
    Leaves (.segJobStart p) s (fun t => ∃ (e r x : Nat), t.segs p = { j with started := true, enqueued := e, refused := r, result := x } :: js)) ∧
  (∀ (s : State) (p n : Nat) (j : SegJob) (js : List SegJob) (d hdr pay : List Byte), p < 40 → s.segs p = j :: js → j.started = false →
    j.queue < 8 → s.segRead j.master j.addr 128 = (s, some d) → (segDesc d).ok = true →
    s.segRead j.master (segDesc d).hdrAddr (segDesc d).hdrLen = (s, some hdr) →
    s.segRead j.master (segDesc d).payAddr (segDesc d).payLen = (s, some pay) →
    n = ((segDesc d).payLen + (segDesc d).mss - 1) / (segDesc d).mss →
    Leaves (.segJobStart p) s (fun t =>
      let cs := (t.queue (8 * p + j.queue)).drop (s.queue (8 * p + j.queue)).length
      let sent := cs.filterMap (fun c => (t.frame c.frame).map (fun x => x.bytes))
      t.queue (8 * p + j.queue) = s.queue (8 * p + j.queue) ++ cs ∧ (∀ q, q ≠ 8 * p + j.queue → t.queue q = s.queue q) ∧
      sent.length = cs.length ∧ sent.Sublist ((segDesc d).segments hdr pay) ∧ cs.length ≤ n ∧
      t.segs p = { j with
        started := true, enqueued := cs.length, refused := n - cs.length, result := if cs.length = n then 0 else 2 } :: js ∧
      t.count (portReg p 0x3018) = s.count (portReg p 0x3018) + dword n ∧ t.mem = s.mem ∧ t.pec = s.pec)) ∧
  (∀ (s : State) (p : Nat) (j : SegJob) (js : List SegJob) (d : List Byte), p < 40 → s.segs p = j :: js → j.started = false →
    s.segRead j.master j.addr 128 = (s, some d) → (segDesc d).ok = false →
    exec (.segJobStart p) s =
      .next ((((s.setBit (portReg p 0x0C) 5 true).raise (0x58 + p / 8) 0 (p % 8 * 256 + 5)).bump (portReg p 0x3020)).setSegs p
        ({ j with started := true, result := 1 } :: js))) ∧
  (∀ (s : State) (p : Nat), p < 40 → s.segs p = [] → exec (.segJobStart p) s = .next s ∧ exec (.segJobComplete p) s = .next s) ∧
  (∀ (s : State) (p : Nat) (j : SegJob) (js : List SegJob), p < 40 → s.segs p = j :: js → j.started = true → exec (.segJobStart p) s = .next s) ∧
  (∀ (s : State) (p : Nat) (j : SegJob) (js : List SegJob), p < 40 → s.segs p = j :: js → j.started = true →
    Leaves (.segJobComplete p) s (fun t => t.segs p = js)) ∧
  (∀ (s : State) (p : Nat) (j : SegJob) (js : List SegJob) (tag : List Byte), p < 40 → s.segs p = j :: js → j.started = true → j.result ≠ 1 →
    (s.setSegs p js).segRead j.master (j.addr + 0x10) 4 = (s.setSegs p js, some tag) →
    Leaves (.segJobComplete p) s (fun t => t.segs p = js ∧ t.count (portReg p 0x3010) = s.count (portReg p 0x3010) + 1 ∧
      OtherCounts s t [portReg p 0x3010] ∧ t.reg (portReg p 0x3008) = word (leNat tag) ∧ t.sw.queues = s.sw.queues ∧ t.rope = s.rope ∧
      (j.addr % 64 = 0 → j.addr + 0x64 ≤ 0x800000 → s.tsAreaOf j.addr = none → s.tsUpper j.addr = false → s.tsAreaOf (j.addr + 0x60) = none →
        s.tsUpper (j.addr + 0x60) = false → s.copiesAt (j.addr + 0x60) 4 = [] → s.narrowOnBad (j.addr + 0x60) 4 = false →
        t.bytes (j.addr + 0x60) 4 = leBytes 4 (j.refused % 2048 + j.enqueued % 2048 * 2 ^ 16 + j.result * 2 ^ 28 + 2 ^ 31) ∧
        ∀ b, (b < j.addr + 0x60 ∨ j.addr + 0x64 ≤ b) → t.byte b = s.byte b))) ∧
  (∀ (w : Who) (s : State) (d : Word), Admitted w s → s.bit mdioCmd 31 = false → fieldOf d 28 2 ≠ 3 →
    exec (.mdioGo w d) s = .next (acked (s.setReg mdioCmd (word (fieldOf d 0 30 + bit01 (bitOf d 30) * 2 ^ 31))))) ∧
  (∀ (w : Who) (s : State) (d : Word), Admitted w s → s.bit mdioCmd 31 = true →
    exec (.mdioGo w d) s = .next (refusedWrite (s.masterError w mdioCmd true))) ∧
  (∀ (s : State) (v : Word), s.bit mdioCmd 31 = true → s.bit mdioCmd 27 = false →
    exec (.mdioComplete v) s = .next ((s.setReg mdioData (word (fieldOf v 0 16))).setBit mdioCmd 31 false)) ∧
  (∀ (s : State) (v : Word), s.bit mdioCmd 31 = true → s.bit mdioCmd 27 = true → exec (.mdioComplete v) s = .next (s.setBit mdioCmd 31 false)) ∧
  (∀ (s : State) (v : Word), s.bit mdioCmd 31 = false → exec (.mdioComplete v) s = .next s)

/-- R89, R108, R115: a write of the scratchpad stores its bytes and no others, and ends the other masters' reservations of the granules that it
touches; the upper copy of a tick-state area and verified image copies refuse it. -/
def Obligations.ScratchpadIsWritten : Prop :=
  (∀ (w : Who) (s : State) (a : Nat) (bs : List Byte), Admitted w s → a + bs.length ≤ 0x800000 → s.copiesAt a bs.length = [] →
    (∀ i, i < bs.length → s.tsUpper (a + i) = false ∧ s.tsAreaOf (a + i) = none ∧ s.isBad (a + i) = false) →
    Leaves (.scratchpadWrite w a bs) s (fun t => t.bytes a bs.length = bs ∧ (∀ b, (b < a ∨ a + bs.length ≤ b) → t.byte b = s.byte b) ∧
      (∀ m g i, m ≠ w.master → i < bs.length → g = (a + i) / 8 → t.reservation m ≠ some g) ∧
      (∀ m, m = w.master → t.reservation m = s.reservation m) ∧
      (∀ m g, s.reservation m = some g → (g < a / 8 ∨ (a + bs.length + 7) / 8 ≤ g) → t.reservation m = some g) ∧
      t = { acked s with mem := t.mem, pec := t.pec, mbx := t.mbx })) ∧
  (∀ (w : Who) (s : State) (a : Nat) (bs : List Byte), Admitted w s → a + bs.length ≤ 0x800000 → bs ≠ [] → bs.length ≤ 8 - a % 8 →
    s.tsUpper a = true → exec (.scratchpadWrite w a bs) s = .next (refusedWrite (s.masterError w a true))) ∧
  (∀ (w : Who) (s : State) (a : Nat) (bs : List Byte), Admitted w s → isHost w = true → a + bs.length ≤ 0x800000 → bs ≠ [] →
    bs.length ≤ 8 - a % 8 → s.copiesAt a bs.length ≠ [] → s.tsUpper a = false → s.tsAreaOf a = none →
    exec (.scratchpadWrite w a bs) s = .next (refusedWrite (s.masterError w a true)))

/-- R102, R123, R125, R415, R438: a lockstep mismatch halts the MCP and is an F4; a failed engine that passes its logic test is a spare again; a deal
forgets the old preloads, and what it marks as preloaded is a spare's. -/
def Obligations.EnginesAreTestedAndPreloaded : Prop :=
  (∀ s : State, s.mgt.mcpHalted = false →
    Leaves .lockstepMismatch s (fun t => t.mgt = { s.mgt with mcpHalted := true } ∧ (t.core 36).running = false ∧ t.bit mcpStat 0 = false ∧
      (∃ e, t.flt = { s.flt with detected := s.flt.detected ++ [e] } ∧ e.src = 0x65 ∧ e.cls = 4 ∧ e.cause = 0x100) ∧ t.mem = s.mem)) ∧
  (∀ s : State, s.mgt.mcpHalted = true → exec .lockstepMismatch s = .next s) ∧
  (∀ (s : State) (n : Nat), n < 36 → s.peState n = 6 → s.recentF2 n < 3 →
    Leaves (.logicBistComplete n true) s (fun t => t.peState n = 2 ∧ t.bit (peStateAddr n) 20 = false ∧ t.reg (epRedir (0x10 + n)) = 0 ∧
      OtherRegs s t [peStateAddr n, epRedir (0x10 + n)] ∧ t = { s with regs := t.regs })) ∧
  (∀ (s : State) (n : Nat), n < 36 → s.peState n = 6 → s.mgt.spareMap.length < 4094 →
    Leaves (.logicBistComplete n false) s (fun t => t.peState n = 0 ∧ t.reg (epRedir (0x10 + n)) = 0 ∧
      t.sparesUsedOf 1 = s.sparesUsedOf 1 + 1 ∧ t.mgt.spareMap.length = s.mgt.spareMap.length + 1)) ∧
  (∀ (s : State) (n : Nat) (b : Bool), n < 36 → s.peState n ≠ 1 → s.peState n ≠ 6 → exec (.logicBistComplete n b) s = .next s) ∧
  (∀ s : State, s.spares = [] →
    Leaves .sparePreloadDeal s (fun t => (∀ i, i < 128 → t.bit (imgStat i) 14 = false) ∧ OtherRegs s t ((List.range 128).map imgStat) ∧
      t = { s with regs := t.regs })) ∧
  (∀ s : State, Leaves .sparePreloadDeal s (fun t =>
    ∀ i, i < 128 → t.bit (imgStat i) 14 = true → i ∈ s.dealOrder ∧ t.fld (imgStat i) 8 6 ∈ s.spares)) ∧
  (∀ s : State, (∀ i, i ∈ s.dealOrder → s.codeBad i = none) → Leaves .sparePreloadDeal s (fun t =>
    OtherRegs s t ((List.range 128).map imgStat) ∧ (∀ e, e ∈ t.flt.bus → e ∈ s.flt.bus ∨ (e.src = 0x6C ∧ e.kind = 3)) ∧
      t = { s with regs := t.regs, mem := t.mem, flt := { s.flt with bus := t.flt.bus } }))

/-- R229 to R232: INSERT writes the key's entry, a free candidate or the first that is not STATIC, DELETE and LOOKUP find it, WRITE_MASKED writes a
masked entry, CLEAR_LEARNED leaves STATIC entries alone; each ends with a CODE; frames are learned, and entries that are not hit age. -/
def Obligations.PathTableIsKept : Prop :=
  (∀ (w : Who) (s : State) (d : Word) (i : Nat), Admitted w s → s.bit ptCmd 31 = false → fieldOf d 0 3 = 1 → bitOf d 30 = true →
    s.bufHashedOk (isMcp w) = true →
    (s.findKey s.bufKey = some i ∨ (s.findKey s.bufKey = none ∧ (s.candidates s.bufKey).find? (fun j => s.entryType j == 0) = some i)) →
    Leaves (.ptInsert w d) s (fun t => t.entryWords i = s.bufEntry ∧ t.sw = { s.sw with ptDone := word (i * 65536) } ∧ t.bit ptCmd 31 = true ∧
      OtherRegs s t (ptCmd :: (List.range 8).map (hashedWord i)) ∧ t = { acked s with regs := t.regs, sw := t.sw })) ∧
  (∀ (w : Who) (s : State) (d : Word) (i : Nat), Admitted w s → s.bit ptCmd 31 = false → fieldOf d 0 3 = 1 → bitOf d 30 = true →
    s.bufHashedOk (isMcp w) = true → s.findKey s.bufKey = none → (s.candidates s.bufKey).find? (fun j => s.entryType j == 0) = none →
    (s.candidates s.bufKey).find? (fun j => !s.entryStatic j) = some i →
    Leaves (.ptInsert w d) s (fun t => t.entryWords i = s.bufEntry ∧ t.sw = { s.sw with ptDone := word (4 + i * 65536) } ∧
      t.count (swReg 0x8028) = s.count (swReg 0x8028) + 1 ∧ t = { acked s with regs := t.regs, sw := t.sw, cnts := t.cnts })) ∧
  (∀ (w : Who) (s : State) (d : Word), Admitted w s → s.bit ptCmd 31 = false → fieldOf d 0 3 = 1 → bitOf d 30 = true →
    s.bufHashedOk (isMcp w) = false →
    Leaves (.ptInsert w d) s (fun t => fieldOf t.sw.ptDone 0 16 = 3 ∧ OtherRegs s t [ptCmd] ∧
    t = { acked s with regs := t.regs, sw := t.sw, freeCtr := t.freeCtr })) ∧
  (∀ (w : Who) (s : State) (d : Word) (i : Nat), Admitted w s → s.bit ptCmd 31 = false → fieldOf d 0 3 = 2 → bitOf d 30 = true →
    1 ≤ s.bufKey.ktype → s.bufKey.ktype ≤ 3 → s.findKey s.bufKey = some i →
    Leaves (.ptDelete w d) s (fun t => t.entryWords i = List.replicate 8 0 ∧ t.sw = { s.sw with ptDone := word (i * 65536) } ∧
      t.bit ptCmd 31 = true ∧ OtherRegs s t (ptCmd :: (List.range 8).map (hashedWord i)) ∧ t = { acked s with regs := t.regs, sw := t.sw })) ∧
  (∀ (w : Who) (s : State) (d : Word) (i : Nat), Admitted w s → s.bit ptCmd 31 = false → fieldOf d 0 3 = 3 → bitOf d 30 = true →
    1 ≤ s.bufKey.ktype → s.bufKey.ktype ≤ 3 → s.findKey s.bufKey = some i →
    Leaves (.ptLookup w d) s (fun t => (List.range 8).map (fun j => t.reg (ptBuf j)) = s.entryWords i ∧
      t.sw = { s.sw with ptDone := word (i * 65536) } ∧ OtherRegs s t (ptCmd :: (List.range 8).map ptBuf) ∧
      t = { acked s with regs := t.regs, sw := t.sw })) ∧
  (∀ (w : Who) (s : State) (d : Word), Admitted w s → s.bit ptCmd 31 = false → bitOf d 30 = true →
    1 ≤ s.bufKey.ktype → s.bufKey.ktype ≤ 3 → s.findKey s.bufKey = none →
    (fieldOf d 0 3 = 2 → Leaves (.ptDelete w d) s (fun t => fieldOf t.sw.ptDone 0 16 = 2 ∧ OtherRegs s t [ptCmd])) ∧
    (fieldOf d 0 3 = 3 → Leaves (.ptLookup w d) s (fun t => fieldOf t.sw.ptDone 0 16 = 2 ∧ OtherRegs s t [ptCmd]))) ∧
  (∀ (w : Who) (s : State) (d : Word) (j : Nat), Admitted w s → s.bit ptCmd 31 = false → fieldOf d 0 3 = 4 → bitOf d 30 = true →
    s.bufMaskedOk (isMcp w) = true → fieldOf d 16 11 = j →
    Leaves (.ptWriteMasked w d) s (fun t => (∀ i, i < 16 → t.reg (maskedWord j i) = s.reg (ptBuf i)) ∧
      t.sw = { s.sw with ptDone := word (j * 65536) } ∧ OtherRegs s t (ptCmd :: (List.range 16).map (maskedWord j)) ∧
      t = { acked s with regs := t.regs, sw := t.sw })) ∧
  (∀ (w : Who) (s : State) (d : Word), Admitted w s → s.bit ptCmd 31 = false → fieldOf d 0 3 = 5 → bitOf d 30 = true →
    (∀ x, x ∈ s.regs → s.reg x.1 = x.2) →
    Leaves (.ptClearLearned w d) s (fun t => (∀ i, i < 14336 → t.entryType i = 0 ∨ t.entryStatic i = true) ∧
      (∀ i, i < 14336 → s.entryStatic i = true → t.entryWords i = s.entryWords i) ∧ fieldOf t.sw.ptDone 0 16 = 0)) ∧
  (∀ (w : Who) (s : State) (d : Word), Admitted w s → s.bit ptCmd 31 = true →
    exec (.ptInsert w d) s = .next (refusedWrite (s.masterError w ptCmd true)) ∧
    exec (.ptDelete w d) s = .next (refusedWrite (s.masterError w ptCmd true)) ∧
    exec (.ptLookup w d) s = .next (refusedWrite (s.masterError w ptCmd true)) ∧
    exec (.ptWriteMasked w d) s = .next (refusedWrite (s.masterError w ptCmd true)) ∧
    exec (.ptClearLearned w d) s = .next (refusedWrite (s.masterError w ptCmd true))) ∧
  (∀ s : State, s.bit ptCmd 31 = true →
    exec .ptCommandComplete s = .next ((s.setReg (swReg 0x2004) s.sw.ptDone).setBit ptCmd 31 false)) ∧
  (∀ s : State, s.bit ptCmd 31 = false → exec .ptCommandComplete s = .next s) ∧
  (∀ (s : State) (p sa vid i : Nat) (rest : List (Nat × Nat × Nat)), s.sw.learns = (p, sa, vid) :: rest → s.bit ptCmd 31 = false → p < 40 →
    s.findKey (macPathKey 1 sa 0 vid) = none →
    (s.candidates (macPathKey 1 sa 0 vid)).find? (fun j => s.entryType j == 0) = some i →
    Leaves .sourceLearn s (fun t => t.entryWords i = [word (33 + vid * 65536), word sa, word (sa / 2 ^ 32), 0,
        word (if p < 32 then 2 ^ p else 0), word (if p < 32 then 0 else 2 ^ (p - 32)), 0, s.reg (swReg 0x34)] ∧
      t.count (swReg 0x8010) = s.count (swReg 0x8010) + 1 ∧ OtherRegs s t ((List.range 8).map (hashedWord i)) ∧
      t = { s with regs := t.regs, cnts := t.cnts, sw := { s.sw with learns := rest } })) ∧
  (∀ (s : State) (p sa vid i : Nat) (rest : List (Nat × Nat × Nat)), s.sw.learns = (p, sa, vid) :: rest → s.bit ptCmd 31 = false → p < 40 →
    s.findKey (macPathKey 1 sa 0 vid) = some i → s.entryStatic i = true →
    exec .sourceLearn s = .next ({ s with sw := { s.sw with learns := rest } }.setBit (hashedWord i 0) 5 true)) ∧
  (∀ s : State, s.sw.learns = [] → exec .sourceLearn s = .next s) ∧
  (∀ (s : State) (i : Nat), i < 14336 → s.ageDue i = true → s.entryType i ≠ 0 → s.entryStatic i = false → s.entryHit i = true →
    exec (.addressAgeVisit i) s = .next
      ({ s with sw := { s.sw with swept := Tab.set (fun _ => 0) s.sw.swept i (s.cyc + 1) } }.setBit (hashedWord i 0) 5 false)) ∧
  (∀ (s : State) (i : Nat), i < 14336 → s.ageDue i = true → s.entryType i ≠ 0 → s.entryStatic i = false → s.entryHit i = false →
    Leaves (.addressAgeVisit i) s (fun t => t.entryWords i = List.replicate 8 0 ∧ t.count (swReg 0x8030) = s.count (swReg 0x8030) + 1 ∧
      OtherRegs s t ((List.range 8).map (hashedWord i)) ∧
      t = { s with regs := t.regs, cnts := t.cnts, sw := { s.sw with swept := Tab.set (fun _ => 0) s.sw.swept i (s.cyc + 1) } })) ∧
  (∀ (s : State) (i : Nat), i < 14336 → s.ageDue i = true → (s.entryType i = 0 ∨ s.entryStatic i = true) →
    exec (.addressAgeVisit i) s =
      .next { s with sw := { s.sw with swept := Tab.set (fun _ => 0) s.sw.swept i (s.cyc + 1) } }) ∧
  (∀ (s : State) (i : Nat), i < 14336 → s.ageDue i = false → exec (.addressAgeVisit i) s = .next s) ∧
  (∀ (s : State) (i : Nat), s.ageDue i = true ↔ s.fld (swReg 0x30) 0 16 ≠ 0 ∧
    (Tab.get (fun _ => 0) s.sw.swept i = 0 ∨ Tab.get (fun _ => 0) s.sw.swept i + s.fld (swReg 0x30) 0 16 * 1000 * 500000 ≤ s.cyc + 1))

/-- R244, R245, R258 to R262, R264, R265: captures are written into their ring or lost, averages move towards the depths, overage heads leave, a meter
starts full, the ledgers are compared once for each tick and a mismatch is an F3, and a restart empties the switch. -/
def Obligations.MirrorsQueuesAndLedgers : Prop :=
  (∀ (s : State) (c : Capture) (rest : List Capture) (x : Frame) (a : Nat), s.sw.captures = c :: rest → s.frame c.frame = some x → c.ring < 4 →
    s.bit (mirReg c.ring 0x10) 0 = true → 2 ≤ s.fld (mirReg c.ring 4) 0 15 →
    (s.fld (mirReg c.ring 8) 0 15 + 1) % s.fld (mirReg c.ring 4) 0 15 ≠ s.fld (mirReg c.ring 0x0C) 0 15 →
    a = s.fld (mirReg c.ring 0) 6 17 * 64 + 144 * s.fld (mirReg c.ring 8) 0 15 → a + 144 ≤ 0x800000 → s.copiesAt a 144 = [] →
    (∀ i, i < 144 → s.tsUpper (a + i) = false ∧ s.tsAreaOf (a + i) = none ∧ s.isBad (a + i) = false) →
    Leaves .mirrorRecordWrite s (fun t => t.sw.captures = rest ∧ t.bytes a 144 = mirrorRecord c x (s.count (mirReg c.ring 0x18)).toNat ∧
      (∀ b, (b < a ∨ a + 144 ≤ b) → t.byte b = s.byte b) ∧ t.count (mirReg c.ring 0x18) = s.count (mirReg c.ring 0x18) + 1 ∧
      t.reg (mirReg c.ring 8) = word ((s.fld (mirReg c.ring 8) 0 15 + 1) % s.fld (mirReg c.ring 4) 0 15))) ∧
  (∀ (s : State) (c : Capture) (rest : List Capture) (x : Frame), s.sw.captures = c :: rest → s.frame c.frame = some x → c.ring < 4 →
    s.bit (mirReg c.ring 0x10) 0 = false →
    Leaves .mirrorRecordWrite s (fun t => t.sw.captures = rest ∧ t.count (mirReg c.ring 0x20) = s.count (mirReg c.ring 0x20) + 1 ∧ t.mem = s.mem)) ∧
  (∀ s : State, s.sw.captures = [] → exec .mirrorRecordWrite s = .next s) ∧
  (∀ (w : Who) (s : State) (r : Nat) (d : Word), Admitted w s → r < 4 →
    exec (.mirEnWrite w r d) s = .next (acked (if bitOf d 0 && !s.bit (mirReg r 0x10) 0 then
      (((s.setReg (mirReg r 0x10) 1).setReg (mirReg r 8) 0).setReg (mirReg r 0x0C) 0)
      else s.setReg (mirReg r 0x10) (word (bit01 (bitOf d 0)))))) ∧
  (∀ s : State, s.sw.redNo = s.coreCyc / 256 + 1 → exec .redAverageUpdate s = .next s) ∧
  (∀ s : State, s.sw.redNo ≠ s.coreCyc / 256 + 1 → Leaves .redAverageUpdate s (fun t =>
    t = { s with sw := { s.sw with avgs := t.sw.avgs, redNo := s.coreCyc / 256 + 1 } } ∧ ∀ q, q < 384 →
    t.avg q = (Int.ofNat (s.avg q) + (Int.ofNat (s.depth q) * 65536 - Int.ofNat (s.avg q)) / (2 ^ s.fld (qReg q 0) 4 4 : Int)).toNat)) ∧
  (∀ (w : Who) (s : State) (d : Word), Admitted w s → d ≠ 0 → exec (.redSeedWrite w d) s =
    .next (acked { s.setReg (swReg 0x9004) d with sw := { s.sw with lfsr := d, lfsrAt := s.coreCyc } })) ∧
  (∀ (w : Who) (s : State), Admitted w s → exec (.redSeedWrite w 0) s = .next (refusedWrite (s.masterError w (swReg 0x9004) true))) ∧
  (∀ s : State, s.cyc / 8000 % 2 ^ 20 ≠ s.sw.granule →
    Leaves .ageGranule s (fun t => t.sw.granule = (s.sw.granule + 1) % 2 ^ 20 ∧
      (∀ q c, (t.queue q).head? = some c → t.overage q c = false) ∧ t = { s with regs := t.regs, cnts := t.cnts, sw := t.sw })) ∧
  (∀ s : State, s.cyc / 8000 % 2 ^ 20 = s.sw.granule → exec .ageGranule s = .next s) ∧
  (∀ (w : Who) (s : State) (m : Nat) (d : Word), Admitted w s → m < 4096 → s.bit (meterReg m 0) 0 = false → bitOf d 0 = true → bitOf d 1 = true →
    s.fld (meterReg m 0x0C) 0 24 ≠ 0 → s.fld (meterReg m 0x10) 0 24 ≠ 0 →
    Leaves (.meterEnable w m d) s (fun t => t.reg (meterReg m 0) = word (fieldOf d 0 4) ∧ OtherRegs s t [meterReg m 0] ∧
      Tab.get (fun _ => none) t.sw.meters m = some (⟨Int.ofNat (s.fld (meterReg m 0x0C) 0 24 * grain), s.coreCyc⟩,
        ⟨Int.ofNat (s.fld (meterReg m 0x10) 0 24 * grain), s.coreCyc⟩) ∧ t = { acked s with regs := t.regs, sw := t.sw })) ∧
  (∀ (w : Who) (s : State) (m : Nat) (d : Word), Admitted w s → m < 4096 → s.bit (meterReg m 0) 0 = false → bitOf d 0 = true →
    (s.fld (meterReg m 0x0C) 0 24 = 0 ∨ s.fld (meterReg m 0x10) 0 24 = 0) →
    exec (.meterEnable w m d) s = .next (refusedWrite (s.masterError w (meterReg m 0) true))) ∧
  (∀ (w : Who) (s : State) (m : Nat) (d : Word), Admitted w s → m < 4096 → s.bit (meterReg m 0) 0 = true → bitOf d 0 = false →
    fieldOf d 1 2 = s.fld (meterReg m 0) 1 2 →
    Leaves (.meterEnable w m d) s (fun t => t.bit (meterReg m 0) 0 = false ∧ OtherRegs s t [meterReg m 0] ∧
      Tab.get (fun _ => none) t.sw.meters m = none)) ∧
  (∀ s : State, (s.sw.auditDue = true ∨ (s.running = false ∧ s.sw.auditAt + 500000 ≤ s.cyc)) → s.sw.shapers = [] → s.sw.meters = [] →
    (∀ i, 1 ≤ i → i ≤ 6 → (s.ledger i).1 = (s.ledger i).2) →
    exec .ledgerAudit s = .next ({ s with sw := { s.sw with auditDue := false, auditAt := s.cyc } }.bump (swReg 0x9028))) ∧
  (∀ (s : State) (i : Nat), (s.sw.auditDue = true ∨ (s.running = false ∧ s.sw.auditAt + 500000 ≤ s.cyc)) → s.sw.shapers = [] →
    s.sw.meters = [] → 1 ≤ i → i ≤ 6 → (s.ledger i).1 ≠ (s.ledger i).2 →
    (∀ j, 1 ≤ j → j < i → (s.ledger j).1 = (s.ledger j).2) → s.bit (swReg 0x9008) 0 = false →
    Leaves .ledgerAudit s (fun t => t.reg (swReg 0x9008) = word (1 + 2 * i) ∧ t.reg64 (swReg 0x9030) = (s.ledger i).1.toNat ∧
      t.reg64 (swReg 0x9038) = (s.ledger i).2.toNat ∧ t.count (swReg 0x9028) = s.count (swReg 0x9028) + 1 ∧
      (∃ e, t.flt = { s.flt with detected := s.flt.detected ++ [e] } ∧ e.src = 0x5D ∧ e.cls = 3 ∧ e.cause = i) ∧
      t = { s with regs := t.regs, flt := t.flt, cnts := t.cnts, sw := { s.sw with auditDue := false, auditAt := s.cyc } })) ∧
  (∀ s : State, s.sw.auditDue = false → (s.running = true ∨ s.cyc < s.sw.auditAt + 500000) → exec .ledgerAudit s = .next s) ∧
  (∀ (w : Who) (s : State) (d : Word), ByMcp w → bitOf d 0 = true → s.openFrames = 0 →
    Leaves (.restartSwitch w d) s (fun t => t.sw.frames = [] ∧ (∀ q, t.queue q = [] ∧ t.avg q = 0) ∧ t.sw.dict = [] ∧ t.sw.free = 65488 ∧
      t.sw.pre = 2 ^ 48 - 1 ∧ t = { acked s with sw := t.sw })) ∧
  (∀ (w : Who) (s : State) (d : Word), ByMcp w → bitOf d 0 = true → s.openFrames ≠ 0 → 
    exec (.restartSwitch w d) s = .next (refusedWrite (s.masterError w (sysReg 0x20) true))) ∧
  (∀ (w : Who) (s : State) (d : Word), ByMcp w → bitOf d 0 = false → exec (.restartSwitch w d) s = .next (acked s)) ∧
  (∀ (w : Who) (s : State) (d : Word), Admitted w s → isHost w = true →
    exec (.restartSwitch w d) s = .next (refusedWrite (s.masterError w (sysReg 0x20) true)))

/-- R270 to R273: the owner steers the rate and asks for a step, which is applied at once where no ticks run and dropped where the time would be
negative; a servo update restarts HOLD_AGE, holdover is entered at its limit, OWNER is the MCP's, and a read of NOW_NS captures the time. -/
def Obligations.TimeIsSteered : Prop :=
  (∀ (w : Who) (s : State) (d : Word), Admitted w s → s.servoOwner w none = true → -4294967 ≤ signed d.toNat 32 → signed d.toNat 32 ≤ 4294967 →
    exec (.rateWrite w d) s = .next (acked (s.setReg (timeReg 0x10) d))) ∧
  (∀ (w : Who) (s : State) (d : Word), Admitted w s → s.servoOwner w none = true →
    (signed d.toNat 32 < -4294967 ∨ 4294967 < signed d.toNat 32) →
    exec (.rateWrite w d) s = .next (refusedWrite (s.masterError w (timeReg 0x10) true))) ∧
  (∀ (w : Who) (s : State) (d : Word), Admitted w s → s.servoOwner w none = false →
    exec (.rateWrite w d) s = .next (refusedWrite (s.masterError w (timeReg 0x10) true)) ∧
    exec (.stepGo w d) s = .next (refusedWrite (s.masterError w (timeReg 0x24) true)) ∧
    exec (.servoUpd w d) s = .next (refusedWrite (s.masterError w (timeReg 0x34) true))) ∧
  (∀ (w : Who) (s : State) (d : Word), Admitted w s → s.servoOwner w none = true → bitOf d 0 = true → s.tb.step = none →
    exec (.stepGo w d) s = .next (acked ({ s with tb := { s.tb with step := some s.stepOffset } }.setBit (tickReg 8) 2 true))) ∧
  (∀ (w : Who) (s : State) (d : Word), Admitted w s → s.servoOwner w none = true → bitOf d 0 = true → s.tb.step ≠ none →
    exec (.stepGo w d) s = .next (refusedWrite (s.masterError w (timeReg 0x24) true))) ∧
  (∀ (s : State) (off : Int), s.running = false → s.tb.step = some off → 0 ≤ Int.ofNat s.ns + off →
    Leaves .stepApply s (fun t => Int.ofNat t.ns = Int.ofNat s.ns + off ∧ fracOf t.time = fracOf s.time ∧ t.tb.step = none ∧ t.bit (tickReg 8) 2 = false ∧
      t.trav.skew = s.trav.skew + off ∧ t.count (timeReg 0x100) = s.count (timeReg 0x100) + 1 ∧ OtherCounts s t [timeReg 0x100] ∧
      t = { s with time := t.time, tb := t.tb, tick := t.tick, trav := t.trav, pch := t.pch, regs := t.regs, cnts := t.cnts })) ∧
  (∀ (s : State) (off : Int), s.running = false → s.tb.step = some off → Int.ofNat s.ns + off < 0 →
    Leaves .stepApply s (fun t => t.tb = { s.tb with step := none } ∧ t.bit timeSticky 3 = true ∧ t.bit (tickReg 8) 2 = false ∧
      OtherRegs s t [timeSticky, tickReg 8] ∧ t = { s with tb := t.tb, regs := t.regs })) ∧
  (∀ s : State, (s.running = true ∨ s.tb.step = none) → exec .stepApply s = .next s) ∧
  (∀ (w : Who) (s : State), Admitted w s → exec (.nowNsRead w) s = .next (answered (s.captureNow w) (word (nsOf s.time)))) ∧
  (∀ (w : Who) (s : State) (d : Word), Admitted w s → s.servoOwner w none = true → bitOf d 0 = true →
    Leaves (.servoUpd w d) s (fun t => t.reg (timeReg 0x50) = word (nsOf s.time) ∧ t.reg (timeReg 0x54) = word (secOf s.time) ∧
      t.bit timeStatus 0 = false ∧ t.bit timeStatus 1 = false ∧ t.tb = { s.tb with holdFrom := s.cyc, everUpd := true } ∧
      OtherRegs s t [timeReg 0x50, timeReg 0x54, timeStatus] ∧ t = { acked s with regs := t.regs, tb := t.tb })) ∧
  (∀ s : State, s.bit timeStatus 0 = false → s.tb.everUpd = true → s.fld (timeReg 0x38) 0 16 ≤ s.holdAge →
    Leaves .holdoverEntry s (fun t => t.bit timeStatus 0 = true ∧ t.bit timeSticky 0 = true ∧ t.count (timeReg 0x108) = s.count (timeReg 0x108) + 1 ∧
      (∃ e, t.flt = { s.flt with bus := s.flt.bus ++ [e] } ∧ e.src = 0x61 ∧ e.cls = 0 ∧ e.cause = 0) ∧
      OtherRegs s t [timeStatus, timeSticky] ∧ t = { s with regs := t.regs, cnts := t.cnts, flt := t.flt })) ∧
  (∀ s : State, (s.bit timeStatus 0 = true ∨ s.tb.everUpd = false ∨ s.holdAge < s.fld (timeReg 0x38) 0 16) →
    exec .holdoverEntry s = .next s) ∧
  (∀ (w : Who) (s : State) (d : Word), ByMcp w → (fieldOf d 0 6 ≤ 0x21 ∨ fieldOf d 0 6 = 0x3F) →
    Leaves (.ownerWrite w d) s (fun t => t.reg (timeReg 0x30) = word (fieldOf d 0 6) ∧ t.bit timeStatus 1 = true ∧
      t.tb = { s.tb with holdFrom := s.cyc } ∧ OtherRegs s t [timeReg 0x30, timeStatus] ∧ t = { acked s with regs := t.regs, tb := t.tb })) ∧
  (∀ (w : Who) (s : State) (d : Word), Admitted w s → (isHost w = true ∨ (0x21 < fieldOf d 0 6 ∧ fieldOf d 0 6 ≠ 0x3F)) →
    exec (.ownerWrite w d) s = .next (refusedWrite (s.masterError w (timeReg 0x30) true)))

/-- R274, R275: the monitors judge the references from the first lock on, a reference is good after 100 ms without fault. The PLL leaves an active reference that is declared bad for a good one, holds where both are bad, leaves the hold for the first that
is good, returns to PREFER after 10 s, and takes the reference that SEL names, unless that is bad. One declared bad three times in 24 hours is no
longer preferred (R438). -/
def Obligations.ReferencesAreChosen : Prop :=
  (∀ (s : State) (b : Bool), s.tb.monitors = false → exec (.referenceBad b) s = .next s) ∧
  (∀ (s : State) (b : Bool), s.tb.monitors = true → s.refActive ≠ bit01 b → Tab.get (fun _ => false) s.tb.refBad (1 - bit01 b) = false →
    (Tab.get (fun _ => false) s.tb.refBad (bit01 b) = true ∨ (s.within 24 (Tab.get (fun _ => []) s.mgt.refBadAt (bit01 b))).length < 2 ∨
      s.mcpRuns = false) →
    Leaves (.referenceBad b) s (fun t =>
      t.tb = { s.tb with
        refBad := Tab.set (fun _ => false) s.tb.refBad (bit01 b) true,
        refFrom := Tab.set (fun _ => 0) s.tb.refFrom (bit01 b) s.cyc } ∧
      t.refOk (bit01 b) = false ∧ t.refActive = s.refActive ∧ OtherRegs s t [timeStatus] ∧
      t = { s with tb := t.tb, regs := t.regs, mgt := { s.mgt with refBadAt := t.mgt.refBadAt } })) ∧
  (∀ (s : State) (b : Bool), s.tb.monitors = true → Tab.get (fun _ => false) s.tb.refBad (bit01 b) = false →
    2 ≤ (s.within 24 (Tab.get (fun _ => []) s.mgt.refBadAt (bit01 b))).length → s.mcpRuns = true → s.mgt.spareMap.length < 4094 →
    Leaves (.referenceBad b) s (fun t => t.refOk (bit01 b) = false ∧ t.bit (timeReg 0x48) 3 = true ∧ t.fld (timeReg 0x48) 2 1 = 1 - bit01 b ∧
      t.sparesUsedOf 8 = s.sparesUsedOf 8 + 1 ∧ t.mgt.spareMap.length = s.mgt.spareMap.length + 1 ∧
      Tab.get (fun _ => []) t.mgt.refBadAt (bit01 b) = [])) ∧
  (∀ (s : State) (b : Bool), s.tb.monitors = true → s.refActive = bit01 b → Tab.get (fun _ => false) s.tb.refBad (1 - bit01 b) = false → s.refOk (1 - bit01 b) = true →
    s.fld (timeReg 0x48) 0 2 = 0 → (s.within 24 (Tab.get (fun _ => []) s.mgt.refBadAt (bit01 b))).length < 2 →
    Leaves (.referenceBad b) s (fun t => t.refActive = 1 - bit01 b ∧ t.refOk (bit01 b) = false ∧ t.bit timeSticky 1 = true ∧
      t.count (timeReg 0x110) = s.count (timeReg 0x110) + 1 ∧
      (∃ e, t.flt = { s.flt with bus := s.flt.bus ++ [e] } ∧ e.src = 0x61 ∧ e.cls = 0 ∧ e.cause = 1) ∧
      (Tab.get (fun _ => false) s.tb.refBad (bit01 b) = false → Tab.get (fun _ => []) t.mgt.refBadAt (bit01 b) =
        s.powerOnHours :: s.within 24 (Tab.get (fun _ => []) s.mgt.refBadAt (bit01 b))) ∧
      t = { s with tb := t.tb, regs := t.regs, cnts := t.cnts, flt := t.flt, mgt := { s.mgt with refBadAt := t.mgt.refBadAt } })) ∧
  (∀ (s : State) (b : Bool), s.tb.monitors = true → Tab.get (fun _ => false) s.tb.refBad (1 - bit01 b) = true → s.refOk (1 - bit01 b) = false → s.bit timeStatus 5 = false →
    (Tab.get (fun _ => false) s.tb.refBad (bit01 b) = true ∨ (s.within 24 (Tab.get (fun _ => []) s.mgt.refBadAt (bit01 b))).length < 2) →
    Leaves (.referenceBad b) s (fun t => t.bit timeStatus 5 = true ∧ t.bit timeSticky 2 = true ∧ t.refOk (bit01 b) = false ∧
      t.refActive = s.refActive ∧ (∃ e, t.flt = { s.flt with bus := s.flt.bus ++ [e] } ∧ e.src = 0x61 ∧ e.cls = 1 ∧ e.cause = 2))) ∧
  (∀ (s : State) (b : Bool), (s.tb.monitors = false ∨ s.cyc < Tab.get (fun _ => 0) s.tb.refFrom (bit01 b) + 100 * cycMs ∨ s.refOk (bit01 b) = true) →
    exec (.referenceGood b) s = .next s) ∧
  (∀ (s : State) (b : Bool), s.tb.monitors = true → Tab.get (fun _ => 0) s.tb.refFrom (bit01 b) + 100 * cycMs ≤ s.cyc → s.refOk (bit01 b) = false →
    s.bit timeStatus 5 = true →
    Leaves (.referenceGood b) s (fun t => t.bit timeStatus 5 = false ∧ t.refOk (bit01 b) = true ∧ t.refActive = bit01 b ∧
      Tab.get (fun _ => false) t.tb.refBad (bit01 b) = false ∧ Tab.get (fun _ => 0) t.tb.refGoodAt (bit01 b) = s.cyc ∧
      t = { s with tb := t.tb, regs := t.regs, cnts := t.cnts, flt := t.flt })) ∧
  (∀ (s : State) (b : Bool), s.tb.monitors = true → Tab.get (fun _ => 0) s.tb.refFrom (bit01 b) + 100 * cycMs ≤ s.cyc → s.refOk (bit01 b) = false →
    s.bit timeStatus 5 = false → Tab.get (fun _ => false) s.tb.refBad s.refActive = false →
    Leaves (.referenceGood b) s (fun t => t.refOk (bit01 b) = true ∧ t.refActive = s.refActive ∧ OtherRegs s t [timeStatus] ∧
      Tab.get (fun _ => 0) t.tb.refGoodAt (bit01 b) = s.cyc ∧ t = { s with tb := t.tb, regs := t.regs })) ∧
  (∀ s : State, s.fld (timeReg 0x48) 0 2 = 0 → s.bit (timeReg 0x48) 3 = true → s.refOk (s.fld (timeReg 0x48) 2 1) = true →
    Tab.get (fun _ => 0) s.tb.refGoodAt (s.fld (timeReg 0x48) 2 1) + 10000 * cycMs ≤ s.cyc → s.refActive ≠ s.fld (timeReg 0x48) 2 1 →
    Leaves .referenceRevert s (fun t => t.refActive = s.fld (timeReg 0x48) 2 1 ∧ t.bit timeSticky 1 = true ∧
      t.count (timeReg 0x110) = s.count (timeReg 0x110) + 1 ∧ t.tb = s.tb ∧ t = { s with regs := t.regs, cnts := t.cnts, flt := t.flt })) ∧
  (∀ s : State, (s.bit (timeReg 0x48) 3 = false ∨ s.fld (timeReg 0x48) 0 2 ≠ 0 ∨ s.refOk (s.fld (timeReg 0x48) 2 1) = false) →
    exec .referenceRevert s = .next s) ∧
  (∀ (w : Who) (s : State) (d : Word), Admitted w s → fieldOf d 0 2 = 0 → Tab.get (fun _ => false) s.tb.refBad s.refActive = false →
    exec (.refSelWrite w d) s = .next (acked (s.setReg (timeReg 0x48) (word (fieldOf d 0 4))))) ∧
  (∀ (w : Who) (s : State) (d : Word) (x : Nat), Admitted w s → fieldOf d 0 2 = x + 1 → x < 2 → Tab.get (fun _ => false) s.tb.refBad x = false →
    Leaves (.refSelWrite w d) s (fun t => t.refActive = x ∧ t.reg (timeReg 0x48) = word (fieldOf d 0 4) ∧
      t.count (timeReg 0x110) = s.count (timeReg 0x110) + (if s.refActive = x then 0 else 1) ∧
      t = { acked s with regs := t.regs, cnts := t.cnts, flt := t.flt })) ∧
  (∀ (w : Who) (s : State) (d : Word), Admitted w s →
    (fieldOf d 0 2 = 3 ∨ (fieldOf d 0 2 ≠ 0 ∧ Tab.get (fun _ => false) s.tb.refBad (fieldOf d 0 2 - 1) = true)) →
    exec (.refSelWrite w d) s = .next (refusedWrite (s.masterError w (timeReg 0x48) true)))

/-- R280, R283 to R289: reads of the stamp and the capture queues pop them, launch entries are armed by CFG, open and close their windows and are late
or on time, and the PPS pins pulse on their grid and capture the selected edges. -/
def Obligations.LaunchesStampsAndPulses : Prop :=
  (∀ (w : Who) (s : State) (p : Nat) (e : Stamp) (q : List Stamp), Admitted w s → p < 40 → Tab.get (fun _ => []) s.tb.txts p = e :: q →
    exec (.txtsInfoRead w p) s = .next (answered { s with
      tb := { s.tb with
        txts := Tab.set (fun _ => []) s.tb.txts p q, txtsHold := Tab.set (fun _ => 0) s.tb.txtsHold (p * 1024 + whoKey w) e.time } } e.info)) ∧
  (∀ (w : Who) (s : State) (p : Nat), Admitted w s → p < 40 → Tab.get (fun _ => []) s.tb.txts p = [] →
    exec (.txtsInfoRead w p) s = .next (answered s 0)) ∧
  (∀ (w : Who) (s : State) (i : Nat) (e : Stamp) (q : List Stamp), Admitted w s → i < 2 → Tab.get (fun _ => []) s.tb.caps i = e :: q →
    exec (.capInfoRead w i) s = .next (answered { s with
      tb := { s.tb with
        caps := Tab.set (fun _ => []) s.tb.caps i q, capsHold := Tab.set (fun _ => 0) s.tb.capsHold (i * 1024 + whoKey w) e.time } } e.info)) ∧
  (∀ (w : Who) (s : State) (i : Nat), Admitted w s → i < 2 → Tab.get (fun _ => []) s.tb.caps i = [] →
    exec (.capInfoRead w i) s = .next (answered s 0)) ∧
  (∀ (s : State) (n : Nat), n < 1024 → s.gateOpenNow n = true →
    exec (.gateWindowOpen n) s = .next (s.setBit (launchAddr n + 0x18) 0 true) ∧ exec (.gateWindowClose n) s = .next s) ∧
  (∀ (s : State) (n : Nat), n < 1024 → s.gateOpenNow n = false →
    exec (.gateWindowOpen n) s = .next s ∧ exec (.gateWindowClose n) s = .next (s.setBit (launchAddr n + 0x18) 0 false)) ∧
  (∀ (s : State) (n q : Nat), n < 1024 → q = s.fld (launchAddr n) 8 9 → s.bit (launchAddr n) 0 = true → s.bit (launchAddr n) 1 = false →
    s.onceEntry q = some n → s.lqMode q = 2 → s.queue q ≠ [] →
    (s.reg (launchAddr n + 0x14)).toNat < (s.ns % trigSpan + bytesNs (s.linkSpeed (q / 8)) 8 + trigSpan - s.launchX n) % trigSpan →
    (s.ns % trigSpan + bytesNs (s.linkSpeed (q / 8)) 8 + trigSpan - s.launchX n) % trigSpan < trigSpan / 2 →
    Tab.get (fun _ => false) s.sw.onceLate n = false → s.bit (launchAddr n) 3 = false →
    Leaves (.launchOnceEligible n) s (fun t => t.bit (launchAddr n + 0x18) 2 = true ∧ t.bit timeSticky 4 = true ∧
      t.count (timeReg 0x120) = s.count (timeReg 0x120) + 1 ∧ t.sw.queues = s.sw.queues ∧
      Tab.get (fun _ => false) t.sw.onceLate n = true ∧ OtherRegs s t [launchAddr n + 0x18, timeSticky] ∧
      t = { s with regs := t.regs, cnts := t.cnts, sw := t.sw })) ∧
  (∀ (s : State) (n q : Nat), n < 1024 → q = s.fld (launchAddr n) 8 9 →
    (s.bit (launchAddr n) 0 = false ∨ s.bit (launchAddr n) 1 = true ∨ s.queue q = [] ∨
      (s.ns % trigSpan + bytesNs (s.linkSpeed (q / 8)) 8 + trigSpan - s.launchX n) % trigSpan ≤ (s.reg (launchAddr n + 0x14)).toNat) →
    exec (.launchOnceEligible n) s = .next s) ∧
  (∀ (w : Who) (s : State) (n : Nat) (d : Word), Admitted w s → n < 1024 → fieldOf d 8 9 ≤ 319 → bitOf d 0 = true →
    ((s.reg (launchAddr n + 0x10)).toNat = 0 ∨ (s.reg (launchAddr n + 0x0C)).toNat ≤ (s.reg (launchAddr n + 0x10)).toNat) →
    exec (.launchArm w n d) s =
      .next (acked { s.setReg (launchAddr n) ((s.reg (launchAddr n) &&& ~~~(word 0x1FF0F)) ||| (d &&& word 0x1FF0F)) with
        sw := { s.sw with onceLate := Tab.set (fun _ => false) s.sw.onceLate n false } })) ∧
  (∀ (w : Who) (s : State) (n : Nat) (d : Word), Admitted w s → n < 1024 → fieldOf d 8 9 ≤ 319 → bitOf d 0 = false →
    exec (.launchArm w n d) s = .next (acked ((s.setReg (launchAddr n)
      ((s.reg (launchAddr n) &&& ~~~(word 0x1FF0F)) ||| (d &&& word 0x1FF0F))).setBit (launchAddr n + 0x18) 0 false))) ∧
  (∀ (w : Who) (s : State) (n : Nat) (d : Word), Admitted w s → n < 1024 → 319 < fieldOf d 8 9 →
    exec (.launchArm w n d) s = .next (refusedWrite (s.masterError w (launchAddr n) true))) ∧
  (∀ (w : Who) (s : State) (q : Nat) (d : Word), Admitted w s → q < 320 → fieldOf d 0 2 ≠ 3 →
    Leaves (.lqModeWrite w q d) s (fun t => t.lqMode q = fieldOf d 0 2 ∧ OtherRegs s t [lqAddr q] ∧ t = { acked s with regs := t.regs })) ∧
  (∀ (w : Who) (s : State) (q : Nat) (d : Word), Admitted w s → q < 320 → fieldOf d 0 2 = 3 →
    exec (.lqModeWrite w q d) s = .next (refusedWrite (s.masterError w (lqAddr q) true))) ∧
  (∀ (s : State) (o x : Nat), o < 2 → s.ppsInstant o = some x → s.bit (timeReg (0x400 + 0x40 * o)) 0 = true → s.flt.f3 = false → s.flt.f4 = false →
    Tab.get (fun _ => none) s.tb.ppsAt o ≠ some x →
    Leaves (.ppsOutPulse o) s (fun t => (s.mgt.phase ≠ .unpowered → s.mgt.porstLow = false → t.ppsLevel o = some (!s.bit (timeReg (0x400 + 0x40 * o)) 1)) ∧
      Tab.get (fun _ => false) t.tb.ppsHigh o = true ∧ Tab.get (fun _ => none) t.tb.ppsAt o = some x ∧
      Tab.get (fun _ => 0) t.tb.ppsEnd o = s.ns - s.past x + s.fld (timeReg (0x410 + 0x40 * o)) 0 30 ∧ t = { s with tb := t.tb })) ∧
  (∀ (s : State) (o : Nat), o < 2 → (s.bit (timeReg (0x400 + 0x40 * o)) 0 = false ∨ s.flt.f3 = true ∨ s.flt.f4 = true ∨ s.ppsInstant o = none) →
    exec (.ppsOutPulse o) s = .next s) ∧
  (∀ (s : State) (o : Nat), o < 2 → Tab.get (fun _ => false) s.tb.ppsHigh o = true → Tab.get (fun _ => 0) s.tb.ppsEnd o ≤ s.ns →
    Leaves (.ppsOutPulseEnd o) s (fun t => (s.mgt.phase ≠ .unpowered → s.mgt.porstLow = false → t.ppsLevel o = some (s.bit (timeReg (0x400 + 0x40 * o)) 1)) ∧
      Tab.get (fun _ => false) t.tb.ppsHigh o = false ∧ t = { s with tb := t.tb })) ∧
  (∀ (s : State) (o : Nat), o < 2 → (Tab.get (fun _ => false) s.tb.ppsHigh o = false ∨ s.ns < Tab.get (fun _ => 0) s.tb.ppsEnd o) →
    exec (.ppsOutPulseEnd o) s = .next s) ∧
  (∀ (s : State) (i : Nat) (r : Bool), i < 2 → s.bit (timeReg (0x500 + 0x40 * i)) (if r then 0 else 1) = true →
    (Tab.get (fun _ => []) s.tb.caps i).length < 16 →
    exec (.ppsInCapture i r) s = .next { s with
      tb := { s.tb with caps := Tab.set (fun _ => []) s.tb.caps i (Tab.get (fun _ => []) s.tb.caps i ++ [⟨word (2 ^ 31 + bit01 r), s.time⟩]) } }) ∧
  (∀ (s : State) (i : Nat) (r : Bool), i < 2 → s.bit (timeReg (0x500 + 0x40 * i)) (if r then 0 else 1) = true →
    16 ≤ (Tab.get (fun _ => []) s.tb.caps i).length →
    exec (.ppsInCapture i r) s = .next ((s.setBit timeSticky 6 true).bump (timeReg (0x520 + 0x40 * i)))) ∧
  (∀ (s : State) (i : Nat) (r : Bool), i < 2 → s.bit (timeReg (0x500 + 0x40 * i)) (if r then 0 else 1) = false →
    exec (.ppsInCapture i r) s = .next s)

/-- R291, R292, R301, R302, R304 to R306, R314, R326: a context is enabled with its checks and starts in LISTEN, a lead builds its reference 4 µs
ahead, a slot releases the frame that it is for, a reference takes effect or its absence counts, and a lead that hears nothing enters COLD. -/
def Obligations.StationsKeepTheirCycle : Prop :=
  (∀ (w : Who) (s : State) (r : Nat) (d : Word), Admitted w s → r < 4 → s.ctxOn r = false → bitOf d 0 = true → s.ctxEnableOk r d = true →
    Leaves (.ropeContextEnable w r d) s (fun t => t.reg (ctxReg r 0) = word (fieldOf d 0 28) ∧
      t.station r = (if fieldOf d 1 2 = 0 then 0 else 1) ∧ t.anchor r = (if bitOf d 5 then 1 else 0) ∧ t.acting r = false ∧ t.missed r = 0 ∧
      t.ctx r = { CtxSt.reset with listenAt := s.cyc } ∧ (∀ j, j ≠ r → t.ctx j = s.ctx j) ∧
      t.reg64 (ctxReg r 0x48) = s.tickIndex / s.fld (ctxReg r 4) 0 11 ∧
      OtherRegs s t [ctxReg r 0, ctxReg r 0x40, ctxReg r 0x48, ctxReg r 0x4C] ∧ t = { acked s with regs := t.regs, rope := t.rope })) ∧
  (∀ (w : Who) (s : State) (r : Nat) (d : Word), Admitted w s → r < 4 → bitOf d 0 = true → (s.ctxOn r = true ∨ s.ctxEnableOk r d = false) →
    exec (.ropeContextEnable w r d) s = .next (refusedWrite (s.masterError w (ctxReg r 0) true))) ∧
  (∀ (w : Who) (s : State) (r : Nat) (d : Word), Admitted w s → r < 4 → s.ctxOn r = true → bitOf d 0 = false → fieldOf d 1 2 ≠ 3 →
    (s.ctx r).wins = [] →
    exec (.ropeContextDisable w r d) s =
      .next (acked (((s.setReg (ctxReg r 0) (word (fieldOf d 0 28))).setReg (ctxReg r 0x40) 0).setCtx r CtxSt.reset))) ∧
  (∀ (w : Who) (s : State) (r : Nat) (d : Word), Admitted w s → r < 4 → fieldOf d 1 2 = 3 →
    exec (.ropeContextDisable w r d) s = .next (refusedWrite (s.masterError w (ctxReg r 0) true))) ∧
  (∀ (s : State) (r x c : Nat), r < 4 → s.ctxOn r = true → (s.ctx r).running = true → s.leadSends r = true → s.buildDue r = some (x, c) →
    Leaves (.refBuild r) s (fun t => (t.ctx r).buildX = some x ∧ (t.ctx r).sent = false ∧
      (∃ o, (t.ctx r).own = some o ∧ o.cycle = c ∧ o.own = true ∧ o.poll = s.pollBytes r 0x100 ∧ o.leads = s.leads r ∧ o.rank = s.leadRank r) ∧
      (s.station r ≠ 2 → t.acting r = true) ∧ (∀ i, i < 8 → t.bit (ctxReg r (0x180 + 4 * i)) 0 = false) ∧
      (∀ j, j ≠ r → t.ctx j = s.ctx j) ∧ t.time = s.time ∧ t.mem = s.mem)) ∧
  (∀ (s : State) (r : Nat), r < 4 → (s.ctxOn r = false ∨ (s.ctx r).running = false ∨ s.leadSends r = false ∨ s.buildDue r = none) →
    exec (.refBuild r) s = .next s) ∧
  (∀ (s : State) (r i p : Nat), r < 4 → i < 4096 → p < 40 → s.stationPort r p = true → (s.ctx r).running = true → (s.slots r).contains i = true →
    (s.ctx r).released ≤ i → (s.ctx r).triedSlot ≠ i + 1 → s.slotAt r i ≤ s.ns + bytesNs (s.linkSpeed p) 8 →
    s.ns + bytesNs (s.linkSpeed p) 8 < s.slotAt r i + 10 → s.queue (8 * p + s.rq r) = [] → s.portSet r 0x08 = 2 ^ p →
    s.slotKind r (s.bankOf r) i = 2 → s.slotOwner r (s.bankOf r) i = s.nodeId r →
    exec (.slotRelease r i p) s =
      .next ((s.setCtx r { s.ctx r with triedSlot := i + 1, triedPorts := 2 ^ p, released := i + 1 }).bump (ctxReg r 0x228))) ∧
  (∀ (s : State) (r i p : Nat), r < 4 → i < 4096 → p < 40 → s.stationPort r p = true → (s.ctx r).running = true → (s.slots r).contains i = true →
    (s.ctx r).released ≤ i → (s.ctx r).triedSlot ≠ i + 1 → s.slotAt r i ≤ s.ns + bytesNs (s.linkSpeed p) 8 →
    s.ns + bytesNs (s.linkSpeed p) 8 < s.slotAt r i + 10 → s.queue (8 * p + s.rq r) = [] → s.portSet r 0x08 &&& 2 ^ p ≠ s.portSet r 0x08 →
    exec (.slotRelease r i p) s = .next (s.setCtx r { s.ctx r with triedSlot := i + 1, triedPorts := 2 ^ p })) ∧
  (∀ (s : State) (r i p : Nat), r < 4 → i < 4096 → p < 40 → i < (s.ctx r).released → exec (.slotRelease r i p) s = .next s) ∧
  (∀ (s : State) (r i p n : Nat) (c : Copy) (cs : List Copy) (x : Frame), r < 4 → i < 4096 → p < 40 → s.stationPort r p = true →
    (s.ctx r).running = true → (s.slots r).contains i = true → (s.ctx r).released ≤ i → (s.ctx r).triedSlot ≠ i + 1 →
    s.overage (8 * p + s.rq r) c = false → s.creditLeft p = true → n = min (portCredits p - Tab.get (fun _ => 0) s.sw.creditsOut p) (max 1 x.cells) →
    s.slotAt r i ≤ s.ns + bytesNs (s.linkSpeed p) 8 → s.ns + bytesNs (s.linkSpeed p) 8 < s.slotAt r i + 10 →
    s.queue (8 * p + s.rq r) = c :: cs → s.frame c.frame = some x → c.after = none → s.tx p = none → s.portSends p = true → x.arriving = false →
    s.pauseHeld (8 * p + s.rq r) = false → s.slotMatches r i (c.base x.bytes) = true → s.ns + s.wireNs p (c.length x) ≤ s.slotEnd r i →
    s.tooLong p (s.rq r) c x = false → s.lqMode (8 * p + s.rq r) ≠ 2 → Tab.get (fun _ => none) s.sw.shapers (8 * p + s.rq r) = none →
    s.copyPtp c x = none → x.limit = none → s.bit (pcfg p) 25 = false → c.egress = p →
    Leaves (.slotRelease r i p) s (fun t =>
      t.tx p = some ⟨c, n, s.releaseEdits r i (c.base x.bytes), 8 * p + s.rq r, shaperBytes p c x, none, none⟩ ∧
      t.queue (8 * p + s.rq r) = cs ∧
      t.count (ctxReg r 0x220) = s.count (ctxReg r 0x220) + 1 ∧ OtherCounts s t [ctxReg r 0x220] ∧
      t.ctx r = { s.ctx r with released := i + 1 } ∧ t.regs = s.regs)) ∧
  (∀ (s : State) (r i p : Nat), r < 4 → i < 4096 → p < 40 → (s.stationPort r p = false ∨ (s.ctx r).running = false ∨ (s.slots r).contains i = false) →
    exec (.slotRelease r i p) s = .next s) ∧
  (∀ (s : State) (r : Nat) (x : RopeRef), r < 4 → (s.ctx r).carry = none → s.refPending r = some x → s.refTime r = true → (s.ctx r).took = false →
    x.poll.length = 128 →
    Leaves (.refTakeEffect r) s (fun t => t.ctx r = { s.ctx r with took := true, inForce := some x } ∧ (∀ j, j ≠ r → t.ctx j = s.ctx j) ∧
      t.missed r = 0 ∧ t.fld (ctxReg r 0x40) 6 2 = x.rank % 4 ∧ t.pollBytes r 0x80 = x.poll ∧
      t.count (ctxReg r 0x200) = s.count (ctxReg r 0x200) + (if x.own then 0 else 1) ∧ OtherCounts s t [ctxReg r 0x200] ∧
      (x.own = false → t.acting r = false) ∧ (t.synced r = true → (t.station r = 4 ↔ t.polled r (t.nodeId r) = true)) ∧
      (x.own = false → s.acting r = true → t.bit (ctxReg r 0x50) 1 = true ∧
        t.flt = { s.flt with bus := s.flt.bus ++ [s.newEvent 0x5E 0 (r * 256 + 1) 0 []] }) ∧
      ((x.own = true ∨ s.acting r = false) → t.flt = s.flt) ∧
      t = { s with rope := t.rope, regs := t.regs, cnts := t.cnts, flt := t.flt })) ∧
  (∀ (s : State) (r : Nat) (y : RefCarry) (x : RopeRef), r < 4 → (s.ctx r).carry = some y → s.ctxOn r = true → y.due ≤ s.ns → s.refOfCycle r y = some x →
    s.acting r = false → x.poll.length = 128 →
    Leaves (.refTakeEffect r) s (fun t => t.ctx r = { s.ctx r with carry := none, inForce := some x } ∧ (∀ j, j ≠ r → t.ctx j = s.ctx j) ∧
      t.missed r = 0 ∧ t.fld (ctxReg r 0x40) 6 2 = x.rank % 4 ∧ t.pollBytes r 0x80 = x.poll ∧
      t = { s with rope := t.rope, regs := t.regs, cnts := t.cnts })) ∧
  (∀ (s : State) (r : Nat) (y : RefCarry), r < 4 → (s.ctx r).carry = some y → (s.ctxOn r = false ∨ s.ns < y.due) →
    exec (.refTakeEffect r) s = .next s ∧ exec (.refSlotClose r) s = .next s) ∧
  (∀ (s : State) (r : Nat), r < 4 → (s.ctx r).carry = none → (s.refPending r = none ∨ s.refTime r = false ∨ (s.ctx r).took = true) →
    exec (.refTakeEffect r) s = .next s) ∧
  (∀ (s : State) (r : Nat), r < 4 → (s.ctx r).carry = none → s.refTime r = true → (s.ctx r).took = false → (s.ctx r).closed = false →
    s.refPending r = none → Leaves (.refSlotClose r) s (fun t => t.missed r = min 8 (s.missed r + 1) ∧ (t.ctx r).closed = true ∧
      t.count (ctxReg r 0x210) = s.count (ctxReg r 0x210) + 1 ∧ OtherCounts s t [ctxReg r 0x210] ∧
      (7 ≤ s.missed r → s.synced r = true → s.acting r = false → t.station r = 1 ∧ t.bit (ctxReg r 0x50) 2 = true) ∧
      (7 ≤ s.missed r → s.synced r = true → s.acting r = false →
        t.flt = { s.flt with bus := s.flt.bus ++ [s.newEvent 0x5E 0 (r * 256 + 2) 0 []] }) ∧
      (7 ≤ s.missed r → s.anchor r = 3 → t.anchor r = 1) ∧
      (s.missed r < 7 → t.station r = s.station r ∧ t.anchor r = s.anchor r ∧ t.flt = s.flt) ∧
      OtherRegs s t [ctxReg r 0x40, ctxReg r 0x50] ∧ t = { s with rope := t.rope, regs := t.regs, cnts := t.cnts, flt := t.flt })) ∧
  (∀ (s : State) (r : Nat), r < 4 → (s.ctx r).carry = none → (s.refTime r = false ∨ (s.ctx r).took = true ∨ (s.ctx r).closed = true) →
    exec (.refSlotClose r) s = .next s) ∧
  (∀ (s : State) (r : Nat), r < 4 → s.ctxOn r = true → s.isLead r = true → s.station r = 1 →
    (2 + 2 * s.leadRank r) * s.cycleNs r ≤ 2 * (s.cyc - (s.ctx r).listenAt) →
    Leaves (.coldEntry r) s (fun t => t.station r = 2 ∧ t.bit (ctxReg r 0x50) 6 = true ∧ t.ctx r = { s.ctx r with colds := 0 } ∧
      t.flt = { s.flt with bus := s.flt.bus ++ [s.newEvent 0x5E 0 (r * 256 + 6) 0 []] } ∧
      OtherRegs s t [ctxReg r 0x40, ctxReg r 0x50] ∧ t = { s with rope := t.rope, regs := t.regs, flt := t.flt })) ∧
  (∀ (s : State) (r : Nat), r < 4 → (s.ctxOn r = false ∨ s.isLead r = false ∨ s.station r ≠ 1) → exec (.coldEntry r) s = .next s)

/-- R307 to R313: an anchor in SYNC opens a window with its token, which is used once or expires; a shared window goes to its earliest frame, a frame
past its end limit is cut and counted against its port, an anchor in LOCKING that hears no reference for 8 cycles returns to UNSYNC, and a port
reconnects. -/
def Obligations.AnchorsGuardTheRope : Prop :=
  (∀ (s : State) (r i : Nat), r < 4 → i ≤ 4096 → s.ctxOn r = true → s.anchor r = 3 → (s.ctx r).running = true → (s.slots r).contains i = true →
    s.slotKind r (s.bankOf r) i ≠ 4 → s.openPorts r i ≠ [] → s.winStart r i ≤ s.ns → s.ns < s.winEnd r i → s.win r i = none →
    (s.ctx r).ended.contains i = false →
    s.fld (ropeReg 0x28) 0 16 < 65535 →
    Leaves (.anchorWindowOpen r i) s (fun t => (∃ w, t.win r i = some w ∧ w.used = false ∧ w.rivals = []) ∧
      (∀ j, j ≠ i → t.win r j = s.win r j) ∧ t.count (slotCnt 0) = s.count (slotCnt 0) + 1 ∧ OtherCounts s t [slotCnt 0] ∧
      t.fld (ropeReg 0x28) 0 16 = s.fld (ropeReg 0x28) 0 16 + 1 ∧ OtherRegs s t [ropeReg 0x28] ∧
      t = { s with rope := t.rope, regs := t.regs, cnts := t.cnts })) ∧
  (∀ (s : State) (r i : Nat), r < 4 → i ≤ 4096 → (s.ctxOn r = false ∨ s.anchor r ≠ 3 ∨ (s.ctx r).running = false ∨
      (slotForms i).find? (s.windowNow r) = none) →
    exec (.anchorWindowOpen r i) s = .next s) ∧
  (∀ (s : State) (r i j : Nat), r < 4 → i ≤ 4096 → (slotForms i).find? (s.windowNow r) = some j → (s.win r j ≠ none ∨ (s.ctx r).ended.contains j = true) →
    exec (.anchorWindowOpen r i) s = .next s) ∧
  (∀ (s : State) (r i : Nat) (w : RopeWin), r < 4 → i < 4096 → s.win r i = some w → w.rivals = [] → w.used = false → s.winEnd r i + s.unjudgedNs r i ≤ s.ns →
    Leaves (.anchorWindowEnd r i) s (fun t => t.win r i = none ∧ (∀ j, j ≠ i → t.win r j = s.win r j) ∧
      t.count (slotCnt 2) = s.count (slotCnt 2) + 1 ∧ t.fld (ropeReg 0x28) 0 16 = (s.fld (ropeReg 0x28) 0 16 - 1) ∧
      OtherRegs s t [ropeReg 0x28] ∧ t = { s with rope := t.rope, regs := t.regs, cnts := t.cnts })) ∧
  (∀ (s : State) (r i : Nat) (w : RopeWin), r < 4 → i < 4096 → s.win r i = some w → w.rivals = [] → w.used = true → s.winEnd r i + s.unjudgedNs r i ≤ s.ns →
    Leaves (.anchorWindowEnd r i) s (fun t => t.win r i = none ∧ t = { s with rope := t.rope })) ∧
  (∀ (s : State) (r i : Nat), r < 4 → i ≤ 4096 → (i = 4096 ∨ (slotForms i).find? (s.windowDone r) = none) →
    exec (.anchorWindowEnd r i) s = .next s) ∧
  (∀ (s : State) (r f : Nat) (w : RopeWin) (x : Frame), r < 4 → (s.ctx r).wins = [w] → w.rivals = [f] → w.used = false → s.frame f = some x →
    x.bad = false → x.arriving = true → x.late = false → w.slot < staleSlot → x.stamp / nsUnit + 640 ≤ s.ns →
    Leaves (.sharedWindowDecision r) s (fun t => (t.ctx r).wins = [{ w with used := true, rivals := [] }] ∧
      t.count (slotCnt 1) = s.count (slotCnt 1) + 1 ∧ (w.slot ≠ coldSlot → t.anchor r = s.anchor r) ∧
      (w.slot = coldSlot → t.anchor r = 2 ∧ t.fld (ctxReg r 0x40) 12 6 = x.ingress % 64) ∧ t.mem = s.mem ∧ t.time = s.time)) ∧
  (∀ (s : State) (r : Nat), r < 4 → (s.ctx r).wins = [] → exec (.sharedWindowDecision r) s = .next s) ∧
  (∀ (s : State) (p f r lim : Nat) (y : Rx) (x : Frame), p < 40 → s.rx p = some y → y.frame = some f → s.frame f = some x →
    x.limit = some (lim, r) → r < 4 → x.waits = false → x.late = false → x.bad = false → x.reason = 0 → x.arriving = true → lim ≤ s.ns → s.anchor r = 3 →
    s.fld (aport p 0) 1 2 < 2 →
    s.isQueued f = false →
    Leaves (.anchorTruncation p) s (fun t => t.fld (aport p 0) 1 2 = s.fld (aport p 0) 1 2 + 1 ∧ t.disc p = s.disc p ∧
      t.count (aport p 0x18) = s.count (aport p 0x18) + 1 ∧ (∃ z, t.frame f = some z ∧ z.bad = true ∧ z.reason = 3) ∧
      OtherRegs s t [aport p 0] ∧ t.rope = s.rope)) ∧
  (∀ (s : State) (p f r lim : Nat) (y : Rx) (x : Frame), p < 40 → s.rx p = some y → y.frame = some f → s.frame f = some x →
    x.limit = some (lim, r) → r < 4 → x.waits = false → x.late = false → x.bad = false → x.arriving = true → lim ≤ s.ns → s.anchor r = 3 →
    2 ≤ s.fld (aport p 0) 1 2 →
    s.isQueued f = false →
    Leaves (.anchorTruncation p) s (fun t => t.reg (aport p 0) = 1 ∧ t.disc p = true ∧ t.count (aport p 0x20) = s.count (aport p 0x20) + 1 ∧
      (∀ c n, c < 4 → n < 1024 → t.isNodePort c n p = false) ∧
      (∃ e, t.flt = { s.flt with bus := s.flt.bus ++ [e] } ∧ e.src = 0x5E ∧ e.cls = 0 ∧ e.cause = p * 256 + 0x10))) ∧
  (∀ (s : State) (p f r lim : Nat) (y : Rx) (x : Frame), p < 40 → s.rx p = some y → y.frame = some f → s.frame f = some x →
    x.limit = some (lim, r) → x.waits = true → x.late = false → x.bad = false → x.arriving = true → lim ≤ s.ns →
    exec (.anchorTruncation p) s = .next (s.onFrame f (fun z => { z with late := true }))) ∧
  (∀ (s : State) (p : Nat), p < 40 → s.rx p = none → exec (.anchorTruncation p) s = .next s) ∧
  (∀ (s : State) (p f r lim : Nat) (y : Rx) (x : Frame), p < 40 → s.rx p = some y → y.frame = some f → s.frame f = some x →
    x.limit = some (lim, r) → s.ns < lim → exec (.anchorTruncation p) s = .next s) ∧
  (∀ (s : State) (r : Nat), r < 4 → s.ctxOn r = true → s.anchor r = 2 → 8 ≤ (s.ctx r).lockMiss →
    exec (.anchorLockTimeout r) s = .next (s.setFld (ctxReg r 0x40) 4 2 1)) ∧
  (∀ (s : State) (r : Nat), r < 4 → (s.anchor r ≠ 2 ∨ (s.ctx r).lockMiss < 8) → exec (.anchorLockTimeout r) s = .next s) ∧
  (∀ (w : Who) (s : State) (p : Nat) (d : Word), Admitted w s → p < 40 →
    exec (.reconnect w p d) s = .next (acked (if bitOf d 0 then s.setReg (aport p 0) 0 else s)))

/-- R329, R333, R344, R345, R351: commands to an axis, a SEG_WR that adds segments to the ring as what was noted before leaves it, and a GO that may
start are noted for the next grid point, the GO with its targets; a ratio change is queued while there is room, and a kick holds off the watchdog,
which else stops a moving axis. -/
def Obligations.TraverseTakesItsCommands : Prop :=
  (∀ (w : Who) (s : State) (a : Nat), Admitted w s → a < 64 →
    exec (.travRun w a) s = .next (acked (noted s a 1)) ∧ exec (.travTarget w a) s = .next (acked (noted s a 2)) ∧
    exec (.travStop w a) s = .next (acked (noted s a 3)) ∧ exec (.travHome w a) s = .next (acked (noted s a 4)) ∧
    exec (.travGear w a) s = .next (acked (noted s a 5)) ∧ exec (.travClear w a) s = .next (acked (noted s a 6))) ∧
  (∀ (w : Who) (s : State) (a n : Nat) (d : Word), Admitted w s → a < 64 → fieldOf d 0 13 = n → n < s.ahead.segSize a →
    s.ahead.segQueued a (s.ahead.segWr a) ≤ s.ahead.segQueued a n →
    exec (.segWrWrite w a d) s = .next (acked (s.noteOrder (.segWr a n)))) ∧
  (∀ (w : Who) (s : State) (a n : Nat) (d : Word), Admitted w s → a < 64 → fieldOf d 0 13 = n → s.ahead.segSize a ≤ n →
    exec (.segWrWrite w a d) s = .next (refusedWrite (s.masterError w (axisReg a 0x2C) true))) ∧
  (∀ (w : Who) (s : State) (a n : Nat) (d : Word), Admitted w s → a < 64 → fieldOf d 0 13 = n → n < s.ahead.segSize a →
    s.ahead.segQueued a n < s.ahead.segQueued a (s.ahead.segWr a) →
    exec (.segWrWrite w a d) s = .next (refusedWrite ((s.axisSticky a 0).masterError w (axisReg a 0x2C) true))) ∧
  (∀ (w : Who) (s : State) (a : Nat) (d : Word), Admitted w s → a < 64 → fieldOf d 0 2 ≠ 0 → (s.axis a).changes.length < 16 →
    exec (.gearQPush w a d) s = .next (acked (s.setAxis a { s.axis a with changes := (s.axis a).changes ++
      [⟨s.reg64 (axisReg a 0x90), (s.reg (axisReg a 0x98)).toInt, (s.reg (axisReg a 0x9C)).toNat, fieldOf d 0 2⟩] }))) ∧
  (∀ (w : Who) (s : State) (a : Nat) (d : Word), Admitted w s → a < 64 → fieldOf d 0 2 = 0 →
    exec (.gearQPush w a d) s = .next (refusedWrite (s.masterError w (axisReg a 0xA0) true))) ∧
  (∀ (w : Who) (s : State) (a : Nat) (d : Word), Admitted w s → a < 64 → fieldOf d 0 2 ≠ 0 → 16 ≤ (s.axis a).changes.length →
    exec (.gearQPush w a d) s = .next (refusedWrite ((s.axisSticky a 9).masterError w (axisReg a 0xA0) true))) ∧
  (∀ (w : Who) (s : State) (g : Nat) (d : Word) (ts : List (Nat × Int)), Admitted w s → g < 8 → bitOf d 0 = true → ts = s.groupTargets g →
    s.groupAllowed g ts = true → s.trav.cmds.all (fun o => !TravOrder.claims g ts o) = true →
    exec (.groupGo w g d) s = .next (acked (s.noteOrder (.go g ts)))) ∧
  (∀ (w : Who) (s : State) (g : Nat) (d : Word) (ts : List (Nat × Int)), Admitted w s → g < 8 → bitOf d 0 = true → ts = s.groupTargets g →
    (s.groupAllowed g ts = false ∨ s.trav.cmds.any (TravOrder.claims g ts) = true) →
    exec (.groupGo w g d) s = .next (refusedWrite ((s.setBit (groupReg g 0x0C) 1 true).masterError w (groupReg g 8) true))) ∧
  (∀ (w : Who) (s : State) (g : Nat) (d : Word), Admitted w s → g < 8 → bitOf d 0 = false → exec (.groupGo w g d) s = .next (acked s)) ∧
  (∀ (w : Who) (s : State) (a : Nat) (d : Word), Admitted w s → a < 64 →
    exec (.kick w a d) s = .next (acked (s.setAxis a { s.axis a with kick := (s.count (tickReg 0x30)).toNat }))) ∧
  (∀ (s : State) (a : Nat), a < 64 → s.axisOn a = true → s.fld (axisReg a 0xA8) 0 16 ≠ 0 → (s.axis a).v ≠ 0 → (s.axis a).state = 1 →
    (s.axis a).kick + s.fld (axisReg a 0xA8) 0 16 ≤ (s.count (tickReg 0x30)).toNat → s.trav.groups = [] →
    Leaves (.travWatchdogExpiry a) s (fun t => (t.axis a).state = 4 ∧ (t.axis a).after = 0 ∧ (t.axis a).p = (s.axis a).p ∧
      t.bit (axisReg a 0x44) 8 = true ∧ (∀ b, b ≠ a → t.axis b = s.axis b) ∧ OtherRegs s t [axisReg a 0x44] ∧
      t.flt = { s.flt with bus := s.flt.bus ++ [s.newEvent 0x5F 0 (a * 256 + 8) 0 []] } ∧
      t = { s with regs := t.regs, trav := t.trav, flt := t.flt })) ∧
  (∀ (s : State) (a : Nat), a < 64 → (s.axisOn a = false ∨ s.fld (axisReg a 0xA8) 0 16 = 0 ∨ (s.axis a).moving = false ∨
    (s.count (tickReg 0x30)).toNat < (s.axis a).kick + s.fld (axisReg a 0xA8) 0 16) → exec (.travWatchdogExpiry a) s = .next s)

/-- R328 to R332, R335, R336, R341, R343, R348, R349: a grid point brings an axis along its segment and takes its commands; a home flag captures the
position and stops the axis; the setpoint view is written once in a tick, and in FAULT its values hold. -/
def Obligations.AxesMoveOnTheGrid : Prop :=
  (∀ (s : State) (g : Int), s.trav.grid = some g → s.gridTime ≤ g → exec .gridPoint s = .next s) ∧
  (∀ (s : State) (a : Nat) (t : Int) (g : MotionSeg), AloneOnGrid s a t → s.trav.cmds = [] → (s.axis a).state = 1 → (s.axis a).seg = some g →
    t < g.start + Int.ofNat g.len →
    Leaves .gridPoint s (fun u => (u.axis a).p = g.pos (t - g.start) ∧ (u.axis a).v = g.vel (t - g.start) ∧ (u.axis a).state = 1 ∧
      (u.axis a).seg = some g ∧ u.trav.grid = some t ∧ u.trav.cmds = [] ∧ u.time = s.time ∧ u.mem = s.mem)) ∧
  (∀ (s : State) (a : Nat) (t : Int), AloneOnGrid s a t → s.trav.cmds = [] → (s.axis a).state = 0 → (s.axis a).seg = none →
    Leaves .gridPoint s (fun u => (u.axis a).p = (s.axis a).p ∧ (u.axis a).v = (s.axis a).v ∧ (u.axis a).state = 0 ∧
      u.trav.grid = some t)) ∧
  (∀ (s : State) (a : Nat) (t x : Int) (g : MotionSeg), AloneOnGrid s a t → s.trav.cmds = [.cmd a 1 x] → (s.axis a).state = 0 →
    (s.axis a).seg = none → s.segWaits a = true → g = s.segAt a (s.segRd a) (s.axis a).p (s.axis a).v t → 0 < g.len →
    g.speedOk (s.reg (axisReg a 0x0C)).toNat = true → g.accelOk (s.amax a).num = true → g.limitsOk (s.posMin a) (s.posMax a) = true →
    0 < s.segSize a → s.segSize a ≤ 8192 →
    Leaves .gridPoint s (fun u => (u.axis a).state = 1 ∧ (u.axis a).seg = some g ∧ u.segRd a = (s.segRd a + 1) % s.segSize a ∧
      (u.axis a).kick = (s.count (tickReg 0x30)).toNat ∧ u.trav.cmds = [])) ∧
  (∀ (s : State) (a : Nat) (t x : Int) (g : MotionSeg), AloneOnGrid s a t → s.trav.cmds = [.cmd a 3 x] → (s.axis a).state = 1 →
    (s.axis a).seg = some g → t < g.start + Int.ofNat g.len → g.vel (t - g.start) ≠ 0 →
    Leaves .gridPoint s (fun u => ((u.axis a).state = 4 ∨ ((u.axis a).state = 0 ∧ (u.axis a).v = 0)) ∧ u.trav.cmds = [])) ∧
  (∀ (s : State) (a : Nat) (t x : Int), AloneOnGrid s a t → s.trav.cmds = [.cmd a 4 x] → (s.axis a).state = 0 → (s.axis a).seg = none →
    Leaves .gridPoint s (fun u => (u.axis a).state = 5 ∧ (u.axis a).homed = false ∧ (u.axis a).captured = none)) ∧
  (∀ (s : State) (a : Nat) (t x : Int), AloneOnGrid s a t → s.trav.cmds = [.cmd a 5 x] → (s.axis a).state = 0 → (s.axis a).seg = none →
    s.gearKind a = 0 →
    Leaves .gridPoint s (fun u => (u.axis a).state = 2 ∧ (u.axis a).sref = (s.axis a).p ∧ (u.axis a).p = (s.axis a).p ∧
      (u.axis a).num = (s.reg (axisReg a 0x74)).toInt ∧ (u.axis a).den = (s.reg (axisReg a 0x78)).toNat)) ∧
  (∀ (s : State) (a : Nat) (t x : Int), AloneOnGrid s a t → s.trav.cmds = [.cmd a 6 x] → (s.axis a).state = 6 → (s.axis a).seg = none →
    Leaves .gridPoint s (fun u => (u.axis a).state = 0 ∧ (u.axis a).v = 0 ∧ (u.axis a).p = (s.axis a).p)) ∧
  (∀ (s : State) (a : Nat) (t x : Int), AloneOnGrid s a t → s.trav.cmds = [.cmd a 2 x] → (s.axis a).state = 0 → (s.axis a).seg = none →
    (x < s.posMin a ∨ s.posMax a < x) →
    Leaves .gridPoint s (fun u => u.bit (axisReg a 0x44) 0 = true ∧ (u.axis a).state = 0 ∧ (u.axis a).p = (s.axis a).p)) ∧
  (∀ (s : State) (a : Nat) (t : Int) (n : Nat), AloneOnGrid s a t → s.trav.cmds = [.segWr a n] → (s.axis a).state = 0 → (s.axis a).seg = none →
    n < s.segSize a → s.segSize a ≤ 8192 →
    Leaves .gridPoint s (fun u => u.trav.cmds = [] ∧ (u.axis a).state = 0 ∧
      (s.segQueued a (s.segWr a) ≤ s.segQueued a n → u.segWr a = n ∧ u.segRd a = s.segRd a) ∧
      (s.segQueued a n < s.segQueued a (s.segWr a) → u.segWr a = s.segWr a ∧ u.bit (axisReg a 0x44) 0 = true))) ∧
  (∀ (s : State) (a : Nat) (t : Int) (i k : Nat) (d : Word), AloneOnGrid s a t → i < 8192 → k < 4 →
    s.trav.cmds = [.seg (travReg (0x100000 + 16 * i + 4 * k)) d] → (s.axis a).state = 0 → (s.axis a).seg = none →
    Leaves .gridPoint s (fun u => u.trav.cmds = [] ∧
      (s.segHeldBy i = none → u.reg (travReg (0x100000 + 16 * i + 4 * k)) = if k = 3 then word (fieldOf d 0 29) else d) ∧
      (∀ x, s.segHeldBy i = some x → u.reg (travReg (0x100000 + 16 * i + 4 * k)) = s.reg (travReg (0x100000 + 16 * i + 4 * k)) ∧
        u.bit (axisReg x 0x44) 0 = true))) ∧
  (∀ (s : State) (a g : Nat) (t x : Int), AloneOnGrid s a t → g < 8 → s.trav.cmds = [.go g [(a, x)]] → (s.axis a).state = 0 → (s.axis a).seg = none →
    s.groupAllowed g [(a, x)] = true → x ≠ (s.axis a).p → s.amax a ≠ ⟨0, 1⟩ → s.segWr a < s.segSize a → s.segBase a + s.segSize a ≤ 8192 →
    Leaves .gridPoint s (fun u => u.trav.cmds = [] ∧ u.groupOf g = some (s.groupPlan [(a, x)]).1 ∧ (u.axis a).state = 3 ∧
      (u.axis a).seg.isSome = true ∧ (u.axis a).p = (s.axis a).p ∧ (u.axis a).kick = (s.count (tickReg 0x30)).toNat ∧
      (∀ h, h ≠ g → u.groupOf h = none))) ∧
  (∀ (s : State) (a g : Nat) (t : Int) (ts : List (Nat × Int)), AloneOnGrid s a t → g < 8 → s.trav.cmds = [.go g ts] → (s.axis a).state = 0 →
    (s.axis a).seg = none → s.groupAllowed g ts = false →
    Leaves .gridPoint s (fun u => u.trav.cmds = [] ∧ u.bit (groupReg g 0x0C) 1 = true ∧ u.trav.groups = [] ∧ (u.axis a).state = 0 ∧
      (u.axis a).p = (s.axis a).p)) ∧
  (∀ (s : State) (a : Nat) (g : MotionSeg), a < 64 → (s.axis a).state = 5 → (s.axis a).captured = none → s.axisOn a = true → s.limFlag a 16 = true →
    (s.axis a).seg = some g → s.motionNs < g.start + Int.ofNat g.len → g.vel (s.motionNs - g.start) ≠ 0 →
    Leaves (.homeCapture a) s (fun t => (t.axis a).state = 5 ∧ (t.axis a).captured = some (g.pos (s.motionNs - g.start)) ∧
      (∀ b, b ≠ a → t.axis b = s.axis b) ∧ t = { s with trav := t.trav })) ∧
  (∀ (s : State) (a : Nat), a < 64 → ((s.axis a).state ≠ 5 ∨ (s.axis a).captured ≠ none ∨ s.axisOn a = false ∨ s.limFlag a 16 = false) →
    exec (.homeCapture a) s = .next s) ∧
  (∀ (s : State) (xs : List Setpoint), s.trav.spNew = some xs → xs.Pairwise (fun x y => x.axis ≠ y.axis) → (∀ x, x ∈ xs → x.axis < 64) →
    Leaves .setpointView s (fun t => t.trav = { s.trav with spNew := none } ∧ t.reg (travReg 4) = word s.tickIndex ∧
      (∀ x, x ∈ xs → t.reg (spReg x.axis 0x0C) = word x.state ∧
        (∀ p v, x.vals = some (p, v) → t.reg64 (spReg x.axis 0) = wrapInt p 64 ∧ t.reg (spReg x.axis 8) = wordOfInt v) ∧
        (x.vals = none → t.reg64 (spReg x.axis 0) = s.reg64 (spReg x.axis 0) ∧ t.reg (spReg x.axis 8) = s.reg (spReg x.axis 8))) ∧
      (∀ a, a < 64 → (∀ x, x ∈ xs → x.axis ≠ a) → ∀ o, o < 0x20 → t.reg (spReg a o) = s.reg (spReg a o)) ∧
      t = { s with trav := t.trav, regs := t.regs })) ∧
  (∀ s : State, s.trav.spNew = none → exec .setpointView s = .next s) ∧
  (∀ s : State, s.noteSetpoints.trav.spNew = some (((List.range 64).filter (fun a => s.netOut a)).map (fun a =>
    ⟨a, (s.axis a).state, if (s.axis a).state = 7 then none else some (s.foresee (Int.ofNat (s.tick.next.getD 0) - s.trav.skew) 64 a)⟩)))

/-- R383 to R387, R395 to R401, R404: the collector takes a detected fault, with its flags, its count and its units at safe level, an F3 is a device
fault; a line breaks by its code or by two path tests, each at its due time, without a pulse; events of the bus enter the queue or a tally; an
injection runs until its end. -/
def Obligations.FaultsAreCollected : Prop :=
  (∀ (s : State) (c x : Nat) (v : Word) (e : Event), c < 16 → s.flt.detected.find? (onLine (0x44 + c) 2) = some e → e.broken = false →
    e.waits = false →
    Leaves (.faultTaken (0x44 + c) 2 x v) s (fun t => t.lineLive (0x44 + c) 2 = true ∧
      (∀ o, o ∈ vectorUnits c e.vector → t.unitSafe o = true ∧ t.bit (outSafe o) 2 = true) ∧
      t.flt.detected = eraseFirst (onLine (0x44 + c) 2) s.flt.detected ∧ t.flt.bus = s.flt.bus ++ [e] ∧ t.bit fltSticky 2 = true ∧
      t.bit (fltReg (0x110 + 4 * ((0x44 + c) / 32))) ((0x44 + c) % 32) = true ∧ t.count (fltReg 0x3010) = s.count (fltReg 0x3010) + 1 ∧
      t.mem = s.mem ∧ t.time = s.time ∧ t.rope = s.rope)) ∧
  (∀ (s : State) (src x : Nat) (v : Word) (e : Event), src ≤ 0x6C → s.flt.detected.find? (onLine src 3) = some e →
    Leaves (.faultTaken src 3 x v) s (fun t => t.flt.f3 = true ∧ t.alivePin = false ∧ t.lineLive src 3 = true ∧
      (∀ o, o < 288 → t.unitSafe o = true ∧ t.bit (outSafe o) 4 = true) ∧ t.bit (swReg 0) 1 = true ∧
      (s.bit (travReg 0) 0 = true → ∀ a, a < 64 → (t.axis a).state = 7) ∧ t.mgt.troubled = true ∧ t.mem = s.mem)) ∧
  (∀ (s : State) (src cls x : Nat) (v : Word), src ≤ 0x6C → cls ≤ 1 → s.flt.detected.find? (onLine src cls) = none → s.flt.injection = none →
    exec (.faultTaken src cls x v) s = .next s) ∧
  (∀ (s : State) (src cls : Nat), src ≤ 0x6C → 2 ≤ cls → cls ≤ 4 → canRaise src cls = true → s.lineBroken src cls = false →
    Leaves (.pathBroken src cls) s (fun t => t.lineBroken src cls = true ∧ t.bit fltSticky 5 = true ∧
      (∃ e, e ∈ t.flt.bus ∧ e.src = src ∧ e.cls = cls ∧ e.cause = 0xFFFF ∧ e.broken = true) ∧ t.mem = s.mem)) ∧
  (∀ (s : State) (src cls : Nat), src ≤ 0x6C → cls ≤ 4 → (cls < 2 ∨ canRaise src cls = false ∨ s.lineBroken src cls = true) →
    exec (.pathBroken src cls) s = .next s ∧ ∀ b, exec (.pathTest src cls b) s = .next s) ∧
  (∀ (s : State) (src cls : Nat) (b : Bool), src ≤ 0x6C → cls ≤ 4 → s.testDue src cls = false → exec (.pathTest src cls b) s = .next s) ∧
  (∀ (s : State) (src cls : Nat) (b : Bool), src ≤ 0x6C → 2 ≤ cls → cls ≤ 4 → canRaise src cls = true → s.lineBroken src cls = false →
    s.testDue src cls = true → (b = true ∨ Tab.get (fun _ => false) s.flt.missed (lineKey src cls) = false) →
    exec (.pathTest src cls b) s =
      .next { s with flt := { s.flt with
        missed := Tab.set (fun _ => false) s.flt.missed (lineKey src cls) (!b),
        testAt := Tab.set (fun _ => 0) s.flt.testAt (lineKey src cls) (s.cyc + 1) } }) ∧
  (∀ (s : State) (src cls : Nat), src ≤ 0x6C → 2 ≤ cls → cls ≤ 4 → canRaise src cls = true → s.lineBroken src cls = false →
    s.testDue src cls = true → Tab.get (fun _ => false) s.flt.missed (lineKey src cls) = true →
    Leaves (.pathTest src cls false) s (fun t => t.lineBroken src cls = true ∧ t.bit fltSticky 5 = true)) ∧
  (∀ (s : State) (e : Event) (rest : List Event), s.flt.bus = e :: rest → e.inj = false →
    (e.cls ≤ 2 → (Tab.get (fun _ => ⟨0, 0⟩) s.flt.burst e.src).events < s.fld (fltReg 0x08) 8 8) → tallied s.flt.queue.length e.cls = false →
    Leaves .eventEnqueue s (fun t => t.flt.bus = rest ∧ t.flt.queue = s.flt.queue ++ [e] ∧
      (e.cls ≤ 1 → t.bit fltSticky e.cls = true ∧ t.count (fltReg (0x3000 + 8 * e.cls)) = s.count (fltReg (0x3000 + 8 * e.cls)) + 1) ∧
      t.mem = s.mem ∧ t.time = s.time)) ∧
  (∀ (s : State) (e : Event) (rest : List Event), s.flt.bus = e :: rest → e.inj = false → e.cls ≤ 2 → e.src ≤ 0x6C →
    (Tab.get (fun _ => ⟨0, 0⟩) s.flt.burst e.src).window = s.cyc / cycMs →
    s.fld (fltReg 0x08) 8 8 ≤ (Tab.get (fun _ => ⟨0, 0⟩) s.flt.burst e.src).events → (s.reg (tallyAddr e.src + 4 * e.cls)).toNat < 0xFFFFFFFE →
    Leaves .eventEnqueue s (fun t => t.flt.bus = rest ∧ t.flt.queue = s.flt.queue ∧
      (t.reg (tallyAddr e.src + 4 * e.cls)).toNat = (s.reg (tallyAddr e.src + 4 * e.cls)).toNat + 1 ∧ t.bit fltSticky 9 = true ∧
      t.count (fltReg 0x3030) = s.count (fltReg 0x3030) + 1 ∧ t.mem = s.mem)) ∧
  (∀ s : State, s.flt.bus = [] → exec .eventEnqueue s = .next s) ∧
  (∀ (w : Who) (s : State) (d : Word), ByMcp w → s.flt.injection = none → 2 ≤ fieldOf d 8 3 → fieldOf d 8 3 ≤ 4 →
    canRaise (fieldOf d 0 7) (fieldOf d 8 3) = true → bitOf d 30 = true → s.injAccepted (fieldOf d 12 2) (fieldOf d 8 3) = true →
    Leaves (.injGo w d) s (fun t => t.flt = { s.flt with
        injection := some ⟨fieldOf d 0 7, fieldOf d 8 3, fieldOf d 12 2, s.cyc, s.cyc + s.fld (fltReg 0x74) 0 20 * cycUs, false, false, false⟩ } ∧
      t.bit (fltReg 0x78) 0 = true ∧ OtherRegs s t [fltReg 0x70, fltReg 0x78] ∧ t = { acked s with regs := t.regs, flt := t.flt })) ∧
  (∀ (w : Who) (s : State) (d : Word), ByMcp w → s.flt.injection ≠ none →
    exec (.injGo w d) s = .next (refusedWrite (s.masterError w (fltReg 0x70) true))) ∧
  (∀ (w : Who) (s : State) (d : Word), Admitted w s → isHost w = true →
    exec (.injGo w d) s = .next (refusedWrite (s.masterError w (fltReg 0x70) true))) ∧
  (∀ (s : State) (i : Injection), s.flt.injection = some i → i.seen = false → i.real = false → i.starts + cycUs ≤ s.cyc →
    s.lineBroken i.src i.cls = false →
    Leaves .injMissed s (fun t => t.lineBroken i.src i.cls = true ∧ t.bit (fltReg 0x78) 3 = true ∧ t.bit fltSticky 5 = true)) ∧
  (∀ s : State, (s.flt.injection = none ∨ (∃ i, s.flt.injection = some i ∧ (i.seen = true ∨ s.cyc < i.starts + cycUs))) →
    exec .injMissed s = .next s) ∧
  (∀ (s : State) (i : Injection), s.flt.injection = some i → i.ends ≤ s.cyc →
    exec .injEnd s = .next ({ s with flt := { s.flt with injection := none } }.setBit (fltReg 0x78) 0 false)) ∧
  (∀ s : State, (s.flt.injection = none ∨ (∃ i, s.flt.injection = some i ∧ s.cyc < i.ends)) → exec .injEnd s = .next s) ∧
  (∀ (s : State) (u : Nat), s.flt.intUntil = some u → u ≤ s.cyc → s.flt.intWaits = false →
    exec .intHoldoffEnd s = .next { s with flt := { s.flt with intUntil := none, intWaits := false } }) ∧
  (∀ (s : State) (u : Nat), s.flt.intUntil = some u → u ≤ s.cyc → s.flt.intWaits = true → s.epTarget 1 ≠ 0 →
    Leaves .intHoldoffEnd s (fun t => t.flt.intWaits = false ∧ t.flt.intUntil = some (s.cyc + s.fld (fltReg 0x08) 16 16 * cycUs) ∧
      t.reg (dbPend (s.epTarget 1)) = s.reg (dbPend (s.epTarget 1)) ||| word (2 ^ 31) ∧
      Tab.get (fun _ => 0) t.host.vectors 16 = Tab.get (fun _ => 0) s.host.vectors 16 + 1)) ∧
  (∀ s : State, (s.flt.intUntil = none ∨ (∃ u, s.flt.intUntil = some u ∧ s.cyc < u)) → exec .intHoldoffEnd s = .next s)

/-- R388, R389, R391 to R394, R383: OUT_REL clears INIT of a free unit and LOCAL of one whose path is not broken, a unit without reasons is released,
ALIVE toggles at its instants while its conditions hold, heartbeats and kicks restart their watches, nSAFE acts on every unit until HOLD has passed
after it, and F3_CLR ends a device fault. -/
def Obligations.OutputsAreHeldAndReleased : Prop :=
  (∀ (w : Who) (s : State) (d : Word) (o : Nat), Admitted w s → fieldOf d 0 9 = o → o < 288 → bitOf d 9 = false → bitOf d 10 = true →
    s.holderOf o = none → s.reasons o = 1 →
    Leaves (.outRel w d) s (fun t => t.reasons o = 0 ∧ t.unitSafe o = s.unitSafe o ∧
      (s.bit (tickReg 8) 0 = true → t.bit (outSafe o) 6 = true) ∧ OtherRegs s t [outSafe o] ∧ t = { acked s with regs := t.regs })) ∧
  (∀ (w : Who) (s : State) (d : Word) (o : Nat), Admitted w s → fieldOf d 0 9 = o → o < 288 → bitOf d 9 = true → bitOf d 10 = false →
    s.lineBroken (0x44 + o / 16) 2 = false → s.bit (outSafe o) 2 = true →
    Leaves (.outRel w d) s (fun t => t.bit (outSafe o) 2 = false ∧ (∀ r, r < 5 → r ≠ 2 → t.bit (outSafe o) r = s.bit (outSafe o) r) ∧
      OtherRegs s t [outSafe o] ∧ t = { acked s with regs := t.regs })) ∧
  (∀ (w : Who) (s : State) (d : Word) (o : Nat), Admitted w s → fieldOf d 0 9 = o → o < 256 → bitOf d 9 = true →
    s.lineBroken (0x44 + o / 16) 2 = true → s.bit (outSafe o) 2 = true →
    exec (.outRel w d) s = .next (refusedWrite (s.masterError w (fltReg 0x2800) true))) ∧
  (∀ (w : Who) (s : State) (d : Word), Admitted w s → 288 ≤ fieldOf d 0 9 →
    exec (.outRel w d) s = .next (refusedWrite (s.masterError w (fltReg 0x2800) true))) ∧
  (∀ (s : State) (o : Nat), o < 288 → s.unitSafe o = true → s.reasons o = 0 →
    (s.bit (tickReg 8) 0 = false ∨ Tab.get (fun _ => false) s.flt.relReady o = true) →
    Leaves (.unitRelease o) s (fun t => t.unitSafe o = false ∧ t.bit (outSafe o) 6 = false ∧ t.reasons o = 0 ∧
      (256 ≤ o → (t.canc (o - 256)).sync = false) ∧ OtherRegs s t [outSafe o] ∧
      t = { s with regs := t.regs, flt := t.flt, can := t.can, pch := t.pch })) ∧
  (∀ (s : State) (o : Nat), o < 288 → (s.unitSafe o = false ∨ s.reasons o ≠ 0 ∨
    (s.bit (tickReg 8) 0 = true ∧ Tab.get (fun _ => false) s.flt.relReady o = false)) → exec (.unitRelease o) s = .next s) ∧
  (∀ (s : State) (i : Nat), i = s.cyc / (500 * cycUs) + 1 → s.flt.aliveAt ≠ i →
    exec .aliveToggle s = .next { s with flt := { s.flt with alive := s.aliveOk && !s.flt.alive, aliveAt := i } }) ∧
  (∀ (s : State) (i : Nat), i = s.cyc / (500 * cycUs) + 1 → s.flt.aliveAt = i →
    exec .aliveToggle s = .next { s with flt := { s.flt with alive := s.flt.alive && s.aliveOk } }) ∧
  (∀ (w : Who) (s : State) (d : Word), ByMcp w → (fieldOf d 0 8 = 0x5A ∨ fieldOf d 0 8 = 0xA5) → fieldOf d 0 8 ≠ s.flt.hbKey →
    exec (.heartbeat w d) s = .next (acked { s with flt := { s.flt with
      alive := s.flt.alive && s.aliveOk, hbKey := fieldOf d 0 8, hbAt := some s.cyc, hbLost := false } })) ∧
  (∀ (w : Who) (s : State) (d : Word), ByMcp w → (fieldOf d 0 8 = 0x5A ∨ fieldOf d 0 8 = 0xA5) → fieldOf d 0 8 = s.flt.hbKey →
    Leaves (.heartbeat w d) s (fun t => t.bit fltSticky 6 = true ∧ t.flt.hbAt = s.flt.hbAt)) ∧
  (∀ (w : Who) (s : State) (d : Word), Admitted w s → isHost w = true →
    exec (.heartbeat w d) s = .next (refusedWrite (s.masterError w (fltReg 0x50) true))) ∧
  (∀ s : State, s.flt.hbAt.isSome = true → s.hbOk = false → s.flt.hbLost = false →
    Leaves .heartbeatLoss s (fun t => t.flt.hbLost = true ∧ t.bit fltSticky 6 = true ∧ t.alivePin = false ∧
      (∃ e, t.flt.bus = s.flt.bus ++ [e] ∧ e.src = 0x6B ∧ e.cls = 1 ∧ e.cause = 6))) ∧
  (∀ s : State, (s.hbOk = true ∨ s.flt.hbLost = true ∨ s.flt.hbAt = none) → exec .heartbeatLoss s = .next s) ∧
  (∀ (w : Who) (s : State) (d : Word), Admitted w s → bitOf d 0 = true →
    Leaves (.wdogKick w d) s (fun t => t.flt.kickAt = s.cyc ∧ t.flt.wdogExpired = false ∧ t = { acked s with flt := t.flt })) ∧
  (∀ s : State, s.bit (fltReg 0x58) 0 = true → s.flt.wdogExpired = false → s.flt.kickAt + s.fld (fltReg 0x58) 16 16 * cycMs ≤ s.cyc →
    Leaves .wdogExpiry s (fun t => t.flt.wdogExpired = true ∧ t.bit fltSticky 7 = true ∧ t.alivePin = false ∧
      (∃ e, t.flt.detected = s.flt.detected ++ [e] ∧ e.src = 0x6B ∧ e.cls = 3 ∧ e.cause = 7))) ∧
  (∀ s : State, (s.bit (fltReg 0x58) 0 = false ∨ s.flt.wdogExpired = true ∨ s.cyc < s.flt.kickAt + s.fld (fltReg 0x58) 16 16 * cycMs) →
    exec .wdogExpiry s = .next s) ∧
  (∀ (w : Who) (s : State) (d : Word), Admitted w s → isHost w = true →
    exec (.registerWrite w (fltReg 0x58) d) s =
      .next (refusedWrite ({ s with freeCtr := s.freeCtr + 4 }.masterError w (fltReg 0x58) true))) ∧
  (∀ (w : Who) (s : State) (d : Word) (n : Nat), ByEngine w n →
    Leaves (.registerWrite w (fltReg 0x58) d) s (fun t => t.reg (fltReg 0x58) = s.reg (fltReg 0x58))) ∧
  (∀ s : State, s.lineLive 0x6A 2 = false →
    Leaves .nsafeAssert s (fun t => t.flt.nsafe = true ∧ s.cyc ≤ t.flt.nsafeAt ∧ (∀ o, o < 288 → t.unitSafe o = true ∧ t.bit (outSafe o) 3 = true) ∧
      (s.bit (travReg 0) 0 = true → ∀ a, a < 64 → (t.axis a).state = 7) ∧ t.lineLive 0x6A 2 = true ∧ t.flt.f3 = s.flt.f3 ∧
      t.bit (swReg 0) 1 = s.bit (swReg 0) 1 ∧ t.mem = s.mem)) ∧
  (∀ s : State, s.lineLive 0x6A 2 = true →
    Leaves .nsafeAssert s (fun t => s.cyc ≤ t.flt.nsafeAt ∧
      t = { s with flt := { s.flt with nsafe := true, nsafeAt := t.flt.nsafeAt }, freeCtr := s.freeCtr + 1 })) ∧
  (∀ s : State, s.flt.nsafe = true → s.lineBroken 0x6A 2 = false → s.flt.nsafeAt + s.fld (fltReg 0x60) 0 10 * cycMs ≤ s.cyc →
    Leaves .nsafeClear s (fun t => t.flt.nsafe = false ∧ t.lineLive 0x6A 2 = false ∧
      (∀ o, o < 288 → t.bit (outSafe o) 3 = false ∧ t.unitSafe o = s.unitSafe o ∧ (∀ r, r < 5 → r ≠ 3 → t.bit (outSafe o) r = s.bit (outSafe o) r)) ∧
      t = { s with flt := t.flt, regs := t.regs })) ∧
  (∀ s : State, (s.flt.nsafe = false ∨ s.lineBroken 0x6A 2 = true ∨ s.cyc < s.flt.nsafeAt + s.fld (fltReg 0x60) 0 10 * cycMs) →
    exec .nsafeClear s = .next s) ∧
  (∀ (w : Who) (s : State) (d : Word), ByMcp w → bitOf d 0 = true → s.flt.f3 = true → s.flt.f4 = false → s.f3Live = false →
    Leaves (.f3Clr w d) s (fun t => t.flt = { s.flt with f3 := false } ∧ t.bit (swReg 0) 1 = false ∧
      (∀ o, o < 288 → t.bit (outSafe o) 4 = false ∧ t.unitSafe o = s.unitSafe o) ∧
      OtherRegs s t (swReg 0 :: (List.range 288).map outSafe) ∧ t = { acked s with flt := t.flt, regs := t.regs })) ∧
  (∀ (w : Who) (s : State) (d : Word), ByMcp w → (s.flt.f4 = true ∨ s.f3Live = true) →
    exec (.f3Clr w d) s = .next (refusedWrite (s.masterError w (fltReg 0x6C) true))) ∧
  (∀ (w : Who) (s : State) (d : Word), Admitted w s → isHost w = true →
    exec (.f3Clr w d) s = .next (refusedWrite (s.masterError w (fltReg 0x6C) true)))

/-- R402, R405 to R410, R412: the oldest event is written as a record with the next SEQ, a tally once in a second; the scan sets the registers of the
Cairn and CAIRN_READY; a power fail writes one record and stops the writer; blocks are scrubbed, a sector with a failing one is remapped (R438), and
a post travels to the queue. -/
def Obligations.TheCairnIsWritten : Prop :=
  (∀ (s : State) (e : Event) (rest : List Event), s.flt.queue = e :: rest → s.bit (fltReg 0x8000) 0 = true → s.flt.powerFail = false → e.cls ≤ 2 →
    Leaves .cairnRecordWrite s (fun t => t.flt = { s.flt with queue := rest, seqOf := t.flt.seqOf, mramBad := t.flt.mramBad } ∧
      Tab.get (fun _ => 0) t.flt.seqOf e.src = s.reg64 (fltReg 0x8008) + 1 ∧
      (∀ i, i < 2 → t.blockErrors ((0x60000 + 128 * s.fld (fltReg 0x8010) 0 15) / 64 + i) = 0) ∧
      t.bytes (mramAddr (0x60000 + 128 * s.fld (fltReg 0x8010) 0 15)) 128 = s.eventRecord e ∧
      (∀ a, (a < mramAddr (0x60000 + 128 * s.fld (fltReg 0x8010) 0 15) ∨ mramAddr (0x60000 + 128 * s.fld (fltReg 0x8010) 0 15) + 128 ≤ a) →
        t.byte a = s.byte a) ∧
      t.reg (fltReg 0x8010) = word ((s.fld (fltReg 0x8010) 0 15 + 1) % 29696) ∧
      t.reg64 (fltReg 0x8008) = (s.reg64 (fltReg 0x8008) + 1) % 2 ^ 64 ∧ t.count (fltReg 0x3038) = s.count (fltReg 0x3038) + 1 ∧
      OtherRegs s t [fltReg 0x8008, fltReg 0x800C, fltReg 0x8010] ∧
      t = { s with
        flt := t.flt, mem := t.mem, regs := t.regs, cnts := t.cnts,
        freeCtr := if givenDetail e then s.freeCtr else s.freeCtr + 64 })) ∧
  (∀ (s : State) (e : Event) (rest : List Event) (k : Nat), s.flt.queue = e :: rest → s.bit (fltReg 0x8000) 0 = true → s.flt.powerFail = false →
    3 ≤ e.cls → s.firstFree = k → k < 256 →
    Leaves .cairnRecordWrite s (fun t =>
      t.bytes (mramAddr (0x40000 + 128 * k)) 128 = s.eventRecord e ∧
      t.bytes (mramAddr (0x48000 + 128 * s.fld (fltReg 0x8018) 0 8)) 128 = s.eventRecord e ∧
      t.reg (fltReg 0x8014) = word (s.fld (fltReg 0x8014) 0 9 + 1) ∧ t.reg (fltReg 0x8018) = word ((s.fld (fltReg 0x8018) 0 8 + 1) % 256) ∧
      t.reg (fltReg 0x8010) = s.reg (fltReg 0x8010) ∧
      t.flt = { s.flt with queue := rest, seqOf := t.flt.seqOf, mramBad := t.flt.mramBad })) ∧
  (∀ s : State, (s.flt.queue = [] ∨ s.bit (fltReg 0x8000) 0 = false ∨ s.flt.powerFail = true) → exec .cairnRecordWrite s = .next s) ∧
  (∀ (s : State) (src : Nat), src ≤ 0x6C → s.tallyAny src = true → (s.tallyOf src).written = none → s.flt.queue.length < 1024 →
    s.bit (fltReg 0x8000) 0 = true → s.flt.powerFail = false →
    Leaves (.tallyRecordWrite src) s (fun t => t.tallyAny src = false ∧ (t.tallyOf src).written = some s.cyc ∧
      t.reg64 (fltReg 0x8008) = (s.reg64 (fltReg 0x8008) + 1) % 2 ^ 64 ∧ t.count (fltReg 0x3038) = s.count (fltReg 0x3038) + 1 ∧
      t.flt.queue = s.flt.queue ∧ t.freeCtr = s.freeCtr + 1)) ∧
  (∀ (s : State) (src : Nat), src ≤ 0x6C → (s.tallyAny src = false ∨ 1024 ≤ s.flt.queue.length) → exec (.tallyRecordWrite src) s = .next s) ∧
  (∀ (s : State) (o : Nat), s.bit (fltReg 0x8000) 0 = false → s.mem = [] → s.flt.mramBad = [] → o = 0x8000 * ((s.flt.boot + 1) % 2 ^ 32 % 2) →
    Leaves .cairnScanComplete s (fun t => t.bit (fltReg 0x8000) 0 = true ∧ t.flt = { s.flt with boot := (s.flt.boot + 1) % 2 ^ 32 } ∧
      t.bytes (mramAddr o) 12 = directoryBytes ((s.flt.boot + 1) % 2 ^ 32) s.freeCtr ∧
      (∀ a, (a < mramAddr o ∨ mramAddr o + 12 ≤ a) → t.byte a = s.byte a) ∧
      t.reg (fltReg 0x801C) = word (s.flt.boot + 1) ∧ t.reg64 (fltReg 0x8008) = 0 ∧ t.reg (fltReg 0x8010) = 0 ∧ t.reg (fltReg 0x8014) = 0 ∧
      t.reg (fltReg 0x8018) = 0)) ∧
  (∀ s : State, s.bit (fltReg 0x8000) 0 = true → exec .cairnScanComplete s = .next s) ∧
  (∀ s : State, s.flt.powerFail = false → s.bit (fltReg 0x8000) 0 = true →
    Leaves .powerFailThreshold s (fun t => t.flt = { s.flt with powerFail := true, mramBad := t.flt.mramBad } ∧
      t.reg64 (fltReg 0x8008) = (s.reg64 (fltReg 0x8008) + 1) % 2 ^ 64 ∧
      t.byte (mramAddr (0x60000 + 128 * s.fld (fltReg 0x8010) 0 15) + 8) = 4 ∧ t.count (fltReg 0x3038) = s.count (fltReg 0x3038) + 1)) ∧
  (∀ s : State, s.flt.powerFail = false → s.bit (fltReg 0x8000) 0 = false → Leaves .powerFailThreshold s (fun t =>
      t.flt.powerFail = true ∧ t.count (fltReg 0x3038) = s.count (fltReg 0x3038) + 1)) ∧
  (∀ s : State, s.flt.powerFail = true → exec .powerFailThreshold s = .next s) ∧
  (∀ (w : Who) (s : State) (d : Word), ByMcp w → s.bit (fltReg 0x8000) 1 = false → bitOf d 31 = true →
    Leaves (.scrubGo w d) s (fun t => t.flt = { s.flt with scrub := some (fieldOf d 0 16) } ∧ t.bit (fltReg 0x8000) 1 = true ∧
      t.reg (fltReg 0x8020) = word (fieldOf d 0 16) ∧ OtherRegs s t [fltReg 0x8000, fltReg 0x8020] ∧
      t = { acked s with flt := t.flt, regs := t.regs })) ∧
  (∀ (w : Who) (s : State) (d : Word), ByMcp w → s.bit (fltReg 0x8000) 1 = true →
    exec (.scrubGo w d) s = .next (refusedWrite (s.masterError w (fltReg 0x8020) true))) ∧
  (∀ (s : State) (n b : Nat), s.bit (fltReg 0x8000) 1 = true → s.flt.scrub = some b → n ≤ 4 → (n < 4 ∨ s.mcpRuns = false ∨ 32 ≤ s.sparesUsedOf 6) →
    (b ≠ 65535 ∨ s.mcpRuns = false) →
    Leaves (.scrubComplete n) s (fun t => t.flt = { s.flt with scrub := none, mramBad := t.flt.mramBad } ∧ t.blockErrors b = 0 ∧
      (∀ c, c ≠ b → t.blockErrors c = s.blockErrors c) ∧ t.bit (fltReg 0x8000) 1 = false ∧
      t.count (fltReg 0x8028) = s.count (fltReg 0x8028) + 1 ∧
      t.count (fltReg 0x8030) = s.count (fltReg 0x8030) + (if n = 0 then 0 else 1) ∧ t.mem = s.mem)) ∧
  (∀ (s : State) (n b : Nat), s.bit (fltReg 0x8000) 1 = true → s.flt.scrub = some b → 4 < n → s.mcpRuns = false →
    Leaves (.scrubComplete n) s (fun t => t.bit fltSticky 11 = true ∧ t.count (fltReg 0x8030) = s.count (fltReg 0x8030) ∧
      (∃ e, t.flt.bus = s.flt.bus ++ [e] ∧ e.src = 0x66 ∧ e.cls = 1 ∧ e.cause = 0x000B) ∧
      ∀ a, (a < mramAddr (64 * b) ∨ mramAddr (64 * b) + 64 ≤ a) → t.byte a = s.byte a)) ∧
  (∀ (s : State) (n b : Nat), s.bit (fltReg 0x8000) 1 = true → s.flt.scrub = some b → 4 ≤ n → s.mcpRuns = true → s.sparesUsedOf 6 < 32 →
    s.mgt.spareMap.length < 4094 →
    Leaves (.scrubComplete n) s (fun t => t.sparesUsedOf 6 = s.sparesUsedOf 6 + 1 ∧ t.mgt.spareMap.length = s.mgt.spareMap.length + 1 ∧
      (∀ c, c / 64 = b / 64 → t.blockErrors c = 0) ∧ (∃ e, e ∈ t.flt.bus ∧ e.src = 0x6C ∧ e.cls = 0 ∧ e.kind = 5))) ∧
  (∀ (s : State) (n : Nat), s.bit (fltReg 0x8000) 1 = true → s.flt.scrub = some 65535 → n < 4 → s.mcpRuns = true →
    Leaves (.scrubComplete n) s (fun t => t.counterVal 0x304 8 = t.powerOnHours % 2 ^ 64 ∧ t.bit (fltReg 0x8000) 1 = false)) ∧
  (∀ (s : State) (n : Nat), s.bit (fltReg 0x8000) 1 = false → exec (.scrubComplete n) s = .next s) ∧
  (∀ (w : Who) (s : State) (d : Word), ByMcp w → s.postBusy = false → fieldOf d 0 3 ≤ 1 → bitOf d 8 = true →
    Leaves (.post w d) s (fun t => (∃ e, t.flt = { s.flt with bus := s.flt.bus ++ [e] } ∧ e.src = 0x6C ∧ e.cls = fieldOf d 0 3 ∧
      e.cause = fieldOf d 16 16 ∧ e.kind = 5 ∧ e.detail = s.postData) ∧ OtherRegs s t [fltReg 0x90] ∧
      t = { acked s with flt := t.flt, regs := t.regs })) ∧
  (∀ (w : Who) (s : State) (d : Word), ByMcp w → s.postBusy = false → 2 ≤ fieldOf d 0 3 → fieldOf d 0 3 ≤ 4 → bitOf d 8 = true →
    Leaves (.post w d) s (fun t => (∃ e, t.flt = { s.flt with detected := s.flt.detected ++ [e] } ∧ e.src = 0x6C ∧ e.cls = fieldOf d 0 3 ∧
      e.kind = 5) ∧ t.mgt = { s.mgt with troubled := true })) ∧
  (∀ (w : Who) (s : State) (d : Word), ByMcp w → (s.postBusy = true ∨ 4 < fieldOf d 0 3) →
    exec (.post w d) s = .next (refusedWrite (s.masterError w (fltReg 0x90) true)))

/-- R421 to R424, R426, R428, R438, R467, R468: power-good brings the device into service from flash, to waiting for a bundle, or to Bivouac; PORST_N
and SOFT_RESET reset all but AON, and VDD_AON all. -/
def Obligations.PowerAndResets : Prop :=
  (∀ (s : State) (f : BootFacts), s.mgt.phase ≠ .held → exec (.powerGood f) s = .next s) ∧
  (∀ (s : State) (f : BootFacts), s.mgt.phase = .held → s.wiping = false → s.mgt.lcNext = none → s.mgt.fuses.lcState ≠ 2 → f.namedPllLocks = false →
    f.otherPllLocks = false → f.update = none →
    Leaves (.powerGood f) s (fun t => t.fld bootStat 0 3 = f.bootMode % 8 ∧ OtherRegs s t [bootStat] ∧
      t.mgt = { s.mgt with porstLow := false, slotA := f.slotA, slotB := f.slotB, header := s.readHeader.mgt.header } ∧
      t = { s with regs := t.regs, mgt := t.mgt })) ∧
  (∀ (s : State) (f : BootFacts) (b : BundleFacts) (a : Bool), s.mgt.phase = .held → s.wiping = false → s.flt.f4 = false → f.namedPllLocks = false →
    f.otherPllLocks = false → f.update = some b → s.readHeader.mgt.header.active = a → s.bundleCheck b = 0 →
    Leaves (.powerGood f) s (fun t => t.mgt.header = ⟨(s.readHeader.mgt.header.seq + 1) % 2 ^ 32, a, some (!a), 1⟩ ∧ t.slotBundle (!a) = b ∧
      t.slotBundle a = (if a then f.slotB else f.slotA) ∧ (∃ e, t.flt.bus = s.flt.bus ++ [e] ∧ e.src = 0x6C ∧ e.cls = 0 ∧ e.detail = postDetail 3 0 0 0))) ∧
  (∀ (s : State) (f : BootFacts) (b : BundleFacts), s.mgt.phase = .held → s.wiping = false → s.flt.f4 = false → f.namedPllLocks = false →
    f.otherPllLocks = false → f.update = some b → s.bundleCheck b ≠ 0 →
    Leaves (.powerGood f) s (fun t => t.mgt.header = s.readHeader.mgt.header ∧ t.mgt.bootCopies = s.mgt.bootCopies ∧ t.mgt.slotA = f.slotA ∧
      t.mgt.slotB = f.slotB ∧
      (∃ e, t.flt.bus = s.flt.bus ++ [e] ∧ e.src = 0x6C ∧ e.cls = 0 ∧ e.detail = postDetail 3 0 0 (s.bundleCheck b)))) ∧
  (∀ (s : State) (f : BootFacts) (h : BootHeader) (b : BundleFacts), s.mgt.phase = .held → s.wiping = false → s.mgt.lcNext = none →
    1 ≤ s.mgt.fuses.lcState → s.mgt.fuses.lcState ≤ 3 → s.flt.f4 = false → f.namedPllLocks = true → f.fusesOk = true → f.failed = [] → f.bootMode = 0 →
    f.update = none → s.readHeader.mgt.header = h → h.trial = none → b = (if h.active then f.slotB else f.slotA) → s.bundleCheck b = 0 → b.images = [] →
    b.writes = [] → b.firmware.length ≤ 0x100000 → b.keys.length ≤ 0x40000 →
    Leaves (.powerGood f) s (fun t => t.mgt.phase = .service ∧ t.mgt.runSlot = some h.active ∧ t.mgt.running = b ∧ t.mgt.header = h ∧ t.bit mcpStat 1 = true ∧
      t.bit bootStat 3 = h.active ∧ t.bit bootStat 4 = false ∧ t.bit bootStat 5 = false ∧ t.bit (tickReg 0) 0 = true ∧
      (∀ n, n < 36 → t.peState n = if t.isMappedOut 1 n then 0 else 2) ∧ (∀ o, o < 288 → t.reasons o = s.reasons o ∧ t.unitSafe o = s.unitSafe o) ∧
      (∃ e, e ∈ t.flt.bus ∧ e.src = 0x6C ∧ e.cls = 0 ∧ e.kind = 5) ∧ t.mgt.spareMap = s.mapNewest.2 ∧
      t.bytes secureBase b.keys.length = b.keys ∧ t.bytes mcpRamBase b.firmware.length = b.firmware ∧
      (∀ a, secureBase + b.keys.length ≤ a → a < secureBase + 0x40000 → t.byte a = 0) ∧ (∀ a, a < secureBase → t.byte a = s.byte a) ∧
      (∀ a, cairnBase ≤ a → a < mcpRamBase → t.byte a = s.byte a))) ∧
  (∀ (s : State) (f : BootFacts), s.mgt.phase = .held → s.wiping = false → s.mgt.lcNext = none → 1 ≤ s.mgt.fuses.lcState →
    s.mgt.fuses.lcState ≤ 3 → s.flt.f4 = false → f.namedPllLocks = true → f.fusesOk = true → f.failed = [] → 1 ≤ f.bootMode → f.bootMode ≤ 3 →
    Leaves (.powerGood f) s (fun t => t.mgt.phase = .waitHost ∧ t.bit bootStat 6 = true ∧ t.fld bootStat 0 3 = f.bootMode ∧
      t.reg (tickReg 0) = s.reg (tickReg 0))) ∧
  (∀ (s : State) (f : BootFacts), s.mgt.phase = .held → s.wiping = false → s.mgt.lcNext = none → s.mgt.fuses.lcState ≠ 2 →
    (s.mgt.fuses.lcState = 0 ∨ s.mgt.fuses.lcState = 4 ∨ s.flt.f4 = true) → f.namedPllLocks = true → f.fusesOk = true → f.failed = [] →
    Leaves (.powerGood f) s (fun t => t.mgt.phase = .bivouac ∧ t.bit mcpStat 2 = true ∧ t.bit (tickReg 0) 0 = false ∧ t.bit (swReg 0) 0 = false ∧
      t.alivePin = false ∧ (∀ o, o < 288 → t.unitSafe o = true ∧ t.bit (outSafe o) 0 = true) ∧ t.mgt.troubled = true)) ∧
  (∀ s : State, (s.mgt.porstLow = true ∨ s.mgt.phase = .unpowered) → exec .porstAssert s = .next s) ∧
  (∀ s : State, s.mgt.porstLow = false → s.mgt.phase ≠ .unpowered → s.wiping = false →
    Leaves .porstAssert s (fun t => ResetButAon s t 1 ∧ t.mgt.porstLow = true)) ∧
  (∀ (w : Who) (s : State) (d : Word), ByMcp w → fieldOf d 0 16 = 0x5352 → s.wiping = false →
    Leaves (.softReset w d) s (fun t => ResetButAon s t 2 ∧ t.mgt.porstLow = s.mgt.porstLow)) ∧
  (∀ (w : Who) (s : State) (d : Word), ByMcp w → fieldOf d 0 16 ≠ 0x5352 →
    exec (.softReset w d) s = .next (refusedWrite (s.masterError w (sysReg 0x34) true))) ∧
  (∀ (w : Who) (s : State) (d : Word), Admitted w s → isHost w = true →
    exec (.softReset w d) s = .next (refusedWrite (s.masterError w (sysReg 0x34) true))) ∧
  (∀ (s : State) (f : Fuses), s.wiping = false →
    Leaves (.vddAonApply f) s (fun t => t.mgt.phase = .held ∧ t.mgt.fuses = f ∧ t.reg resetCause = 1 ∧ t.flt.f4 = false ∧
      OtherRegs State.reset t [resetCause] ∧ t.mgt.bootCopies = s.mgt.bootCopies ∧ t.mgt.porstLow = true ∧
      (∀ a, cairnBase ≤ a → a < cairnBase + 0x400000 → t.byte a = s.byte a) ∧ t.pending = s.pending)) ∧
  (∀ s : State, s.wiping = false →
    Leaves .vddAonRemoval s (fun t => t.mgt.phase = .unpowered ∧ t.flt.f4 = false ∧ OtherRegs State.reset t [] ∧ t.mgt.fuses = s.mgt.fuses ∧
      (∀ a, cairnBase ≤ a → a < cairnBase + 0x400000 → t.byte a = s.byte a) ∧ t.pending = s.pending)) ∧
  (∀ s : State, s.sparesUsedOf 7 = 0 →
    Leaves .systemPllLossOfLock s (fun t => t.mgt.pllB = (!s.mgt.pllB) ∧ t.sparesUsedOf 7 = 1 ∧ t.mgt.spareSeq = s.mgt.spareSeq + 1 ∧
      (∃ e, e ∈ t.flt.bus ∧ e.src = 0x67 ∧ e.cls = 1 ∧ e.cause = 6) ∧ (∃ e, e ∈ t.flt.bus ∧ e.src = 0x6C ∧ e.cls = 0) ∧
      t = { s with mgt := t.mgt, flt := t.flt, mem := t.mem, freeCtr := s.freeCtr + 1 })) ∧
  (∀ s : State, s.sparesUsedOf 7 ≠ 0 →
    Leaves .systemPllLossOfLock s (fun t => (∃ e, t.flt = { s.flt with detected := s.flt.detected ++ [e] } ∧ e.src = 0x61 ∧ e.cls = 3) ∧
      t = { s with flt := t.flt })) ∧
  (∀ (w : Who) (s : State) (d : Word), ByMcp w → bitOf d 0 = true →
    Leaves (.bivouacReq w d) s (fun t => t.mgt = { s.mgt with phase := .bivouac, troubled := true } ∧ t.bit mcpStat 2 = true ∧
      t.bit (tickReg 0) 0 = false ∧ t.bit (swReg 0) 0 = false ∧ t.bit bootStat 6 = false ∧
      t.alivePin = false ∧ (∀ n, n < 36 → (t.core n).running = false) ∧
      (∀ o, o < 288 → t.unitSafe o = true ∧ t.bit (outSafe o) 0 = true) ∧ (∀ a, a < 64 → (t.axis a).state = 0 ∧ (t.axis a).v = 0) ∧
      (∃ e, t.flt.detected = s.flt.detected ++ [e] ∧ e.src = 0x6C ∧ e.cls = (if s.flt.f3 && !s.flt.f4 then 3 else 2) ∧
        e.detail = (if s.flt.f3 && !s.flt.f4 then postDetail 7 0 0 1 else postDetail 8 0 0 0)) ∧ t.mem = s.mem)) ∧
  (∀ (w : Who) (s : State) (d : Word), ByMcp w → bitOf d 0 = false → exec (.bivouacReq w d) s = .next (acked s)) ∧
  (∀ (w : Who) (s : State) (d : Word), Admitted w s → isHost w = true →
    exec (.bivouacReq w d) s = .next (refusedWrite (s.masterError w (mgtReg 0x1C) true)))

/-- R424, R425, R430 to R433, R441: the intake takes a bundle while the device waits for one, LOAD starts or rejects it, and a trial is confirmed by a
command or by itself, which makes its slot ACTIVE and raises the anti-rollback counters. -/
def Obligations.BundlesAndTrials : Prop :=
  (∀ (w : Who) (s : State), Admitted w s → s.count (tickReg 0x30) = 0 → exec (.confirm w) s = .next (acked s)) ∧
  (∀ (w : Who) (s : State) (t0 : Bool), Admitted w s → s.count (tickReg 0x30) ≠ 0 → s.mgt.header.trial = some t0 → s.mgt.runSlot = some t0 →
    (∀ k : Nat, versionOf s.mgt.running k < 2 ^ 32) → (∀ k, k < 4 → s.counterSplit (4 * k) 4 = false) → s.counterSplit 0x300 4 = false →
    Leaves (.confirm w) s (fun t => t.mgt.header = ⟨(s.mgt.header.seq + 1) % 2 ^ 32, t0, none, 0⟩ ∧
      t.bit bootStat 4 = false ∧ (∀ k : Nat, k < 4 → t.antiRb k = max (s.antiRb k) (versionOf s.mgt.running k)) ∧
      t.counterVal 0x300 4 = (s.counterVal 0x300 4 + 1) % 2 ^ 32 ∧
      (∃ e, t.flt.bus = s.flt.bus ++ [e] ∧ e.src = 0x6C ∧ e.cls = 0 ∧ e.kind = 5) ∧ OtherRegs s t [bootStat] ∧
      (∀ a, a < mramAddr 0x10000 → t.byte a = s.byte a) ∧ (∀ a, mramAddr 0x20000 ≤ a → t.byte a = s.byte a) ∧
      t = { acked s with mgt := t.mgt, flt := t.flt, regs := t.regs, mem := t.mem })) ∧
  (∀ (s : State) (o : Nat), (o = 0 ∨ o = 0x300) → s.mgt.header.trial = some true → s.mgt.runSlot = some true → s.counterSplit o 4 = true →
    s.count (tickReg 0x30) ≠ 0 → (∀ k : Nat, k < 4 → s.antiRb k < versionOf s.mgt.running k) →
    Leaves (.confirm mcpWho) s (fun t => ∃ e, e ∈ t.flt.bus ∧ e.src = 0x6C ∧ e.cls = 1 ∧ e.kind = 5 ∧ ¬ t.counterSplit o 4)) ∧
  (∀ (w : Who) (s : State), Admitted w s → s.count (tickReg 0x30) ≠ 0 → s.mgt.header.trial = none → exec (.confirm w) s = .next (acked s)) ∧
  (∀ (s : State) (t0 : Bool), s.bit (mgtReg 0x14) 0 = true → s.mgt.troubled = false → s.flt.f3 = false → s.flt.f4 = false →
    s.mgt.phase = .service → s.mgt.serviceAt + 600000 * cycMs ≤ s.cyc → s.mgt.header.trial = some t0 → s.mgt.runSlot = some t0 →
    Leaves .trialAutoConfirm s (fun t => t.mgt.header = ⟨(s.mgt.header.seq + 1) % 2 ^ 32, t0, none, 0⟩ ∧ t.bit bootStat 4 = false ∧ OtherRegs s t [bootStat] ∧
      t = { s with mgt := t.mgt, flt := t.flt, regs := t.regs, mem := t.mem, freeCtr := t.freeCtr })) ∧
  (∀ s : State, (s.bit (mgtReg 0x14) 0 = false ∨ s.mgt.troubled = true ∨ s.flt.f3 = true ∨ s.flt.f4 = true ∨ s.mgt.phase ≠ .service ∨
    s.cyc < s.mgt.serviceAt + 600000 * cycMs ∨ s.mgt.header.trial = none) → exec .trialAutoConfirm s = .next s) ∧
  (∀ (w : Who) (s : State) (b : BundleFacts), ByMcp w → s.mgt.phase = .waitHost → s.mcpRuns = true → s.bundleCheck b = 0 → 1 ≤ s.fld (mgtReg 0x20) 0 23 →
    s.fld (mgtReg 0x20) 0 23 ≤ 0x600000 → s.fld (mgtReg 0x18) 0 23 + s.fld (mgtReg 0x20) 0 23 ≤ 0x800000 → s.wiping = false → b.images = [] →
    b.writes = [] → b.firmware.length ≤ 0x100000 → b.keys.length ≤ 0x40000 →
    Leaves (.load w b) s (fun t => t.mgt = { s.mgt with phase := .service, running := b, runSlot := none, serviceAt := s.cyc, troubled := false } ∧
      t.bit mcpStat 1 = true ∧ t.bit bootStat 6 = false ∧ t.bit (tickReg 0) 0 = true ∧ (t.core mcpCore).pc = 0x10000 ∧
      t.bytes mcpRamBase b.firmware.length = b.firmware ∧ t.bytes secureBase b.keys.length = b.keys ∧
      (∀ a, (a < mcpRamBase ∨ mcpRamBase + b.firmware.length ≤ a) → (a < secureBase ∨ secureBase + b.keys.length ≤ a) → t.byte a = s.byte a))) ∧
  (∀ (w : Who) (s : State) (b : BundleFacts) (a : Nat) (bs : List Byte), ByMcp w → s.mgt.phase = .waitHost → s.mcpRuns = true → s.bundleCheck b = 0 →
    1 ≤ s.fld (mgtReg 0x20) 0 23 → s.fld (mgtReg 0x20) 0 23 ≤ 0x600000 → s.fld (mgtReg 0x18) 0 23 + s.fld (mgtReg 0x20) 0 23 ≤ 0x800000 →
    b.images = [(a, bs)] → b.writes = [] → a + bs.length ≤ 0x800000 →
    Leaves (.load w b) s (fun t => t.mgt.phase = .service ∧ t.bytes a bs.length = bs ∧
      (∀ x, x < 0x800000 → (x < a ∨ a + bs.length ≤ x) → t.byte x = s.byte x))) ∧
  (∀ (w : Who) (s : State) (b : BundleFacts), ByMcp w → s.mgt.phase = .waitHost → s.mcpRuns = true → s.bundleCheck b ≠ 0 → 1 ≤ s.fld (mgtReg 0x20) 0 23 →
    s.fld (mgtReg 0x20) 0 23 ≤ 0x600000 → s.fld (mgtReg 0x18) 0 23 + s.fld (mgtReg 0x20) 0 23 ≤ 0x800000 →
    Leaves (.load w b) s (fun t => t.mgt = s.mgt ∧ t.bit bootStat 7 = true ∧
      (∃ e, t.flt = { s.flt with bus := s.flt.bus ++ [e] } ∧ e.src = 0x6C ∧ e.cls = 0 ∧ e.detail = postDetail 3 0 0 (s.bundleCheck b)) ∧
      OtherRegs s t [bootStat] ∧ t.mem = s.mem)) ∧
  (∀ (w : Who) (s : State) (b : BundleFacts), ByMcp w → s.mgt.phase = .waitHost → s.mcpRuns = false → exec (.load w b) s = .next (acked s)) ∧
  (∀ (w : Who) (s : State) (b : BundleFacts), ByMcp w → s.mgt.phase ≠ .waitHost →
    exec (.load w b) s = .next (refusedWrite (s.masterError w (mgtReg 0x10) true))) ∧
  (∀ (w : Who) (s : State) (d : Word), ByMcp w → s.mgt.phase = .waitHost →
    exec (.hostBundleWrite w d) s =
      .next { acked (s.setReg (mgtReg 0x18) (word (fieldOf d 0 23))) with mgt := { s.mgt with append := fieldOf d 0 23 } }) ∧
  (∀ (w : Who) (s : State) (d : Word), ByMcp w → s.mgt.phase ≠ .waitHost →
    exec (.hostBundleWrite w d) s = .next (refusedWrite (s.masterError w (mgtReg 0x18) true)) ∧
    exec (.bundleData w d) s = .next (refusedWrite (s.masterError w (mgtReg 0x24) true))) ∧
  (∀ (w : Who) (s : State) (d : Word) (s1 : State), ByMcp w → s.mgt.phase = .waitHost →
    s.spBurst w.master 8 s.mgt.append (leBytes 4 d.toNat) = (s1, true) →
    exec (.bundleData w d) s = .next (acked { s1 with mgt := { s1.mgt with append := s1.mgt.append + 4 } })) ∧
  (∀ (s : State) (n : Nat) (bs : List Byte) (crc : Word) (g : Bool) (b : BundleFacts), (s.mgt.phase ≠ .waitHost ∨ s.fld bootStat 0 3 ≠ 3 ∨ s.mcpRuns = false) →
    exec (.uartBundleFrame n bs crc g b) s = .next s) ∧
  (∀ (s : State) (n : Nat) (bs : List Byte) (crc : Word) (g : Bool) (b : BundleFacts), s.mgt.phase = .waitHost → s.fld bootStat 0 3 = 3 → s.mcpRuns = true →
    (n = 0 ∨ 0x600000 < n ∨ g = true ∨ bs.length ≠ n ∨ crc.toNat ≠ crc32 bs) →
    exec (.uartBundleFrame n bs crc g b) s = .next { s with line := [0x5A, 0x01] }) ∧
  (∀ (s : State) (bs : List Byte) (crc : Word) (b : BundleFacts), s.mgt.phase = .waitHost → s.fld bootStat 0 3 = 3 → s.mcpRuns = true →
    1 ≤ bs.length → bs.length ≤ 0x600000 → crc.toNat = crc32 bs → s.bundleCheck b = 0 → b.firmware = [] → b.keys = [] → b.images = [] → b.writes = [] →
    Leaves (.uartBundleFrame bs.length bs crc false b) s (fun t => t.line = [0x5A, 0x00] ∧ t.bytes 0 bs.length = bs ∧
      (∀ a, bs.length ≤ a → t.byte a = s.byte a) ∧ t.mgt.phase = .service ∧ t.mgt.running = b ∧ t.mgt.runSlot = none ∧
      t.reg (mgtReg 0x20) = word bs.length ∧ t.bit (tickReg 0) 0 = true))

/-- R417, R418, R420, R435 to R437: keys are revoked on a good request, the life cycle moves forward, a detector that acts trips, which the MCP posts,
sensors are sampled once in a millisecond and their conditions reported, and the two-wire bus runs one transfer at a time. -/
def Obligations.KeysSensorsAndTwoWireBus : Prop :=
  (∀ (w : Who) (s : State) (slot signer : Nat), ByMcp w → slot < 4 → signer ≤ 1 → signer ≠ slot → s.mgt.fuses.keyPresent.testBit signer = true →
    s.mgt.fuses.keyRevoked.testBit signer = false → s.mgt.fuses.keyRevoked.testBit slot = false →
    Leaves (.revoke w slot signer true) s (fun t => t.mgt = { s.mgt with fuses := { s.mgt.fuses with keyRevoked := t.mgt.fuses.keyRevoked } } ∧
      (∀ k, t.mgt.fuses.keyRevoked.testBit k = (s.mgt.fuses.keyRevoked.testBit k || k == slot)) ∧ fusesAccept t.mgt.fuses slot = false ∧
      t = { acked s with mgt := t.mgt })) ∧
  (∀ (w : Who) (s : State) (slot signer : Nat) (ok : Bool), ByMcp w → slot < 4 → signer < 4 →
    (ok = false ∨ signer = slot ∨ 1 < signer ∨ s.mgt.fuses.keyPresent.testBit signer = false ∨ s.mgt.fuses.keyRevoked.testBit signer = true ∨
      s.mgt.fuses.keyRevoked.testBit slot = true) → exec (.revoke w slot signer ok) s = .next (acked s)) ∧
  (∀ (w : Who) (s : State) (slot signer : Nat) (ok : Bool), Admitted w s → isHost w = true → slot < 4 → signer < 4 →
    exec (.revoke w slot signer ok) s = .next (refusedWrite (s.masterError w (mgtReg 0x10) true))) ∧
  (∀ (w : Who) (s : State) (d : Word) (ok : Bool), ByMcp w → fieldOf d 16 16 = 0x4C43 → s.lcBurnt < fieldOf d 0 3 → fieldOf d 0 3 ≤ 4 →
    (fieldOf d 0 3 = 3 → ok = true) →
    Leaves (.lcCmd w d ok) s (fun t => t.mgt = { s.mgt with lcNext := some (fieldOf d 0 3) } ∧ t.wiping = true ∧
      (∃ e, t.flt = { s.flt with bus := s.flt.bus ++ [e] } ∧ e.src = 0x6C ∧ e.cls = 0 ∧ e.kind = 5) ∧ OtherRegs s t [memReg 0x20] ∧
      t = { acked s with regs := t.regs, mgt := t.mgt, flt := t.flt })) ∧
  (∀ (w : Who) (s : State) (d : Word) (ok : Bool), ByMcp w →
    (fieldOf d 16 16 ≠ 0x4C43 ∨ fieldOf d 0 3 ≤ s.lcBurnt ∨ 4 < fieldOf d 0 3 ∨ (fieldOf d 0 3 = 3 ∧ ok = false)) →
    exec (.lcCmd w d ok) s = .next (refusedWrite (s.masterError w (mgtReg 0x204) true))) ∧
  (∀ (s : State) (b : Nat), isTamper b = true → (s.mgt.phase = .unpowered ∨ (b < 4 ∧ s.bit (mgtReg 0x220) b = false) ∨ (b = 4 ∧ s.mgt.porstLow = true)) →
    exec (.tamperTrip b) s = .next s) ∧
  (∀ (s : State) (b : Nat), isTamper b = true → s.tamperActs b = true → s.mcpRuns = false →
    Leaves (.tamperTrip b) s (fun t => t.bit (mgtReg 0x224) b = true ∧ t.wiping = true ∧ t.mgt = { s.mgt with tamperDue := true } ∧
      (∃ e, t.flt = { s.flt with f4 := true, detected := s.flt.detected ++ [e] } ∧ e.src = 0x68 ∧ e.cls = 4 ∧ e.cause = b) ∧
      OtherRegs s t [mgtReg 0x224, memReg 0x20] ∧ t = { s with regs := t.regs, flt := t.flt, mgt := t.mgt })) ∧
  (∀ (s : State) (b : Nat), isTamper b = true → s.tamperActs b = true → s.mcpRuns = true →
    Leaves (.tamperTrip b) s (fun t => t.bit (mgtReg 0x224) b = true ∧ t.wiping = true ∧ t.flt.f4 = true ∧ t.mgt.tamperDue = false ∧
      (∃ e, e ∈ t.flt.detected ∧ e.src = 0x68 ∧ e.cls = 4 ∧ e.cause = b) ∧
      (∃ e r, (e ∈ t.flt.bus ∨ e ∈ t.flt.detected) ∧ e.src = 0x6C ∧ e.kind = 5 ∧ e.detail = postDetail 0x05 0 0 r) ∧
      OtherRegs s t [mgtReg 0x224, memReg 0x20] ∧ t = { s with regs := t.regs, flt := t.flt, mgt := t.mgt, freeCtr := s.freeCtr + 1 })) ∧
  (∀ (s : State) (temps volts : List Word) (slow : SlowReadings), s.mgt.sensorAt = s.cyc / cycMs + 1 → exec (.sensorSample temps volts slow) s = .next s) ∧
  (∀ (s : State) (temps volts : List Word) (slow : SlowReadings), s.mgt.sensorAt ≠ s.cyc / cycMs + 1 →
    Leaves (.sensorSample temps volts slow) s (fun t =>
      (∀ i, i < 32 → ∀ d, temps[i]? = some d → t.reg (mgtReg (0x400 + 4 * i)) = word (fieldOf d 0 16 + 2 ^ 16)) ∧
      (∀ i, i < 24 → ∀ d, volts[i]? = some d → t.reg (mgtReg (0x500 + 4 * i)) = word (fieldOf d 0 12 + 2 ^ 16)) ∧
      (∀ i, i < 48 → ∀ d, slow.ages[i]? = some d → t.reg (mgtReg (0x600 + 4 * i)) = word (fieldOf d 0 24)) ∧
      (∀ i, i < 1024 → ∀ d, slow.legs[i]? = some d → t.fld (legReg (i / 4) (i % 4)) 0 8 = d.toNat) ∧
      OtherRegs s t ((List.range 32).map (fun i => mgtReg (0x400 + 4 * i)) ++ (List.range 24).map (fun i => mgtReg (0x500 + 4 * i)) ++
        (List.range 48).map (fun i => mgtReg (0x600 + 4 * i)) ++ (List.range 1024).map (fun i => legReg (i / 4) (i % 4)) ++ [mgtReg 0x700]) ∧
      t.mgt.sensorAt = s.cyc / cycMs + 1 ∧ t = { s with regs := t.regs, mgt := t.mgt, flt := t.flt, mem := t.mem, freeCtr := t.freeCtr } ∧
      (s.mcpRuns = false → t.reg (mgtReg 0x700) = s.reg (mgtReg 0x700) ∧
        t = { s with regs := t.regs, mgt := { s.mgt with sensorSeen := t.mgt.sensorSeen, sensorAt := s.cyc / cycMs + 1, troubled := t.mgt.troubled },
                     flt := { s.flt with bus := t.flt.bus, detected := t.flt.detected } }))) ∧
  (∀ (s : State) (d : Word), s.mgt.sensorAt ≠ s.cyc / cycMs + 1 → (∀ k, k < 3 → Tab.get (fun _ => 0) s.mgt.sensorSeen k = 0) →
    signed (s.fld (mgtReg 0x480) 0 16) 16 < signed (fieldOf d 0 16) 16 → signed (fieldOf d 0 16) 16 ≤ signed (s.fld (mgtReg 0x484) 0 16) 16 →
    signed (fieldOf d 0 16) 16 ≤ signed (s.fld (mgtReg 0x488) 0 16) 16 →
    Leaves (.sensorSample [d] [] ⟨[], []⟩) s (fun t => s.newEvent 0x67 0 1 0 [] ∈ t.flt.bus ∧
      (s.mcpRuns = true → ∃ e, e ∈ t.flt.bus ∧ e.src = 0x6C ∧ e.cls = 0 ∧ e.detail = postDetail 6 0 0 1) ∧
      (s.mcpRuns = false → t.flt = { s.flt with bus := s.flt.bus ++ [s.newEvent 0x67 0 1 0 []] }))) ∧
  (∀ (s : State) (d : Word), (∀ k, k < 3 → Tab.get (fun _ => 0) s.mgt.sensorSeen k = 1) → s.mcpRuns = false →
    Leaves (.sensorSample [d] [] ⟨[], []⟩) s (fun t => t.flt = s.flt)) ∧
  (∀ (s : State) (d : Word), s.mgt.sensorAt ≠ s.cyc / cycMs + 1 → s.mcpRuns = true →
    (s.cyc - s.mgt.powerAt) / (3600000 * cycMs) = s.mgt.hourAt + 1 → s.counterSplit 0x100 8 = false → s.powerOnHours + 1 < 2 ^ 64 →
    Leaves (.sensorSample [d] [] ⟨[], []⟩) s (fun t => t.powerOnHours = s.powerOnHours + 1 ∧ t.mgt.hourAt = s.mgt.hourAt + 1)) ∧
  (∀ (w : Who) (s : State) (d : Word), ByMcp w → s.bit (mgtReg 0x804) 31 = false → 1 ≤ fieldOf d 16 4 → fieldOf d 16 4 ≤ 8 →
    exec (.twbGo w d) s = .next (acked (s.setReg (mgtReg 0x804)
      (word (fieldOf d 0 22 + (if bitOf d 30 = true ∧ s.bit (mgtReg 0x800) 0 = true then 2 ^ 31 else 0)))))) ∧
  (∀ (w : Who) (s : State) (d : Word), ByMcp w → (s.bit (mgtReg 0x804) 31 = true ∨ fieldOf d 16 4 = 0 ∨ 8 < fieldOf d 16 4) →
    exec (.twbGo w d) s = .next (refusedWrite (s.masterError w (mgtReg 0x804) true))) ∧
  (∀ (s : State) (o : TwbOutcome), s.bit (mgtReg 0x804) 31 = false → exec (.twbComplete o) s = .next s) ∧
  (∀ (s : State) (o : TwbOutcome), s.bit (mgtReg 0x804) 31 = true →
    Leaves (.twbComplete o) s (fun t => t.bit (mgtReg 0x804) 31 = false ∧ t.bit (mgtReg 0x808) 0 = true ∧
      (s.twbStops o = some .nack → t.bit (mgtReg 0x808) 1 = true) ∧ (s.twbStops o = some .arbLost → t.bit (mgtReg 0x808) 2 = true) ∧
      (s.twbStops o = some .stretchTo → t.bit (mgtReg 0x808) 3 = true) ∧
      (s.bit (mgtReg 0x804) 7 = true → s.bit (mgtReg 0x804) 21 = true → o.early = none → o.pec.toNat ≠ crc8 (s.twbHead ++ s.twbIn o) →
        t.bit (mgtReg 0x808) 4 = true) ∧
      OtherRegs s t ([mgtReg 0x804, mgtReg 0x808] ++ if s.bit (mgtReg 0x804) 7 then [mgtReg 0x810, mgtReg 0x814] else []) ∧
      t = { s with regs := t.regs, mgt := { s.mgt with twbOut := t.mgt.twbOut } })) ∧
  (∀ (s : State) (o : TwbOutcome) (a r : Nat), s.bit (mgtReg 0x804) 31 = true → s.fld (mgtReg 0x804) 0 7 = a → s.fld (mgtReg 0x804) 8 8 = r → o.early = none →
    s.bit (mgtReg 0x804) 20 = false → s.bit (mgtReg 0x804) 21 = false →
    Leaves (.twbComplete o) s (fun t =>
      (s.bit (mgtReg 0x804) 7 = true → t.mgt.twbOut = [BitVec.ofNat 8 (2 * a), BitVec.ofNat 8 r, BitVec.ofNat 8 (2 * a + 1)]) ∧
      (s.bit (mgtReg 0x804) 7 = false → t.mgt.twbOut =
        [BitVec.ofNat 8 (2 * a), BitVec.ofNat 8 r] ++ (leBytes 8 (s.reg64 (mgtReg 0x810))).take (s.fld (mgtReg 0x804) 16 4)))) ∧
  (∀ (s : State) (o : TwbOutcome), s.bit (mgtReg 0x804) 31 = true → s.bit (mgtReg 0x804) 7 = true → o.early = none → s.fld (mgtReg 0x804) 16 4 ≤ 8 →
    s.fld (mgtReg 0x804) 16 4 ≤ o.data.length →
    Leaves (.twbComplete o) s (fun t =>
      t.reg64 (mgtReg 0x810) = leNat (o.data.take (s.fld (mgtReg 0x804) 16 4) ++ (leBytes 8 (s.reg64 (mgtReg 0x810))).drop (s.fld (mgtReg 0x804) 16 4)) ∧
      t.fld (mgtReg 0x808) 1 3 = s.fld (mgtReg 0x808) 1 3 ∧
      (s.bit (mgtReg 0x804) 21 = false ∨ o.pec.toNat = crc8 (s.twbHead ++ s.twbIn o) → t.bit (mgtReg 0x808) 4 = s.bit (mgtReg 0x808) 4)))

/-- R448, R451 to R459: a function-level reset and a cleared Bus Master Enable stop host DMA; doorbells take the TAIL of their ring, descriptors
complete in turn, rings stop where their CTL says, and moderated vectors wait for the end of their holdoff. -/
def Obligations.HostRingsAndInterrupts : Prop :=
  (∀ s : State, s.tx 40 = none → s.host.txOpen = none →
    Leaves .functionLevelReset s (fun t => t.bit (hostReg 4) 9 = true ∧
      (∀ a, hostBase ≤ a → a < hostBase + 0x100000 → a ≠ hostReg 4 → t.reg a = State.reset.reg a) ∧
      (∀ a, (a < hostBase ∨ hostBase + 0x100000 ≤ a) → t.reg a = s.reg a ∧ t.count a = s.count a) ∧ t.host.taken = [] ∧ t.host.holdUntil = [] ∧ t.host.msix = [] ∧
      t.host.msixPend = 0 ∧
      t.host.hostWrites = s.host.hostWrites ∧ t = { s with regs := t.regs, cnts := t.cnts, snaps := t.snaps, host := t.host })) ∧
  (∀ s : State, s.tx 40 = none → s.host.txOpen = none → exec .busMasterDisable s = .next (s.setBit (hostReg 4) 8 false)) ∧
  (∀ (s : State) (x : Tx), s.tx 40 = some x → s.host.txOpen = none →
    Leaves .busMasterDisable s (fun t => t.tx 40 = none ∧ t.mem = s.mem ∧ t.host = s.host) ∧
    Leaves .functionLevelReset s (fun t => t.tx 40 = none ∧ t.mem = s.mem ∧ t.host.hostWrites = s.host.hostWrites)) ∧
  (∀ (s : State) (r f : Nat) (x : Frame), s.tx 40 = none → s.host.txOpen = some (r, some f) → s.frame f = some x → x.bad = false → x.arriving = true →
    Leaves .busMasterDisable s (fun t => t.host.txOpen = none ∧ t.bit (hostReg 4) 8 = false ∧
      (t.frame f = none ∨ ∃ y, t.frame f = some y ∧ y.bad = true ∧ y.reason = 1) ∧ t.mem = s.mem)) ∧
  (∀ (s : State) (i : Nat), i < 16 → s.dmaRuns = true → s.bit (dbPend 2) i = true → s.bit (dbMask 2) i = false →
    exec (.dmaDoorbellTake i) s = .next ((s.setBit (dbPend 2) i false).setTaken i (s.fld (ringAddr i + 0x10) 0 12))) ∧
  (∀ (s : State) (i : Nat), i < 16 → (s.dmaRuns = false ∨ s.bit (dbPend 2) i = false ∨ s.bit (dbMask 2) i = true) →
    exec (.dmaDoorbellTake i) s = .next s) ∧
  (∀ (s : State) (r : Nat) (addr : DWord) (w8 wC : Word) (h : HostData), r < 8 → (s.dmaRuns = false ∨ s.txTurn r = false) →
    exec (.txDescriptor r addr w8 wC h) s = .next s) ∧
  (∀ (s : State) (r : Nat) (addr : DWord) (w8 wC : Word) (h : HostData), r < 8 → s.dmaRuns = true → s.txTurn r = true →
    (h.more = false ∨ (s.host.txOpen = none ∧ fieldOf w8 17 2 ≠ 0)) →
    Leaves (.txDescriptor r addr w8 wC h) s (fun t => t.host.lastTx = r ∧
      ∃ a v, t.host.hostWrites.getLast? = some (a, leBytes 4 v) ∧ v.testBit 31 = true)) ∧
  (∀ (s : State) (r : Nat) (addr : DWord) (w8 wC : Word) (h : HostData), r < 8 → s.dmaRuns = true → s.txTurn r = true → s.host.txOpen = none →
    fieldOf w8 17 2 = 0 → 14 ≤ fieldOf w8 0 17 → fieldOf w8 0 17 ≤ 9212 → h.readError = false → h.more = true →
    Leaves (.txDescriptor r addr w8 wC h) s (fun t => t.host.txOpen.map Prod.fst = some r ∧ t.host.hostWrites = s.host.hostWrites ∧
      t.reg (txRing r 0x0C) = s.reg (txRing r 0x0C) ∧ t.count (hostReg 0x110) = s.count (hostReg 0x110) ∧ t.mem = s.mem)) ∧
  (∀ (s : State) (r : Nat) (addr : DWord) (w8 wC : Word) (h : HostData) (bs : List Byte), s.host.txOpen = none → r < 8 → s.dmaRuns = true → s.txTurn r = true →
    fieldOf w8 17 2 = 3 → 1 ≤ fieldOf w8 0 17 → fieldOf w8 0 17 ≤ 65536 → bitOf wC 30 = false →
    s.spLoad 0x02 (fieldOf w8 0 17 + 1) (fieldOf wC 0 23) (fieldOf w8 0 17) = (bs, true, none) → bs ≠ [] →
    Leaves (.txDescriptor r addr w8 wC h) s (fun t =>
      t.host = { s.host with
        lastTx := r,
        hostWrites := [(addr.toNat, bs), (s.reg64 (txRing r 0) + 16 * s.fld (txRing r 0x0C) 0 12 + 0x0C,
          leBytes 4 ((setBits wC 23 4 0).toNat ||| 2 ^ 31))] } ∧
      t.reg (txRing r 0x0C) = word (s.ringNext (txRing r 0)) ∧ t.count (hostReg 0x110) = s.count (hostReg 0x110) + 1 ∧
      OtherRegs s t [txRing r 0x0C] ∧ OtherCounts s t [hostReg 0x110] ∧ t = { s with host := t.host, regs := t.regs, cnts := t.cnts })) ∧
  (∀ (s : State) (r : Nat) (addr : DWord) (w8 wC : Word) (h : HostData), r < 8 → s.dmaRuns = true → s.txTurn r = true →
    s.host.txOpen = none → 2 ≤ fieldOf w8 17 2 → (fieldOf w8 0 17 = 0 ∨ 65536 < fieldOf w8 0 17) → bitOf wC 30 = false →
    Leaves (.txDescriptor r addr w8 wC h) s (fun t =>
      t.host.hostWrites = [(s.reg64 (txRing r 0) + 16 * s.fld (txRing r 0x0C) 0 12 + 0x0C, leBytes 4 ((setBits wC 23 4 1).toNat ||| 2 ^ 31))] ∧
      t.count (hostReg 0x108) = s.count (hostReg 0x108) + 1 ∧ Tab.get (fun _ => 0) t.host.vectors 19 = Tab.get (fun _ => 0) s.host.vectors 19 + 1 ∧
      t.mem = s.mem ∧ t.sw = s.sw)) ∧
  (∀ (s : State) (r : Nat) (addr : DWord), r < 8 → s.rxInProgress r = none → exec (.rxDescriptorComplete r addr) s = .next s) ∧
  (∀ (s : State) (r : Nat) (addr : DWord) (x : Tx) (f : Frame), r < 8 → s.rxInProgress r = some (x, f) → f.bad = false → f.arriving = true →
    exec (.rxDescriptorComplete r addr) s = .next s) ∧
  (∀ (s : State) (r : Nat) (addr : DWord) (x : Tx) (f : Frame), r < 8 → s.rxInProgress r = some (x, f) → f.bad = false → f.arriving = false →
    (Tab.get (fun _ => 0) s.host.holdUntil (8 + r) ≤ s.cyc ∨ s.fld (hostReg (0x3000 + 4 * (8 + r))) 0 16 = 0) →
    Leaves (.rxDescriptorComplete r addr) s (fun t =>
      t.host.hostWrites = [(addr.toNat, hostBytes x f),
        (s.reg64 (rxRing r 0) + 32 * s.fld (rxRing r 0x0C) 0 12 + 0x0C, (rxWords f (hostBytes x f).length).drop 4),
        (s.reg64 (rxRing r 0) + 32 * s.fld (rxRing r 0x0C) 0 12 + 8, (rxWords f (hostBytes x f).length).take 4)] ∧
      Tab.get (fun _ => 0) t.host.vectors (8 + r) = Tab.get (fun _ => 0) s.host.vectors (8 + r) + 1 ∧ t.mem = s.mem)) ∧
  (∀ (w : Who) (s : State) (r : Nat) (d : Word), Admitted w s → r < 8 → bitOf d 0 = false →
    exec (.ringDisable w false r d) s =
      .next (acked (((s.setReg (txRing r 0x14) 0).setReg (txRing r 0x0C) (word (s.fld (txRing r 0x10) 0 12))).setTaken r (s.fld (txRing r 0x10) 0 12)))) ∧
  (∀ (w : Who) (s : State) (r : Nat) (d : Word), Admitted w s → r < 8 → bitOf d 0 = false → s.rxInProgress r = none →
    exec (.ringDisable w true r d) s =
      .next (acked (((s.setReg (rxRing r 0x14) 0).setReg (rxRing r 0x0C) (word (s.fld (rxRing r 0x10) 0 12))).setTaken (8 + r)
        (s.fld (rxRing r 0x10) 0 12)))) ∧
  (∀ (w : Who) (s : State) (r : Nat) (d : Word), Admitted w s → r < 8 → bitOf d 0 = false → (s.rxInProgress r).isSome = true →
    exec (.ringDisable w true r d) s =
      .next (acked ((s.setReg (rxRing r 0x14) 0).setTaken (8 + r) (s.fld (rxRing r 0x10) 0 12)))) ∧
  (∀ (w : Who) (s : State) (r : Nat) (d : Word), Admitted w s → r < 8 → bitOf d 0 = true →
    exec (.ringDisable w false r d) s = .next (acked (s.setReg (txRing r 0x14) 1)) ∧
    exec (.ringDisable w true r d) s = .next (acked (s.setReg (rxRing r 0x14) 1))) ∧
  (∀ (s : State) (v : Nat), v < 16 → (s.cyc < Tab.get (fun _ => 0) s.host.holdUntil v ∨ Tab.get (fun _ => false) s.host.holdWaits v = false) →
    exec (.imodHoldoffEnd v) s = .next s) ∧
  (∀ (s : State) (v : Nat), v < 16 → Tab.get (fun _ => 0) s.host.holdUntil v ≤ s.cyc → Tab.get (fun _ => false) s.host.holdWaits v = true →
    Leaves (.imodHoldoffEnd v) s (fun t => Tab.get (fun _ => false) t.host.holdWaits v = false ∧
      Tab.get (fun _ => 0) t.host.vectors v = Tab.get (fun _ => 0) s.host.vectors v + 1 ∧
      (bitOf (s.msixWord (4 * v + 3)) 0 = false → Tab.get (fun _ => 0) t.host.sent v = Tab.get (fun _ => 0) s.host.sent v + 1 ∧
        t.host.msixPend = s.host.msixPend) ∧
      (bitOf (s.msixWord (4 * v + 3)) 0 = true → t.host.sent = s.host.sent ∧ t.host.msixPend.testBit v = true) ∧
      (∀ u, u ≠ v → Tab.get (fun _ => 0) t.host.vectors u = Tab.get (fun _ => 0) s.host.vectors u) ∧
      Tab.get (fun _ => 0) t.host.holdUntil v =
        (if s.fld (hostReg (0x3000 + 4 * v)) 0 16 = 0 then 0 else s.cyc + s.fld (hostReg (0x3000 + 4 * v)) 0 16 * cycUs) ∧
      t = { s with host := t.host }))

/-- R460 to R462: the serial link answers each transaction with a status, a word and their CRC; the UART's read service answers requests of 1 to 64
words, and other bytes go to the console where the life cycle permits it. -/
def Obligations.SerialLinkAndUart : Prop :=
  (∀ (s : State) (cmd : Byte) (o : Word) (crc : Byte), s.awake = true → cmd ≠ 0x02 → crc.toNat ≠ crc8 (cmd :: beBytes 4 o.toNat) →
    exec (.hslReadWord cmd o crc) s = .next (hslReply 0x02 0 s)) ∧
  (∀ (s : State) (cmd : Byte) (o : Word) (crc : Byte), s.awake = true → cmd ≠ 0x02 → cmd ≠ 0x0B → crc.toNat = crc8 (cmd :: beBytes 4 o.toNat) →
    exec (.hslReadWord cmd o crc) s = .next (hslReply 0x04 0 s)) ∧
  (∀ (s : State) (o : Word) (crc : Byte), s.awake = true → crc.toNat = crc8 (0x0B :: beBytes 4 o.toNat) →
    Leaves (.hslReadWord 0x0B o crc) s (fun t => t.line.length = 6 ∧
      t = { (s.busLoad hslWho (barAddr o)).s with line := t.line } ∧
      ((s.busLoad hslWho (barAddr o)).err = true → t.line.take 5 = [0x01, 0, 0, 0, 0]) ∧
      ((s.busLoad hslWho (barAddr o)).err = false → t.line.take 5 = 0x00 :: beBytes 4 (s.busLoad hslWho (barAddr o)).val.toNat))) ∧
  (∀ (s : State) (o : Word) (crc : Byte), s.awake = true → crc.toNat = crc8 (0x0B :: beBytes 4 o.toNat) → o.toNat = 0 → s.hostClosed = false →
    Leaves (.hslReadWord 0x0B o crc) s (fun t =>
      t.line.take 5 = 0x00 :: beBytes 4 (0x2560B0 + (if s.mgt.fuses.marine = true then 2 ^ 24 else 0)))) ∧
  (∀ (s : State) (o d : Word) (crc : Byte), s.awake = true → crc.toNat ≠ crc8 (0x02 :: beBytes 4 o.toNat ++ beBytes 4 d.toNat) →
    exec (.hslWriteWord 0x02 o d crc) s = .next (hslReply 0x02 0 s)) ∧
  (∀ (s : State) (o d : Word) (crc : Byte), s.awake = true → crc.toNat = crc8 (0x02 :: beBytes 4 o.toNat ++ beBytes 4 d.toNat) → 0x10000000 ≤ o.toNat →
    Leaves (.hslWriteWord 0x02 o d crc) s (fun t => t.line.take 5 = [0x01, 0, 0, 0, 0] ∧ t.line.length = 6 ∧ t.mem = s.mem ∧
      t.count (hostReg 0x100) = s.count (hostReg 0x100) + 1)) ∧
  (∀ (s : State) (d : Word) (o : Word) (crc : Byte), s.awake = true → o.toNat = hostBase - 0x10000000 + 0x3000 →
    crc.toNat = crc8 (0x02 :: beBytes 4 o.toNat ++ beBytes 4 d.toNat) →
    s.hostClosed = false → d.toNat < 2 ^ 16 →
    Leaves (.hslWriteWord 0x02 o d crc) s (fun t => t.line.take 5 = [0x00, 0, 0, 0, 0] ∧
      t.fld (hostReg 0x3000) 0 16 = d.toNat ∧ OtherRegs s t [hostReg 0x3000] ∧
      t.mem = s.mem)) ∧
  (∀ (s : State) (o : Word) (n : Nat) (crc : Byte), s.awake = true → s.uartBusy = false → 1 ≤ n → n ≤ 64 →
    crc.toNat ≠ crc8 ([0xA5, 0x52] ++ beBytes 4 o.toNat ++ [BitVec.ofNat 8 n]) →
    Leaves (.uartReadRequest o n crc) s (fun t => t.line.take 2 = [0x5A, 0x02] ∧ t.line.length = 3 ∧
      t = { s with line := t.line, host := { s.host with uartUntil := s.cyc + uartTime 3 } })) ∧
  (∀ (s : State) (o : Word) (n : Nat) (crc : Byte), 1 ≤ n → n ≤ 64 → (s.awake = false ∨ s.uartBusy = true) → exec (.uartReadRequest o n crc) s = .next s) ∧
  (∀ (s : State) (o : Word) (crc : Byte), s.awake = true → crc.toNat = crc8 ([0xA5, 0x52] ++ beBytes 4 o.toNat ++ [1]) → s.uartBusy = false →
    (s.busLoad uartWho (barAddr o)).err = false →
    Leaves (.uartReadRequest o 1 crc) s (fun t =>
      t.line.take 6 = [0x5A, 0x00] ++ beBytes 4 (s.busLoad uartWho (barAddr o)).val.toNat ∧ t.line.length = 7 ∧ t.host.uartUntil = s.cyc + uartTime 7 ∧
      t = { (s.busLoad uartWho (barAddr o)).s with line := t.line, host := t.host })) ∧
  (∀ (s : State) (o : Word) (crc : Byte), s.awake = true → crc.toNat = crc8 ([0xA5, 0x52] ++ beBytes 4 o.toNat ++ [1]) → s.uartBusy = false →
    (s.busLoad uartWho (barAddr o)).err = true →
    Leaves (.uartReadRequest o 1 crc) s (fun t => t.line.take 2 = [0x5A, 0x01] ∧ t.line.length = 3 ∧ t.host.uartUntil = s.cyc + uartTime 3 ∧
      t = { (s.busLoad uartWho (barAddr o)).s with line := t.line, host := t.host })) ∧
  (∀ (s : State) (o : Word) (n : Nat) (crc : Byte), s.awake = true → s.mcpRuns = true → (n = 0 ∨ 64 < n) → lcConsole s.mgt.fuses.lcState = true →
    exec (.uartReadRequest o n crc) s = .next { s with mgt := { s.mgt with
      console := s.mgt.console ++ ([0xA5, 0x52] ++ beBytes 4 o.toNat ++ [BitVec.ofNat 8 n, crc]) } }) ∧
  (∀ (s : State) (b : Byte), s.mcpRuns = true → lcConsole s.mgt.fuses.lcState = true →
    exec (.uartConsoleByte b) s = .next { s with mgt := { s.mgt with console := s.mgt.console ++ [b] } }) ∧
  (∀ (s : State) (b : Byte), (lcConsole s.mgt.fuses.lcState = false ∨ s.mcpRuns = false) → exec (.uartConsoleByte b) s = .next s) ∧
  (∀ (s : State) (cmd : Byte) (o d : Word) (crc : Byte), s.awake = false →
    exec (.hslReadWord cmd o crc) s = .next s ∧ exec (.hslWriteWord cmd o d crc) s = .next s)

/-- R383, R388, R421, R465 to R468: what reset leaves: ticks stopped, the device held, all 288 units at safe level for INIT, no binding, no fault, no
doorbell, and memories in canonical form (that every byte reads 0 is log entry 1, the model's choice). -/
def Obligations.ResetState : Prop :=
  State.reset.pending = [] ∧ MemoryCanonical State.reset ∧ State.reset.mgt.phase = .held ∧ State.reset.bit (tickReg 0) 0 = false ∧
  State.reset.fld (tickReg 4) 0 20 = 1000 ∧ State.reset.flt.f3 = false ∧ State.reset.flt.f4 = false ∧ State.reset.alivePin = false ∧
  (∀ o, o < 288 → State.reset.unitSafe o = true ∧ State.reset.reasons o = 1) ∧ (∀ l, l < 32 → State.reset.bindState l = 0) ∧
  (∀ n, n < 36 → State.reset.peState n = 0) ∧ (∀ e, e < 40 → State.reset.reg (dbPend e) = 0) ∧ (∀ a, State.reset.count a = 0) ∧
  (∀ a, State.reset.byte a = 0) ∧ State.reset.bit (swReg 0) 0 = false ∧ State.reset.bit (swReg 0) 1 = false

/-- A step keeps the memories in their canonical form, and takes at most one command from the queue, the one at its front. -/
def Obligations.StepsKeepMemoryCanonicalAndTheQueue : Prop :=
  (∀ s t : State, MemoryCanonical s → step s = .next t → MemoryCanonical t ∧ t.pending = s.pending.tail) ∧
  (∀ (c : Instr) (s t : State), MemoryCanonical s → exec c s = .next t → MemoryCanonical t ∧ t.pending = s.pending)
end

