-- ==== Sys2Proof/Laws/Bits.lean ====
section
/-!
SUPPORT. Fields of words: what is read of a word after a field of it has been set.
-/
namespace Sys2Proof.Machine

theorem bitsOf_split (x lo len : Nat) : x = x / 2 ^ (lo + len) * 2 ^ (lo + len) + bitsOf x lo len * 2 ^ lo + x % 2 ^ lo := by
  unfold bitsOf
  have h1 := Nat.div_add_mod x (2 ^ lo)
  have h2 := Nat.div_add_mod (x / 2 ^ lo) (2 ^ len)
  rw [Nat.div_div_eq_div_mul, ← Nat.pow_add] at h2
  calc x = 2 ^ lo * (x / 2 ^ lo) + x % 2 ^ lo := h1.symm
    _ = 2 ^ lo * (2 ^ len * (x / 2 ^ (lo + len)) + x / 2 ^ lo % 2 ^ len) + x % 2 ^ lo := by rw [h2]
    _ = _ := by rw [Nat.pow_add]; ring

/-- The value of a word with a field set. -/
theorem toNat_setBits (w : Word) (lo len n : Nat) (h : lo + len ≤ 32) :
    (setBits w lo len n).toNat = w.toNat / 2 ^ (lo + len) * 2 ^ (lo + len) + n % 2 ^ len * 2 ^ lo + w.toNat % 2 ^ lo := by
  have hs := bitsOf_split w.toNat lo len
  have hn : n % 2 ^ len < 2 ^ len := Nat.mod_lt _ (Nat.two_pow_pos _)
  have hl : w.toNat % 2 ^ lo < 2 ^ lo := Nat.mod_lt _ (Nat.two_pow_pos _)
  have hw : w.toNat < 2 ^ 32 := w.isLt
  have e : 2 ^ (lo + len) * 2 ^ (32 - (lo + len)) = 2 ^ 32 := by rw [← Nat.pow_add]; congr 1; omega
  have hq : w.toNat / 2 ^ (lo + len) < 2 ^ (32 - (lo + len)) := by
    apply Nat.div_lt_of_lt_mul; rw [e]; exact hw
  have hb : w.toNat / 2 ^ (lo + len) * 2 ^ (lo + len) + n % 2 ^ len * 2 ^ lo + w.toNat % 2 ^ lo < 2 ^ 32 := by
    have a1 : n % 2 ^ len * 2 ^ lo + w.toNat % 2 ^ lo < 2 ^ (lo + len) := by
      rw [Nat.pow_add]
      calc n % 2 ^ len * 2 ^ lo + w.toNat % 2 ^ lo < n % 2 ^ len * 2 ^ lo + 2 ^ lo := by omega
        _ = (n % 2 ^ len + 1) * 2 ^ lo := by ring
        _ ≤ 2 ^ len * 2 ^ lo := Nat.mul_le_mul_right _ hn
        _ = 2 ^ lo * 2 ^ len := by ring
    calc _ < w.toNat / 2 ^ (lo + len) * 2 ^ (lo + len) + 2 ^ (lo + len) := by omega
      _ = (w.toNat / 2 ^ (lo + len) + 1) * 2 ^ (lo + len) := by ring
      _ ≤ 2 ^ (32 - (lo + len)) * 2 ^ (lo + len) := Nat.mul_le_mul_right _ hq
      _ = 2 ^ 32 := by rw [Nat.mul_comm, e]
  unfold setBits word fieldOf
  rw [BitVec.toNat_ofNat]
  have : w.toNat - bitsOf w.toNat lo len * 2 ^ lo + n % 2 ^ len * 2 ^ lo
      = w.toNat / 2 ^ (lo + len) * 2 ^ (lo + len) + n % 2 ^ len * 2 ^ lo + w.toNat % 2 ^ lo := by omega
  rw [this, Nat.mod_eq_of_lt hb]

/-- The field that was set reads as it was set. -/
theorem fieldOf_setBits_same (w : Word) (lo len n : Nat) (h : lo + len ≤ 32) : fieldOf (setBits w lo len n) lo len = n % 2 ^ len := by
  unfold fieldOf bitsOf
  rw [toNat_setBits w lo len n h]
  have hl : w.toNat % 2 ^ lo < 2 ^ lo := Nat.mod_lt _ (Nat.two_pow_pos _)
  rw [show w.toNat / 2 ^ (lo + len) * 2 ^ (lo + len) + n % 2 ^ len * 2 ^ lo + w.toNat % 2 ^ lo
      = w.toNat % 2 ^ lo + (n % 2 ^ len + w.toNat / 2 ^ (lo + len) * 2 ^ len) * 2 ^ lo by rw [Nat.pow_add]; ring,
    Nat.add_mul_div_right _ _ (Nat.two_pow_pos _), Nat.div_eq_of_lt hl, Nat.zero_add, Nat.add_mul_mod_self_right, Nat.mod_mod]

theorem testBit_toNat_setBits (w : Word) (lo len n i : Nat) (h : lo + len ≤ 32) (hi : i < lo ∨ lo + len ≤ i) :
    (setBits w lo len n).toNat.testBit i = w.toNat.testBit i := by
  rw [toNat_setBits w lo len n h]
  have hn : n % 2 ^ len < 2 ^ len := Nat.mod_lt _ (Nat.two_pow_pos _)
  have hl : w.toNat % 2 ^ lo < 2 ^ lo := Nat.mod_lt _ (Nat.two_pow_pos _)
  rcases hi with hi | hi
  · rw [show w.toNat / 2 ^ (lo + len) * 2 ^ (lo + len) + n % 2 ^ len * 2 ^ lo + w.toNat % 2 ^ lo
      = 2 ^ lo * (n % 2 ^ len + w.toNat / 2 ^ (lo + len) * 2 ^ len) + w.toNat % 2 ^ lo by rw [Nat.pow_add]; ring,
      Nat.testBit_two_pow_mul_add _ hl]
    simp [hi, Nat.testBit_mod_two_pow]
  · have a1 : n % 2 ^ len * 2 ^ lo + w.toNat % 2 ^ lo < 2 ^ (lo + len) := by
      rw [Nat.pow_add]
      calc n % 2 ^ len * 2 ^ lo + w.toNat % 2 ^ lo < n % 2 ^ len * 2 ^ lo + 2 ^ lo := by omega
        _ = (n % 2 ^ len + 1) * 2 ^ lo := by ring
        _ ≤ 2 ^ len * 2 ^ lo := Nat.mul_le_mul_right _ hn
        _ = 2 ^ lo * 2 ^ len := by ring
    rw [show w.toNat / 2 ^ (lo + len) * 2 ^ (lo + len) + n % 2 ^ len * 2 ^ lo + w.toNat % 2 ^ lo
      = 2 ^ (lo + len) * (w.toNat / 2 ^ (lo + len)) + (n % 2 ^ len * 2 ^ lo + w.toNat % 2 ^ lo) by ring,
      Nat.testBit_two_pow_mul_add _ a1]
    simp only [show ¬ i < lo + len by omega, if_false]
    rw [Nat.testBit_div_two_pow]; congr 1; omega

/-- A bit outside the field that was set reads as before. -/
theorem bitOf_setBits_other (w : Word) (lo len n i : Nat) (h : lo + len ≤ 32) (hi : i < lo ∨ lo + len ≤ i) :
    bitOf (setBits w lo len n) i = bitOf w i := by
  unfold bitOf
  rw [← BitVec.testBit_toNat, ← BitVec.testBit_toNat, testBit_toNat_setBits w lo len n i h hi]

theorem bitOf_eq_fieldOf (w : Word) (i : Nat) : bitOf w i = decide (fieldOf w i 1 = 1) := by
  unfold bitOf fieldOf bitsOf
  rw [← BitVec.testBit_toNat, Nat.testBit_eq_decide_div_mod_eq, Nat.pow_one]

/-- The bit that was set reads as it was set. -/
theorem bitOf_setBits_same (w : Word) (i : Nat) (b : Bool) (h : i < 32) : bitOf (setBits w i 1 (bit01 b)) i = b := by
  rw [bitOf_eq_fieldOf, fieldOf_setBits_same w i 1 _ (by omega)]
  cases b <;> simp [bit01]

/-- A field apart from the one that was set reads as before. -/
theorem fieldOf_setBits_other (w : Word) (lo len n lo' len' : Nat) (h : lo + len ≤ 32) (hi : lo' + len' ≤ lo ∨ lo + len ≤ lo') :
    fieldOf (setBits w lo len n) lo' len' = fieldOf w lo' len' := by
  unfold fieldOf bitsOf
  apply Nat.eq_of_testBit_eq
  intro j
  simp only [Nat.testBit_mod_two_pow, Nat.testBit_div_two_pow]
  by_cases hj : j < len'
  · rw [testBit_toNat_setBits w lo len n _ h (by omega)]
  · simp [hj]

end Sys2Proof.Machine
end

