-- ==== Sys2Proof/Laws/State.lean ====
section
/-!
SUPPORT. What each update of the state leaves as it was: one lemma for each field and update, so that no later proof unfolds a record.
-/
namespace Sys2Proof.Machine

variable (s : State)

@[simp] theorem State.setReg_pending (a : Nat) (w : Word) : (s.setReg a w).pending = s.pending := by rfl
@[simp] theorem State.setReg_freeCtr (a : Nat) (w : Word) : (s.setReg a w).freeCtr = s.freeCtr := by rfl
@[simp] theorem State.setReg_reply (a : Nat) (w : Word) : (s.setReg a w).reply = s.reply := by rfl
@[simp] theorem State.setReg_replyErr (a : Nat) (w : Word) : (s.setReg a w).replyErr = s.replyErr := by rfl
@[simp] theorem State.setReg_line (a : Nat) (w : Word) : (s.setReg a w).line = s.line := by rfl
@[simp] theorem State.setReg_time (a : Nat) (w : Word) : (s.setReg a w).time = s.time := by rfl
@[simp] theorem State.setReg_cyc (a : Nat) (w : Word) : (s.setReg a w).cyc = s.cyc := by rfl
@[simp] theorem State.setReg_mem (a : Nat) (w : Word) : (s.setReg a w).mem = s.mem := by rfl
@[simp] theorem State.setReg_cnts (a : Nat) (w : Word) : (s.setReg a w).cnts = s.cnts := by rfl
@[simp] theorem State.setReg_snaps (a : Nat) (w : Word) : (s.setReg a w).snaps = s.snaps := by rfl
@[simp] theorem State.setReg_hold (a : Nat) (w : Word) : (s.setReg a w).hold = s.hold := by rfl
@[simp] theorem State.setReg_flt (a : Nat) (w : Word) : (s.setReg a w).flt = s.flt := by rfl
@[simp] theorem State.setReg_tick (a : Nat) (w : Word) : (s.setReg a w).tick = s.tick := by rfl
@[simp] theorem State.setReg_tb (a : Nat) (w : Word) : (s.setReg a w).tb = s.tb := by rfl
@[simp] theorem State.setReg_mgt (a : Nat) (w : Word) : (s.setReg a w).mgt = s.mgt := by rfl
@[simp] theorem State.setReg_host (a : Nat) (w : Word) : (s.setReg a w).host = s.host := by rfl
@[simp] theorem State.setReg_mbx (a : Nat) (w : Word) : (s.setReg a w).mbx = s.mbx := by rfl
@[simp] theorem State.setReg_pec (a : Nat) (w : Word) : (s.setReg a w).pec = s.pec := by rfl
@[simp] theorem State.setReg_pch (a : Nat) (w : Word) : (s.setReg a w).pch = s.pch := by rfl
@[simp] theorem State.setReg_can (a : Nat) (w : Word) : (s.setReg a w).can = s.can := by rfl
@[simp] theorem State.setReg_sw (a : Nat) (w : Word) : (s.setReg a w).sw = s.sw := by rfl
@[simp] theorem State.setReg_rope (a : Nat) (w : Word) : (s.setReg a w).rope = s.rope := by rfl
@[simp] theorem State.setReg_trav (a : Nat) (w : Word) : (s.setReg a w).trav = s.trav := by rfl
@[simp] theorem State.setReg_cores (a : Nat) (w : Word) : (s.setReg a w).cores = s.cores := by rfl

@[simp] theorem State.setFld_pending (a lo len n : Nat) : (s.setFld a lo len n).pending = s.pending := by rfl
@[simp] theorem State.setFld_freeCtr (a lo len n : Nat) : (s.setFld a lo len n).freeCtr = s.freeCtr := by rfl
@[simp] theorem State.setFld_reply (a lo len n : Nat) : (s.setFld a lo len n).reply = s.reply := by rfl
@[simp] theorem State.setFld_replyErr (a lo len n : Nat) : (s.setFld a lo len n).replyErr = s.replyErr := by rfl
@[simp] theorem State.setFld_line (a lo len n : Nat) : (s.setFld a lo len n).line = s.line := by rfl
@[simp] theorem State.setFld_time (a lo len n : Nat) : (s.setFld a lo len n).time = s.time := by rfl
@[simp] theorem State.setFld_cyc (a lo len n : Nat) : (s.setFld a lo len n).cyc = s.cyc := by rfl
@[simp] theorem State.setFld_mem (a lo len n : Nat) : (s.setFld a lo len n).mem = s.mem := by rfl
@[simp] theorem State.setFld_cnts (a lo len n : Nat) : (s.setFld a lo len n).cnts = s.cnts := by rfl
@[simp] theorem State.setFld_snaps (a lo len n : Nat) : (s.setFld a lo len n).snaps = s.snaps := by rfl
@[simp] theorem State.setFld_hold (a lo len n : Nat) : (s.setFld a lo len n).hold = s.hold := by rfl
@[simp] theorem State.setFld_flt (a lo len n : Nat) : (s.setFld a lo len n).flt = s.flt := by rfl
@[simp] theorem State.setFld_tick (a lo len n : Nat) : (s.setFld a lo len n).tick = s.tick := by rfl
@[simp] theorem State.setFld_tb (a lo len n : Nat) : (s.setFld a lo len n).tb = s.tb := by rfl
@[simp] theorem State.setFld_mgt (a lo len n : Nat) : (s.setFld a lo len n).mgt = s.mgt := by rfl
@[simp] theorem State.setFld_host (a lo len n : Nat) : (s.setFld a lo len n).host = s.host := by rfl
@[simp] theorem State.setFld_mbx (a lo len n : Nat) : (s.setFld a lo len n).mbx = s.mbx := by rfl
@[simp] theorem State.setFld_pec (a lo len n : Nat) : (s.setFld a lo len n).pec = s.pec := by rfl
@[simp] theorem State.setFld_pch (a lo len n : Nat) : (s.setFld a lo len n).pch = s.pch := by rfl
@[simp] theorem State.setFld_can (a lo len n : Nat) : (s.setFld a lo len n).can = s.can := by rfl
@[simp] theorem State.setFld_sw (a lo len n : Nat) : (s.setFld a lo len n).sw = s.sw := by rfl
@[simp] theorem State.setFld_rope (a lo len n : Nat) : (s.setFld a lo len n).rope = s.rope := by rfl
@[simp] theorem State.setFld_trav (a lo len n : Nat) : (s.setFld a lo len n).trav = s.trav := by rfl
@[simp] theorem State.setFld_cores (a lo len n : Nat) : (s.setFld a lo len n).cores = s.cores := by rfl

@[simp] theorem State.setBit_pending (a i : Nat) (b : Bool) : (s.setBit a i b).pending = s.pending := by rfl
@[simp] theorem State.setBit_freeCtr (a i : Nat) (b : Bool) : (s.setBit a i b).freeCtr = s.freeCtr := by rfl
@[simp] theorem State.setBit_reply (a i : Nat) (b : Bool) : (s.setBit a i b).reply = s.reply := by rfl
@[simp] theorem State.setBit_replyErr (a i : Nat) (b : Bool) : (s.setBit a i b).replyErr = s.replyErr := by rfl
@[simp] theorem State.setBit_line (a i : Nat) (b : Bool) : (s.setBit a i b).line = s.line := by rfl
@[simp] theorem State.setBit_time (a i : Nat) (b : Bool) : (s.setBit a i b).time = s.time := by rfl
@[simp] theorem State.setBit_cyc (a i : Nat) (b : Bool) : (s.setBit a i b).cyc = s.cyc := by rfl
@[simp] theorem State.setBit_mem (a i : Nat) (b : Bool) : (s.setBit a i b).mem = s.mem := by rfl
@[simp] theorem State.setBit_cnts (a i : Nat) (b : Bool) : (s.setBit a i b).cnts = s.cnts := by rfl
@[simp] theorem State.setBit_snaps (a i : Nat) (b : Bool) : (s.setBit a i b).snaps = s.snaps := by rfl
@[simp] theorem State.setBit_hold (a i : Nat) (b : Bool) : (s.setBit a i b).hold = s.hold := by rfl
@[simp] theorem State.setBit_flt (a i : Nat) (b : Bool) : (s.setBit a i b).flt = s.flt := by rfl
@[simp] theorem State.setBit_tick (a i : Nat) (b : Bool) : (s.setBit a i b).tick = s.tick := by rfl
@[simp] theorem State.setBit_tb (a i : Nat) (b : Bool) : (s.setBit a i b).tb = s.tb := by rfl
@[simp] theorem State.setBit_mgt (a i : Nat) (b : Bool) : (s.setBit a i b).mgt = s.mgt := by rfl
@[simp] theorem State.setBit_host (a i : Nat) (b : Bool) : (s.setBit a i b).host = s.host := by rfl
@[simp] theorem State.setBit_mbx (a i : Nat) (b : Bool) : (s.setBit a i b).mbx = s.mbx := by rfl
@[simp] theorem State.setBit_pec (a i : Nat) (b : Bool) : (s.setBit a i b).pec = s.pec := by rfl
@[simp] theorem State.setBit_pch (a i : Nat) (b : Bool) : (s.setBit a i b).pch = s.pch := by rfl
@[simp] theorem State.setBit_can (a i : Nat) (b : Bool) : (s.setBit a i b).can = s.can := by rfl
@[simp] theorem State.setBit_sw (a i : Nat) (b : Bool) : (s.setBit a i b).sw = s.sw := by rfl
@[simp] theorem State.setBit_rope (a i : Nat) (b : Bool) : (s.setBit a i b).rope = s.rope := by rfl
@[simp] theorem State.setBit_trav (a i : Nat) (b : Bool) : (s.setBit a i b).trav = s.trav := by rfl
@[simp] theorem State.setBit_cores (a i : Nat) (b : Bool) : (s.setBit a i b).cores = s.cores := by rfl

@[simp] theorem State.setReg64_pending (a n : Nat) : (s.setReg64 a n).pending = s.pending := by rfl
@[simp] theorem State.setReg64_freeCtr (a n : Nat) : (s.setReg64 a n).freeCtr = s.freeCtr := by rfl
@[simp] theorem State.setReg64_reply (a n : Nat) : (s.setReg64 a n).reply = s.reply := by rfl
@[simp] theorem State.setReg64_replyErr (a n : Nat) : (s.setReg64 a n).replyErr = s.replyErr := by rfl
@[simp] theorem State.setReg64_line (a n : Nat) : (s.setReg64 a n).line = s.line := by rfl
@[simp] theorem State.setReg64_time (a n : Nat) : (s.setReg64 a n).time = s.time := by rfl
@[simp] theorem State.setReg64_cyc (a n : Nat) : (s.setReg64 a n).cyc = s.cyc := by rfl
@[simp] theorem State.setReg64_mem (a n : Nat) : (s.setReg64 a n).mem = s.mem := by rfl
@[simp] theorem State.setReg64_cnts (a n : Nat) : (s.setReg64 a n).cnts = s.cnts := by rfl
@[simp] theorem State.setReg64_snaps (a n : Nat) : (s.setReg64 a n).snaps = s.snaps := by rfl
@[simp] theorem State.setReg64_hold (a n : Nat) : (s.setReg64 a n).hold = s.hold := by rfl
@[simp] theorem State.setReg64_flt (a n : Nat) : (s.setReg64 a n).flt = s.flt := by rfl
@[simp] theorem State.setReg64_tick (a n : Nat) : (s.setReg64 a n).tick = s.tick := by rfl
@[simp] theorem State.setReg64_tb (a n : Nat) : (s.setReg64 a n).tb = s.tb := by rfl
@[simp] theorem State.setReg64_mgt (a n : Nat) : (s.setReg64 a n).mgt = s.mgt := by rfl
@[simp] theorem State.setReg64_host (a n : Nat) : (s.setReg64 a n).host = s.host := by rfl
@[simp] theorem State.setReg64_mbx (a n : Nat) : (s.setReg64 a n).mbx = s.mbx := by rfl
@[simp] theorem State.setReg64_pec (a n : Nat) : (s.setReg64 a n).pec = s.pec := by rfl
@[simp] theorem State.setReg64_pch (a n : Nat) : (s.setReg64 a n).pch = s.pch := by rfl
@[simp] theorem State.setReg64_can (a n : Nat) : (s.setReg64 a n).can = s.can := by rfl
@[simp] theorem State.setReg64_sw (a n : Nat) : (s.setReg64 a n).sw = s.sw := by rfl
@[simp] theorem State.setReg64_rope (a n : Nat) : (s.setReg64 a n).rope = s.rope := by rfl
@[simp] theorem State.setReg64_trav (a n : Nat) : (s.setReg64 a n).trav = s.trav := by rfl
@[simp] theorem State.setReg64_cores (a n : Nat) : (s.setReg64 a n).cores = s.cores := by rfl

@[simp] theorem State.bumpBy_pending (a n : Nat) : (s.bumpBy a n).pending = s.pending := by rfl
@[simp] theorem State.bumpBy_freeCtr (a n : Nat) : (s.bumpBy a n).freeCtr = s.freeCtr := by rfl
@[simp] theorem State.bumpBy_reply (a n : Nat) : (s.bumpBy a n).reply = s.reply := by rfl
@[simp] theorem State.bumpBy_replyErr (a n : Nat) : (s.bumpBy a n).replyErr = s.replyErr := by rfl
@[simp] theorem State.bumpBy_line (a n : Nat) : (s.bumpBy a n).line = s.line := by rfl
@[simp] theorem State.bumpBy_time (a n : Nat) : (s.bumpBy a n).time = s.time := by rfl
@[simp] theorem State.bumpBy_cyc (a n : Nat) : (s.bumpBy a n).cyc = s.cyc := by rfl
@[simp] theorem State.bumpBy_mem (a n : Nat) : (s.bumpBy a n).mem = s.mem := by rfl
@[simp] theorem State.bumpBy_regs (a n : Nat) : (s.bumpBy a n).regs = s.regs := by rfl
@[simp] theorem State.bumpBy_snaps (a n : Nat) : (s.bumpBy a n).snaps = s.snaps := by rfl
@[simp] theorem State.bumpBy_hold (a n : Nat) : (s.bumpBy a n).hold = s.hold := by rfl
@[simp] theorem State.bumpBy_flt (a n : Nat) : (s.bumpBy a n).flt = s.flt := by rfl
@[simp] theorem State.bumpBy_tick (a n : Nat) : (s.bumpBy a n).tick = s.tick := by rfl
@[simp] theorem State.bumpBy_tb (a n : Nat) : (s.bumpBy a n).tb = s.tb := by rfl
@[simp] theorem State.bumpBy_mgt (a n : Nat) : (s.bumpBy a n).mgt = s.mgt := by rfl
@[simp] theorem State.bumpBy_host (a n : Nat) : (s.bumpBy a n).host = s.host := by rfl
@[simp] theorem State.bumpBy_mbx (a n : Nat) : (s.bumpBy a n).mbx = s.mbx := by rfl
@[simp] theorem State.bumpBy_pec (a n : Nat) : (s.bumpBy a n).pec = s.pec := by rfl
@[simp] theorem State.bumpBy_pch (a n : Nat) : (s.bumpBy a n).pch = s.pch := by rfl
@[simp] theorem State.bumpBy_can (a n : Nat) : (s.bumpBy a n).can = s.can := by rfl
@[simp] theorem State.bumpBy_sw (a n : Nat) : (s.bumpBy a n).sw = s.sw := by rfl
@[simp] theorem State.bumpBy_rope (a n : Nat) : (s.bumpBy a n).rope = s.rope := by rfl
@[simp] theorem State.bumpBy_trav (a n : Nat) : (s.bumpBy a n).trav = s.trav := by rfl
@[simp] theorem State.bumpBy_cores (a n : Nat) : (s.bumpBy a n).cores = s.cores := by rfl

@[simp] theorem State.bump_pending (a : Nat) : (s.bump a).pending = s.pending := by rfl
@[simp] theorem State.bump_freeCtr (a : Nat) : (s.bump a).freeCtr = s.freeCtr := by rfl
@[simp] theorem State.bump_reply (a : Nat) : (s.bump a).reply = s.reply := by rfl
@[simp] theorem State.bump_replyErr (a : Nat) : (s.bump a).replyErr = s.replyErr := by rfl
@[simp] theorem State.bump_line (a : Nat) : (s.bump a).line = s.line := by rfl
@[simp] theorem State.bump_time (a : Nat) : (s.bump a).time = s.time := by rfl
@[simp] theorem State.bump_cyc (a : Nat) : (s.bump a).cyc = s.cyc := by rfl
@[simp] theorem State.bump_mem (a : Nat) : (s.bump a).mem = s.mem := by rfl
@[simp] theorem State.bump_regs (a : Nat) : (s.bump a).regs = s.regs := by rfl
@[simp] theorem State.bump_snaps (a : Nat) : (s.bump a).snaps = s.snaps := by rfl
@[simp] theorem State.bump_hold (a : Nat) : (s.bump a).hold = s.hold := by rfl
@[simp] theorem State.bump_flt (a : Nat) : (s.bump a).flt = s.flt := by rfl
@[simp] theorem State.bump_tick (a : Nat) : (s.bump a).tick = s.tick := by rfl
@[simp] theorem State.bump_tb (a : Nat) : (s.bump a).tb = s.tb := by rfl
@[simp] theorem State.bump_mgt (a : Nat) : (s.bump a).mgt = s.mgt := by rfl
@[simp] theorem State.bump_host (a : Nat) : (s.bump a).host = s.host := by rfl
@[simp] theorem State.bump_mbx (a : Nat) : (s.bump a).mbx = s.mbx := by rfl
@[simp] theorem State.bump_pec (a : Nat) : (s.bump a).pec = s.pec := by rfl
@[simp] theorem State.bump_pch (a : Nat) : (s.bump a).pch = s.pch := by rfl
@[simp] theorem State.bump_can (a : Nat) : (s.bump a).can = s.can := by rfl
@[simp] theorem State.bump_sw (a : Nat) : (s.bump a).sw = s.sw := by rfl
@[simp] theorem State.bump_rope (a : Nat) : (s.bump a).rope = s.rope := by rfl
@[simp] theorem State.bump_trav (a : Nat) : (s.bump a).trav = s.trav := by rfl
@[simp] theorem State.bump_cores (a : Nat) : (s.bump a).cores = s.cores := by rfl

@[simp] theorem State.setByte_pending (a : Nat) (b : Byte) : (s.setByte a b).pending = s.pending := by rfl
@[simp] theorem State.setByte_freeCtr (a : Nat) (b : Byte) : (s.setByte a b).freeCtr = s.freeCtr := by rfl
@[simp] theorem State.setByte_reply (a : Nat) (b : Byte) : (s.setByte a b).reply = s.reply := by rfl
@[simp] theorem State.setByte_replyErr (a : Nat) (b : Byte) : (s.setByte a b).replyErr = s.replyErr := by rfl
@[simp] theorem State.setByte_line (a : Nat) (b : Byte) : (s.setByte a b).line = s.line := by rfl
@[simp] theorem State.setByte_time (a : Nat) (b : Byte) : (s.setByte a b).time = s.time := by rfl
@[simp] theorem State.setByte_cyc (a : Nat) (b : Byte) : (s.setByte a b).cyc = s.cyc := by rfl
@[simp] theorem State.setByte_regs (a : Nat) (b : Byte) : (s.setByte a b).regs = s.regs := by rfl
@[simp] theorem State.setByte_cnts (a : Nat) (b : Byte) : (s.setByte a b).cnts = s.cnts := by rfl
@[simp] theorem State.setByte_snaps (a : Nat) (b : Byte) : (s.setByte a b).snaps = s.snaps := by rfl
@[simp] theorem State.setByte_hold (a : Nat) (b : Byte) : (s.setByte a b).hold = s.hold := by rfl
@[simp] theorem State.setByte_flt (a : Nat) (b : Byte) : (s.setByte a b).flt = s.flt := by rfl
@[simp] theorem State.setByte_tick (a : Nat) (b : Byte) : (s.setByte a b).tick = s.tick := by rfl
@[simp] theorem State.setByte_tb (a : Nat) (b : Byte) : (s.setByte a b).tb = s.tb := by rfl
@[simp] theorem State.setByte_mgt (a : Nat) (b : Byte) : (s.setByte a b).mgt = s.mgt := by rfl
@[simp] theorem State.setByte_host (a : Nat) (b : Byte) : (s.setByte a b).host = s.host := by rfl
@[simp] theorem State.setByte_mbx (a : Nat) (b : Byte) : (s.setByte a b).mbx = s.mbx := by rfl
@[simp] theorem State.setByte_pec (a : Nat) (b : Byte) : (s.setByte a b).pec = s.pec := by rfl
@[simp] theorem State.setByte_pch (a : Nat) (b : Byte) : (s.setByte a b).pch = s.pch := by rfl
@[simp] theorem State.setByte_can (a : Nat) (b : Byte) : (s.setByte a b).can = s.can := by rfl
@[simp] theorem State.setByte_sw (a : Nat) (b : Byte) : (s.setByte a b).sw = s.sw := by rfl
@[simp] theorem State.setByte_rope (a : Nat) (b : Byte) : (s.setByte a b).rope = s.rope := by rfl
@[simp] theorem State.setByte_trav (a : Nat) (b : Byte) : (s.setByte a b).trav = s.trav := by rfl
@[simp] theorem State.setByte_cores (a : Nat) (b : Byte) : (s.setByte a b).cores = s.cores := by rfl

@[simp] theorem State.free_pending : (s.free).pending = s.pending := by rfl
@[simp] theorem State.free_reply : (s.free).reply = s.reply := by rfl
@[simp] theorem State.free_replyErr : (s.free).replyErr = s.replyErr := by rfl
@[simp] theorem State.free_line : (s.free).line = s.line := by rfl
@[simp] theorem State.free_time : (s.free).time = s.time := by rfl
@[simp] theorem State.free_cyc : (s.free).cyc = s.cyc := by rfl
@[simp] theorem State.free_mem : (s.free).mem = s.mem := by rfl
@[simp] theorem State.free_regs : (s.free).regs = s.regs := by rfl
@[simp] theorem State.free_cnts : (s.free).cnts = s.cnts := by rfl
@[simp] theorem State.free_snaps : (s.free).snaps = s.snaps := by rfl
@[simp] theorem State.free_hold : (s.free).hold = s.hold := by rfl
@[simp] theorem State.free_flt : (s.free).flt = s.flt := by rfl
@[simp] theorem State.free_tick : (s.free).tick = s.tick := by rfl
@[simp] theorem State.free_tb : (s.free).tb = s.tb := by rfl
@[simp] theorem State.free_mgt : (s.free).mgt = s.mgt := by rfl
@[simp] theorem State.free_host : (s.free).host = s.host := by rfl
@[simp] theorem State.free_mbx : (s.free).mbx = s.mbx := by rfl
@[simp] theorem State.free_pec : (s.free).pec = s.pec := by rfl
@[simp] theorem State.free_pch : (s.free).pch = s.pch := by rfl
@[simp] theorem State.free_can : (s.free).can = s.can := by rfl
@[simp] theorem State.free_sw : (s.free).sw = s.sw := by rfl
@[simp] theorem State.free_rope : (s.free).rope = s.rope := by rfl
@[simp] theorem State.free_trav : (s.free).trav = s.trav := by rfl
@[simp] theorem State.free_cores : (s.free).cores = s.cores := by rfl

@[simp] theorem State.sendVector_pending (v : Nat) : (s.sendVector v).pending = s.pending := by rfl
@[simp] theorem State.sendVector_freeCtr (v : Nat) : (s.sendVector v).freeCtr = s.freeCtr := by rfl
@[simp] theorem State.sendVector_reply (v : Nat) : (s.sendVector v).reply = s.reply := by rfl
@[simp] theorem State.sendVector_replyErr (v : Nat) : (s.sendVector v).replyErr = s.replyErr := by rfl
@[simp] theorem State.sendVector_line (v : Nat) : (s.sendVector v).line = s.line := by rfl
@[simp] theorem State.sendVector_time (v : Nat) : (s.sendVector v).time = s.time := by rfl
@[simp] theorem State.sendVector_cyc (v : Nat) : (s.sendVector v).cyc = s.cyc := by rfl
@[simp] theorem State.sendVector_mem (v : Nat) : (s.sendVector v).mem = s.mem := by rfl
@[simp] theorem State.sendVector_regs (v : Nat) : (s.sendVector v).regs = s.regs := by rfl
@[simp] theorem State.sendVector_cnts (v : Nat) : (s.sendVector v).cnts = s.cnts := by rfl
@[simp] theorem State.sendVector_snaps (v : Nat) : (s.sendVector v).snaps = s.snaps := by rfl
@[simp] theorem State.sendVector_hold (v : Nat) : (s.sendVector v).hold = s.hold := by rfl
@[simp] theorem State.sendVector_flt (v : Nat) : (s.sendVector v).flt = s.flt := by rfl
@[simp] theorem State.sendVector_tick (v : Nat) : (s.sendVector v).tick = s.tick := by rfl
@[simp] theorem State.sendVector_tb (v : Nat) : (s.sendVector v).tb = s.tb := by rfl
@[simp] theorem State.sendVector_mgt (v : Nat) : (s.sendVector v).mgt = s.mgt := by rfl
@[simp] theorem State.sendVector_mbx (v : Nat) : (s.sendVector v).mbx = s.mbx := by rfl
@[simp] theorem State.sendVector_pec (v : Nat) : (s.sendVector v).pec = s.pec := by rfl
@[simp] theorem State.sendVector_pch (v : Nat) : (s.sendVector v).pch = s.pch := by rfl
@[simp] theorem State.sendVector_can (v : Nat) : (s.sendVector v).can = s.can := by rfl
@[simp] theorem State.sendVector_sw (v : Nat) : (s.sendVector v).sw = s.sw := by rfl
@[simp] theorem State.sendVector_rope (v : Nat) : (s.sendVector v).rope = s.rope := by rfl
@[simp] theorem State.sendVector_trav (v : Nat) : (s.sendVector v).trav = s.trav := by rfl
@[simp] theorem State.sendVector_cores (v : Nat) : (s.sendVector v).cores = s.cores := by rfl

@[simp] theorem State.raiseVector_pending (v : Nat) : (s.raiseVector v).pending = s.pending := by unfold State.raiseVector; dsimp only; split <;> rfl
@[simp] theorem State.raiseVector_freeCtr (v : Nat) : (s.raiseVector v).freeCtr = s.freeCtr := by unfold State.raiseVector; dsimp only; split <;> rfl
@[simp] theorem State.raiseVector_reply (v : Nat) : (s.raiseVector v).reply = s.reply := by unfold State.raiseVector; dsimp only; split <;> rfl
@[simp] theorem State.raiseVector_replyErr (v : Nat) : (s.raiseVector v).replyErr = s.replyErr := by unfold State.raiseVector; dsimp only; split <;> rfl
@[simp] theorem State.raiseVector_line (v : Nat) : (s.raiseVector v).line = s.line := by unfold State.raiseVector; dsimp only; split <;> rfl
@[simp] theorem State.raiseVector_time (v : Nat) : (s.raiseVector v).time = s.time := by unfold State.raiseVector; dsimp only; split <;> rfl
@[simp] theorem State.raiseVector_cyc (v : Nat) : (s.raiseVector v).cyc = s.cyc := by unfold State.raiseVector; dsimp only; split <;> rfl
@[simp] theorem State.raiseVector_mem (v : Nat) : (s.raiseVector v).mem = s.mem := by unfold State.raiseVector; dsimp only; split <;> rfl
@[simp] theorem State.raiseVector_regs (v : Nat) : (s.raiseVector v).regs = s.regs := by unfold State.raiseVector; dsimp only; split <;> rfl
@[simp] theorem State.raiseVector_cnts (v : Nat) : (s.raiseVector v).cnts = s.cnts := by unfold State.raiseVector; dsimp only; split <;> rfl
@[simp] theorem State.raiseVector_snaps (v : Nat) : (s.raiseVector v).snaps = s.snaps := by unfold State.raiseVector; dsimp only; split <;> rfl
@[simp] theorem State.raiseVector_hold (v : Nat) : (s.raiseVector v).hold = s.hold := by unfold State.raiseVector; dsimp only; split <;> rfl
@[simp] theorem State.raiseVector_flt (v : Nat) : (s.raiseVector v).flt = s.flt := by unfold State.raiseVector; dsimp only; split <;> rfl
@[simp] theorem State.raiseVector_tick (v : Nat) : (s.raiseVector v).tick = s.tick := by unfold State.raiseVector; dsimp only; split <;> rfl
@[simp] theorem State.raiseVector_tb (v : Nat) : (s.raiseVector v).tb = s.tb := by unfold State.raiseVector; dsimp only; split <;> rfl
@[simp] theorem State.raiseVector_mgt (v : Nat) : (s.raiseVector v).mgt = s.mgt := by unfold State.raiseVector; dsimp only; split <;> rfl
@[simp] theorem State.raiseVector_mbx (v : Nat) : (s.raiseVector v).mbx = s.mbx := by unfold State.raiseVector; dsimp only; split <;> rfl
@[simp] theorem State.raiseVector_pec (v : Nat) : (s.raiseVector v).pec = s.pec := by unfold State.raiseVector; dsimp only; split <;> rfl
@[simp] theorem State.raiseVector_pch (v : Nat) : (s.raiseVector v).pch = s.pch := by unfold State.raiseVector; dsimp only; split <;> rfl
@[simp] theorem State.raiseVector_can (v : Nat) : (s.raiseVector v).can = s.can := by unfold State.raiseVector; dsimp only; split <;> rfl
@[simp] theorem State.raiseVector_sw (v : Nat) : (s.raiseVector v).sw = s.sw := by unfold State.raiseVector; dsimp only; split <;> rfl
@[simp] theorem State.raiseVector_rope (v : Nat) : (s.raiseVector v).rope = s.rope := by unfold State.raiseVector; dsimp only; split <;> rfl
@[simp] theorem State.raiseVector_trav (v : Nat) : (s.raiseVector v).trav = s.trav := by unfold State.raiseVector; dsimp only; split <;> rfl
@[simp] theorem State.raiseVector_cores (v : Nat) : (s.raiseVector v).cores = s.cores := by unfold State.raiseVector; dsimp only; split <;> rfl

@[simp] theorem State.onBus_pending (e : Event) : (s.onBus e).pending = s.pending := by rfl
@[simp] theorem State.onBus_freeCtr (e : Event) : (s.onBus e).freeCtr = s.freeCtr := by rfl
@[simp] theorem State.onBus_reply (e : Event) : (s.onBus e).reply = s.reply := by rfl
@[simp] theorem State.onBus_replyErr (e : Event) : (s.onBus e).replyErr = s.replyErr := by rfl
@[simp] theorem State.onBus_line (e : Event) : (s.onBus e).line = s.line := by rfl
@[simp] theorem State.onBus_time (e : Event) : (s.onBus e).time = s.time := by rfl
@[simp] theorem State.onBus_cyc (e : Event) : (s.onBus e).cyc = s.cyc := by rfl
@[simp] theorem State.onBus_mem (e : Event) : (s.onBus e).mem = s.mem := by rfl
@[simp] theorem State.onBus_regs (e : Event) : (s.onBus e).regs = s.regs := by rfl
@[simp] theorem State.onBus_cnts (e : Event) : (s.onBus e).cnts = s.cnts := by rfl
@[simp] theorem State.onBus_snaps (e : Event) : (s.onBus e).snaps = s.snaps := by rfl
@[simp] theorem State.onBus_hold (e : Event) : (s.onBus e).hold = s.hold := by rfl
@[simp] theorem State.onBus_tick (e : Event) : (s.onBus e).tick = s.tick := by rfl
@[simp] theorem State.onBus_tb (e : Event) : (s.onBus e).tb = s.tb := by rfl
@[simp] theorem State.onBus_mgt (e : Event) : (s.onBus e).mgt = s.mgt := by rfl
@[simp] theorem State.onBus_host (e : Event) : (s.onBus e).host = s.host := by rfl
@[simp] theorem State.onBus_mbx (e : Event) : (s.onBus e).mbx = s.mbx := by rfl
@[simp] theorem State.onBus_pec (e : Event) : (s.onBus e).pec = s.pec := by rfl
@[simp] theorem State.onBus_pch (e : Event) : (s.onBus e).pch = s.pch := by rfl
@[simp] theorem State.onBus_can (e : Event) : (s.onBus e).can = s.can := by rfl
@[simp] theorem State.onBus_sw (e : Event) : (s.onBus e).sw = s.sw := by rfl
@[simp] theorem State.onBus_rope (e : Event) : (s.onBus e).rope = s.rope := by rfl
@[simp] theorem State.onBus_trav (e : Event) : (s.onBus e).trav = s.trav := by rfl
@[simp] theorem State.onBus_cores (e : Event) : (s.onBus e).cores = s.cores := by rfl

@[simp] theorem State.detect_pending (e : Event) : (s.detect e).pending = s.pending := by rfl
@[simp] theorem State.detect_freeCtr (e : Event) : (s.detect e).freeCtr = s.freeCtr := by rfl
@[simp] theorem State.detect_reply (e : Event) : (s.detect e).reply = s.reply := by rfl
@[simp] theorem State.detect_replyErr (e : Event) : (s.detect e).replyErr = s.replyErr := by rfl
@[simp] theorem State.detect_line (e : Event) : (s.detect e).line = s.line := by rfl
@[simp] theorem State.detect_time (e : Event) : (s.detect e).time = s.time := by rfl
@[simp] theorem State.detect_cyc (e : Event) : (s.detect e).cyc = s.cyc := by rfl
@[simp] theorem State.detect_mem (e : Event) : (s.detect e).mem = s.mem := by rfl
@[simp] theorem State.detect_regs (e : Event) : (s.detect e).regs = s.regs := by rfl
@[simp] theorem State.detect_cnts (e : Event) : (s.detect e).cnts = s.cnts := by rfl
@[simp] theorem State.detect_snaps (e : Event) : (s.detect e).snaps = s.snaps := by rfl
@[simp] theorem State.detect_hold (e : Event) : (s.detect e).hold = s.hold := by rfl
@[simp] theorem State.detect_tick (e : Event) : (s.detect e).tick = s.tick := by rfl
@[simp] theorem State.detect_tb (e : Event) : (s.detect e).tb = s.tb := by rfl
@[simp] theorem State.detect_mgt (e : Event) : (s.detect e).mgt = s.mgt := by rfl
@[simp] theorem State.detect_host (e : Event) : (s.detect e).host = s.host := by rfl
@[simp] theorem State.detect_mbx (e : Event) : (s.detect e).mbx = s.mbx := by rfl
@[simp] theorem State.detect_pec (e : Event) : (s.detect e).pec = s.pec := by rfl
@[simp] theorem State.detect_pch (e : Event) : (s.detect e).pch = s.pch := by rfl
@[simp] theorem State.detect_can (e : Event) : (s.detect e).can = s.can := by rfl
@[simp] theorem State.detect_sw (e : Event) : (s.detect e).sw = s.sw := by rfl
@[simp] theorem State.detect_rope (e : Event) : (s.detect e).rope = s.rope := by rfl
@[simp] theorem State.detect_trav (e : Event) : (s.detect e).trav = s.trav := by rfl
@[simp] theorem State.detect_cores (e : Event) : (s.detect e).cores = s.cores := by rfl

@[simp] theorem State.setHeld_pending (w : Who) (h : Option (Nat × Word)) : (s.setHeld w h).pending = s.pending := by rfl
@[simp] theorem State.setHeld_freeCtr (w : Who) (h : Option (Nat × Word)) : (s.setHeld w h).freeCtr = s.freeCtr := by rfl
@[simp] theorem State.setHeld_reply (w : Who) (h : Option (Nat × Word)) : (s.setHeld w h).reply = s.reply := by rfl
@[simp] theorem State.setHeld_replyErr (w : Who) (h : Option (Nat × Word)) : (s.setHeld w h).replyErr = s.replyErr := by rfl
@[simp] theorem State.setHeld_line (w : Who) (h : Option (Nat × Word)) : (s.setHeld w h).line = s.line := by rfl
@[simp] theorem State.setHeld_time (w : Who) (h : Option (Nat × Word)) : (s.setHeld w h).time = s.time := by rfl
@[simp] theorem State.setHeld_cyc (w : Who) (h : Option (Nat × Word)) : (s.setHeld w h).cyc = s.cyc := by rfl
@[simp] theorem State.setHeld_mem (w : Who) (h : Option (Nat × Word)) : (s.setHeld w h).mem = s.mem := by rfl
@[simp] theorem State.setHeld_regs (w : Who) (h : Option (Nat × Word)) : (s.setHeld w h).regs = s.regs := by rfl
@[simp] theorem State.setHeld_cnts (w : Who) (h : Option (Nat × Word)) : (s.setHeld w h).cnts = s.cnts := by rfl
@[simp] theorem State.setHeld_snaps (w : Who) (h : Option (Nat × Word)) : (s.setHeld w h).snaps = s.snaps := by rfl
@[simp] theorem State.setHeld_flt (w : Who) (h : Option (Nat × Word)) : (s.setHeld w h).flt = s.flt := by rfl
@[simp] theorem State.setHeld_tick (w : Who) (h : Option (Nat × Word)) : (s.setHeld w h).tick = s.tick := by rfl
@[simp] theorem State.setHeld_tb (w : Who) (h : Option (Nat × Word)) : (s.setHeld w h).tb = s.tb := by rfl
@[simp] theorem State.setHeld_mgt (w : Who) (h : Option (Nat × Word)) : (s.setHeld w h).mgt = s.mgt := by rfl
@[simp] theorem State.setHeld_host (w : Who) (h : Option (Nat × Word)) : (s.setHeld w h).host = s.host := by rfl
@[simp] theorem State.setHeld_mbx (w : Who) (h : Option (Nat × Word)) : (s.setHeld w h).mbx = s.mbx := by rfl
@[simp] theorem State.setHeld_pec (w : Who) (h : Option (Nat × Word)) : (s.setHeld w h).pec = s.pec := by rfl
@[simp] theorem State.setHeld_pch (w : Who) (h : Option (Nat × Word)) : (s.setHeld w h).pch = s.pch := by rfl
@[simp] theorem State.setHeld_can (w : Who) (h : Option (Nat × Word)) : (s.setHeld w h).can = s.can := by rfl
@[simp] theorem State.setHeld_sw (w : Who) (h : Option (Nat × Word)) : (s.setHeld w h).sw = s.sw := by rfl
@[simp] theorem State.setHeld_rope (w : Who) (h : Option (Nat × Word)) : (s.setHeld w h).rope = s.rope := by rfl
@[simp] theorem State.setHeld_trav (w : Who) (h : Option (Nat × Word)) : (s.setHeld w h).trav = s.trav := by rfl
@[simp] theorem State.setHeld_cores (w : Who) (h : Option (Nat × Word)) : (s.setHeld w h).cores = s.cores := by rfl

@[simp] theorem State.setCore_pending (n : Nat) (c : Core) : (s.setCore n c).pending = s.pending := by rfl
@[simp] theorem State.setCore_freeCtr (n : Nat) (c : Core) : (s.setCore n c).freeCtr = s.freeCtr := by rfl
@[simp] theorem State.setCore_reply (n : Nat) (c : Core) : (s.setCore n c).reply = s.reply := by rfl
@[simp] theorem State.setCore_replyErr (n : Nat) (c : Core) : (s.setCore n c).replyErr = s.replyErr := by rfl
@[simp] theorem State.setCore_line (n : Nat) (c : Core) : (s.setCore n c).line = s.line := by rfl
@[simp] theorem State.setCore_time (n : Nat) (c : Core) : (s.setCore n c).time = s.time := by rfl
@[simp] theorem State.setCore_cyc (n : Nat) (c : Core) : (s.setCore n c).cyc = s.cyc := by rfl
@[simp] theorem State.setCore_mem (n : Nat) (c : Core) : (s.setCore n c).mem = s.mem := by rfl
@[simp] theorem State.setCore_regs (n : Nat) (c : Core) : (s.setCore n c).regs = s.regs := by rfl
@[simp] theorem State.setCore_cnts (n : Nat) (c : Core) : (s.setCore n c).cnts = s.cnts := by rfl
@[simp] theorem State.setCore_snaps (n : Nat) (c : Core) : (s.setCore n c).snaps = s.snaps := by rfl
@[simp] theorem State.setCore_hold (n : Nat) (c : Core) : (s.setCore n c).hold = s.hold := by rfl
@[simp] theorem State.setCore_flt (n : Nat) (c : Core) : (s.setCore n c).flt = s.flt := by rfl
@[simp] theorem State.setCore_tick (n : Nat) (c : Core) : (s.setCore n c).tick = s.tick := by rfl
@[simp] theorem State.setCore_tb (n : Nat) (c : Core) : (s.setCore n c).tb = s.tb := by rfl
@[simp] theorem State.setCore_mgt (n : Nat) (c : Core) : (s.setCore n c).mgt = s.mgt := by rfl
@[simp] theorem State.setCore_host (n : Nat) (c : Core) : (s.setCore n c).host = s.host := by rfl
@[simp] theorem State.setCore_mbx (n : Nat) (c : Core) : (s.setCore n c).mbx = s.mbx := by rfl
@[simp] theorem State.setCore_pec (n : Nat) (c : Core) : (s.setCore n c).pec = s.pec := by rfl
@[simp] theorem State.setCore_pch (n : Nat) (c : Core) : (s.setCore n c).pch = s.pch := by rfl
@[simp] theorem State.setCore_can (n : Nat) (c : Core) : (s.setCore n c).can = s.can := by rfl
@[simp] theorem State.setCore_sw (n : Nat) (c : Core) : (s.setCore n c).sw = s.sw := by rfl
@[simp] theorem State.setCore_rope (n : Nat) (c : Core) : (s.setCore n c).rope = s.rope := by rfl
@[simp] theorem State.setCore_trav (n : Nat) (c : Core) : (s.setCore n c).trav = s.trav := by rfl

@[simp] theorem State.store_pending (a : Nat) (bs : List Byte) : (s.store a bs).pending = s.pending := by
  induction bs generalizing s a with
  | nil => rfl
  | cons b bs ih => exact ih (s.setByte a b) (a + 1)
@[simp] theorem State.store_freeCtr (a : Nat) (bs : List Byte) : (s.store a bs).freeCtr = s.freeCtr := by
  induction bs generalizing s a with
  | nil => rfl
  | cons b bs ih => exact ih (s.setByte a b) (a + 1)
@[simp] theorem State.store_reply (a : Nat) (bs : List Byte) : (s.store a bs).reply = s.reply := by
  induction bs generalizing s a with
  | nil => rfl
  | cons b bs ih => exact ih (s.setByte a b) (a + 1)
@[simp] theorem State.store_replyErr (a : Nat) (bs : List Byte) : (s.store a bs).replyErr = s.replyErr := by
  induction bs generalizing s a with
  | nil => rfl
  | cons b bs ih => exact ih (s.setByte a b) (a + 1)
@[simp] theorem State.store_line (a : Nat) (bs : List Byte) : (s.store a bs).line = s.line := by
  induction bs generalizing s a with
  | nil => rfl
  | cons b bs ih => exact ih (s.setByte a b) (a + 1)
@[simp] theorem State.store_time (a : Nat) (bs : List Byte) : (s.store a bs).time = s.time := by
  induction bs generalizing s a with
  | nil => rfl
  | cons b bs ih => exact ih (s.setByte a b) (a + 1)
@[simp] theorem State.store_cyc (a : Nat) (bs : List Byte) : (s.store a bs).cyc = s.cyc := by
  induction bs generalizing s a with
  | nil => rfl
  | cons b bs ih => exact ih (s.setByte a b) (a + 1)
@[simp] theorem State.store_regs (a : Nat) (bs : List Byte) : (s.store a bs).regs = s.regs := by
  induction bs generalizing s a with
  | nil => rfl
  | cons b bs ih => exact ih (s.setByte a b) (a + 1)
@[simp] theorem State.store_cnts (a : Nat) (bs : List Byte) : (s.store a bs).cnts = s.cnts := by
  induction bs generalizing s a with
  | nil => rfl
  | cons b bs ih => exact ih (s.setByte a b) (a + 1)
@[simp] theorem State.store_snaps (a : Nat) (bs : List Byte) : (s.store a bs).snaps = s.snaps := by
  induction bs generalizing s a with
  | nil => rfl
  | cons b bs ih => exact ih (s.setByte a b) (a + 1)
@[simp] theorem State.store_hold (a : Nat) (bs : List Byte) : (s.store a bs).hold = s.hold := by
  induction bs generalizing s a with
  | nil => rfl
  | cons b bs ih => exact ih (s.setByte a b) (a + 1)
@[simp] theorem State.store_flt (a : Nat) (bs : List Byte) : (s.store a bs).flt = s.flt := by
  induction bs generalizing s a with
  | nil => rfl
  | cons b bs ih => exact ih (s.setByte a b) (a + 1)
@[simp] theorem State.store_tick (a : Nat) (bs : List Byte) : (s.store a bs).tick = s.tick := by
  induction bs generalizing s a with
  | nil => rfl
  | cons b bs ih => exact ih (s.setByte a b) (a + 1)
@[simp] theorem State.store_tb (a : Nat) (bs : List Byte) : (s.store a bs).tb = s.tb := by
  induction bs generalizing s a with
  | nil => rfl
  | cons b bs ih => exact ih (s.setByte a b) (a + 1)
@[simp] theorem State.store_mgt (a : Nat) (bs : List Byte) : (s.store a bs).mgt = s.mgt := by
  induction bs generalizing s a with
  | nil => rfl
  | cons b bs ih => exact ih (s.setByte a b) (a + 1)
@[simp] theorem State.store_host (a : Nat) (bs : List Byte) : (s.store a bs).host = s.host := by
  induction bs generalizing s a with
  | nil => rfl
  | cons b bs ih => exact ih (s.setByte a b) (a + 1)
@[simp] theorem State.store_mbx (a : Nat) (bs : List Byte) : (s.store a bs).mbx = s.mbx := by
  induction bs generalizing s a with
  | nil => rfl
  | cons b bs ih => exact ih (s.setByte a b) (a + 1)
@[simp] theorem State.store_pec (a : Nat) (bs : List Byte) : (s.store a bs).pec = s.pec := by
  induction bs generalizing s a with
  | nil => rfl
  | cons b bs ih => exact ih (s.setByte a b) (a + 1)
@[simp] theorem State.store_pch (a : Nat) (bs : List Byte) : (s.store a bs).pch = s.pch := by
  induction bs generalizing s a with
  | nil => rfl
  | cons b bs ih => exact ih (s.setByte a b) (a + 1)
@[simp] theorem State.store_can (a : Nat) (bs : List Byte) : (s.store a bs).can = s.can := by
  induction bs generalizing s a with
  | nil => rfl
  | cons b bs ih => exact ih (s.setByte a b) (a + 1)
@[simp] theorem State.store_sw (a : Nat) (bs : List Byte) : (s.store a bs).sw = s.sw := by
  induction bs generalizing s a with
  | nil => rfl
  | cons b bs ih => exact ih (s.setByte a b) (a + 1)
@[simp] theorem State.store_rope (a : Nat) (bs : List Byte) : (s.store a bs).rope = s.rope := by
  induction bs generalizing s a with
  | nil => rfl
  | cons b bs ih => exact ih (s.setByte a b) (a + 1)
@[simp] theorem State.store_trav (a : Nat) (bs : List Byte) : (s.store a bs).trav = s.trav := by
  induction bs generalizing s a with
  | nil => rfl
  | cons b bs ih => exact ih (s.setByte a b) (a + 1)
@[simp] theorem State.store_cores (a : Nat) (bs : List Byte) : (s.store a bs).cores = s.cores := by
  induction bs generalizing s a with
  | nil => rfl
  | cons b bs ih => exact ih (s.setByte a b) (a + 1)

@[simp] theorem State.raise_pending (src cls cause : Nat) (v : Word) (d : List Byte) :
    (s.raise src cls cause v d).pending = s.pending := by unfold State.raise; split <;> rfl
@[simp] theorem State.raise_freeCtr (src cls cause : Nat) (v : Word) (d : List Byte) :
    (s.raise src cls cause v d).freeCtr = s.freeCtr := by unfold State.raise; split <;> rfl
@[simp] theorem State.raise_reply (src cls cause : Nat) (v : Word) (d : List Byte) :
    (s.raise src cls cause v d).reply = s.reply := by unfold State.raise; split <;> rfl
@[simp] theorem State.raise_replyErr (src cls cause : Nat) (v : Word) (d : List Byte) :
    (s.raise src cls cause v d).replyErr = s.replyErr := by unfold State.raise; split <;> rfl
@[simp] theorem State.raise_line (src cls cause : Nat) (v : Word) (d : List Byte) :
    (s.raise src cls cause v d).line = s.line := by unfold State.raise; split <;> rfl
@[simp] theorem State.raise_time (src cls cause : Nat) (v : Word) (d : List Byte) :
    (s.raise src cls cause v d).time = s.time := by unfold State.raise; split <;> rfl
@[simp] theorem State.raise_cyc (src cls cause : Nat) (v : Word) (d : List Byte) :
    (s.raise src cls cause v d).cyc = s.cyc := by unfold State.raise; split <;> rfl
@[simp] theorem State.raise_mem (src cls cause : Nat) (v : Word) (d : List Byte) :
    (s.raise src cls cause v d).mem = s.mem := by unfold State.raise; split <;> rfl
@[simp] theorem State.raise_regs (src cls cause : Nat) (v : Word) (d : List Byte) :
    (s.raise src cls cause v d).regs = s.regs := by unfold State.raise; split <;> rfl
@[simp] theorem State.raise_cnts (src cls cause : Nat) (v : Word) (d : List Byte) :
    (s.raise src cls cause v d).cnts = s.cnts := by unfold State.raise; split <;> rfl
@[simp] theorem State.raise_snaps (src cls cause : Nat) (v : Word) (d : List Byte) :
    (s.raise src cls cause v d).snaps = s.snaps := by unfold State.raise; split <;> rfl
@[simp] theorem State.raise_hold (src cls cause : Nat) (v : Word) (d : List Byte) :
    (s.raise src cls cause v d).hold = s.hold := by unfold State.raise; split <;> rfl
@[simp] theorem State.raise_tick (src cls cause : Nat) (v : Word) (d : List Byte) :
    (s.raise src cls cause v d).tick = s.tick := by unfold State.raise; split <;> rfl
@[simp] theorem State.raise_tb (src cls cause : Nat) (v : Word) (d : List Byte) :
    (s.raise src cls cause v d).tb = s.tb := by unfold State.raise; split <;> rfl
@[simp] theorem State.raise_mgt (src cls cause : Nat) (v : Word) (d : List Byte) :
    (s.raise src cls cause v d).mgt = s.mgt := by unfold State.raise; split <;> rfl
@[simp] theorem State.raise_host (src cls cause : Nat) (v : Word) (d : List Byte) :
    (s.raise src cls cause v d).host = s.host := by unfold State.raise; split <;> rfl
@[simp] theorem State.raise_mbx (src cls cause : Nat) (v : Word) (d : List Byte) :
    (s.raise src cls cause v d).mbx = s.mbx := by unfold State.raise; split <;> rfl
@[simp] theorem State.raise_pec (src cls cause : Nat) (v : Word) (d : List Byte) :
    (s.raise src cls cause v d).pec = s.pec := by unfold State.raise; split <;> rfl
@[simp] theorem State.raise_pch (src cls cause : Nat) (v : Word) (d : List Byte) :
    (s.raise src cls cause v d).pch = s.pch := by unfold State.raise; split <;> rfl
@[simp] theorem State.raise_can (src cls cause : Nat) (v : Word) (d : List Byte) :
    (s.raise src cls cause v d).can = s.can := by unfold State.raise; split <;> rfl
@[simp] theorem State.raise_sw (src cls cause : Nat) (v : Word) (d : List Byte) :
    (s.raise src cls cause v d).sw = s.sw := by unfold State.raise; split <;> rfl
@[simp] theorem State.raise_rope (src cls cause : Nat) (v : Word) (d : List Byte) :
    (s.raise src cls cause v d).rope = s.rope := by unfold State.raise; split <;> rfl
@[simp] theorem State.raise_trav (src cls cause : Nat) (v : Word) (d : List Byte) :
    (s.raise src cls cause v d).trav = s.trav := by unfold State.raise; split <;> rfl
@[simp] theorem State.raise_cores (src cls cause : Nat) (v : Word) (d : List Byte) :
    (s.raise src cls cause v d).cores = s.cores := by unfold State.raise; split <;> rfl

@[simp] theorem State.answerStore_pending (b : Bool) : (State.answerStore (s, b)).pending = s.pending := by rfl
@[simp] theorem State.answerStore_freeCtr (b : Bool) : (State.answerStore (s, b)).freeCtr = s.freeCtr := by rfl
@[simp] theorem State.answerStore_line (b : Bool) : (State.answerStore (s, b)).line = s.line := by rfl
@[simp] theorem State.answerStore_time (b : Bool) : (State.answerStore (s, b)).time = s.time := by rfl
@[simp] theorem State.answerStore_cyc (b : Bool) : (State.answerStore (s, b)).cyc = s.cyc := by rfl
@[simp] theorem State.answerStore_mem (b : Bool) : (State.answerStore (s, b)).mem = s.mem := by rfl
@[simp] theorem State.answerStore_regs (b : Bool) : (State.answerStore (s, b)).regs = s.regs := by rfl
@[simp] theorem State.answerStore_cnts (b : Bool) : (State.answerStore (s, b)).cnts = s.cnts := by rfl
@[simp] theorem State.answerStore_snaps (b : Bool) : (State.answerStore (s, b)).snaps = s.snaps := by rfl
@[simp] theorem State.answerStore_hold (b : Bool) : (State.answerStore (s, b)).hold = s.hold := by rfl
@[simp] theorem State.answerStore_flt (b : Bool) : (State.answerStore (s, b)).flt = s.flt := by rfl
@[simp] theorem State.answerStore_tick (b : Bool) : (State.answerStore (s, b)).tick = s.tick := by rfl
@[simp] theorem State.answerStore_tb (b : Bool) : (State.answerStore (s, b)).tb = s.tb := by rfl
@[simp] theorem State.answerStore_mgt (b : Bool) : (State.answerStore (s, b)).mgt = s.mgt := by rfl
@[simp] theorem State.answerStore_host (b : Bool) : (State.answerStore (s, b)).host = s.host := by rfl
@[simp] theorem State.answerStore_mbx (b : Bool) : (State.answerStore (s, b)).mbx = s.mbx := by rfl
@[simp] theorem State.answerStore_pec (b : Bool) : (State.answerStore (s, b)).pec = s.pec := by rfl
@[simp] theorem State.answerStore_pch (b : Bool) : (State.answerStore (s, b)).pch = s.pch := by rfl
@[simp] theorem State.answerStore_can (b : Bool) : (State.answerStore (s, b)).can = s.can := by rfl
@[simp] theorem State.answerStore_sw (b : Bool) : (State.answerStore (s, b)).sw = s.sw := by rfl
@[simp] theorem State.answerStore_rope (b : Bool) : (State.answerStore (s, b)).rope = s.rope := by rfl
@[simp] theorem State.answerStore_trav (b : Bool) : (State.answerStore (s, b)).trav = s.trav := by rfl
@[simp] theorem State.answerStore_cores (b : Bool) : (State.answerStore (s, b)).cores = s.cores := by rfl
@[simp] theorem State.answerStore_reply (b : Bool) : (State.answerStore (s, b)).reply = [] := by rfl
@[simp] theorem State.answerStore_replyErr (b : Bool) : (State.answerStore (s, b)).replyErr = b := by rfl

end Sys2Proof.Machine
end

