-- ==== Sys2Proof/Laws/Tab.lean ====
section
/-!
SUPPORT. The laws of the sparse tables: what is read after a write, and that a write keeps the canonical form.
-/
namespace Sys2Proof.Machine

variable {α : Type} [DecidableEq α] {d : Nat → α}

omit [DecidableEq α] in
theorem Tab.get_put_same (t : Tab α) (k : Nat) (v : α) : Tab.get d (Tab.put t k v) k = v := by
  induction t with
  | nil => simp [Tab.put, Tab.get]
  | cons p t ih =>
    obtain ⟨k', v'⟩ := p
    unfold Tab.put
    split
    · simp [Tab.get]
    · split
      · simp [Tab.get]
      · simp_all [Tab.get]

omit [DecidableEq α] in
theorem Tab.get_put_other (t : Tab α) {k j : Nat} (v : α) (h : j ≠ k) :
    Tab.get d (Tab.put t k v) j = Tab.get d t j := by
  induction t with
  | nil => simp [Tab.put, Tab.get, Ne.symm h]
  | cons p t ih =>
    obtain ⟨k', v'⟩ := p
    unfold Tab.put
    split
    · rename_i e; subst e; simp [Tab.get, Ne.symm h]
    · split
      · simp [Tab.get, Ne.symm h]
      · simp [Tab.get, ih]

omit [DecidableEq α] in
theorem Tab.get_drop_other (t : Tab α) {k j : Nat} (h : j ≠ k) : Tab.get d (Tab.drop t k) j = Tab.get d t j := by
  induction t with
  | nil => rfl
  | cons p t ih =>
    obtain ⟨k', v'⟩ := p
    unfold Tab.drop
    split
    · rename_i e; subst e; simp [Tab.get, Ne.symm h, ih]
    · simp [Tab.get, ih]

omit [DecidableEq α] in
theorem Tab.get_drop_same (t : Tab α) {k : Nat} : Tab.get d (Tab.drop t k) k = d k := by
  induction t with
  | nil => rfl
  | cons p t ih =>
    obtain ⟨k', v'⟩ := p
    unfold Tab.drop
    split
    · exact ih
    · rename_i e; simp [Tab.get, e, ih]

/-- A read of another key after a write gives what it gave before. -/
theorem Tab.get_set_other (t : Tab α) {k j : Nat} (v : α) (h : j ≠ k) :
    Tab.get d (Tab.set d t k v) j = Tab.get d t j := by
  unfold Tab.set; split
  · exact Tab.get_drop_other t h
  · exact Tab.get_put_other t v h

/-- A read after a write gives the value written. -/
theorem Tab.get_set_same (t : Tab α) {k : Nat} (v : α) : Tab.get d (Tab.set d t k v) k = v := by
  unfold Tab.set; split
  · rename_i e; rw [e]; exact Tab.get_drop_same t
  · exact Tab.get_put_same t k v

theorem Tab.wfFrom_mono (t : Tab α) {lo lo' : Nat} (h : lo' ≤ lo) (w : Tab.wfFrom d lo t = true) :
    Tab.wfFrom d lo' t = true := by
  cases t with
  | nil => rfl
  | cons p t => obtain ⟨k, v⟩ := p; simp only [Tab.wfFrom, Bool.and_eq_true, decide_eq_true_eq] at *; exact ⟨⟨by omega, w.1.2⟩, w.2⟩

theorem Tab.wfFrom_put (t : Tab α) {lo k : Nat} {v : α} (w : Tab.wfFrom d lo t = true) (hk : lo ≤ k) (hv : v ≠ d k) :
    Tab.wfFrom d lo (Tab.put t k v) = true := by
  induction t generalizing lo with
  | nil => simp [Tab.put, Tab.wfFrom, hk, hv]
  | cons p t ih =>
    obtain ⟨k', v'⟩ := p
    simp only [Tab.wfFrom, Bool.and_eq_true, decide_eq_true_eq] at w
    unfold Tab.put
    split
    · rename_i e; subst e; simp [Tab.wfFrom, hk, hv, w.2]
    · split
      · simp only [Tab.wfFrom, Bool.and_eq_true, decide_eq_true_eq]
        exact ⟨⟨hk, hv⟩, ⟨⟨by omega, w.1.2⟩, w.2⟩⟩
      · simp only [Tab.wfFrom, Bool.and_eq_true, decide_eq_true_eq]
        exact ⟨w.1, ih w.2 (by omega)⟩

theorem Tab.wfFrom_drop (t : Tab α) {lo k : Nat} (w : Tab.wfFrom d lo t = true) : Tab.wfFrom d lo (Tab.drop t k) = true := by
  induction t generalizing lo with
  | nil => exact w
  | cons p t ih =>
    obtain ⟨k', v'⟩ := p
    simp only [Tab.wfFrom, Bool.and_eq_true, decide_eq_true_eq] at w
    unfold Tab.drop
    split
    · exact ih (Tab.wfFrom_mono t (by omega) w.2)
    · simp only [Tab.wfFrom, Bool.and_eq_true, decide_eq_true_eq]; exact ⟨w.1, ih w.2⟩

/-- A write keeps the canonical form. -/
theorem Tab.wf_set (t : Tab α) (k : Nat) (v : α) (w : Tab.wf d t = true) : Tab.wf d (Tab.set d t k v) = true := by
  unfold Tab.set; split
  · exact Tab.wfFrom_drop t w
  · rename_i h; exact Tab.wfFrom_put t w (Nat.zero_le k) h

/-- The empty table is canonical. -/
theorem Tab.wf_nil : Tab.wf d ([] : Tab α) = true := rfl

end Sys2Proof.Machine
end

