-- ==== Sys2Proof/Laws/Ops.lean ====
section
/-!
SUPPORT. What is read after each of the named operations: registers and their fields, counters, bytes of memory, and that every memory
operation keeps the canonical form.
-/
namespace Sys2Proof.Machine

variable (s : State)

/-! ## Registers -/

@[simp] theorem State.reg_setReg_same (a : Nat) (w : Word) : (s.setReg a w).reg a = w := Tab.get_set_same _ _
theorem State.reg_setReg_other {a b : Nat} (w : Word) (h : b ≠ a) : (s.setReg a w).reg b = s.reg b := Tab.get_set_other _ _ h
theorem State.reg_setReg (a b : Nat) (w : Word) : (s.setReg a w).reg b = if b = a then w else s.reg b := by
  split
  · subst_vars; simp
  · exact s.reg_setReg_other w ‹_›
theorem State.reg_setFld (a b lo len n : Nat) : (s.setFld a lo len n).reg b = if b = a then setBits (s.reg a) lo len n else s.reg b :=
  s.reg_setReg a b _
theorem State.reg_setBit (a b i : Nat) (v : Bool) :
    (s.setBit a i v).reg b = if b = a then setBits (s.reg a) i 1 (bit01 v) else s.reg b := s.reg_setReg a b _
theorem State.reg_setBit_other {a b : Nat} (i : Nat) (v : Bool) (h : b ≠ a) : (s.setBit a i v).reg b = s.reg b := s.reg_setReg_other _ h
theorem State.reg_setFld_other {a b : Nat} (lo len n : Nat) (h : b ≠ a) : (s.setFld a lo len n).reg b = s.reg b := s.reg_setReg_other _ h
@[simp] theorem State.reg_bumpBy (a b n : Nat) : (s.bumpBy a n).reg b = s.reg b := by rfl
@[simp] theorem State.reg_bump (a b : Nat) : (s.bump a).reg b = s.reg b := by rfl
@[simp] theorem State.bit_bump (a b i : Nat) : (s.bump a).bit b i = s.bit b i := by rfl
@[simp] theorem State.fld_bump (a b lo len : Nat) : (s.bump a).fld b lo len = s.fld b lo len := by rfl
theorem State.bit_setReg_other {a b : Nat} (w : Word) (i : Nat) (h : b ≠ a) : (s.setReg a w).bit b i = s.bit b i := by
  unfold State.bit; rw [s.reg_setReg_other w h]
theorem State.fld_setReg_other {a b : Nat} (w : Word) (lo len : Nat) (h : b ≠ a) : (s.setReg a w).fld b lo len = s.fld b lo len := by
  unfold State.fld; rw [s.reg_setReg_other w h]
theorem State.bit_setBit_other {a b : Nat} (i j : Nat) (v : Bool) (h : b ≠ a) : (s.setBit a i v).bit b j = s.bit b j :=
  s.bit_setReg_other _ j h
theorem State.fld_setBit_other {a b : Nat} (i lo len : Nat) (v : Bool) (h : b ≠ a) : (s.setBit a i v).fld b lo len = s.fld b lo len :=
  s.fld_setReg_other _ lo len h

theorem State.bit_setBit_same (a i : Nat) (b : Bool) (h : i < 32) : (s.setBit a i b).bit a i = b := by
  unfold State.bit; rw [s.reg_setBit, if_pos rfl, bitOf_setBits_same _ i b h]
theorem State.bit_setBit_apart (a i j : Nat) (b : Bool) (h : i < 32) (hij : j ≠ i) : (s.setBit a i b).bit a j = s.bit a j := by
  unfold State.bit; rw [s.reg_setBit, if_pos rfl, bitOf_setBits_other _ i 1 _ j (by omega) (by omega)]
theorem State.fld_setFld_same (a lo len n : Nat) (h : lo + len ≤ 32) : (s.setFld a lo len n).fld a lo len = n % 2 ^ len := by
  unfold State.fld; rw [s.reg_setFld, if_pos rfl, fieldOf_setBits_same _ lo len n h]
theorem State.fld_setFld_apart (a lo len n lo' len' : Nat) (h : lo + len ≤ 32) (hi : lo' + len' ≤ lo ∨ lo + len ≤ lo') :
    (s.setFld a lo len n).fld a lo' len' = s.fld a lo' len' := by
  unfold State.fld; rw [s.reg_setFld, if_pos rfl, fieldOf_setBits_other _ lo len n lo' len' h hi]

/-! ## Counters -/

@[simp] theorem State.count_setReg (a b : Nat) (w : Word) : (s.setReg a w).count b = s.count b := by rfl
@[simp] theorem State.count_bumpBy_same (a n : Nat) : (s.bumpBy a n).count a = s.count a + dword n := Tab.get_set_same _ _
@[simp] theorem State.count_bump_same (a : Nat) : (s.bump a).count a = s.count a + 1 := Tab.get_set_same _ _
theorem State.count_bump_other {a b : Nat} (h : b ≠ a) : (s.bump a).count b = s.count b := Tab.get_set_other _ _ h

/-! ## Memory -/

@[simp] theorem State.byte_setByte_same (a : Nat) (b : Byte) : (s.setByte a b).byte a = b := Tab.get_set_same _ _
theorem State.byte_setByte_other {a c : Nat} (b : Byte) (h : c ≠ a) : (s.setByte a b).byte c = s.byte c := Tab.get_set_other _ _ h

/-- A byte outside the bytes stored reads as before. -/
theorem State.byte_store_other (bs : List Byte) {a c : Nat} (h : c < a ∨ a + bs.length ≤ c) : (s.store a bs).byte c = s.byte c := by
  induction bs generalizing s a with
  | nil => rfl
  | cons b bs ih =>
    simp only [List.length_cons] at h
    rw [State.store, ih (s.setByte a b) (by omega), s.byte_setByte_other b (by omega)]

/-- A byte among those stored reads as stored. -/
theorem State.byte_store_at (bs : List Byte) {a i : Nat} (h : i < bs.length) : (s.store a bs).byte (a + i) = bs[i] := by
  induction bs generalizing s a i with
  | nil => simp at h
  | cons b bs ih =>
    cases i with
    | zero => rw [State.store, State.byte_store_other _ _ (by omega)]; simp
    | succ i =>
      rw [State.store, show a + (i + 1) = a + 1 + i by omega, ih (s.setByte a b) (by simpa using h)]; simp

theorem State.wf_setByte (a : Nat) (b : Byte) (w : Memory.wf s.mem = true) : Memory.wf (s.setByte a b).mem = true := Tab.wf_set _ _ _ w

/-- Storing keeps the canonical form. -/
theorem State.wf_store (bs : List Byte) (a : Nat) (w : Memory.wf s.mem = true) : Memory.wf (s.store a bs).mem = true := by
  induction bs generalizing s a with
  | nil => exact w
  | cons b bs ih => exact ih _ _ (s.wf_setByte a b w)

end Sys2Proof.Machine
end

