-- ==== Sys2Proof/Laws/Bus.lean ====
section
/-!
SUPPORT. What a register access by an admitted master comes to: the unit's own answer at the register's offset.
-/
namespace Sys2Proof.Machine

variable {w : Who} {s t : State}

theorem Admitted.ok (h : Admitted w s) : w.ok = true := by
  rcases h with ⟨a, b⟩ | ⟨a, b, -⟩ <;> (obtain ⟨m, p⟩ := w; simp only at a b; subst a; subst b; decide)

theorem Admitted.notEngine (h : Admitted w s) : engineOf w.master = none := by
  rcases h with ⟨a, -⟩ | ⟨a, -, -⟩ <;> (rw [a]; decide)

theorem Admitted.hostOrMcp (h : Admitted w s) : hostOrMcp w = true := by
  rcases h with ⟨a, -⟩ | ⟨a, -, -⟩ <;> (unfold Machine.hostOrMcp isHost isMcp; rw [a]; decide)

theorem Admitted.pathOpen (h : Admitted w s) {b : Block} (hn : b ≠ .secure ∧ b ≠ .pe) (wr : Bool) : s.pathOpen w (some b) wr = true := by
  unfold State.pathOpen
  rcases h with ⟨a, -⟩ | ⟨a, p, c⟩
  · simp [isHost, a]
  · simp [isHost, a, p, c, hn.1, hn.2]

theorem Admitted.notBar4 (h : Admitted w s) : w.path ≠ .bar4 := by
  rcases h with ⟨-, b⟩ | ⟨-, b, -⟩ <;> (rw [b]; decide)

theorem Admitted.notPair (h : Admitted w s) : w.path ≠ .pciePair := by
  rcases h with ⟨-, b⟩ | ⟨-, b, -⟩ <;> (rw [b]; decide)

theorem ByMcp.admitted (h : ByMcp w) : Admitted w s := Or.inl h
theorem ByMcp.isMcp (h : ByMcp w) : isMcp w = true := by unfold Machine.isMcp; rw [h.1]; decide
theorem ByMcp.notHost (h : ByMcp w) : isHost w = false := by unfold isHost; rw [h.1]; decide

/-- The write of a register by an admitted master is what its unit answers. -/
theorem signedWrite_admitted (h : Admitted w s) {a o : Nat} {b : Block} (d : Word) (x : Signed) (ha : a % 4 = 0)
    (hb : blockOf a = some (b, o)) (hn : b ≠ .secure ∧ b ≠ .pe) (hr : ((s.blockWrite w b o a d x).orPlain s a d).state s = (t, false)) :
    signedWrite w a d x s = acked t := by
  unfold signedWrite State.busStore State.busWrite
  rw [h.notEngine]
  simp [ha, hb, h.pathOpen hn, h.notBar4, h.hostOrMcp, State.writeWord, hr, State.accounted, State.answerStore, acked]

/-- The same, where the unit refuses it. -/
theorem signedWrite_refused (h : Admitted w s) {a o : Nat} {b : Block} (d : Word) (x : Signed) (ha : a % 4 = 0)
    (hb : blockOf a = some (b, o)) (hn : b ≠ .secure ∧ b ≠ .pe) (hr : ((s.blockWrite w b o a d x).orPlain s a d).state s = (t, true)) :
    signedWrite w a d x s = refusedWrite (t.masterError w a true) := by
  unfold signedWrite State.busStore State.busWrite
  rw [h.notEngine]
  simp [ha, hb, h.pathOpen hn, h.notBar4, h.hostOrMcp, State.writeWord, hr, State.accounted, State.answerStore, refusedWrite]

/-- The write of a register that brings nothing from outside. -/
theorem regWrite_admitted (h : Admitted w s) {a o : Nat} {b : Block} (d : Word) (ha : a % 4 = 0) (hb : blockOf a = some (b, o))
    (hn : b ≠ .secure ∧ b ≠ .pe)
    (hr : ((s.blockWrite w b o a d nothingSigned).orPlain s a d).state s = (t, false)) : regWrite w a d s = acked t :=
  signedWrite_admitted h d nothingSigned ha hb hn hr

/-- The same, where the unit refuses it. -/
theorem regWrite_refused (h : Admitted w s) {a o : Nat} {b : Block} (d : Word) (ha : a % 4 = 0) (hb : blockOf a = some (b, o))
    (hn : b ≠ .secure ∧ b ≠ .pe)
    (hr : ((s.blockWrite w b o a d nothingSigned).orPlain s a d).state s = (t, true)) :
    regWrite w a d s = refusedWrite (t.masterError w a true) := signedWrite_refused h d nothingSigned ha hb hn hr

/-- The read of a register by an admitted master is what its unit answers. -/
theorem regRead_admitted (h : Admitted w s) {a o : Nat} {b : Block} {v : Word} (ha : a % 4 = 0) (hb : blockOf a = some (b, o))
    (hn : b ≠ .secure ∧ b ≠ .pe)
    (hr : s.finishRead w a ((s.blockRead w b o a).orPlain s a) = ⟨t, v, false⟩) : regRead w a s = answered t v := by
  unfold regRead State.busLoad State.busRead State.readWord
  simp [ha, hb, h.pathOpen hn, h.notBar4, h.notPair, h.hostOrMcp, State.mayReach, hr, BusVal.answer, answered]

/-- An event of a unit that the part has is its effect, and an access to one is the access. -/
theorem event_true (s s1 : State) : event true s s1 = .next s1 := rfl
theorem event_false (s s1 : State) : event false s s1 = .next s := rfl
theorem access_true (h : Admitted w s) (s1 : State) : access w true s s1 = .next s1 := by unfold access; simp [h.ok]
theorem query_true (h : Admitted w s) (s1 : State) : query w true s s1 = .next s1 := by unfold query; simp [h.ok]

end Sys2Proof.Machine
end

