-- ==== Sys2Proof/Laws/Blocks.lean ====
section
/-!
SUPPORT. Where the registers of each block stand in the device address map (R445): the block and the offset of every address that the units
name, and that each is a word address.
-/
namespace Sys2Proof.Machine

theorem blockOf_sys {o : Nat} (h : o < 0x100000) : blockOf (sysReg o) = some (.sys, o) := by
  simp only [blockOf, addressMap, findBlock, sysBase, tickBase, fltBase, mgtBase, timeBase, mbxBase, memBase, pecBase, pchBase, canBase,
    portBase, swBase, ropeBase, travBase, hostBase, cairnBase, secureBase, peBase, sysReg]
  repeat rw [if_neg (by omega)]
  rw [if_pos (by omega)]; exact congrArg (fun x => some (_, x)) (by omega)
theorem blockOf_tick {o : Nat} (h : o < 0x100000) : blockOf (tickReg o) = some (.tick, o) := by
  simp only [blockOf, addressMap, findBlock, sysBase, tickBase, fltBase, mgtBase, timeBase, mbxBase, memBase, pecBase, pchBase, canBase,
    portBase, swBase, ropeBase, travBase, hostBase, cairnBase, secureBase, peBase, tickReg]
  repeat rw [if_neg (by omega)]
  rw [if_pos (by omega)]; exact congrArg (fun x => some (_, x)) (by omega)
theorem blockOf_flt {o : Nat} (h : o < 0x100000) : blockOf (fltReg o) = some (.flt, o) := by
  simp only [blockOf, addressMap, findBlock, sysBase, tickBase, fltBase, mgtBase, timeBase, mbxBase, memBase, pecBase, pchBase, canBase,
    portBase, swBase, ropeBase, travBase, hostBase, cairnBase, secureBase, peBase, fltReg]
  repeat rw [if_neg (by omega)]
  rw [if_pos (by omega)]; exact congrArg (fun x => some (_, x)) (by omega)
theorem blockOf_mgt {o : Nat} (h : o < 0x100000) : blockOf (mgtReg o) = some (.mgt, o) := by
  simp only [blockOf, addressMap, findBlock, sysBase, tickBase, fltBase, mgtBase, timeBase, mbxBase, memBase, pecBase, pchBase, canBase,
    portBase, swBase, ropeBase, travBase, hostBase, cairnBase, secureBase, peBase, mgtReg]
  repeat rw [if_neg (by omega)]
  rw [if_pos (by omega)]; exact congrArg (fun x => some (_, x)) (by omega)
theorem blockOf_time {o : Nat} (h : o < 0x100000) : blockOf (timeReg o) = some (.time, o) := by
  simp only [blockOf, addressMap, findBlock, sysBase, tickBase, fltBase, mgtBase, timeBase, mbxBase, memBase, pecBase, pchBase, canBase,
    portBase, swBase, ropeBase, travBase, hostBase, cairnBase, secureBase, peBase, timeReg]
  repeat rw [if_neg (by omega)]
  rw [if_pos (by omega)]; exact congrArg (fun x => some (_, x)) (by omega)
theorem blockOf_mbx {o : Nat} (h : o < 0x100000) : blockOf (mbxBase + o) = some (.mbx, o) := by
  simp only [blockOf, addressMap, findBlock, sysBase, tickBase, fltBase, mgtBase, timeBase, mbxBase, memBase, pecBase, pchBase, canBase,
    portBase, swBase, ropeBase, travBase, hostBase, cairnBase, secureBase, peBase]
  repeat rw [if_neg (by omega)]
  rw [if_pos (by omega)]; exact congrArg (fun x => some (_, x)) (by omega)
theorem blockOf_mem {o : Nat} (h : o < 0x100000) : blockOf (memReg o) = some (.mem, o) := by
  simp only [blockOf, addressMap, findBlock, sysBase, tickBase, fltBase, mgtBase, timeBase, mbxBase, memBase, pecBase, pchBase, canBase,
    portBase, swBase, ropeBase, travBase, hostBase, cairnBase, secureBase, peBase, memReg]
  repeat rw [if_neg (by omega)]
  rw [if_pos (by omega)]; exact congrArg (fun x => some (_, x)) (by omega)
theorem blockOf_pec {o : Nat} (h : o < 0x100000) : blockOf (pecBase + o) = some (.pec, o) := by
  simp only [blockOf, addressMap, findBlock, sysBase, tickBase, fltBase, mgtBase, timeBase, mbxBase, memBase, pecBase, pchBase, canBase,
    portBase, swBase, ropeBase, travBase, hostBase, cairnBase, secureBase, peBase]
  repeat rw [if_neg (by omega)]
  rw [if_pos (by omega)]; exact congrArg (fun x => some (_, x)) (by omega)
theorem blockOf_pch {n o : Nat} (hn : n < 256) (ho : o < 0x4000) : blockOf (pchReg n o) = some (.pch, n * 0x4000 + o) := by
  simp only [blockOf, addressMap, findBlock, sysBase, tickBase, fltBase, mgtBase, timeBase, mbxBase, memBase, pecBase, pchBase, canBase,
    portBase, swBase, ropeBase, travBase, hostBase, cairnBase, secureBase, peBase, pchReg, pchAddr]
  repeat rw [if_neg (by omega)]
  rw [if_pos (by omega)]; exact congrArg (fun x => some (_, x)) (by omega)
theorem blockOf_can {k o : Nat} (hk : k < 32) (ho : o < 0x8000) : blockOf (canReg k o) = some (.can, k * 0x8000 + o) := by
  simp only [blockOf, addressMap, findBlock, sysBase, tickBase, fltBase, mgtBase, timeBase, mbxBase, memBase, pecBase, pchBase, canBase,
    portBase, swBase, ropeBase, travBase, hostBase, cairnBase, secureBase, peBase, canReg, canAddr]
  repeat rw [if_neg (by omega)]
  rw [if_pos (by omega)]; exact congrArg (fun x => some (_, x)) (by omega)
theorem blockOf_port {p o : Nat} (hp : p < 40) (ho : o < 0x10000) : blockOf (portReg p o) = some (.port, p * 0x10000 + o) := by
  simp only [blockOf, addressMap, findBlock, sysBase, tickBase, fltBase, mgtBase, timeBase, mbxBase, memBase, pecBase, pchBase, canBase,
    portBase, swBase, ropeBase, travBase, hostBase, cairnBase, secureBase, peBase, portReg, portAddr]
  repeat rw [if_neg (by omega)]
  rw [if_pos (by omega)]; exact congrArg (fun x => some (_, x)) (by omega)
theorem blockOf_mdio {o : Nat} (ho : o < 0x10000) : blockOf (portBase + 0x3F0000 + o) = some (.port, 0x3F0000 + o) := by
  simp only [blockOf, addressMap, findBlock, sysBase, tickBase, fltBase, mgtBase, timeBase, mbxBase, memBase, pecBase, pchBase, canBase,
    portBase, swBase, ropeBase, travBase, hostBase, cairnBase, secureBase, peBase]
  repeat rw [if_neg (by omega)]
  rw [if_pos (by omega)]; exact congrArg (fun x => some (_, x)) (by omega)
theorem blockOf_sw {o : Nat} (h : o < 0x1000000) : blockOf (swReg o) = some (.sw, o) := by
  simp only [blockOf, addressMap, findBlock, sysBase, tickBase, fltBase, mgtBase, timeBase, mbxBase, memBase, pecBase, pchBase, canBase,
    portBase, swBase, ropeBase, travBase, hostBase, cairnBase, secureBase, peBase, swReg]
  repeat rw [if_neg (by omega)]
  rw [if_pos (by omega)]; exact congrArg (fun x => some (_, x)) (by omega)
theorem blockOf_rope {o : Nat} (h : o < 0x400000) : blockOf (ropeReg o) = some (.rope, o) := by
  simp only [blockOf, addressMap, findBlock, sysBase, tickBase, fltBase, mgtBase, timeBase, mbxBase, memBase, pecBase, pchBase, canBase,
    portBase, swBase, ropeBase, travBase, hostBase, cairnBase, secureBase, peBase, ropeReg]
  repeat rw [if_neg (by omega)]
  rw [if_pos (by omega)]; exact congrArg (fun x => some (_, x)) (by omega)
theorem blockOf_ctx {r o : Nat} (hr : r < 4) (ho : o < 0x400) : blockOf (ctxReg r o) = some (.rope, 0x1000 + 0x400 * r + o) := by
  rw [show ctxReg r o = ropeReg (0x1000 + 0x400 * r + o) by unfold ctxReg ctxAddr ropeReg; omega, blockOf_rope (by omega)]
theorem blockOf_trav {o : Nat} (h : o < 0x200000) : blockOf (travReg o) = some (.trav, o) := by
  simp only [blockOf, addressMap, findBlock, sysBase, tickBase, fltBase, mgtBase, timeBase, mbxBase, memBase, pecBase, pchBase, canBase,
    portBase, swBase, ropeBase, travBase, hostBase, cairnBase, secureBase, peBase, travReg]
  repeat rw [if_neg (by omega)]
  rw [if_pos (by omega)]; exact congrArg (fun x => some (_, x)) (by omega)
theorem blockOf_axis {a o : Nat} (ha : a < 64) (ho : o < 0x200) : blockOf (axisReg a o) = some (.trav, 0x10000 + 0x200 * a + o) :=
  blockOf_trav (by omega)
theorem blockOf_group {g o : Nat} (hg : g < 8) (ho : o < 0x100) : blockOf (groupReg g o) = some (.trav, 0x20000 + 0x100 * g + o) :=
  blockOf_trav (by omega)
theorem blockOf_host {o : Nat} (h : o < 0x100000) : blockOf (hostReg o) = some (.host, o) := by
  simp only [blockOf, addressMap, findBlock, sysBase, tickBase, fltBase, mgtBase, timeBase, mbxBase, memBase, pecBase, pchBase, canBase,
    portBase, swBase, ropeBase, travBase, hostBase, cairnBase, secureBase, peBase, hostReg]
  repeat rw [if_neg (by omega)]
  rw [if_pos (by omega)]; exact congrArg (fun x => some (_, x)) (by omega)

theorem blockOf_bind {l o : Nat} (hl : l < 32) (ho : o < 0x100) : blockOf (bindAddr l + o) = some (.pec, 0x2000 + l * 0x100 + o) := by
  rw [show bindAddr l + o = pecBase + (0x2000 + l * 0x100 + o) by unfold bindAddr; omega, blockOf_pec (by omega)]
theorem blockOf_img {i o : Nat} (hi : i < 128) (ho : o < 0x20) : blockOf (imgAddr i + o) = some (.pec, 0x6000 + i * 0x20 + o) := by
  rw [show imgAddr i + o = pecBase + (0x6000 + i * 0x20 + o) by unfold imgAddr; omega, blockOf_pec (by omega)]
theorem blockOf_pe {n o : Nat} (hn : n < 36) (ho : o < 0x400) : blockOf (peGroup n + o) = some (.pec, 0x10000 + n * 0x400 + o) := by
  rw [show peGroup n + o = pecBase + (0x10000 + n * 0x400 + o) by unfold peGroup; omega, blockOf_pec (by omega)]
theorem blockOf_ep {e o : Nat} (he : e < 0x34) (ho : o < 0x200) : blockOf (epAddr e + o) = some (.mbx, 0x200 * e + o) := by
  rw [show epAddr e + o = mbxBase + (0x200 * e + o) by unfold epAddr; omega, blockOf_mbx (by omega)]

end Sys2Proof.Machine
end

