-- ==== Sys2Proof/Tests/Slice0.lean ====
section
/-!
SUPPORT. Tests: ill-formed commands are refused by each check, and for every obligation with hypotheses a state and operands that meet them
together, one witness for each of its clauses. The values lie at the ends of their ranges where there are any.
-/
namespace Sys2Proof.Tests
open Sys2Proof Sys2Proof.Machine

set_option Elab.async false

/-! ## States to try the machine on -/

/-- The MCP. -/
def mcp : Who := ⟨1, .internal⟩

/-- The host over PCIe. -/
def pcie : Who := ⟨0, .pcie⟩

/-- Engine n. -/
def byEngine (n : Nat) : Who := ⟨0x10 + n, .internal⟩

/-- The machine right after reset. -/
def z : State := State.reset

/-- Engine n serves logical engine l, which is bound. -/
def serving (s : State) (n l bst pst : Nat) : State :=
  (((s.setPeState n pst).setServes n (some l)).setBindState l bst).setFld (bindAddr l + 4) 8 6 n

/-- A holding register that names another address. -/
theorem held_other {o : Option (Nat × Word)} {a : Nat} (n : o.map Prod.fst ≠ some a) (h : Word) : o ≠ some (a, h) :=
  fun e => n (e ▸ rfl)

/-- A move of an immediate value to a socket, in a slot that always executes (R58). -/
def moveSlot (dst imm : Nat) : Nat := dst * 2 ^ 17 + 2 ^ 16 + imm

/-- Core n is c. -/
def withCore (s : State) (n : Nat) (c : Core) : State := s.setCore n c

/-- A running core. -/
def running : Core := { Core.reset with running := true }

/-- Engine n serves logical engine l in its tick. -/
def active (n l : Nat) : State := serving z n l 2 4

/-- Due requests of logical engine l. -/
def due (s : State) (l bits : Nat) : State := { s with pec := { s.pec with due := [(l, bits)] } }

/-- An image of one bundle of zeros, without resources (R104, R105): what its header holds beside zeros; its code CRC is that of 16 zeros. -/
def withImage (s : State) : State :=
  [(0x00, leBytes 4 0x4E4D5049), (0x04, leBytes 2 1), (0x06, leBytes 2 0x80), (0x10, leBytes 4 240), (0x16, leBytes 2 1), (0x20, leBytes 4 1),
    (0x24, leBytes 4 10), (0x40, leBytes 4 0xECBB4B55)].foldl (fun (t : State) (x : Nat × List Byte) => t.store x.1 x.2) s

/-- Channel 255 drives its pads and its sequencer steps. -/
def stepping : State :=
  ((z.setChan 255 { Chan.reset with oe := 15 }).setReg (pchReg 255 0x1100) 1).setReg (fltReg (0x2000 + 4 * 255)) 0

/-- Unit o is held by logical engine 31. -/
def held (o : Nat) : State :=
  (active 35 31).setBit (if o < 256 then bindAddr 31 + 0x40 + 4 * (o / 32) else bindAddr 31 + 0x60) (if o < 256 then o % 32 else o - 256) true

/-- CAN controller 31 is in NORMAL mode, integrated, attached to channel 255 and not suspended, with these parts of its own. -/
def onBus (c : CanSt) : State :=
  ((z.setCanc 31 { c with mode := 1, sync := true }).setReg (pchReg 255 0x1108) 1).setReg (fltReg (0x2000 + 4 * 287)) 0

/-- A controller after reset. -/
def cz : CanSt := CanSt.reset

/-- A controller whose head, slot 31, is eligible. -/
def queued (tried : Bool) : CanSt := { cz with queue := [⟨31, true, tried⟩, ⟨0, true, false⟩] }

/-- The bit timing of controller 31 is in its range. -/
def canTimed : State := (z.setReg (canReg 31 4) 0x001F1F01).setReg (canReg 31 8) 0x00040801

/-- Port p is up at 1 Gbit/s, the switch is on and every port holds its cell. -/
def up (p : Nat) : State :=
  (((({ z with sw := { z.sw with pre := 2 ^ 48 - 1, free := 65488 } }).setReg (portReg p 4) 5).setFld (portReg p 8) 0 2 3).setReg (swReg 0) 1)

/-- Zeros. -/
def zeros (n : Nat) : List Byte := List.replicate n 0

/-- 60 bytes and their FCS. -/
def goodFrame : List Byte := zeros 60 ++ leBytes 4 (crc32 (zeros 60))

/-- A frame that arrives at port 39. -/
def arriving : Frame :=
  { bytes := zeros 64, ingress := 39, sender := none, stamp := 0, arriving := true, bad := false, classed := true, tc := 0, granule := 0, kind := 0,
    entry := 0, cells := 1, hit := none, act := 0, reason := 0, failed := 0, left := false, debits := [], waits := false, limit := none, late := false, tag := 0 }

/-- A copy of frame 0 for a port. -/
def copyTo (e : Nat) : Copy := ⟨0, e, 0, false, false, 0, 0, 0, none⟩

/-- Port 39 receives frame 0. -/
def receiving (s : State) (x : Frame) (r : Rx) : State := (s.setFrame 0 (some x)).setRx 39 (some r)

/-- A complete frame of 60 bytes. -/
def arriving' : Frame := { arriving with bytes := zeros 60, arriving := false }

/-- Queue k of egress p holds a copy of a complete frame. -/
def sending (p k : Nat) (x : Frame) : State := ((up p).setFrame 0 (some x)).setQueue (8 * p + k) [copyTo p]

/-- A masked entry sends every frame to port 1, and heads are not folded. -/
def directed : State := (((up 39).setReg (maskedWord 0 0) 3).setReg (maskedWord 0 8) 2).setReg (swReg 0x9000) 0

/-- A descriptor of a segmentation job: a header of 14 bytes at 0x100, 65 bytes of payload at 0x200, and 64 in a segment. -/
def descriptor : List Byte := leBytes 4 (14 + 64 * 65536) ++ leBytes 4 65 ++ leBytes 4 0x100 ++ leBytes 4 0x200 ++ zeros 112

/-- Image 0 is verified and lies at 0. -/
def verified : State := (z.setReg (imgStat 0) 1).setReg (imgAddr 0 + 4) 240

/-- PT_BUF holds an entry for MAC address 0 in VLAN 1. -/
def buf : State := z.setReg (ptBuf 0) 0x10001

/-- The first slot that the entry could stand in. -/
def slotOf : Nat := (buf.candidates buf.bufKey).headD 0

/-- Every slot of the entry is taken by another. -/
def full : State := (buf.candidates buf.bufKey).foldl (fun (s : State) i => s.setReg (hashedWord i 0) 2) buf

/-- The entry stands in its slot. -/
def inserted : State := buf.setReg (hashedWord slotOf 0) 0x10001

/-- The slot of the address 5 in VLAN 1. -/
def slotOf5 : Nat := (z.candidates (macPathKey 1 5 0 1)).headD 0

/-- The address 5 is to be learned from port 39. -/
def learning : State := { z with sw := { z.sw with learns := [(39, 5, 1)] } }

/-- Ring 3 is on, with two records at 0x1000, and frame 0 is in the buffer. -/
def mirrored : State :=
  (((z.setFrame 0 (some arriving)).setReg (mirReg 3 0) 0x1000).setReg (mirReg 3 4) 2).setReg (mirReg 3 0x10) 1

/-- Frame 0 is to be recorded in ring 3. -/
def recorded : Capture := ⟨0, 3, 60, true, false, 39, zeros 60⟩

/-- Meter 4095 is on. -/
def metered : State :=
  { z.setReg (meterReg 4095 0) 1 with sw := { z.sw with meters := [(4095, some (⟨5, 0⟩, ⟨6, 0⟩))], added := 11 } }

/-- Statements on a range, from statements below its end. -/
theorem upTo {p : Nat → Prop} {a b : Nat} (h : ∀ i, i < b + 1 → a ≤ i → p i) : ∀ i, a ≤ i → i ≤ b → p i :=
  fun i ha hb => h i (Nat.lt_succ_of_le hb) ha

/-- The same for a range that excludes its end. -/
theorem below {p : Nat → Prop} {a b : Nat} (h : ∀ i, i < b → a ≤ i → p i) : ∀ i, a ≤ i → i < b → p i :=
  fun i ha hb => h i hb ha

/-- A context that runs from 0 ns. -/
def cycling : CtxSt := { CtxSt.reset with running := true }

/-- Context 3 has station port 0 and anchor port 1 and is a lead of rank 0 and node 7, in SYNC (1 ms cycles, 8 ns guard time); its schedule has a REF
slot, a slot of node 7 and a shared slot. -/
def rope (c : CtxSt) : State :=
  [(ctxReg 3 0, 0x25 + 7 * 65536), (ctxReg 3 4, 1), (ctxReg 3 8, 1), (ctxReg 3 0x10, 2), (ctxReg 3 0x24, 1), (ctxReg 3 0x40, 0x33),
    (schedWord 3 false 0 0, 1), (schedWord 3 false 0 4, 1250), (schedWord 3 false 0 8, 1250), (schedWord 3 false 1 0, 2 + 7 * 65536),
    (schedWord 3 false 1 4, 3750), (schedWord 3 false 1 8, 1250), (schedWord 3 false 2 0, 3), (schedWord 3 false 2 4, 6250),
    (schedWord 3 false 2 8, 1250)].foldl (fun (s : State) (x : Nat × Nat) => s.setReg x.1 (word x.2)) ((up 0).setCtx 3 c)

/-- The same at an instant in ns. -/
def ropeAt (c : CtxSt) (n : Nat) : State := { rope c with time := n * nsUnit }

/-- What a reference brings. -/
def ref7 : RopeRef := ⟨zeros 128, [7, 0, 0, 0], 0, false, 0, 0, false⟩

/-- A Ropeline frame of node 7 for slot kind 2. -/
def ropeFrame : Frame := { arriving' with bytes := zeros 12 ++ [0x88, 0xB5, 2, 0, 0, 7] ++ zeros 42 }

/-- A frame that port 1 receives and whose limit is 5 ns. -/
def limited : Frame := { arriving with ingress := 1, limit := some (5, 3) }

/-- Port 1 receives that frame. -/
def limiting (s : State) : State := (s.setFrame 0 (some limited)).setRx 1 (some ⟨zeros 64, some 0, false⟩)

/-- What stands before an instant, if anything. -/
theorem before {o : Option Int} {t : Int} (h : (match o with | some g => decide (g < t) | none => true) = true) : ∀ g, o = some g → g < t :=
  fun g e => by subst e; exact of_decide_eq_true h

/-- Axis 63 is c, alone enabled, with no output and no flags, at 5 µs; its ring holds one segment of one count in 1 ms. -/
def lone (c : AxisSt) : State :=
  { [(travReg 0, 1), (axisReg 63 0, 0x8000), (axisReg 63 0x0C, 0x40000), (axisReg 63 0x10, 10000000), (axisReg 63 0x14, 10000000),
      (axisReg 63 0x18, 0), (axisReg 63 0x1C, 0xFFFF0000), (axisReg 63 0x20, 0), (axisReg 63 0x24, 0xFFFF), (axisReg 63 0x28, 0x100000),
      (axisReg 63 0x2C, 1), (axisReg 63 0x60, 0x3F3F3F), (axisReg 63 0xA8, 4), (travReg 0x100000, 65536), (travReg 0x10000C, 62500)].foldl
      (fun (s : State) (x : Nat × Nat) => s.setReg x.1 (word x.2)) (z.setAxis 63 c) with time := 5000 * nsUnit }

/-- The same with commands that wait. -/
def lone' (c : AxisSt) (cs : List TravOrder) : State := { lone c with trav := { (lone c).trav with cmds := cs, grid := some 4000 } }

/-- An axis after reset. -/
def az : AxisSt := AxisSt.reset

/-- A segment at one count in a ms. -/
def even : MotionSeg := ⟨0, 65536, 65536, 65536, 1000000, 0, true, false⟩

/-- An axis in a segment. -/
def going : AxisSt := { az with state := 1, seg := some even, v := 65536 }

/-- Group 7 is to take axes 62 and 63 to 2 and 1 counts. -/
def grouped : State :=
  [(axisReg 62 0, 0x8000), (axisReg 62 0x0C, 0x40000), (axisReg 62 0x10, 10000000), (axisReg 62 0x24, 0xFFFF), (axisReg 62 0x28, 0x100010),
    (groupReg 7 4, 0xC0000000), (groupReg 7 0x40, 0x20000), (groupReg 7 0x48, 0x10000)].foldl
    (fun (s : State) (x : Nat × Nat) => s.setReg x.1 (word x.2)) (lone az)

/-- A full queue of ratio changes. -/
def fullGear : State := z.setAxis 63 { az with changes := List.replicate 16 ⟨0, 1, 1, 3⟩ }

/-- A fault of a source. -/
def ev (src cls : Nat) : Event := ⟨src, cls, 1, 0x8001, false, false, 0, 0, 0, [], false⟩

/-- The fault collector as f changes it. -/
def withFlt (f : FltSt → FltSt) : State := { z with flt := f z.flt, cyc := 2 * cycMs }

/-- A line that is broken. -/
def broke (src cls : Nat) : State := z.setBroken src cls

/-- A line that failed its last path test. -/
def missed (src cls : Nat) : State := withFlt (fun f => { f with missed := [(lineKey src cls, true)] })

/-- An injection that runs from 0 to 1 ms. -/
def inj : Injection := ⟨0x53, 2, 0, 0, cycMs, false, false, false⟩

/-- Injection i is in progress. -/
def injecting (i : Injection) : State := withFlt (fun f => { f with injection := some i })

/-- Flag 0, the home flag of axis 63, is 1. -/
def homing (s : State) : State :=
  { s.setReg (axisReg 63 0x60) 0x3F3F with pch := { s.pch with flags := [(0, { SharedFlag.reset with was := true, prev := true, set := true })] } }

/-- Everything that ALIVE needs holds. -/
def living : State := ((withFlt (fun f => { f with hbAt := some 1 })).setReg (tickReg 8) 1).setReg (fltReg 0x54) 10

/-- Unit o has the reasons of v, and ticks run where `on`. -/
def unitAt (o v : Nat) (on : Bool) : State := (living.setReg (outSafe o) (word v)).setBit (tickReg 8) 0 on

/-- The watchdog of 1 ms is on. -/
def watched (at' : Nat) : State := (withFlt (fun f => { f with kickAt := at' })).setReg (fltReg 0x58) 0x10001

/-- The Cairn is ready, and the state is as f changes it. -/
def cairn (f : FltSt → FltSt) : State := (withFlt f).setReg (fltReg 0x8000) 1

/-- A bundle whose one item is signed with the key of slot k, of SEC_VERSION v and, where `ok`, with its digest; it carries nothing. -/
def bundle (k v : Nat) (ok : Bool) : BundleFacts := ⟨[⟨k, 0, true, v, ok⟩], 0xB0, 0x2560, [], [], [], []⟩

/-- The same with firmware, key records and an image. -/
def loaded : BundleFacts := { bundle 0 0 true with firmware := [1, 2, 3, 4], keys := [5, 6, 7, 8] }
def withImages : BundleFacts := { loaded with images := [(0x7FFFF8, [1, 2, 3, 4, 5, 6, 7, 8])] }

/-- Start-up finds everything in order. -/
def facts : BootFacts := ⟨0, true, true, false, false, [], loaded, loaded, none⟩

/-- A part in life-cycle state n and a phase. -/
def part (n : Nat) (p : Phase) : State := { z with mgt := { z.mgt with phase := p, fuses := ⟨5, false, n, 0xF, 0, [], []⟩ } }

/-- Slot B is on trial with tries left, and runs, 1,000,000 ms after the start of service. -/
def trying : State :=
  { z with
    cyc := 1000000 * cycMs, cnts := [(tickReg 0x30, 5)]
    mgt := { z.mgt with phase := .service, header := ⟨9, false, some true, 1⟩, runSlot := some true, running := bundle 1 0xFFFFFFFF true } }

/-- The intake waits for a bundle in boot mode m, with 4 bytes given. -/
def intake (m : Nat) : State := ((part 3 .waitHost).setReg bootStat (word (m + 64))).setReg (mgtReg 0x20) 4

/-- A part whose die sensors have shown the conditions x of reading 0. -/
def sensed (x : Nat) : State :=
  { (((part 3 .service).setReg (mgtReg 0x480) 800).setReg (mgtReg 0x484) 900).setReg (mgtReg 0x488) 1000 with
    mgt := { (part 3 .service).mgt with sensorSeen := [(0, x), (1, x), (2, x)] } }

/-- The two-wire bus has run the transfer that v says. -/
def twb (v : Nat) : State := (z.setReg (mgtReg 0x800) 1).setReg (mgtReg 0x804) (word (v + 2 ^ 31))

/-- A transfer that ends well with these bytes. -/
def good (bs : List Byte) : TwbOutcome := ⟨none, bs, 0⟩

/-- Host DMA runs, and ring r of 16 descriptors has one at HEAD = 15 to be taken. -/
def dma (r : Nat) : State :=
  { [(hostReg 0, 1), (hostReg 4, 256), (txRing r 0, 0x5000), (txRing r 8, 16), (txRing r 0x0C, 15), (txRing r 0x10, 3), (txRing r 0x14, 1),
      (dbPend 2, 0x8080)].foldl (fun (s : State) (x : Nat × Nat) => s.setReg x.1 (word x.2)) (part 3 .service) with
    host := { z.host with taken := [(r, 3)] } }

/-- Nothing is read from host memory. -/
def noData : HostData := ⟨[], false, false⟩

/-- What port 40 transmits: a copy of frame 0. -/
def toHost : Tx := ⟨copyTo 40, 0, [], 327, 0, none, none⟩

/-- Port 40 transmits frame 0, which is x. -/
def handing (x : Frame) : State := { dma 7 with sw := (((up 0).setFrame 0 (some x)).setTx 40 (some toHost)).sw }

/-- A frame of the highest class. -/
def top : Frame := { arriving' with tc := 7 }

/-- The CRC-8 of bytes. -/
def crcOf (bs : List Byte) : Byte := BitVec.ofNat 8 (crc8 bs)

/-- The offset of IMOD[0] in BAR0. -/
def imodAt : Word := word (hostBase - 0x10000000 + 0x3000)

/-- A transmission of a copy by port 39. -/
def sent39 : Tx := ⟨copyTo 39, 2, [], 319, 0, none, none⟩

/-- A link that comes up, or that an interface loses. -/
def linked (v : LinkSpeed) (hdx : Bool) : LinkFacts := ⟨v, 3, hdx, true, false, false⟩
def lost39 : LostLink := ⟨39, true, false, false⟩

/-- A pause frame with its FCS. -/
def pauseFrame : List Byte :=
  ([1, 0x80, 0xC2, 0, 0, 1] ++ zeros 6 ++ [0x88, 8, 0, 1, 0, 5] ++ zeros 42) ++
    leBytes 4 (crc32 ([1, 0x80, 0xC2, 0, 0, 1] ++ zeros 6 ++ [0x88, 8, 0, 1, 0, 5] ++ zeros 42))

/-- Channel 255 runs and has shown both levels on REV_PIN, the other than REV_IDLE for 3 ms; DIAG_CFG and the word of REV_WIN and INV_MASK are c and r. -/
def reversing (c r : Word) : State :=
  { (((z.setChan 255 { Chan.reset with ran := true, shown := 255 }).setReg (pchReg 255 0x1200) c).setReg (pchReg 255 0x1208) r).setReg (pchReg 255 0x1100) 1 with
    cyc := 150000 }

/-- Ports 38 and 39 pass frames on the fly at 100 Mbit/s. -/
def onTheFly : State :=
  [(portReg 38 0, 0x83), (portReg 39 0, 3), (portReg 38 4, 3), (portReg 39 4, 3), (portReg 38 8, 0x05F20003), (portReg 39 8, 0x05F20003)].foldl
    (fun (s : State) (x : Nat × Nat) => s.setReg x.1 (word x.2)) (up 0)

/-- A part in service. -/
def svc : State := { z with mgt := { z.mgt with phase := .service } }

/-- The monitors judge the references since cycle 0, for 100 ms and more; then some are bad. -/
def judging (s : State) : State := { s with cyc := 100 * cycMs + 5, tb := { s.tb with monitors := true } }
def badRefs (l : Tab Bool) : State := { judging z with tb := { (judging z).tb with refBad := l } }

/-- Reference x has been declared bad twice in the last hours, and the MCP runs. -/
def losing (x : Nat) : State := { judging (svc.setReg mcpStat 1) with mgt := { svc.mgt with refBadAt := [(x, [0, 0])] } }

/-- Block b of MRAM is being scrubbed. -/
def scrubbing (b : Nat) (s : State) : State :=
  { s.setReg (fltReg 0x8000) 3 with flt := { s.flt with scrub := some b, mramBad := [(7, 3)] } }

/-- The largest version of a key slot is below a bound where those of all items are. -/
theorem maxBelow {l : List Nat} {m n : Nat} (hn : n < m) (h : ∀ x ∈ l, x < m) : l.foldl max n < m := by
  induction l generalizing n with
  | nil => exact hn
  | cons a l ih => exact ih (Nat.max_lt.2 ⟨hn, h a (List.mem_cons_self ..)⟩) (fun x hx => h x (List.mem_cons_of_mem _ hx))

/-- So is that of each slot of a bundle. -/
theorem newest {b : BundleFacts} (h : ∀ i ∈ b.items, i.version < 2 ^ 32) (k : Nat) : versionOf b k < 2 ^ 32 :=
  maxBelow (by decide) (fun x hx => by
    obtain ⟨i, hi, rfl⟩ := List.mem_map.1 hx
    exact h i ((List.mem_filter.1 hi).1))

/-- A trial of a bundle with versions of all key slots, while no two copies of ANTI_RB[0] and of UPDATE_CNT agree. -/
def splitted : State :=
  [(0x10000, 1), (0x14000, 2), (0x18000, 3), (0x10300, 1), (0x14300, 2), (0x18300, 3)].foldl
    (fun (s : State) (x : Nat × Byte) => s.store (mramAddr x.1) [x.2])
    { trying with mgt := { trying.mgt with running := ⟨(List.range 4).map (fun k => ⟨k, 0, true, 9, true⟩), 0xB0, 0x2560, [], [], [], []⟩ } }

/-- PORST_N is high. -/
def high (s : State) : State := { s with mgt := { s.mgt with porstLow := false } }

/-- An action of a step axis. -/
def stepAct : StepAct := ⟨1000, 5, -1⟩

/-- Axis 63 steps on channel 255, which takes its actions from Traverse, and has one that is due. -/
def stepAhead : State := ((z.setAxis 63 { az with acts := [stepAct] }).setReg (axisReg 63 0) (0x8002 + 4 * 255)).setReg (pchReg 255 0x1108) 2

/-- The bundle of engine n at 0 is `ws`, followed by slots that never execute. -/
def code4 (s : State) (n : Nat) (ws : List Nat) : State :=
  (s.store (imBase n) ((ws ++ List.replicate (4 - ws.length) (2 ^ 27)).flatMap (leBytes 4))).setReg (peGroup n + 0x40) 100

/-- Engine 35 runs as core c, which has nothing under way, on the bundle `ws`. -/
def on35 (c : Core) (ws : List Nat) : State := withCore (code4 z 35 ws) 35 c

/-- The MCP has its firmware, and runs as core c on the bundle `ws` at the start of its RAM. -/
def onMcp (c : Core) (ws : List Nat) : State :=
  withCore ((svc.setReg mcpStat 2).store mcpRamBase ((ws ++ List.replicate (4 - ws.length) (2 ^ 27)).flatMap (leBytes 4))) 36 c

/-- Its core. -/
def mcpAt : Core := { Core.reset with pc := 0x10000 }

/-- A core whose sockets hold what `xs` says. -/
def holding (c : Core) (xs : List (Nat × Word)) : Core := xs.foldl (fun (k : Core) x => k.put x.1 x.2) c

/-- A write of logical engine 31 that has been released. -/
def releasing (xs : List Staged) : State := { z with pec := { z.pec with released := [(31, xs)], releasedBy := [(31, (35, 7))] } }

/-- Channel 255, which is c in state 0, is to step on the LUT entry e; its inputs are constants 0. -/
def onEntry (c : Chan) (e : Word) : State :=
  ((stepping.setChan 255 { c with oe := 15 }).setReg (pchReg 255 0) e).setReg (pchCfg 255 false 4) 0xCCCC

/-- A channel that shifts. -/
def shifting : Chan := { Chan.reset with sr := 0x80000005, count := 3 }

/-- The channel as its step finds it. -/
def found (s : State) : Chan := (s.sense 255).chan 255

/-! ## Ill-formed commands -/

/-- A master that the device does not assign (R443), or a path that the master does not have (R444). -/
theorem test_wf_origin :
    (Instr.snapReq ⟨0x34, .internal⟩ 0).wf = false ∧ (Instr.snapReq ⟨6, .internal⟩ 0).wf = false ∧ (Instr.snapReq ⟨0, .internal⟩ 0).wf = false ∧
      (Instr.snapReq ⟨1, .pcie⟩ 0).wf = false ∧ (Instr.snapReq ⟨0x33, .internal⟩ 0).wf = true ∧ (Instr.snapReq ⟨0, .uart⟩ 0).wf = true := by decide

/-- An address outside 40 bits, and bytes past the end of the scratchpad. -/
theorem test_wf_addresses :
    (Instr.registerWrite mcp (2 ^ 40) 0).wf = false ∧ (Instr.lowWordRead mcp (2 ^ 40)).wf = false ∧ (Instr.highWordRead mcp (2 ^ 40)).wf = false ∧
      (Instr.scratchpadWrite mcp 0x7FFFFF [1, 2]).wf = false ∧ (Instr.scratchpadWrite mcp 0x7FFFFE [1, 2]).wf = true := by decide

/-- Engines, cores, logical engines, images and on-the-fly pairs that do not exist. -/
theorem test_wf_engines :
    (Instr.budgetExhausted 36).wf = false ∧ (Instr.bundleIssue 37 .clean).wf = false ∧ (Instr.binding 32).wf = false ∧
      (Instr.imgCheckComplete 128).wf = false ∧ (Instr.otfFrame 16 false [] false).wf = false ∧ (Instr.bundleIssue 36 .clean).wf = true := by decide

/-- Channels, pins and CAN controllers that do not exist. -/
theorem test_wf_channels :
    (Instr.compareMatch 256).wf = false ∧ (Instr.shortDetect 255 4).wf = false ∧ (Instr.canModeChange 32).wf = false ∧
      (Instr.shortDetect 255 3).wf = true := by decide

/-- Ports, egresses, queues, path entries, mirror rings and meters that do not exist. -/
theorem test_wf_switch :
    (Instr.linkDown ⟨40, false, false, false⟩).wf = false ∧ (Instr.frameTxStart 48 .clean).wf = false ∧ (Instr.pauseHoldExpiry 384).wf = false ∧
      (Instr.pauseRefresh 39 9).wf = false ∧ (Instr.addressAgeVisit 14336).wf = false ∧ (Instr.mirEnWrite mcp 4 0).wf = false ∧
      (Instr.meterEnable mcp 4096 0).wf = false ∧ (Instr.pauseRefresh 39 8).wf = true := by decide

/-- Launch windows, launch queues, PPS balls, contexts, slots and windows of a schedule that do not exist. -/
theorem test_wf_time :
    (Instr.gateWindowOpen 1024).wf = false ∧ (Instr.lqModeWrite mcp 320 0).wf = false ∧ (Instr.ppsOutPulse 2).wf = false ∧
      (Instr.refBuild 4).wf = false ∧ (Instr.slotRelease 3 4096 0).wf = false ∧ (Instr.anchorWindowOpen 3 4097).wf = false ∧
      (Instr.anchorWindowOpen 3 4096).wf = true := by decide

/-- Axes, groups, endpoints, mailboxes and locks that do not exist. -/
theorem test_wf_messages :
    (Instr.homeCapture 64).wf = false ∧ (Instr.groupGo mcp 8 0).wf = false ∧ (Instr.dbTake mcp 4).wf = false ∧ (Instr.dbTake mcp 0x34).wf = false ∧
      (Instr.mbRecv mcp 3 16).wf = false ∧ (Instr.lockRelease mcp 256).wf = false ∧ (Instr.dbTake mcp 0x10).wf = true := by decide

/-- Memory testers, sources, classes, output units, tamper inputs and key slots that do not exist. -/
theorem test_wf_faults :
    (Instr.bgtRegionTest 3 0 .clean false).wf = false ∧ (Instr.bgtRegionTest 2 36 .clean false).wf = false ∧ (Instr.tallyRecordWrite 0x6D).wf = false ∧
      (Instr.pathBroken 0x6C 5).wf = false ∧ (Instr.unitRelease 288).wf = false ∧ (Instr.tamperTrip 7).wf = false ∧
      (Instr.revoke mcp 4 0 true).wf = false ∧ (Instr.revoke mcp 0 4 true).wf = false := by decide

/-- Doorbell bits, rings and vectors that do not exist; and serial transactions under the other one's command byte. -/
theorem test_wf_host :
    (Instr.dmaDoorbellTake 16).wf = false ∧ (Instr.rxDescriptorComplete 8 0).wf = false ∧ (Instr.imodHoldoffEnd 16).wf = false ∧
      (Instr.hslReadWord 2 0 0).wf = false ∧ (Instr.hslWriteWord 3 0 0 0).wf = false := by decide

/-! ## A step -/

/-- On an empty queue one cycle of the TIME domain passes (log entry 4). -/
theorem test_step_idle : step z = .next z.timeCycle ∧ z.timeCycle.cyc = 1 ∧ z.timeCycle.time = 2 * nsUnit ∧ z.timeCycle.pending = [] := by
  exact ⟨rfl, by decide +kernel⟩

/-- An event of an axis that the device does not have happens to nothing (log entry 3). -/
theorem test_step_no_axis : step { z with pending := [.homeCapture 64] } = .next z := rfl

/-- The CRC-32 of the digits 1 to 9 is the check value of the Ethernet FCS. -/
theorem test_crc32_check : crc32 [0x31, 0x32, 0x33, 0x34, 0x35, 0x36, 0x37, 0x38, 0x39] = 0xCBF43926 := by decide +kernel

/-! ## Witnesses: the hypotheses of each clause of an obligation hold together -/

theorem witness_StepRunsTheFrontCommandOrPassesACycle :
    (∃ (c : Instr) (rest : List Instr) (s : State), s.pending = c :: rest) ∧
    (∃ (s : State) (r : Int), s.pending = [] ∧ r = signed (s.reg (timeBase + 0x10)).toNat 32 ∧ (∀ x, x ∈ s.trav.axes → x.2.acts = [])) ∧
    (∃ (s : State) (r : Int), s.pending = [] ∧ r = signed (s.reg (timeBase + 0x10)).toNat 32) ∧
    (∃ (s : State) (a n : Nat) (c : AxisSt) (x : StepAct), s.pending = [] ∧ s.reg (timeBase + 0x10) = 0 ∧ a < 64 ∧ s.trav.axes = [(a, c)] ∧ c.acts =
      [x] ∧ x.at' ≤ Int.ofNat ((s.time + 2 ^ 33) / 2 ^ 32) - s.trav.skew + 1000 ∧ n = s.stepCh a ∧ s.bit (pchReg n 0x1108) 1 = true ∧ (s.chan
      n).taq.length < 16) :=
  ⟨⟨.tickBoundary, [], { z with pending := [.tickBoundary] }, by decide +kernel⟩,
   ⟨z.setReg (timeBase + 0x10) 0x80000000, -2147483648, by decide +kernel⟩,
   ⟨stepAhead, 0, by decide +kernel⟩,
   ⟨stepAhead, 63, 255, { az with acts := [stepAct] }, stepAct, by decide +kernel⟩⟩

theorem witness_RegisterAccessFollowsItsAccessCodes :
    (∃ (w : Who) (s s1 t : State) (a o : Nat) (b : Block) (d : Word), Admitted w s ∧ a % 4 = 0 ∧ blockOf a = some (b, o) ∧ s1 = { s with freeCtr :=
      s.freeCtr + 4 } ∧ ((s1.blockWrite w b o a d s.signedFree).orPlain s1 a d).state s1 = (t, false)) ∧
    (∃ (w : Who) (s s1 t : State) (a o : Nat) (b : Block) (d : Word), Admitted w s ∧ a % 4 = 0 ∧ blockOf a = some (b, o) ∧ s1 = { s with freeCtr :=
      s.freeCtr + 4 } ∧ ((s1.blockWrite w b o a d s.signedFree).orPlain s1 a d).state s1 = (t, true)) ∧
    (∃ (w : Who) (s : State) (a : Nat), Admitted w s ∧ a < 2 ^ 40 ∧ (a % 4 ≠ 0 ∨ blockOf a = none)) ∧
    (∃ (w : Who) (s s1 : State) (a n : Nat), ByEngine w n ∧ a < 2 ^ 40 ∧ s1 = { s with freeCtr := s.freeCtr + 4 }) ∧
    (∃ (w : Who) (s t : State) (a o : Nat) (b : Block) (v : Word), Admitted w s ∧ a % 4 = 0 ∧ blockOf a = some (b, o) ∧ (isHost w = true → b ≠ .secure
      ∧ b ≠ .pe) ∧ s.finishRead w a ((s.blockRead w b o a).orPlain s a) = ⟨t, v, false⟩) ∧
    (∃ (w : Who) (s : State) (a o : Nat) (b : Block), Admitted w s ∧ isHost w = true ∧ a % 4 = 0 ∧ blockOf a = some (b, o) ∧ (b = .secure ∨ b = .pe)) ∧
    (∃ (w : Who) (s s1 : State) (a o rw w1c r : Nat) (b : Block) (d : Word), Admitted w s ∧ s1.blockWrite w b o a d s.signedFree = .plain ∧ a % 4 = 0
      ∧ blockOf a = some (b, o) ∧ s1 = { s with freeCtr := s.freeCtr + 4 } ∧ cellAt a = some (.word rw w1c r)) ∧
    (∃ (w : Who) (s s1 : State) (a o rw r : Nat) (b : Block) (d : Word), Admitted w s ∧ s1.blockWrite w b o a d s.signedFree = .plain ∧ a % 4 = 0 ∧
      blockOf a = some (b, o) ∧ s1 = { s with freeCtr := s.freeCtr + 4 } ∧ (cellAt a = some (.wideLo rw r) ∨ cellAt a = some (.wideHi rw r))) ∧
    (∃ (w : Who) (s : State) (a o rw w1c r : Nat) (b : Block), Admitted w s ∧ s.blockRead w b o a = .plain ∧ a % 4 = 0 ∧ blockOf a = some (b, o) ∧
      cellAt a = some (.word rw w1c r)) ∧
    (∃ (w : Who) (s s1 : State) (a o : Nat) (b : Block) (d : Word), Admitted w s ∧ s1.blockWrite w b o a d s.signedFree = .plain ∧ a % 4 = 0 ∧ blockOf
      a = some (b, o) ∧ cellAt a = none ∧ s1 = { s with freeCtr := s.freeCtr + 4 }) ∧
    (∃ (w : Who) (s : State) (a o : Nat) (b : Block), Admitted w s ∧ s.blockRead w b o a = .plain ∧ a % 4 = 0 ∧ blockOf a = some (b, o) ∧ cellAt a =
      none) :=
  ⟨⟨mcp, z, { z with freeCtr := 4 }, ({ z with freeCtr := 4 }).setReg (hostReg 0x3000) 5, hostReg 0x3000, 0x3000, .host, 5, .inl ⟨rfl, rfl⟩,
     by decide +kernel⟩,
   ⟨mcp, z, { z with freeCtr := 4 }, { z with freeCtr := 4 }, fltReg 0x54, 0x54, .flt, 0, .inl ⟨rfl, rfl⟩, by decide +kernel⟩,
   ⟨pcie, z, tickReg 1, .inr ⟨rfl, rfl, by decide +kernel⟩, by decide +kernel⟩,
   ⟨byEngine 35, z, { z with freeCtr := 4 }, tickReg 4, 35, ⟨rfl, by decide, rfl⟩, by decide +kernel⟩,
   ⟨pcie, z, z, tickReg 4, 4, .tick, 1000, .inr ⟨rfl, rfl, by decide +kernel⟩, by decide +kernel⟩,
   ⟨pcie, { z with mgt := { z.mgt with phase := .service } }, peBase, 0, .pe, .inr ⟨rfl, rfl, by decide +kernel⟩, by decide +kernel⟩,
   ⟨pcie, svc.setReg (tickReg 8) 0x3F, { svc.setReg (tickReg 8) 0x3F with freeCtr := 4 }, tickReg 8, 8, 0, 0x38, 0, .tick, 0xFFFFFFFF, .inr ⟨rfl, rfl,
     by decide +kernel⟩, rfl, by decide +kernel⟩,
   ⟨mcp, z, { z with freeCtr := 4 }, txRing 7 0, 0x11C0, 0xFFFFFFC0, 0, .host, 0xFFFFFFFF, .inl ⟨rfl, rfl⟩, rfl, by decide +kernel⟩,
   ⟨mcp, z, tickReg 8, 8, 0, 0x38, 0, .tick, .inl ⟨rfl, rfl⟩, rfl, by decide +kernel⟩,
   ⟨mcp, z, { z with freeCtr := 4 }, tickReg 0xFFFFC, 0xFFFFC, .tick, 0xFFFFFFFF, .inl ⟨rfl, rfl⟩, rfl, by decide +kernel⟩,
   ⟨mcp, z, tickReg 0xFFFFC, 0xFFFFC, .tick, .inl ⟨rfl, rfl⟩, rfl, by decide +kernel⟩⟩

theorem witness_WideReadsAndSnapshots :
    (∃ (w : Who) (s : State), Admitted w s) ∧
    (∃ (w : Who) (s : State) (h : Word), Admitted w s ∧ s.held w = some (tickReg 0x10, h)) ∧
    (∃ (w : Who) (s : State), Admitted w s ∧ (∀ h, s.held w ≠ some (tickReg 0x10, h))) ∧
    (∃ (w : Who) (s : State), Admitted w s) ∧
    (∃ (s : State), (s.tick.snapDue = true ∨ (s.tick.snapReq = true ∧ s.bit tickStatus 0 = false))) ∧
    (∃ (s : State), s.tick.snapDue = false ∧ (s.tick.snapReq = false ∨ s.bit tickStatus 0 = true)) :=
  ⟨⟨mcp, z.setReg (tickReg 0x14) 7, .inl ⟨rfl, rfl⟩⟩,
   ⟨mcp, z.setHeld mcp (some (tickReg 0x10, 9)), 9, .inl ⟨rfl, rfl⟩, by decide +kernel⟩,
   ⟨mcp, z.setHeld mcp (some (tickReg 0x18, 9)), .inl ⟨rfl, rfl⟩, held_other (by decide +kernel)⟩,
   ⟨mcp, z, .inl ⟨rfl, rfl⟩⟩,
   ⟨{ z with tick := { z.tick with snapReq := true }, cnts := [(5, 9)] }, by decide +kernel⟩,
   ⟨{ z with tick := { z.tick with snapReq := true } }.setBit tickStatus 0 true, by decide +kernel⟩⟩

theorem witness_TickControlIsByRunAndPeriod :
    (∃ (w : Who) (s : State), Admitted w s ∧ s.bit (tickReg 0) 0 = false ∧ s.bit tickStatus 0 = false) ∧
    (∃ (w : Who) (s : State), Admitted w s ∧ s.bit (tickReg 0) 0 = true) ∧
    (∃ (w : Who) (s : State), Admitted w s ∧ s.bit tickStatus 0 = true) ∧
    (∃ (w : Who) (s : State), Admitted w s ∧ s.bit tickStatus 0 = false) ∧
    (∃ (w : Who) (s : State) (v : Nat), Admitted w s ∧ 10 ≤ v ∧ v ≤ 1000000 ∧ s.minPeriod ≤ v ∧ s.bit tickStatus 0 = true) ∧
    (∃ (w : Who) (s : State) (v : Nat), Admitted w s ∧ 10 ≤ v ∧ v ≤ 1000000 ∧ s.minPeriod ≤ v ∧ s.bit tickStatus 0 = false ∧ s.bit (tickReg 0) 0 =
      false) ∧
    (∃ (w : Who) (s : State) (v : Nat), Admitted w s ∧ v < 2 ^ 20 ∧ (v < 10 ∨ 1000000 < v)) :=
  ⟨⟨mcp, z, .inl ⟨rfl, rfl⟩, by decide +kernel⟩,
   ⟨mcp, z.setReg (tickReg 0) 1, .inl ⟨rfl, rfl⟩, by decide +kernel⟩,
   ⟨mcp, z.setBit tickStatus 0 true, .inl ⟨rfl, rfl⟩, by decide +kernel⟩,
   ⟨mcp, z.setReg (tickReg 0) 1, .inl ⟨rfl, rfl⟩, by decide +kernel⟩,
   ⟨mcp, z.setBit tickStatus 0 true, 1000000, .inl ⟨rfl, rfl⟩, by decide +kernel⟩,
   ⟨mcp, z, 10, .inl ⟨rfl, rfl⟩, by decide +kernel⟩,
   ⟨mcp, z, 9, .inl ⟨rfl, rfl⟩, by decide +kernel⟩⟩

theorem witness_BoundaryStartsTheNextTick :
    (∃ (s : State), (s.tick.next = none ∨ ∃ e, s.tick.next = some e ∧ s.ns < e)) ∧
    (∃ (s : State) (e p : Nat), s.tick.next = some e ∧ e ≤ s.ns ∧ s.tick.stopping = false ∧ s.tb.step = none ∧ s.pec.released = [] ∧ s.pec.deadlineDue
      = false ∧ (∀ l, l < 32 → s.bindState l = 2 → s.logicalOf (s.phys l) = some l) ∧ p = s.fld (tickReg 4) 0 20) ∧
    (∃ (s : State) (e : Nat), s.tick.next = some e ∧ e ≤ s.ns ∧ s.tick.stopping = true ∧ s.pec.released = [] ∧ s.pec.deadlineDue = false ∧ (∀ l, l <
      32 → s.bindState l = 2 → s.logicalOf (s.phys l) = some l)) ∧
    (∃ (start fin : Nat), start ≤ fin ∧ fin < 2 ^ 64) ∧
    (∃ (s : State) (e n m c : Nat) (d1 d2 : Word), s.tick.next = some e ∧ e ≤ s.ns ∧ s.tick.stopping = false ∧ s.pec.released = [] ∧ s.pec.deadlineDue
      = false ∧ (∀ l, l < 32 → s.bindState l = 2 → s.logicalOf (s.phys l) = some l) ∧ (∀ l, l < 32 → s.standingOf l = false) ∧ s.bit (travReg 0) 0 =
      false ∧ c < 256 ∧ (s.chan c).tx.length < 15 ∧ s.pec.atBoundary = [(n, pchReg c 0x1120, d1), (m, pchReg c 0x1120, d2)]) :=
  ⟨⟨{ z with tick := { z.tick with next := some 1 } }, .inr ⟨1, by decide +kernel⟩⟩,
   ⟨{ z with tick := { z.tick with next := some 0, snapReq := true } }, 0, 1000, by decide +kernel⟩,
   ⟨{ z with tick := { z.tick with next := some 0, stopping := true } }, 0, by decide +kernel⟩,
   ⟨7, 2 ^ 64 - 1, by decide +kernel⟩,
   ⟨{ z with tick := { z.tick with next := some 0 }, pec := { z.pec with atBoundary := [(35, pchReg 255 0x1120, 1), (34, pchReg 255 0x1120, 2)] } },
     0, 35, 34, 255, 1, 2, by decide +kernel⟩⟩

theorem witness_EnginesBeginAndOutputsTransfer :
    (∃ (s : State), (s.pec.startDue = false ∨ s.ns < s.tick.start + 40)) ∧
    (∃ (s : State), s.pec.startDue = true ∧ s.tick.start + 40 ≤ s.ns) ∧
    (∃ (s : State), s.pec.startDue = true ∧ s.tick.start + 40 ≤ s.ns ∧ s.pec.due = [] ∧ s.pec.canDue = false ∧ (∀ m, m < 36 → (s.core m).far = [] ∧
      (s.core m).posted = [] ∧ (s.core m).allocs = []) ∧ (∀ n, n < 36 → ∀ m, m < 36 → s.logicalOf n ≠ none → s.logicalOf n = s.logicalOf m → n = m) ∧
      (∀ l, l < 32 → s.bindState l = 2 → s.takeover l = none)) ∧
    (∃ (s : State) (l : Nat), l < 32 ∧ Tab.get (fun _ => []) s.pec.released l = []) ∧
    (∃ (s : State) (l n tk : Nat) (ws : List (Nat × Word)), l < 32 ∧ Tab.get (fun _ => (0, 0)) s.pec.releasedBy l = (n, tk) ∧ Tab.get (fun _ => [])
      s.pec.released l = ws.map (fun x => Staged.write x.1 x.2) ∧ (∀ x, x ∈ ws → (blockOf x.1).map Prod.fst = some .pch ∨ (blockOf x.1).map Prod.fst =
      some .trav)) ∧
    (∃ (s : State) (l k j : Nat), l < 32 ∧ k < 32 ∧ j < 32 ∧ Tab.get (fun _ => []) s.pec.released l = [.write (canReg k 0x24) (word (2 ^ j))] ∧
      s.slotState k j ≠ 1 ∧ s.slotState k j ≠ 2 ∧ (s.bit (slotAddr k j + 4) 4 = false ∨ (s.bit (canReg k 0) 2 = true ∧ s.bit (slotAddr k j) 30 =
      false))) ∧
    (∃ (s s1 : State) (l i len n tk : Nat), l < 32 ∧ Tab.get (fun _ => []) s.pec.released l = [.send i len] ∧ Tab.get (fun _ => (0, 0))
      s.pec.releasedBy l = (n, tk) ∧ s1 = { s with pec := { s.pec with released := Tab.set (fun _ => []) s.pec.released l [] } }) ∧
    (∃ (s : State) (l i len : Nat), l < 32 ∧ Tab.get (fun _ => []) s.pec.released l = [.send i len] ∧ s.bit (swReg 0) 0 = true) ∧
    (∃ (s : State) (l i len : Nat), l < 32 ∧ Tab.get (fun _ => []) s.pec.released l = [.send i len] ∧ s.bit (swReg 0) 0 = true ∧ s.firstCell (42 + l %
      6) = none) ∧
    (∃ (s : State) (l i len : Nat), l < 32 ∧ Tab.get (fun _ => []) s.pec.released l = [.send i len] ∧ s.bit (swReg 0) 0 = false) :=
  ⟨⟨z, by decide +kernel⟩,
   ⟨{ z with pec := { z.pec with startDue := true }, time := 40 * nsUnit }, by decide +kernel⟩,
   ⟨{ (serving (active 35 31) 0 5 2 4).setReg (bindAddr 31 + 0x20) 0x80 with pec := { z.pec with startDue := true }, time := 40 * nsUnit },
     by decide +kernel⟩,
   ⟨z, 31, by decide +kernel⟩,
   ⟨releasing [.write (pchReg 255 0x1120) 5, .write (axisReg 63 0x38) 6], 31, 35, 7, [(pchReg 255 0x1120, 5), (axisReg 63 0x38, 6)],
     by decide +kernel⟩,
   ⟨releasing [.write (canReg 31 0x24) 0x80000000], 31, 31, 31, by decide +kernel⟩,
   ⟨releasing [.send 1 64], { releasing [.send 1 64] with pec := { z.pec with released := Tab.set (fun _ => []) [(31, [.send 1 64])] 31 [], releasedBy
     := [(31, (35, 7))] } }, 31, 1, 64, 35, 7, by decide +kernel⟩,
   ⟨{ releasing [.send 1 64] with sw := { z.sw with slots := [(32 * 31 + 1, ⟨none, true, none, false, List.replicate 64 5⟩)] } }.setReg (swReg 0) 1,
     31, 1, 64, by decide +kernel⟩,
   ⟨{ (releasing [.send 1 64]).setReg (swReg 0) 1 with sw := { z.sw with free := 0 } }, 31, 1, 64, by decide +kernel⟩,
   ⟨releasing [.send 1 64], 31, 1, 64, by decide +kernel⟩⟩

theorem witness_OverrunsHaltTheEngine :
    (∃ (s : State) (n : Nat), n < 36 ∧ ((s.core n).running = false ∨ (s.core n).cyc < (s.reg (peGroup n + 0x40)).toNat)) ∧
    (∃ (s : State) (n l : Nat), n < 36 ∧ (s.core n).running = true ∧ (s.reg (peGroup n + 0x40)).toNat ≤ (s.core n).cyc ∧ s.logicalOf n = some l ∧
      s.takeover l = none ∧ (s.core n).posted = [] ∧ (s.core n).far = []) ∧
    (∃ (s : State), (s.pec.deadlineDue = false ∨ s.ns < s.deadline)) ∧
    (∃ (s : State), s.pec.deadlineDue = true ∧ s.deadline ≤ s.ns ∧ (∀ l, l < 32 → s.committedIn l = true ∨ s.missedIn l = true ∨ s.bindState l = 0)) ∧
    (∃ (s : State) (l n : Nat), s.pec.deadlineDue = true ∧ s.deadline ≤ s.ns ∧ l < 32 ∧ n < 36 ∧ n = s.phys l ∧ (∀ m, m < 32 → m ≠ l → s.bindState m =
      0) ∧ s.committedIn l = false ∧ s.missedIn l = false ∧ s.barredIn l = false ∧ s.bindState l = 2 ∧ s.logicalOf n = some l ∧ s.peState n = 4 ∧
      s.takeover l = none ∧ (s.core n).posted = [] ∧ (s.core n).far = []) :=
  ⟨⟨z, 35, by decide +kernel⟩,
   ⟨withCore ((active 35 31).setReg (peGroup 35 + 0x40) 10) 35 { running with cyc := 10 }, 35, 31, by decide +kernel⟩,
   ⟨z, by decide +kernel⟩,
   ⟨{ z with pec := { z.pec with deadlineDue := true } }, by decide +kernel⟩,
   ⟨{ active 35 31 with pec := { z.pec with deadlineDue := true } }, 31, 35, by decide +kernel⟩⟩

theorem witness_TakeoversBringInASpare :
    (∃ (s : State) (l : Nat), l < 32 ∧ ((s.bindState l ≠ 1 ∧ s.bindState l ≠ 2) ∨ s.logicalOf (s.phys l) = some l ∨ s.takeover l ≠ none)) ∧
    (∃ (s : State) (l m : Nat), l < 32 ∧ (s.bindState l = 1 ∨ s.bindState l = 2) ∧ s.logicalOf (s.phys l) ≠ some l ∧ s.takeover l = none ∧
      s.chooseSpare l = some m) ∧
    (∃ (s : State) (l : Nat), l < 32 ∧ (s.bindState l = 1 ∨ s.bindState l = 2) ∧ s.logicalOf (s.phys l) ≠ some l ∧ s.takeover l = none ∧ s.chooseSpare
      l = none) ∧
    (∃ (s : State) (l m : Nat) (t0 : Takeover), l < 32 ∧ s.isDue l 2 = true ∧ s.bindState l = 4 ∧ s.takeover l = some t0 ∧ s.chooseSpare l = some m) ∧
    (∃ (s : State) (l : Nat), l < 32 ∧ s.isDue l 2 = false) ∧
    (∃ (s : State), s.pec.loads = []) ∧
    (∃ (s : State) (n l : Nat) (rest : List Load), n < 36 ∧ l < 32 ∧ s.pec.loads = ⟨n, l, false⟩ :: rest ∧ s.logicalOf n = some l ∧ s.takeover l =
      none ∧ s.loadBad l n = none ∧ (s.imageAddrs l).all (fun a => s.codeCrcOk a) = true ∧ (∀ a, a ∈ s.imageAddrs l → s.imgCodeBase a + s.imgBundles a
      ≤ 4096)) ∧
    (∃ (s : State) (n l a : Nat) (as : List Nat) (rest : List Load) (t0 : Takeover), n < 36 ∧ l < 32 ∧ s.pec.loads = ⟨n, l, true⟩ :: rest ∧
      s.logicalOf n = some l ∧ s.takeover l = some t0 ∧ t0.reexec = true ∧ s.loadBad l n = none ∧ (s.imageAddrs l).all (fun b => s.codeCrcOk b) = true
      ∧ s.dueImages l s.tickIndex = a :: as ∧ (s.core n).allocs = []) ∧
    (∃ (s : State) (n l : Nat) (rest : List Load), n < 36 ∧ l < 32 ∧ s.pec.loads = ⟨n, l, false⟩ :: rest ∧ s.logicalOf n = some l ∧ s.takeover l =
      none) :=
  ⟨⟨z, 31, by decide +kernel⟩,
   ⟨(((active 35 31).setServes 35 none).setPeState 35 6).setPeState 0 2, 31, 0, by decide +kernel⟩,
   ⟨((active 35 31).setServes 35 none).setPeState 35 6, 31, by decide +kernel⟩,
   ⟨due ((z.setBindState 31 4).setTakeover 31 (some ⟨35, 6, 0xFF, false⟩) |>.setPeState 7 2) 31 4, 31, 7, ⟨35, 6, 0xFF, false⟩, by decide +kernel⟩,
   ⟨z, 31, by decide +kernel⟩,
   ⟨z, by decide +kernel⟩,
   ⟨{ serving z 35 31 1 3 with pec := { z.pec with loads := [⟨35, 31, false⟩] } }, 35, 31, [], by decide +kernel⟩,
   ⟨{ (serving z 35 31 3 3).setReg (bindAddr 31 + 0x20) 0x80 with pec := { z.pec with loads := [⟨35, 31, true⟩], takeovers := [(31, some ⟨0, 6, 35,
     true⟩)] } }, 35, 31, 0, [], [], ⟨0, 6, 35, true⟩, by decide +kernel⟩,
   ⟨{ serving z 35 31 1 3 with pec := { z.pec with loads := [⟨35, 31, false⟩] } }, 35, 31, [], by decide +kernel⟩⟩

theorem witness_BindingsAreMadeAndUndone :
    (∃ (w : Who) (s : State) (l : Nat), ByMcp w ∧ l < 32 ∧ (s.bindState l = 0 ∨ s.bindState l = 5)) ∧
    (∃ (w : Who) (s : State) (l : Nat), ByMcp w ∧ l < 32 ∧ (s.bindState l = 2 ∨ s.bindState l = 4)) ∧
    (∃ (w : Who) (s : State) (l : Nat), ByMcp w ∧ l < 32 ∧ s.bindState l = 3) ∧
    (∃ (w : Who) (s : State) (l : Nat), ByMcp w ∧ l < 32 ∧ (s.bindState l = 0 ∨ s.bindState l = 5)) ∧
    (∃ (w : Who) (s : State) (l : Nat), ByMcp w ∧ l < 32 ∧ s.bindState l ≠ 0 ∧ s.bindState l ≠ 5) ∧
    (∃ (w : Who) (s : State) (l : Nat), Admitted w s ∧ w.master = 0 ∧ l < 32) ∧
    (∃ (s : State) (l m : Nat), l < 32 ∧ s.isDue l 0 = true ∧ (s.bindState l = 0 ∨ s.bindState l = 5) ∧ s.goError l = 0 ∧ s.chooseSpare l = some m) ∧
    (∃ (s : State) (l : Nat), l < 32 ∧ s.isDue l 0 = true ∧ (s.bindState l = 0 ∨ s.bindState l = 5) ∧ s.goError l ≠ 0) ∧
    (∃ (s : State) (l : Nat), l < 32 ∧ s.isDue l 0 = false) ∧
    (∃ (s : State) (l n : Nat), l < 32 ∧ n < 36 ∧ s.isDue l 1 = true ∧ s.bindState l = 2 ∧ n = s.phys l ∧ s.logicalOf n = some l ∧ s.takeover l = none
      ∧ s.peState n = 4) ∧
    (∃ (s : State) (l : Nat), l < 32 ∧ s.isDue l 1 = false) :=
  ⟨⟨mcp, z.setReg (bindAddr 31 + 4) 5, 31, ⟨rfl, rfl⟩, by decide +kernel⟩,
   ⟨mcp, z.setReg (bindAddr 31 + 4) 4, 31, ⟨rfl, rfl⟩, by decide +kernel⟩,
   ⟨mcp, z.setReg (bindAddr 31 + 4) 3, 31, ⟨rfl, rfl⟩, by decide +kernel⟩,
   ⟨mcp, z.setReg (bindAddr 31 + 4) 5, 31, ⟨rfl, rfl⟩, by decide +kernel⟩,
   ⟨mcp, z.setReg (bindAddr 31 + 4) 1, 31, ⟨rfl, rfl⟩, by decide +kernel⟩,
   ⟨pcie, z, 31, .inr ⟨rfl, rfl, by decide +kernel⟩, by decide +kernel⟩,
   ⟨due (((z.setReg (bindAddr 31 + 0x20) 0x80).setReg (imgStat 0) 1).setPeState 35 2) 31 1, 31, 35, by decide +kernel⟩,
   ⟨due z 31 1, 31, by decide +kernel⟩,
   ⟨z, 31, by decide +kernel⟩,
   ⟨due (active 35 31) 31 2, 31, 35, by decide +kernel⟩,
   ⟨z, 31, by decide +kernel⟩⟩

theorem witness_ImagesAreVerifiedByTheirCheck :
    (∃ (w : Who) (s : State) (i : Nat), ByMcp w ∧ i < 128 ∧ s.imgVerified i = false ∧ s.imgChecking i = false) ∧
    (∃ (w : Who) (s : State) (i : Nat), ByMcp w ∧ i < 128 ∧ (s.imgVerified i = true ∨ s.imgChecking i = true)) ∧
    (∃ (s : State) (i : Nat), i < 128 ∧ s.imgChecking i = true ∧ s.imgCheck i = true) ∧
    (∃ (s : State) (i : Nat), i < 128 ∧ s.imgChecking i = true ∧ s.imgCheck i = false) ∧
    (∃ (s : State) (i : Nat), i < 128 ∧ s.imgChecking i = false) ∧
    (∃ (s : State) (i : Nat), (s.fld (imgAddr i) 0 23 % 64 ≠ 0 ∨ s.img (s.fld (imgAddr i) 0 23) 0 4 ≠ 0x4E4D5049)) ∧
    (∃ (w : Who) (s : State) (i : Nat), ByMcp w ∧ i < 128 ∧ (s.imgVerified i && s.imgNamed i) = false) ∧
    (∃ (w : Who) (s : State) (i : Nat), ByMcp w ∧ i < 128 ∧ (s.imgVerified i && s.imgNamed i) = false) ∧
    (∃ (w : Who) (s : State) (i : Nat), ByMcp w ∧ i < 128 ∧ s.imgVerified i = true ∧ s.imgNamed i = true) ∧
    (∃ (w : Who) (s : State) (i : Nat), Admitted w s ∧ w.master = 0 ∧ i < 128) :=
  ⟨⟨mcp, z, 127, ⟨rfl, rfl⟩, by decide +kernel⟩,
   ⟨mcp, z.setReg (imgStat 127) 1, 127, ⟨rfl, rfl⟩, by decide +kernel⟩,
   ⟨((withImage (z.setChecking 127 true)).setReg (imgAddr 127 + 4) 240), 127, by decide +kernel⟩,
   ⟨z.setChecking 127 true, 127, by decide +kernel⟩,
   ⟨z, 127, by decide +kernel⟩,
   ⟨z.setReg (imgAddr 127) 0, 127, by decide +kernel⟩,
   ⟨mcp, z.setReg (imgStat 127) 1, 127, ⟨rfl, rfl⟩, by decide +kernel⟩,
   ⟨mcp, z, 127, ⟨rfl, rfl⟩, by decide +kernel⟩,
   ⟨mcp, ((z.setReg (imgStat 127) 1).setReg (bindAddr 31 + 0x20) (0x80 + 127)).setBindState 31 2, 127, ⟨rfl, rfl⟩, by decide +kernel⟩,
   ⟨pcie, z, 127, .inr ⟨rfl, rfl, by decide +kernel⟩, by decide +kernel⟩⟩

theorem witness_BundlesIssueTheirMoves :
    (∃ (s : State) (n j d : Nat) (v : Word) (c : Core), Ready s n c ∧ Straight n c ∧ Moves s n c [⟨j, d, v⟩] ∧ 0x040 ≤ d ∧ d ≤ 0x07F) ∧
    (∃ (s : State) (n j d : Nat) (v : Word) (c : Core), Ready s n c ∧ Straight n c ∧ Moves s n c [⟨j, d, v⟩] ∧ 0x108 ≤ d ∧ d ≤ 0x10A) ∧
    (∃ (s : State) (n j d : Nat) (v : Word) (c : Core), Ready s n c ∧ Straight n c ∧ Moves s n c [⟨j, d, v⟩] ∧ (d = 0x118 ∨ d = 0x119) ∧ c.at 0x110 ≠
      0) ∧
    (∃ (s : State) (n i j d : Nat) (o v : Word) (c : Core) (r : AluRes), Ready s n c ∧ Straight n c ∧ (Moves s n c [⟨i, 0x080, o⟩, ⟨j, d, v⟩] ∨ Moves
      s n c [⟨i, d, v⟩, ⟨j, 0x080, o⟩]) ∧ 0x0A0 ≤ d ∧ d ≤ 0x0BB ∧ r = aluOp (d - 0x080) v o (c.at 0x083 != 0)) ∧
    (∃ (s : State) (n j d : Nat) (v : Word) (c : Core), Ready s n c ∧ Straight n c ∧ Moves s n c [⟨j, d, v⟩] ∧ 0x150 ≤ d ∧ d ≤ 0x158) ∧
    (∃ (s : State) (n i j : Nat) (d a : Word) (c : Core), Ready s n c ∧ Straight n c ∧ Moves s n c [⟨i, 0x120, d⟩, ⟨j, 0x12D, a⟩] ∧ a.toNat % 4 = 0 ∧
      a.toNat < ldmSize n ∧ s.localRefused n 0x12D (localBase n + a.toNat) 4 = false) ∧
    (∃ (s : State) (n j : Nat) (a : Word) (c : Core), Ready s n c ∧ Straight n c ∧ Moves s n c [⟨j, 0x128, a⟩] ∧ a.toNat % 4 = 0 ∧ a.toNat < ldmSize n
      ∧ s.localRefused n 0x128 (localBase n + a.toNat) 4 = false) ∧
    (∃ (s : State) (n j : Nat) (a : Word) (c : Core), Ready s n c ∧ Straight n c ∧ Moves s n c [⟨j, 0x130, a⟩] ∧ a.toNat % 4 = 0 ∧ c.far = []) ∧
    (∃ (s : State) (n i j : Nat) (d a : Word) (c : Core), Ready s n c ∧ Straight n c ∧ Moves s n c [⟨i, 0x120, d⟩, ⟨j, 0x131, a⟩] ∧ a.toNat % 4 = 0 ∧
      0x800000 ≤ a.toNat ∧ c.posted.length < 16 ∧ (∀ x, x ∈ c.posted → 0x800000 ≤ x.arg.toNat)) ∧
    (∃ (s : State) (n i j : Nat) (a b : Word) (c : Core), Ready s n c ∧ Moves s n c [⟨i, 0x130, a⟩, ⟨j, 0x130, b⟩] ∧ c.far = [] ∧ c.paid = (0, [])) ∧
    (∃ (s : State) (n i j : Nat) (d a : Word) (c : Core), Ready s n c ∧ Moves s n c [⟨i, 0x120, d⟩, ⟨j, 0x131, a⟩] ∧ c.posted.length = 16) ∧
    (∃ (s : State) (n j d : Nat) (v : Word) (c : Core), Ready s n c ∧ Straight n c ∧ Moves s n c [⟨j, d, v⟩] ∧ n < 36 ∧ (d = 0x1A0 ∨ d = 0x1A2) ∧
      v.toNat < 4096) ∧
    (∃ (s : State) (n j : Nat) (v : Word) (c : Core), Ready s n c ∧ Straight n c ∧ Moves s n c [⟨j, 0x1A0, v⟩] ∧ n < 36 ∧ 4096 ≤ v.toNat ∧ s.bit
      (coreSticky n + 4) flagRange = false) ∧
    (∃ (s : State) (n a : Nat) (c : Core), Ready s n c ∧ Moves s n c [] ∧ n < 36 ∧ c.pc < 4095 ∧ c.jumps = [(2, a)]) ∧
    (∃ (s : State) (n a : Nat) (c : Core), Ready s n c ∧ Moves s n c [] ∧ c.jumps = [(1, a)]) ∧
    (∃ (s : State) (n j d : Nat) (v : Word) (c : Core), Ready s n c ∧ Straight n c ∧ Moves s n c [⟨j, d, v⟩] ∧ (d = 0x118 ∨ d = 0x119) ∧ c.at 0x110 =
      0 ∧ s.bit (coreSticky n + 4) flagDz = false) ∧
    (∃ (s : State) (n l j d : Nat) (v : Word) (c : Core), Ready s n c ∧ Straight n c ∧ Moves s n c [⟨j, d, v⟩] ∧ n < 36 ∧ l < 32 ∧ (d = 0x118 ∨ d =
      0x119) ∧ c.at 0x110 = 0 ∧ s.bit (coreSticky n + 4) flagDz = true ∧ s.logicalOf n = some l ∧ s.takeover l = none ∧ c.posted = [] ∧ c.far = [] ∧
      s.peState n = 4 ∧ s.bit (coreSticky n + 8) 31 = false) ∧
    (∃ (j : Nat), j < 4) ∧
    (∃ (s : State) (n : Nat) (c : Core) (ws : Nat → Word) (j : Nat) (m : Move), m ∈ s.movesOf n c ws ∧ m.slot = j) ∧
    (∃ (s : State) (n : Nat), n ≤ 36 ∧ s.mayIssue n = false) ∧
    (∃ (s : State) (n k : Nat) (c : Core), n ≤ 36 ∧ c = s.core n ∧ s.mayIssue n = true ∧ c.mul = [] ∧ c.div = none ∧ c.lsu = [] ∧ c.late = [] ∧ c.wait
      = none ∧ c.stall = some (k + 1)) ∧
    (∃ (s : State) (n : Nat) (t : Option Nat) (c : Core), n ≤ 36 ∧ c = s.core n ∧ s.mayIssue n = true ∧ c.mul = [] ∧ c.div = none ∧ c.lsu = [] ∧
      c.late = [] ∧ c.wait = some t) ∧
    (∃ (s : State) (n j : Nat) (v : Word) (c : Core), Ready s n c ∧ Moves s n c [⟨j, 0x1A9, v⟩] ∧ c.stall = none ∧ s.belled n = false) ∧
    (∃ (s : State) (n j : Nat) (v : Word) (c : Core), Ready s n c ∧ Straight n c ∧ Moves s n c [⟨j, 0x1A9, v⟩] ∧ (s.belled n = true ∨ c.stall = some
      0)) ∧
    (∃ (s : State) (n : Nat), n ≤ 36 ∧ (s.core n).wait = none) ∧
    (∃ (s : State) (n : Nat) (t : Option Nat), n ≤ 36 ∧ (s.core n).wait = some t ∧ s.mayIssue n = true ∧ (s.belled n = true ∨ ∃ k, t = some k ∧ k ≤
      (s.core n).cyc)) ∧
    (∃ (s : State) (n : Nat) (t : Option Nat), (∀ k, t = some k → (s.core n).cyc < k) ∧ n ≤ 36 ∧ (s.core n).wait = some t ∧ s.belled n = false) :=
  ⟨⟨on35 running [moveSlot 0x07F 0xFFFF], 35, 0, 0x07F, 0xFFFFFFFF, running, (by unfold Ready; decide +kernel), (by unfold Straight; decide +kernel),
     (by unfold Moves; decide +kernel), by decide +kernel⟩,
   ⟨onMcp (holding mcpAt [(0x100, 3)]) [2 ^ 27, 2 ^ 27, 2 ^ 27, moveSlot 0x10A 0xFFFF], 36, 3, 0x10A, 0xFFFFFFFF, holding mcpAt [(0x100, 3)],
     (by unfold Ready; decide +kernel), (by unfold Straight; decide +kernel), (by unfold Moves; decide +kernel), by decide +kernel⟩,
   ⟨on35 (holding running [(0x110, 3)]) [moveSlot 0x118 0xFFFF], 35, 0, 0x118, 0xFFFFFFFF, holding running [(0x110, 3)],
     (by unfold Ready; decide +kernel), (by unfold Straight; decide +kernel), (by unfold Moves; decide +kernel), by decide +kernel⟩,
   ⟨on35 running [moveSlot 0x0A0 0xFFFF, moveSlot 0x080 1], 35, 0, 1, 0x0A0, 1, 0xFFFFFFFF, running, aluOp 0x20 0xFFFFFFFF 1 false,
     (by unfold Ready; decide +kernel), (by unfold Straight; decide +kernel), (by unfold Moves; decide +kernel), by decide +kernel⟩,
   ⟨onMcp (holding mcpAt [(0x140, 8)]) [moveSlot 0x158 0xFFFF], 36, 0, 0x158, 0xFFFFFFFF, holding mcpAt [(0x140, 8)],
     (by unfold Ready; decide +kernel), (by unfold Straight; decide +kernel), (by unfold Moves; decide +kernel), by decide +kernel⟩,
   ⟨onMcp mcpAt [moveSlot 0x120 5, moveSlot 0x12D 0x7FFC], 36, 0, 1, 5, 0x7FFC, mcpAt, (by unfold Ready; decide +kernel),
     (by unfold Straight; decide +kernel), (by unfold Moves; decide +kernel), by decide +kernel⟩,
   ⟨on35 running [moveSlot 0x128 0x7FFC], 35, 0, 0x7FFC, running, (by unfold Ready; decide +kernel), (by unfold Straight; decide +kernel),
     (by unfold Moves; decide +kernel), by decide +kernel⟩,
   ⟨onMcp (holding mcpAt [(0x120, 9)]) [moveSlot 0x130 0x7FFC], 36, 0, 0x7FFC, holding mcpAt [(0x120, 9)], (by unfold Ready; decide +kernel),
     (by unfold Straight; decide +kernel), (by unfold Moves; decide +kernel), by decide +kernel⟩,
   ⟨on35 running [moveSlot 0x120 5, moveSlot 0x131 0xFFFC], 35, 0, 1, 5, 0xFFFFFFFC, running, (by unfold Ready; decide +kernel),
     (by unfold Straight; decide +kernel), (by unfold Moves; decide +kernel), by decide +kernel⟩,
   ⟨on35 running [moveSlot 0x130 4, moveSlot 0x130 8], 35, 0, 1, 4, 8, running, (by unfold Ready; decide +kernel), (by unfold Moves; decide +kernel),
     by decide +kernel⟩,
   ⟨on35 { running with posted := List.replicate 16 ⟨0x131, 0x900000, 0, 0, 0, 0, none, 0⟩ } [moveSlot 0x120 5, moveSlot 0x131 0xFFFC], 35, 0, 1, 5,
     0xFFFFFFFC, { running with posted := List.replicate 16 ⟨0x131, 0x900000, 0, 0, 0, 0, none, 0⟩ }, (by unfold Ready; decide +kernel),
     (by unfold Moves; decide +kernel), by decide +kernel⟩,
   ⟨on35 (holding running [(0x011, 0x80000000)]) [moveSlot 0x1A2 0xFFF], 35, 0, 0x1A2, 0xFFF, holding running [(0x011, 0x80000000)],
     (by unfold Ready; decide +kernel), (by unfold Straight; decide +kernel), (by unfold Moves; decide +kernel), by decide +kernel⟩,
   ⟨on35 running [moveSlot 0x1A0 0x1000], 35, 0, 0x1000, running, (by unfold Ready; decide +kernel), (by unfold Straight; decide +kernel),
     (by unfold Moves; decide +kernel), by decide +kernel⟩,
   ⟨on35 { running with jumps := [(2, 5)] } [], 35, 5, { running with jumps := [(2, 5)] }, (by unfold Ready; decide +kernel),
     (by unfold Moves; decide +kernel), by decide +kernel⟩,
   ⟨onMcp { mcpAt with jumps := [(1, 5)] } [], 36, 5, { mcpAt with jumps := [(1, 5)] }, (by unfold Ready; decide +kernel),
     (by unfold Moves; decide +kernel), by decide +kernel⟩,
   ⟨onMcp mcpAt [moveSlot 0x119 0xFFFF], 36, 0, 0x119, 0xFFFFFFFF, mcpAt, (by unfold Ready; decide +kernel), (by unfold Straight; decide +kernel),
     (by unfold Moves; decide +kernel), by decide +kernel⟩,
   ⟨withCore ((code4 (active 35 31) 35 [moveSlot 0x118 0xFFFF]).setReg (coreSticky 35 + 4) (word (2 ^ flagDz))) 35 running, 35, 31, 0, 0x118,
     0xFFFFFFFF, running, (by unfold Ready; decide +kernel), (by unfold Straight; decide +kernel), (by unfold Moves; decide +kernel),
     by decide +kernel⟩,
   ⟨3, by decide +kernel⟩,
   ⟨z, 35, running, (fun _ => word (moveSlot 0x040 5)), 3, ⟨3, 0x040, 5⟩, by decide +kernel⟩,
   ⟨z, 35, by decide +kernel⟩,
   ⟨onMcp { mcpAt with stall := some 3 } [], 36, 2, { mcpAt with stall := some 3 }, by decide +kernel⟩,
   ⟨on35 { running with wait := some none } [], 35, none, { running with wait := some none }, by decide +kernel⟩,
   ⟨onMcp mcpAt [moveSlot 0x1A9 9], 36, 0, 9, mcpAt, (by unfold Ready; decide +kernel), (by unfold Moves; decide +kernel), by decide +kernel⟩,
   ⟨on35 { running with stall := some 0 } [moveSlot 0x1A9 9], 35, 0, 9, { running with stall := some 0 }, (by unfold Ready; decide +kernel),
     (by unfold Straight; decide +kernel), (by unfold Moves; decide +kernel), by decide +kernel⟩,
   ⟨z, 35, by decide +kernel⟩,
   ⟨on35 { running with wait := some (some 0) } [], 35, some 0, by decide +kernel⟩,
   ⟨on35 { running with wait := some (some 1) } [], 35, some 1, (fun _ h => Option.some.inj h ▸ Nat.zero_lt_one), by decide +kernel⟩⟩

theorem witness_CommitReleasesWhatIsStaged :
    (∃ (s : State) (n l j : Nat) (c : Core), Ready s n c ∧ Moves s n c [⟨j, 0x1A8, c.at 0x011⟩] ∧ n < 36 ∧ l < 32 ∧ c.jumps = [] ∧ c.posted = [] ∧
      c.far = [] ∧ s.logicalOf n = some l ∧ s.takeover l = none) ∧
    (∃ (s : State) (n l j : Nat) (v : Word) (c : Core), Ready s n c ∧ Moves s n c [⟨j, 0x1A8, v⟩] ∧ n < 36 ∧ l < 32 ∧ c.jumps = [] ∧ c.posted = [] ∧
      c.far = [] ∧ v ≠ c.at 0x011 ∧ s.logicalOf n = some l ∧ s.takeover l = none) :=
  ⟨⟨withCore (code4 (active 35 31) 35 [moveSlot 0x1A8 0]) 35 { running with staged := [.send 1 64] }, 35, 31, 0, { running with staged := [.send 1 64]
     }, (by unfold Ready; decide +kernel), (by unfold Moves; decide +kernel), by decide +kernel⟩,
   ⟨withCore (code4 (active 35 31) 35 [moveSlot 0x1A8 1]) 35 running, 35, 31, 0, 1, running, (by unfold Ready; decide +kernel),
     (by unfold Moves; decide +kernel), by decide +kernel⟩⟩

theorem witness_LocalResultsReachTheirSockets :
    (∃ (s : State) (n t : Nat) (p : DWord) (rest : List (Nat × DWord)), n < 37 ∧ (s.core n).mul = (t, p) :: rest ∧ t ≤ (s.core n).iss) ∧
    (∃ (s : State) (n t : Nat) (q m : Word) (v : Bool), n < 37 ∧ (s.core n).div = some (t, q, m, v) ∧ t ≤ (s.core n).iss) ∧
    (∃ (s : State) (n t : Nat) (v : Word) (rest : List (Nat × Word)), n < 37 ∧ (s.core n).lsu = (t, v) :: rest ∧ t ≤ (s.core n).iss) ∧
    (∃ (n : Nat), n < 37) ∧
    (∃ (s : State) (n l t : Nat) (p : DWord) (rest : List (Nat × DWord)), n < 36 ∧ l < 32 ∧ (s.core n).mul = (t, p) :: rest ∧ t ≤ (s.core n).iss ∧
      s.logicalOf n = some l ∧ s.takeover l = none ∧ (s.core n).posted = [] ∧ (s.core n).far = []) ∧
    (∃ (s : State) (n l t : Nat) (q m : Word) (v : Bool), n < 36 ∧ l < 32 ∧ (s.core n).div = some (t, q, m, v) ∧ t ≤ (s.core n).iss ∧ s.logicalOf n =
      some l ∧ s.takeover l = none ∧ (s.core n).posted = [] ∧ (s.core n).far = []) :=
  ⟨⟨withCore z 36 { running with mul := [(0, 5)] }, 36, 0, 5, [], by decide +kernel⟩,
   ⟨withCore z 36 { running with div := some (0, 5, 6, true) }, 36, 0, 5, 6, true, by decide +kernel⟩,
   ⟨withCore z 36 { running with lsu := [(0, 5)] }, 36, 0, 5, [], by decide +kernel⟩,
   ⟨36, by decide +kernel⟩,
   ⟨withCore (active 35 31) 35 { running with mul := [(0, 5)] }, 35, 31, 0, 5, [], by decide +kernel⟩,
   ⟨withCore (active 35 31) 35 { running with div := some (0, 5, 6, true) }, 35, 31, 0, 5, 6, true, by decide +kernel⟩⟩

theorem witness_FarAccessesReachTheirTargets :
    (∃ (n : Nat), n < 37) ∧
    (∃ (s : State) (n a : Nat) (op : FarOp) (rest : List FarOp), n < 36 ∧ (s.core n).far = op :: rest ∧ op.vals = none ∧ (∀ x, x ∈ rest → x.vals =
      none ∧ x.seq ≠ op.seq) ∧ (s.core n).fq.length < 16 ∧ (s.core n).posted = [] ∧ op.trig = 0x130 ∧ a = op.arg.toNat / 4 * 4 ∧ a < 0x800000 ∧
      s.tsUpper a = false ∧ s.tsAreaOf a = none ∧ s.isBad a = false) ∧
    (∃ (s : State) (n i : Nat) (op : FarOp) (rest : List FarOp), n < 36 ∧ i < 256 ∧ (s.core n).far = op :: rest ∧ op.vals = none ∧ (∀ x, x ∈ rest →
      x.vals = none ∧ x.seq ≠ op.seq) ∧ (s.core n).fq.length < 16 ∧ op.trig = 0x188 ∧ op.arg.toNat = 0x10510000 + 4 * i ∧ s.bit (lockView i) 0 =
      false) ∧
    (∃ (s : State) (n i : Nat) (op : FarOp) (rest : List FarOp), n < 36 ∧ i < 256 ∧ (s.core n).far = op :: rest ∧ op.vals = none ∧ (∀ x, x ∈ rest →
      x.vals = none ∧ x.seq ≠ op.seq) ∧ (s.core n).fq.length < 16 ∧ op.trig = 0x188 ∧ op.arg.toNat = 0x10510000 + 4 * i ∧ s.bit (lockView i) 0 = true) ∧
    (∃ (s : State) (n : Nat) (op : FarOp) (rest : List FarOp), n < 36 ∧ (s.core n).far = op :: rest ∧ op.vals = none ∧ (∀ x, x ∈ rest → x.vals = none
      ∧ x.seq ≠ op.seq) ∧ (s.core n).fq.length < 16 ∧ op.trig = 0x130 ∧ 0x800000 ≤ op.arg.toNat ∧ op.arg.toNat < 0x10000000 ∧ s.bit (peGroup n + 0x64)
      8 = false) ∧
    (∃ (s : State) (n l a o : Nat) (b : Block) (op : FarOp) (rest : List FarOp), n < 36 ∧ l < 32 ∧ (s.core n).posted = op :: rest ∧ op.trig = 0x131 ∧
      a = op.arg.toNat ∧ a % 4 = 0 ∧ s.logicalOf n = some l ∧ blockOf a = some (b, o) ∧ b = .tick ∧ 8 ≤ o ∧ s.grantsPage l ((a - 0x10000000) / 0x1000)
      = true ∧ (cellAt a).isSome = true) ∧
    (∃ (s : State) (n l a o : Nat) (b : Block) (op : FarOp) (rest : List FarOp), n < 36 ∧ l < 32 ∧ (s.core n).posted = op :: rest ∧ op.trig = 0x131 ∧
      a = op.arg.toNat ∧ a % 4 = 0 ∧ s.logicalOf n = some l ∧ blockOf a = some (b, o) ∧ (b = .mgt ∨ b = .flt ∨ b = .mem ∨ b = .mbx ∨ b = .host ∨ (b =
      .sw ∧ engineSwReg o = false)) ∧ s.bit (peGroup n + 0x64) 8 = false) ∧
    (∃ (s : State) (n i : Nat) (op : FarOp) (rest : List FarOp), n < 36 ∧ i < 256 ∧ (s.core n).posted = op :: rest ∧ op.trig = 0x189 ∧ op.arg.toNat =
      0x10510000 + 4 * i ∧ s.bit (lockView i) 0 = true ∧ s.fld (lockView i) 8 8 = 0x10 + n) :=
  ⟨⟨36, by decide +kernel⟩,
   ⟨withCore (z.store 0x7FFFFC [1, 2, 3, 4]) 35 { running with far := [⟨0x130, 0x7FFFFC, 0, 0, 0, 0, none, 0⟩] }, 35, 0x7FFFFC, ⟨0x130, 0x7FFFFC, 0,
     0, 0, 0, none, 0⟩, [], by decide +kernel⟩,
   ⟨withCore z 35 { running with far := [⟨0x188, 0x105103FC, 0, 0, 0, 0, none, 0⟩] }, 35, 255, ⟨0x188, 0x105103FC, 0, 0, 0, 0, none, 0⟩, [],
     by decide +kernel⟩,
   ⟨withCore (z.setReg (lockView 255) 0x101) 35 { running with far := [⟨0x188, 0x105103FC, 0, 0, 0, 0, none, 0⟩] }, 35, 255, ⟨0x188, 0x105103FC, 0, 0,
     0, 0, none, 0⟩, [], by decide +kernel⟩,
   ⟨withCore z 35 { running with far := [⟨0x130, 0x800000, 0, 0, 0, 0, none, 0⟩] }, 35, ⟨0x130, 0x800000, 0, 0, 0, 0, none, 0⟩, [], by decide +kernel⟩,
   ⟨withCore ((active 35 31).setReg (bindAddr 31 + 0x70) (0x100 + 2 ^ 16)) 35 { running with posted := [⟨0x131, 0x10100030, 9, 0, 0, 0, none, 0⟩] },
     35, 31, 0x10100030, 0x30, .tick, ⟨0x131, 0x10100030, 9, 0, 0, 0, none, 0⟩, [], by decide +kernel⟩,
   ⟨withCore (active 35 31) 35 { running with posted := [⟨0x131, 0x10300000, 9, 0, 0, 0, none, 0⟩] }, 35, 31, 0x10300000, 0, .mgt, ⟨0x131, 0x10300000,
     9, 0, 0, 0, none, 0⟩, [], by decide +kernel⟩,
   ⟨withCore (z.setReg (lockView 255) 0x3301) 35 { running with posted := [⟨0x189, 0x105103FC, 0, 0, 0, 0, none, 0⟩] }, 35, 255, ⟨0x189, 0x105103FC,
     0, 0, 0, 0, none, 0⟩, [], by decide +kernel⟩⟩

theorem witness_ArithmeticOfACore :
    (∃ (o : Word), 32 ≤ o.toNat) ∧
    (∃ (k : Nat), 0x24 ≤ k) ∧
    (∃ (o : Word), o ≠ 0) ∧
    (∃ (t o : Word), o ≠ 0 ∧ ¬(t = 0x80000000 ∧ o = 0xFFFFFFFF)) :=
  ⟨⟨(32 : Word), by decide +kernel⟩,
   ⟨0x24, by decide +kernel⟩,
   ⟨0xFFFFFFFF, by decide +kernel⟩,
   ⟨0x80000000, 1, by decide +kernel⟩⟩

theorem witness_MailboxSends :
    (∃ (w : Who) (s : State) (e i t : Nat), Admitted w s ∧ isEp e = true ∧ i < 16 ∧ s.epReachable e = true ∧ t = s.epTarget e ∧ s.bit (mbStat t i) 0 =
      false) ∧
    (∃ (w : Who) (s : State) (e i t : Nat), Admitted w s ∧ isEp e = true ∧ i < 16 ∧ s.epReachable e = true ∧ t = s.epTarget e ∧ s.bit (mbStat t i) 0 =
      true) ∧
    (∃ (w : Who) (s : State) (n e i t : Nat), ByEngine w n ∧ isEp e = true ∧ i < 16 ∧ s.epReachable e = true ∧ t = s.epTarget e ∧ s.bit (mbStat t i) 0
      = false) ∧
    (∃ (w : Who) (s : State) (n e i t : Nat), ByEngine w n ∧ isEp e = true ∧ i < 16 ∧ s.epReachable e = true ∧ t = s.epTarget e ∧ s.bit (mbStat t i) 0
      = true) ∧
    (∃ (w : Who) (s : State) (e i : Nat), (Admitted w s ∨ ∃ n, ByEngine w n) ∧ isEp e = true ∧ i < 16 ∧ s.epReachable e = false) :=
  ⟨⟨mcp, z.setReg (epRedir 0) 0x301, 0, 15, 3, .inl ⟨rfl, rfl⟩, by decide +kernel⟩,
   ⟨mcp, z.setReg (mbStat 3 15) 1, 3, 15, 3, .inl ⟨rfl, rfl⟩, by decide +kernel⟩,
   ⟨byEngine 35, z, 35, 3, 15, 3, ⟨rfl, by decide, rfl⟩, by decide +kernel⟩,
   ⟨byEngine 35, z.setReg (mbStat 3 15) 1, 35, 3, 15, 3, ⟨rfl, by decide, rfl⟩, by decide +kernel⟩,
   ⟨byEngine 35, z, 0x33, 15, .inr ⟨35, rfl, by decide, rfl⟩, by decide +kernel⟩⟩

theorem witness_MailboxReceives :
    (∃ (w : Who) (s : State) (e i : Nat), (Admitted w s ∨ (0x10 ≤ e ∧ ByEngine w (e - 0x10))) ∧ isEp e = true ∧ i < 16 ∧ s.mayEmpty e w = true ∧ s.bit
      (mbStat e i) 0 = true) ∧
    (∃ (w : Who) (s : State) (e i : Nat), (Admitted w s ∨ (0x10 ≤ e ∧ ByEngine w (e - 0x10))) ∧ isEp e = true ∧ i < 16 ∧ (s.mayEmpty e w = false ∨
      s.bit (mbStat e i) 0 = false)) ∧
    (∃ (w : Who) (n e i : Nat), ByEngine w n ∧ isEp e = true ∧ e ≠ 0x10 + n ∧ i < 16) :=
  ⟨⟨byEngine 35, (z.setReg (mbStat 0x33 15) 1).setReg (mbWord 0x33 15) 7, 0x33, 15, .inr ⟨by decide, rfl, by decide, rfl⟩, by decide +kernel⟩,
   ⟨pcie, (z.setReg (mbStat 0x33 15) 1).setReg (mbWord 0x33 15) 7, 0x33, 15, .inl (.inr ⟨rfl, rfl, by decide +kernel⟩), by decide +kernel⟩,
   ⟨byEngine 35, 35, 0x32, 15, ⟨rfl, by decide, rfl⟩, by decide +kernel⟩⟩

theorem witness_DoorbellsRingAndAreTaken :
    (∃ (w : Who) (s : State) (e t : Nat) (d : Word), (Admitted w s ∨ ∃ n, ByEngine w n) ∧ isEp e = true ∧ s.epReachable e = true ∧ t = s.epTarget e ∧
      (t ≠ 0 ∨ d &&& ~~~(s.reg (dbPend t)) &&& ~~~(s.reg (dbMask t)) = 0)) ∧
    (∃ (w : Who) (s : State) (e : Nat) (d : Word), (Admitted w s ∨ ∃ n, ByEngine w n) ∧ isEp e = true ∧ s.epReachable e = true ∧ s.epTarget e = 0 ∧ d
      &&& ~~~(s.reg (dbPend 0)) &&& ~~~(s.reg (dbMask 0)) ≠ 0) ∧
    (∃ (w : Who) (s : State) (e : Nat), Admitted w s ∧ isEp e = true ∧ dbOwner e w = true ∧ e ≠ 0) ∧
    (∃ (w : Who) (s : State), Admitted w s) ∧
    (∃ (w : Who) (s : State) (e : Nat), Admitted w s ∧ isEp e = true ∧ dbOwner e w = false) ∧
    (∃ (w : Who) (n e : Nat), ByEngine w n ∧ isEp e = true ∧ e ≠ 0x10 + n) ∧
    (∃ (w : Who) (s : State) (e : Nat), (Admitted w s ∨ ∃ n, ByEngine w n) ∧ isEp e = true ∧ dbOwner e w = true) ∧
    (∃ (w : Who) (s : State) (e us b : Nat), Admitted w s ∧ isEp e = true ∧ dbOwner e w = true ∧ 0 < us ∧ us < 2 ^ 24 ∧ b < 32) ∧
    (∃ (w : Who) (s : State) (e b : Nat), Admitted w s ∧ isEp e = true ∧ dbOwner e w = true ∧ b < 32) ∧
    (∃ (s : State) (e : Nat), isEp e = true ∧ s.bit (waitTmr e) 31 = true ∧ Tab.get (fun _ => 0) s.mbx.waitAt e ≤ s.cyc) ∧
    (∃ (s : State) (e : Nat), isEp e = true ∧ (s.bit (waitTmr e) 31 = false ∨ s.cyc < Tab.get (fun _ => 0) s.mbx.waitAt e)) :=
  ⟨⟨byEngine 35, z, 3, 3, 0xFFFFFFFF, .inr ⟨35, rfl, by decide, rfl⟩, by decide +kernel⟩,
   ⟨mcp, z, 0, 0x80000000, .inl (.inl ⟨rfl, rfl⟩), by decide +kernel⟩,
   ⟨mcp, z, 0x33, .inl ⟨rfl, rfl⟩, by decide +kernel⟩,
   ⟨mcp, z.setReg (dbPend 0) 1, .inl ⟨rfl, rfl⟩⟩,
   ⟨pcie, z, 1, .inr ⟨rfl, rfl, by decide +kernel⟩, by decide +kernel⟩,
   ⟨byEngine 35, 35, 0x32, ⟨rfl, by decide, rfl⟩, by decide +kernel⟩,
   ⟨byEngine 35, z.setReg (dbPend 0x33) 5, 0x33, .inr ⟨35, rfl, by decide, rfl⟩, by decide +kernel⟩,
   ⟨mcp, z, 0x33, 2 ^ 24 - 1, 31, .inl ⟨rfl, rfl⟩, by decide +kernel⟩,
   ⟨mcp, z.setBit (waitTmr 3) 31 true, 3, 31, .inl ⟨rfl, rfl⟩, by decide +kernel⟩,
   ⟨z.setBit (waitTmr 0x33) 31 true, 0x33, by decide +kernel⟩,
   ⟨z, 0x33, by decide +kernel⟩⟩

theorem witness_LocksAreTakenAndReleased :
    (∃ (w : Who) (s : State) (n : Nat), Admitted w s ∧ n < 256 ∧ s.bit (lockView n) 0 = false) ∧
    (∃ (w : Who) (s : State) (n : Nat), Admitted w s ∧ n < 256 ∧ s.bit (lockView n) 0 = true) ∧
    (∃ (w : Who) (s : State) (m n : Nat), ByEngine w m ∧ n < 256 ∧ s.bit (lockView n) 0 = false) ∧
    (∃ (w : Who) (s : State) (m n : Nat), ByEngine w m ∧ n < 256 ∧ s.bit (lockView n) 0 = true) ∧
    (∃ (w : Who) (s : State) (n : Nat), (Admitted w s ∨ ∃ m, ByEngine w m) ∧ n < 256 ∧ s.bit (lockView n) 0 = true ∧ s.fld (lockView n) 8 8 =
      w.master) ∧
    (∃ (w : Who) (s : State) (n : Nat), (Admitted w s ∨ ∃ m, ByEngine w m) ∧ n < 256 ∧ s.bit (lockView n) 0 = true ∧ s.fld (lockView n) 8 8 ≠
      w.master) ∧
    (∃ (w : Who) (s : State) (n : Nat), (Admitted w s ∨ ∃ m, ByEngine w m) ∧ n < 256 ∧ s.bit (lockView n) 0 = false) :=
  ⟨⟨mcp, z, 255, .inl ⟨rfl, rfl⟩, by decide +kernel⟩,
   ⟨mcp, z.setReg (lockView 255) 0x101, 255, .inl ⟨rfl, rfl⟩, by decide +kernel⟩,
   ⟨byEngine 35, z, 35, 255, ⟨rfl, by decide, rfl⟩, by decide +kernel⟩,
   ⟨byEngine 35, z.setReg (lockView 255) 0x101, 35, 255, ⟨rfl, by decide, rfl⟩, by decide +kernel⟩,
   ⟨byEngine 35, z.setReg (lockView 255) 0x3301, 255, .inr ⟨35, rfl, by decide, rfl⟩, by decide +kernel⟩,
   ⟨byEngine 35, z.setReg (lockView 255) 0x101, 255, .inr ⟨35, rfl, by decide, rfl⟩, by decide +kernel⟩,
   ⟨mcp, z, 255, .inl (.inl ⟨rfl, rfl⟩), by decide +kernel⟩⟩

theorem witness_TheLogIsReadAndTheSecureMemoryWiped :
    (∃ (w : Who) (s : State) (v : Word) (q : List Word), Admitted w s ∧ s.mbx.ceLog = v :: q) ∧
    (∃ (w : Who) (s : State), Admitted w s ∧ s.mbx.ceLog = []) ∧
    (∃ (w : Who), ByMcp w) ∧
    (∃ (w : Who) (s : State), Admitted w s ∧ isMcp w = false) ∧
    (∃ (s : State), s.bit (memReg 0x20) 1 = true) ∧
    (∃ (s : State), s.bit (memReg 0x20) 1 = false) :=
  ⟨⟨mcp, { z with mbx := { z.mbx with ceLog := [7, 8] } }, 7, [8], .inl ⟨rfl, rfl⟩, by decide +kernel⟩,
   ⟨mcp, z, .inl ⟨rfl, rfl⟩, by decide +kernel⟩,
   ⟨mcp, ⟨rfl, rfl⟩⟩,
   ⟨pcie, z, .inr ⟨rfl, rfl, by decide +kernel⟩, by decide +kernel⟩,
   ⟨(z.setBit (memReg 0x20) 1 true).store secureBase [1, 2], by decide +kernel⟩,
   ⟨z, by decide +kernel⟩⟩

theorem witness_MemoriesAreTestedAndRepaired :
    (∃ (s : State) (i : Nat), s.bit (memReg 0) 0 = true ∧ s.bgtDue 0 = true ∧ i = Tab.get (fun _ => 0) s.mbx.bgtNext 0 ∧ i + 1 < 262144) ∧
    (∃ (s : State) (i : Nat), s.bit (memReg 0) 0 = true ∧ s.bgtDue 0 = true ∧ i = Tab.get (fun _ => 0) s.mbx.bgtNext 0 ∧ 262144 ≤ i + 1) ∧
    (∃ (s : State) (i : Nat), s.bit (memReg 0) 0 = true ∧ s.bgtDue 0 = true ∧ i = Tab.get (fun _ => 0) s.mbx.bgtNext 0 ∧ s.bit (memReg 4) 0 = false ∧
      64 * i < 2 ^ 32) ∧
    (∃ (s : State) (c : Nat), c < 2 ∧ (s.bit (memReg 0) c = false ∨ s.bgtDue c = false)) ∧
    (∃ (w : Who) (s : State) (d : Word), ByMcp w ∧ bitOf d 3 = true ∧ s.bit (memReg 0x10) 31 = false ∧ s.marchAllowed d ((List.range 4).any s.ctxOn)
      s.tagsOn = true) ∧
    (∃ (w : Who) (s : State) (d : Word), ByMcp w ∧ bitOf d 3 = true ∧ (s.bit (memReg 0x10) 31 = true ∨ s.marchAllowed d ((List.range 4).any s.ctxOn)
      s.tagsOn = false)) ∧
    (∃ (s : State), s.bit (memReg 0x10) 31 = true) ∧
    (∃ (s : State) (a : Nat), s.bit (memReg 0x10) 31 = true ∧ a < 2 ^ 40) ∧
    (∃ (s : State), s.bit (memReg 0x10) 31 = false) ∧
    (∃ (w : Who) (s : State) (d : Word) (k : Nat), ByMcp w ∧ bitOf d 30 = true ∧ bitOf d 14 = false ∧ s.bit (memReg 0x40) 31 = false ∧ k = arrayKey
      (s.fld (memReg 0x48) 0 3) (fieldOf d 0 8) ∧ fieldOf d 0 8 < arraysOf (s.fld (memReg 0x48) 0 3) ∧ 0 < s.rowsLeft k) ∧
    (∃ (w : Who) (s : State) (d : Word) (k : Nat), ByMcp w ∧ bitOf d 30 = true ∧ bitOf d 14 = false ∧ s.bit (memReg 0x40) 31 = false ∧ k = arrayKey
      (s.fld (memReg 0x48) 0 3) (fieldOf d 0 8) ∧ s.rowsLeft k = 0) ∧
    (∃ (s : State) (k : Nat), s.bit (memReg 0x40) 31 = true ∧ s.bit (memReg 0x40) 14 = false ∧ k = arrayKey (s.fld (memReg 0x48) 0 3) (s.fld (memReg
      0x40) 0 8)) ∧
    (∃ (s : State), s.bit (memReg 0x40) 31 = false) :=
  ⟨⟨z.setReg (memReg 0) 7, 0, by decide +kernel⟩,
   ⟨{ z.setReg (memReg 0) 7 with mbx := { z.mbx with bgtNext := [(0, 262143)] } }, 262143, by decide +kernel⟩,
   ⟨z.setReg (memReg 0) 7, 0, by decide +kernel⟩,
   ⟨z.setReg (memReg 0) 0, 1, by decide +kernel⟩,
   ⟨mcp, z, 0x18, ⟨rfl, rfl⟩, by decide +kernel⟩,
   ⟨mcp, z.setReg (memReg 0x10) 0x80000000, 0x18, ⟨rfl, rfl⟩, by decide +kernel⟩,
   ⟨z.setReg (memReg 0x10) 0x80000000, by decide +kernel⟩,
   ⟨z.setReg (memReg 0x10) 0x80000000, 2 ^ 40 - 1, by decide +kernel⟩,
   ⟨z, by decide +kernel⟩,
   ⟨mcp, z, 0x40000000, arrayKey 0 0, ⟨rfl, rfl⟩, by decide +kernel⟩,
   ⟨mcp, { z with mbx := { z.mbx with rowsUsed := [(0, 8)] } }, 0x40000000, arrayKey 0 0, ⟨rfl, rfl⟩, by decide +kernel⟩,
   ⟨z.setReg (memReg 0x40) 0x80000000, arrayKey 0 0, by decide +kernel⟩,
   ⟨z, by decide +kernel⟩⟩

theorem witness_SequencerSteps :
    (∃ (s : State) (n : Nat), n < 256 ∧ (s.coreSteps n = false ∨ s.stepNo < (s.chan n).stepAt) ∧ (s.bit (pchReg n 0x1100) 0 = false ∨ (s.chan n).bad =
      0 ∨ (s.chan n).copy ≠ none ∨ s.padsSafe n = true)) ∧
    (∃ (s : State) (n : Nat), n < 256 ∧ s.bit (pchReg n 0x1100) 0 = true ∧ (s.chan n).bad ≠ 0 ∧ (s.chan n).copy = none ∧ s.padsSafe n = false) ∧
    (∃ (s : State) (n k : Nat) (c : Chan) (e : Word), StepsOn s n c e ∧ Operations e 0 0 0 0 0 0 k false) ∧
    (∃ (s : State) (n f : Nat) (c : Chan) (e : Word), StepsOn s n c e ∧ Operations e 0 f 0 0 0 0 0 false ∧ 2 ≤ f) ∧
    (∃ (s : State) (n f : Nat) (c : Chan) (e : Word), StepsOn s n c e ∧ Operations e 0 f 0 0 0 0 0 false ∧ (f = 1 ∨ f = 3)) ∧
    (∃ (s : State) (n h : Nat) (c : Chan) (e : Word) (i : Bool), StepsOn s n c e ∧ Operations e 0 0 h 0 0 0 0 false ∧ i = s.pinIn n (s.fld (pchCfg n
      c.active 0) 9 2)) ∧
    (∃ (s : State) (n o h p x : Nat) (c : Chan) (e : Word), StepsOn s n c e ∧ Operations e o 0 h 0 0 0 0 false ∧ h ≤ 1 ∧ p < 4 ∧ x = fieldOf e (5 + 2
      * p) 2 ∧ c.taqAt ≠ s.cyc + 1) ∧
    (∃ (s : State) (n g k : Nat) (c : Chan) (e : Word), StepsOn s n c e ∧ Operations e 0 0 0 g 0 0 0 false ∧ k = flagKey n (s.fld (pchCfg n c.active
      0x0C) 0 6)) ∧
    (∃ (s : State) (n g k : Nat) (c : Chan) (e : Word), StepsOn s n c e ∧ Operations e 0 0 0 0 g 0 0 false ∧ k = flagKey n (s.fld (pchCfg n c.active
      0x0C) 8 6)) ∧
    (∃ (s : State) (n o a b : Nat) (c d : Chan) (e : Word), StepsOn s n c e ∧ Operations e 0 0 0 0 0 o 0 false ∧ d = c.stepped e s.stepNo ∧ a = (s.reg
      (pchCfg n c.active 0x10)).toNat ∧ b = (s.reg (pchCfg n c.active 0x14)).toNat) ∧
    (∃ (s : State) (n : Nat) (c : Chan) (e : Word), StepsOn s n c e ∧ Operations e 0 0 0 0 0 0 0 true) ∧
    (∃ (s : State) (n : Nat) (c : Chan), c = (s.sense n).chan n ∧ n < 256 ∧ s.coreSteps n = true ∧ c.stepAt ≤ s.stepNo ∧ c.force = false ∧ c.pending =
      false ∧ setReserved (s.inputSet n) = false) :=
  ⟨⟨z, 255, by decide +kernel⟩,
   ⟨stepping.setChan 255 { Chan.reset with oe := 15, bad := 1 }, 255, by decide +kernel⟩,
   ⟨onEntry Chan.reset 0x5000001f, 255, 1, found (onEntry Chan.reset 0x5000001f), 0x5000001f, ⟨by decide, rfl, by decide +kernel, by decide +kernel,
     by decide +kernel, by decide +kernel, by decide +kernel, by decide +kernel⟩, (by unfold Operations; decide +kernel)⟩,
   ⟨onEntry shifting 0x1010001f, 255, 2, found (onEntry shifting 0x1010001f), 0x1010001f, ⟨by decide, rfl, by decide +kernel, by decide +kernel,
     by decide +kernel, by decide +kernel, by decide +kernel, by decide +kernel⟩, (by unfold Operations; decide +kernel), by decide +kernel⟩,
   ⟨onEntry { Chan.reset with tx := [5, 6] } 0x1008001f, 255, 1, found (onEntry { Chan.reset with tx := [5, 6] } 0x1008001f), 0x1008001f, ⟨by decide,
     rfl, by decide +kernel, by decide +kernel, by decide +kernel, by decide +kernel, by decide +kernel, by decide +kernel⟩,
     (by unfold Operations; decide +kernel), by decide +kernel⟩,
   ⟨onEntry shifting 0x1002001f, 255, 1, found (onEntry shifting 0x1002001f), 0x1002001f, (onEntry shifting 0x1002001f).pinIn 255 ((onEntry shifting
     0x1002001f).fld (pchCfg 255 (found (onEntry shifting 0x1002001f)).active 0) 9 2), ⟨by decide, rfl, by decide +kernel, by decide +kernel,
     by decide +kernel, by decide +kernel, by decide +kernel, by decide +kernel⟩, (by unfold Operations; decide +kernel), rfl⟩,
   ⟨onEntry Chan.reset 0x1001f81f, 255, 192, 0, 3, 3, found (onEntry Chan.reset 0x1001f81f), 0x1001f81f, ⟨by decide, rfl, by decide +kernel,
     by decide +kernel, by decide +kernel, by decide +kernel, by decide +kernel, by decide +kernel⟩, (by unfold Operations; decide +kernel),
     by decide +kernel⟩,
   ⟨onEntry Chan.reset 0x1020001f, 255, 1, flagKey 255 0, found (onEntry Chan.reset 0x1020001f), 0x1020001f, ⟨by decide, rfl, by decide +kernel,
     by decide +kernel, by decide +kernel, by decide +kernel, by decide +kernel, by decide +kernel⟩, (by unfold Operations; decide +kernel),
     by decide +kernel⟩,
   ⟨onEntry Chan.reset 0x1080001f, 255, 1, flagKey 255 0, found (onEntry Chan.reset 0x1080001f), 0x1080001f, ⟨by decide, rfl, by decide +kernel,
     by decide +kernel, by decide +kernel, by decide +kernel, by decide +kernel, by decide +kernel⟩, (by unfold Operations; decide +kernel),
     by decide +kernel⟩,
   ⟨onEntry Chan.reset 0x1200001f, 255, 1, 0, 0, found (onEntry Chan.reset 0x1200001f), (found (onEntry Chan.reset 0x1200001f)).stepped 0x1200001f
     (onEntry Chan.reset 0x1200001f).stepNo, 0x1200001f, ⟨by decide, rfl, by decide +kernel, by decide +kernel, by decide +kernel, by decide +kernel,
     by decide +kernel, by decide +kernel⟩, (by unfold Operations; decide +kernel), rfl, by decide +kernel⟩,
   ⟨onEntry Chan.reset 0x3000001f, 255, found (onEntry Chan.reset 0x3000001f), 0x3000001f, ⟨by decide, rfl, by decide +kernel, by decide +kernel,
     by decide +kernel, by decide +kernel, by decide +kernel, by decide +kernel⟩, (by unfold Operations; decide +kernel)⟩,
   ⟨stepping, 255, found stepping, rfl, by decide +kernel⟩⟩

theorem witness_TimedActionsAndCompares :
    (∃ (s : State) (n : Nat), n < 256 ∧ (s.chan n).armed = true ∧ s.pinReached ((s.chan n).cmp / 256) = true) ∧
    (∃ (s : State) (n : Nat), n < 256 ∧ ((s.chan n).armed = false ∨ s.pinReached ((s.chan n).cmp / 256) = false)) ∧
    (∃ (w : Who) (s : State) (n : Nat) (d : Word), Admitted w s ∧ n < 256 ∧ s.holderOf n = none ∧ s.bit (pchReg n 0x1108) 1 = false ∧ fieldOf d 16 4 ≤
      4 ∧ (s.chan n).taq.length < 16) ∧
    (∃ (w : Who) (s : State) (n : Nat) (d : Word), Admitted w s ∧ n < 256 ∧ (s.holderOf n ≠ none ∨ s.bit (pchReg n 0x1108) 1 = true ∨ 4 < fieldOf d 16
      4 ∨ 16 ≤ (s.chan n).taq.length)) ∧
    (∃ (s : State) (n : Nat), n < 256 ∧ (s.chan n).taq = []) ∧
    (∃ (s : State) (n x : Nat) (w : Word) (q : List (Nat × Word)), n < 256 ∧ (s.chan n).taq = (x, w) :: q ∧ s.pinReached x = false) ∧
    (∃ (s : State) (n x : Nat) (w : Word) (q : List (Nat × Word)), n < 256 ∧ (s.chan n).taq = (x, w) :: q ∧ s.pinReached x = true ∧ (s.chan n).taqAt ≤
      s.cyc ∧ (s.chan n).copy = none ∧ s.pinPast x ≤ 8 ∧ fieldOf w 16 4 = 1) ∧
    (∃ (s : State) (n x : Nat) (w : Word) (q : List (Nat × Word)), n < 256 ∧ (s.chan n).taq = (x, w) :: q ∧ s.pinReached x = true ∧ (s.chan n).taqAt ≤
      s.cyc ∧ (s.chan n).copy = none ∧ s.pinPast x ≤ 8 ∧ fieldOf w 16 4 = 0 ∧ (s.chan n).out < 16 ∧ (s.chan n).oe < 16) ∧
    (∃ (s : State) (n x : Nat) (w : Word) (q : List (Nat × Word)), n < 256 ∧ (s.chan n).taq = (x, w) :: q ∧ s.pinReached x = true ∧ (s.chan n).taqAt ≤
      s.cyc ∧ (s.chan n).copy = none ∧ 8 < s.pinPast x ∧ s.bit (pchReg n 0x1100) 1 = true) :=
  ⟨⟨z.setChan 255 { Chan.reset with armed := true }, 255, by decide +kernel⟩,
   ⟨z.setChan 255 { Chan.reset with armed := true, cmp := 256 }, 255, by decide +kernel⟩,
   ⟨mcp, z.setChan 255 { Chan.reset with taq := List.replicate 15 (0, 0), taqLo := [(1, 7)] }, 255, 0x4FFFF, .inl ⟨rfl, rfl⟩, by decide +kernel⟩,
   ⟨pcie, z, 255, 0x50000, .inr ⟨rfl, rfl, by decide +kernel⟩, by decide +kernel⟩,
   ⟨z, 255, by decide +kernel⟩,
   ⟨z.setChan 255 { Chan.reset with taq := [(1, 0)] }, 255, 1, 0, [], by decide +kernel⟩,
   ⟨{ z.setChan 255 { Chan.reset with taq := [(0, 0x10000)] } with time := 16 * nsUnit }, 255, 0, 0x10000, [], by decide +kernel⟩,
   ⟨{ z.setChan 255 { Chan.reset with taq := [(0, 0xFFF00000)] } with time := 16 * nsUnit }, 255, 0, 0xFFF00000, [], by decide +kernel⟩,
   ⟨{ (z.setChan 255 { Chan.reset with taq := [(0, 0xFFF00000)] }).setBit (pchReg 255 0x1100) 1 true with time := 18 * nsUnit }, 255, 0, 0xFFF00000,
     [], by decide +kernel⟩⟩

theorem witness_ChannelFifos :
    (∃ (w : Who) (s : State) (n : Nat), Admitted w s ∧ n < 256 ∧ s.holderOf n = none ∧ (s.chan n).tx.length < 16) ∧
    (∃ (w : Who) (s : State) (n : Nat), Admitted w s ∧ n < 256 ∧ (s.holderOf n ≠ none ∨ 16 ≤ (s.chan n).tx.length)) ∧
    (∃ (w : Who) (s : State) (n : Nat) (v : Word) (q : List Word), Admitted w s ∧ n < 256 ∧ s.holderOf n = none ∧ (s.chan n).rx = v :: q) ∧
    (∃ (w : Who) (s : State) (n : Nat), Admitted w s ∧ n < 256 ∧ (s.holderOf n ≠ none ∨ (s.chan n).rx = [])) :=
  ⟨⟨mcp, z.setChan 255 { Chan.reset with tx := List.replicate 15 0 }, 255, .inl ⟨rfl, rfl⟩, by decide +kernel⟩,
   ⟨pcie, z.setChan 255 { Chan.reset with tx := List.replicate 16 0 }, 255, .inr ⟨rfl, rfl, by decide +kernel⟩, by decide +kernel⟩,
   ⟨mcp, z.setChan 255 { Chan.reset with rx := [7] }, 255, 7, [], .inl ⟨rfl, rfl⟩, by decide +kernel⟩,
   ⟨pcie, z, 255, .inr ⟨rfl, rfl, by decide +kernel⟩, by decide +kernel⟩⟩

theorem witness_BankSwaps :
    (∃ (w : Who) (s : State) (n x : Nat), Admitted w s ∧ n < 256 ∧ s.holderOf n = none ∧ (s.chan n).pending = false ∧ x < 2 ^ 16) ∧
    (∃ (w : Who) (s : State) (n x : Nat), Admitted w s ∧ n < 256 ∧ s.holderOf n = none ∧ x < 2 ^ 16) ∧
    (∃ (w : Who) (s : State) (n : Nat), Admitted w s ∧ n < 256 ∧ s.holderOf n ≠ none) ∧
    (∃ (s : State) (n : Nat), n < 256 ∧ s.stepBegins n = true ∧ (s.chan n).pending = true ∧ (s.chan n).force = false ∧ (s.chan n).state = 0 ∧ (s.chan
      n).count = 0) ∧
    (∃ (s : State) (n : Nat), n < 256 ∧ (s.stepBegins n = false ∨ (s.chan n).pending = false ∨ (s.chan n).force = true ∨ (s.chan n).state ≠ 0 ∨
      (s.chan n).count ≠ 0)) ∧
    (∃ (s : State) (n x : Nat), n < 256 ∧ (s.chan n).swapAt = some x ∧ (s.chan n).pending = true ∧ (s.chan n).force = false ∧ x ≤ s.cyc) ∧
    (∃ (s : State) (n : Nat), n < 256 ∧ (s.chan n).swapAt = none) ∧
    (∃ (s : State) (n : Nat), n < 256 ∧ s.stepBegins n = true ∧ (s.chan n).force = true) ∧
    (∃ (s : State) (n : Nat), n < 256 ∧ (s.stepBegins n = false ∨ (s.chan n).force = false)) :=
  ⟨⟨mcp, z, 255, 65535, .inl ⟨rfl, rfl⟩, by decide +kernel⟩,
   ⟨mcp, z, 255, 65535, .inl ⟨rfl, rfl⟩, by decide +kernel⟩,
   ⟨pcie, held 255, 255, .inr ⟨rfl, rfl, by decide +kernel⟩, by decide +kernel⟩,
   ⟨stepping.setChan 255 { Chan.reset with oe := 15, pending := true, swapAt := some 9 }, 255, by decide +kernel⟩,
   ⟨z, 255, by decide +kernel⟩,
   ⟨z.setChan 255 { Chan.reset with pending := true, swapAt := some 0 }, 255, 0, by decide +kernel⟩,
   ⟨z, 255, by decide +kernel⟩,
   ⟨stepping.setChan 255 { Chan.reset with pending := true, force := true, tx := [5], rx := [6], viewRx := 1, viewLeft := 1, sr := 7, count := 31 },
     255, by decide +kernel⟩,
   ⟨z, 255, by decide +kernel⟩⟩

theorem witness_SharedFlagsAreWritten :
    (∃ (w : Who) (s : State) (n : Nat), Admitted w s ∧ n < 256 ∧ s.holderOf n = none) ∧
    (∃ (f : SharedFlag) (i : Nat) (b : Bool), f.later = [(i, b)]) ∧
    (∃ (f : SharedFlag) (i j : Nat) (c : Bool), f.later = [(j, c)] ∧ i < j) ∧
    (∃ (f : SharedFlag), f.set = false ∧ f.pulse = false ∧ f.clear = false) :=
  ⟨⟨mcp, z, 255, .inl ⟨rfl, rfl⟩, by decide +kernel⟩,
   ⟨{ SharedFlag.reset with later := [(5, true)] }, 5, true, by decide +kernel⟩,
   ⟨{ SharedFlag.reset with later := [(7, false)] }, 5, 7, false, by decide +kernel⟩,
   ⟨{ SharedFlag.reset with regSet := true }, by decide +kernel⟩⟩

theorem witness_MultiplexingAndSpareCores :
    (∃ (w : Who) (s : State) (n : Nat) (d : Word), ByMcp w ∧ n < 256 ∧ fieldOf d 8 4 = s.muxCore n ∧ s.muxCore n ≤ 8 ∧ bitOf d 0 = true ∧ s.canAB n =
      false ∧ (∀ i, i < 8 → 8 * (n / 8) + i ≠ n → s.canAB (8 * (n / 8) + i) = false)) ∧
    (∃ (w : Who) (s : State) (n i : Nat) (d : Word), ByMcp w ∧ n < 256 ∧ i < 8 ∧ 8 * (n / 8) + i ≠ n ∧ s.canAB (8 * (n / 8) + i) = true ∧ bitOf d 0 =
      true) ∧
    (∃ (w : Who) (s : State) (n : Nat) (d : Word), ByMcp w ∧ n < 256 ∧ fieldOf d 8 4 = s.muxCore n ∧ s.muxCore n ≤ 8 ∧ bitOf d 0 = false) ∧
    (∃ (w : Who) (s : State) (n i : Nat) (d : Word), ByMcp w ∧ n < 256 ∧ i < 8 ∧ fieldOf d 8 4 = i + 1 ∧ s.muxCore n ≠ i + 1 ∧ bitOf d 0 = false ∧
      (s.chan n).copy ≠ some (i + 1) ∧ s.spareCoreUsed i = false) ∧
    (∃ (w : Who) (s : State) (n i : Nat) (d : Word), ByMcp w ∧ n < 256 ∧ i < 8 ∧ fieldOf d 8 4 = i + 1 ∧ s.muxCore n ≠ i + 1 ∧ bitOf d 0 = false ∧
      (s.chan n).copy ≠ some (i + 1) ∧ s.spareCoreUsed i = true) ∧
    (∃ (w : Who) (s : State) (n : Nat) (d : Word), ByMcp w ∧ n < 256 ∧ fieldOf d 8 4 = 0 ∧ s.muxCore n ≠ 0 ∧ bitOf d 0 = false ∧ (s.chan n).copy ≠
      some 0) ∧
    (∃ (w : Who) (s : State) (n : Nat), Admitted w s ∧ isMcp w = false ∧ n < 256) ∧
    (∃ (s : State) (n x : Nat), n < 256 ∧ (s.chan n).copy = some x ∧ (s.chan n).bad = 0 ∧ ((s.chan n).copyForced = true ∨ ((s.chan n).state = 0 ∧
      (s.chan n).count = 0))) ∧
    (∃ (s : State) (n x : Nat), n < 256 ∧ (s.chan n).copy = some x ∧ x ≠ 0 ∧ x < 16 ∧ (s.chan n).bad ≠ 0) ∧
    (∃ (s : State) (n : Nat), n < 256 ∧ (s.chan n).copy = some 0 ∧ (s.chan n).bad ≠ 0) ∧
    (∃ (s : State) (n : Nat), n < 256 ∧ s.copyReady n = false) ∧
    (∃ (s : State) (n x : Nat), n < 256 ∧ (s.chan n).copy = some x ∧ (s.chan n).bad = 0 ∧ (s.chan n).copyForced = false ∧ ((s.chan n).state ≠ 0 ∨
      (s.chan n).count ≠ 0) ∧ (s.chan n).copyAt + 5000000 ≤ s.cyc) ∧
    (∃ (s : State) (n : Nat), n < 256 ∧ ((s.chan n).copy = none ∨ s.cyc < (s.chan n).copyAt + 5000000)) :=
  ⟨⟨mcp, z, 255, 1, ⟨rfl, rfl⟩, by decide +kernel⟩,
   ⟨mcp, z.setReg (pchReg 248 0x1108) 1, 255, 0, 1, ⟨rfl, rfl⟩, by decide +kernel⟩,
   ⟨mcp, z.setReg (pchReg 255 0x1108) 0x801, 255, 0x802, ⟨rfl, rfl⟩, by decide +kernel⟩,
   ⟨mcp, z, 255, 7, 0x800, ⟨rfl, rfl⟩, by decide +kernel⟩,
   ⟨mcp, z.setReg (pchReg 0 0x1108) 0x800, 255, 7, 0x800, ⟨rfl, rfl⟩, by decide +kernel⟩,
   ⟨mcp, z.setReg (pchReg 255 0x1108) 0x800, 255, 0, ⟨rfl, rfl⟩, by decide +kernel⟩,
   ⟨pcie, z, 255, .inr ⟨rfl, rfl, by decide +kernel⟩, by decide +kernel⟩,
   ⟨z.setChan 255 { Chan.reset with copy := some 8, isel := true }, 255, 8, by decide +kernel⟩,
   ⟨z.setChan 255 { Chan.reset with copy := some 8, bad := 1 }, 255, 8, by decide +kernel⟩,
   ⟨z.setChan 255 { Chan.reset with copy := some 0, bad := 1 }, 255, by decide +kernel⟩,
   ⟨z, 255, by decide +kernel⟩,
   ⟨{ z.setChan 255 { Chan.reset with copy := some 8, state := 1 } with cyc := 5000000 }, 255, 8, by decide +kernel⟩,
   ⟨{ z.setChan 255 { Chan.reset with copy := some 8, state := 1 } with cyc := 4999999 }, 255, by decide +kernel⟩⟩

theorem witness_DiagnosticsOfTheLegs :
    (∃ (s : State) (n p : Nat), n < 256 ∧ p < 4 ∧ s.bit (pchReg n 0x1200) p = true ∧ (s.chan n).oe.testBit p = true ∧ s.bit (pchReg n 0x1210) p =
      false ∧ s.bit (pchReg n 0x1210) (4 + p) = false ∧ s.fld (pchReg n 0x1200) 20 2 = 1 ∧ Tab.get (fun _ => 0) (s.chan n).outAt p + 500 ≤ s.cyc) ∧
    (∃ (s : State) (n p : Nat), n < 256 ∧ p < 4 ∧ (s.bit (pchReg n 0x1200) p = false ∨ (s.chan n).oe.testBit p = false ∨ s.cyc < Tab.get (fun _ => 0)
      (s.chan n).outAt p + 500)) ∧
    (∃ (s : State) (n p : Nat), n < 256 ∧ p < 4 ∧ s.owDue n p = true ∧ s.bit (pchReg n 0x1210) (8 + p) = false ∧ s.fld (pchReg n 0x1204) 16 4 ≤
      s.openRun n p + 1 ∧ s.fld (pchReg n 0x1200) 22 2 = 1) ∧
    (∃ (s : State) (n p : Nat), n < 256 ∧ p < 4 ∧ s.owDue n p = true ∧ s.bit (pchReg n 0x1210) (8 + p) = false ∧ s.openRun n p + 1 < s.fld (pchReg n
      0x1204) 16 4) ∧
    (∃ (s : State) (n p : Nat), n < 256 ∧ p < 4 ∧ s.owDue n p = true ∧ s.bit (pchReg n 0x1210) (8 + p) = false) ∧
    (∃ (s : State) (n p : Nat), n < 256 ∧ p < 4 ∧ s.owDue n p = true ∧ s.bit (pchReg n 0x1210) (8 + p) = true ∧ s.fld (pchReg n 0x1204) 16 4 ≤
      s.openRun n p + 1) ∧
    (∃ (s : State) (n p : Nat), n < 256 ∧ p < 4 ∧ s.owDue n p = false) ∧
    (∃ (s : State) (n : Nat), n < 256 ∧ s.reversed n = true ∧ s.bit (pchReg n 0x1210) 16 = false ∧ s.bit (pchReg n 0x1200) 12 = false ∧ s.fld (pchReg
      n 0x1200) 24 2 = 1) ∧
    (∃ (s : State) (n : Nat), n < 256 ∧ s.reversed n = true ∧ s.bit (pchReg n 0x1210) 16 = false ∧ s.bit (pchReg n 0x1200) 12 = true ∧ (s.chan
      n).corrected = false ∧ s.fld (pchReg n 0x1200) 24 2 = 1) ∧
    (∃ (s : State) (n : Nat), n < 256 ∧ (s.bit (pchReg n 0x1200) 10 = false ∨ (∃ b, (s.chan n).shown.testBit (shownKey (s.revPin n) b) = false) ∨
      s.cyc < s.shownLast n (s.revPin n) (s.revIdle n) + 3 * (s.fld (pchReg n 0x1208) 0 16 * 50000))) ∧
    (∃ (s : State) (n : Nat), n < 256 ∧ s.bit (pchReg n 0x1200) 18 = true ∧ s.bit (pchReg n 0x1210) 17 = false ∧ (s.chan n).xfOffAt + 500 ≤ s.cyc ∧
      s.fld (pchReg n 0x1200) 26 2 = 2) ∧
    (∃ (s : State) (n : Nat), n < 256 ∧ (s.bit (pchReg n 0x1200) 18 = false ∨ s.cyc < (s.chan n).xfOffAt + 500)) ∧
    (∃ (w : Who) (s : State) (n p r : Nat), ByMcp w ∧ n < 256 ∧ p < 4 ∧ s.holderOf n = none ∧ r < 3 ∧ s.fld (legReg n p) 8 2 ≠ 3 ∧ s.fld (legReg n p)
      8 2 ≠ r ∧ s.bit (legReg n p) 13 = false) ∧
    (∃ (w : Who) (s : State) (n p : Nat) (d : Word), Admitted w s ∧ n < 256 ∧ p < 4 ∧ bitOf d 12 = true ∧ (isMcp w = false ∨ s.fld (legReg n p) 8 2 =
      3 ∨ s.bit (legReg n p) 13 = true ∨ fieldOf d 10 2 = 3 ∨ fieldOf d 10 2 = s.fld (legReg n p) 8 2)) ∧
    (∃ (s : State) (n p : Nat), n < 256 ∧ p < 4 ∧ s.bit (legReg n p) 13 = true) ∧
    (∃ (s : State) (n p : Nat), n < 256 ∧ p < 4 ∧ s.bit (legReg n p) 13 = false) :=
  ⟨⟨{ (z.setChan 255 { Chan.reset with oe := 8, out := 8 }).setReg (pchReg 255 0x1200) 0x10000F with cyc := 500 }, 255, 3, by decide +kernel⟩,
   ⟨z.setReg (pchReg 255 0x1200) 0, 255, 3, by decide +kernel⟩,
   ⟨(z.setReg (pchReg 255 0x1200) 0x4000F0).setReg (pchReg 255 0x1204) 0x10000, 255, 3, by decide +kernel⟩,
   ⟨(z.setReg (pchReg 255 0x1200) 0x4000F0).setReg (pchReg 255 0x1204) 0x20000, 255, 3, by decide +kernel⟩,
   ⟨(z.setReg (pchReg 255 0x1200) 0x4000F0).setReg (pchReg 255 0x1204) 0x20000, 255, 3, by decide +kernel⟩,
   ⟨((z.setReg (pchReg 255 0x1200) 0x4000F0).setReg (pchReg 255 0x1204) 0x10000).setReg (pchReg 255 0x1210) 0x800, 255, 3, by decide +kernel⟩,
   ⟨z, 255, 3, by decide +kernel⟩,
   ⟨reversing 0x1000400 0x1, 255, by decide +kernel⟩,
   ⟨reversing 0x1001400 0xF0001, 255, by decide +kernel⟩,
   ⟨z.setReg (pchReg 255 0x1200) 0, 255, by decide +kernel⟩,
   ⟨{ z.setReg (pchReg 255 0x1200) 0x8040000 with cyc := 500 }, 255, by decide +kernel⟩,
   ⟨z.setReg (pchReg 255 0x1200) 0, 255, by decide +kernel⟩,
   ⟨mcp, z, 255, 3, 1, ⟨rfl, rfl⟩, by decide +kernel⟩,
   ⟨pcie, z, 255, 3, 0x1000, .inr ⟨rfl, rfl, by decide +kernel⟩, by decide +kernel⟩,
   ⟨z.setBit (legReg 255 3) 13 true, 255, 3, by decide +kernel⟩,
   ⟨z, 255, 3, by decide +kernel⟩⟩

theorem witness_CanModes :
    (∃ (w : Who) (s : State) (k m : Nat), Admitted w s ∧ k < 32 ∧ s.holderOf (256 + k) = none ∧ (s.canc k).mode = 0 ∧ 0 < m ∧ m < 4 ∧ (s.canc k).pend
      = none ∧ (s.canc k).sync = false ∧ s.canTimingOk k = true) ∧
    (∃ (w : Who) (s : State) (k m : Nat), Admitted w s ∧ k < 32 ∧ s.holderOf (256 + k) = none ∧ (s.canc k).mode = 0 ∧ 0 < m ∧ m < 4 ∧ (s.canc k).pend
      = none ∧ (s.canc k).sync = false ∧ s.canTimingOk k = false) ∧
    (∃ (w : Who) (s : State) (k m : Nat), Admitted w s ∧ k < 32 ∧ s.holderOf (256 + k) = none ∧ m < 4 ∧ m ≠ (s.canc k).mode ∧ (s.canc k).sync = true ∧
      (s.canc k).attempt = true) ∧
    (∃ (w : Who) (s : State) (k : Nat), Admitted w s ∧ k < 32 ∧ s.holderOf (256 + k) ≠ none) ∧
    (∃ (s : State) (k m : Nat), k < 32 ∧ (s.canc k).pend = some m ∧ (s.canc k).attempt = false ∧ (s.canc k).mode ≠ 0 ∧ m ≠ (s.canc k).mode) ∧
    (∃ (s : State) (k : Nat), k < 32 ∧ ((s.canc k).pend = none ∨ (s.canc k).attempt = true)) ∧
    (∃ (s : State) (k : Nat), k < 32 ∧ (s.canc k).mode ≠ 0 ∧ (s.canc k).sync = false ∧ (s.canc k).busOff = false) ∧
    (∃ (s : State) (k : Nat), k < 32 ∧ ((s.canc k).mode = 0 ∨ (s.canc k).sync = true ∨ (s.canc k).busOff = true)) :=
  ⟨⟨mcp, canTimed, 31, 3, .inl ⟨rfl, rfl⟩, by decide +kernel⟩,
   ⟨mcp, z.setReg (canReg 31 4) 0, 31, 3, .inl ⟨rfl, rfl⟩, by decide +kernel⟩,
   ⟨mcp, z.setCanc 31 { cz with mode := 1, sync := true, attempt := true }, 31, 0, .inl ⟨rfl, rfl⟩, by decide +kernel⟩,
   ⟨pcie, held 287, 31, .inr ⟨rfl, rfl, by decide +kernel⟩, by decide +kernel⟩,
   ⟨z.setCanc 31 { cz with mode := 1, sync := true, pend := some 0 }, 31, 0, by decide +kernel⟩,
   ⟨z, 31, by decide +kernel⟩,
   ⟨z.setCanc 31 { cz with mode := 3 }, 31, by decide +kernel⟩,
   ⟨z, 31, by decide +kernel⟩⟩

theorem witness_CanBusOffRecovery :
    (∃ (w : Who) (s : State) (k m : Nat), Admitted w s ∧ k < 32 ∧ s.holderOf (256 + k) = none ∧ (s.canc k).busOff = true ∧ m = (s.canc k).mode ∧ m < 4
      ∧ s.fld (canReg k 0) 2 2 = 0) ∧
    (∃ (s : State) (k : Nat), k < 32 ∧ (s.canc k).busOff = true ∧ (s.canc k).mode ≠ 0 ∧ s.canCounts k = true ∧ s.canOnBus k = true ∧ ((s.canc k).boGo
      = true ∨ s.bit (canReg k 0) 5 = true)) ∧
    (∃ (s : State) (k : Nat), k < 32 ∧ (s.canOnBus k = false ∨ (s.canc k).busOff = false ∨ ((s.canc k).boGo = false ∧ s.bit (canReg k 0) 5 = false))) :=
  ⟨⟨mcp, z.setCanc 31 { cz with mode := 3, busOff := true }, 31, 3, .inl ⟨rfl, rfl⟩, by decide +kernel⟩,
   ⟨(onBus { cz with busOff := true, boGo := true }), 31, by decide +kernel⟩,
   ⟨z, 31, by decide +kernel⟩⟩

theorem witness_CanRequests :
    (∃ (w : Who) (s : State) (k j : Nat), Admitted w s ∧ k < 32 ∧ j < 32 ∧ s.holderOf (256 + k) = none ∧ s.slotState k j ≠ 1 ∧ s.slotState k j ≠ 2 ∧
      (s.bit (slotAddr k j + 4) 4 = false ∨ (s.bit (canReg k 0) 2 = true ∧ s.bit (slotAddr k j) 30 = false))) ∧
    (∃ (w : Who) (s : State) (k j : Nat), Admitted w s ∧ k < 32 ∧ j < 32 ∧ s.holderOf (256 + k) = none ∧ (s.slotState k j = 1 ∨ s.slotState k j = 2 ∨
      (s.bit (slotAddr k j + 4) 4 = true ∧ (s.bit (canReg k 0) 2 = false ∨ s.bit (slotAddr k j) 30 = true)))) ∧
    (∃ (w : Who) (s : State) (k j : Nat), Admitted w s ∧ k < 32 ∧ j < 32 ∧ s.holderOf (256 + k) = none ∧ s.slotState k j = 1) ∧
    (∃ (w : Who) (s : State) (k j : Nat), Admitted w s ∧ k < 32 ∧ j < 32 ∧ s.holderOf (256 + k) = none ∧ s.slotState k j = 2) ∧
    (∃ (w : Who) (s : State) (k j : Nat), Admitted w s ∧ k < 32 ∧ j < 32 ∧ s.holderOf (256 + k) = none ∧ s.slotState k j ≠ 1 ∧ s.slotState k j ≠ 2) ∧
    (∃ (w : Who) (s : State) (k : Nat), Admitted w s ∧ k < 32 ∧ s.holderOf (256 + k) = none) ∧
    (∃ (w : Who) (s : State) (k : Nat), Admitted w s ∧ k < 32 ∧ s.holderOf (256 + k) = none) ∧
    (∃ (w : Who) (s : State) (k : Nat), Admitted w s ∧ k < 32 ∧ s.holderOf (256 + k) ≠ none) ∧
    (∃ (s : State), s.pec.canDue = false) ∧
    (∃ (s : State), s.pec.canDue = true) :=
  ⟨⟨mcp, z, 31, 31, .inl ⟨rfl, rfl⟩, by decide +kernel⟩,
   ⟨mcp, z.setReg (txStat 31 31) 2, 31, 31, .inl ⟨rfl, rfl⟩, by decide +kernel⟩,
   ⟨mcp, (z.setReg (txStat 31 31) 1).setCanc 31 (queued false), 31, 31, .inl ⟨rfl, rfl⟩, by decide +kernel⟩,
   ⟨mcp, (z.setReg (txStat 31 31) 2).setCanc 31 { queued true with attempt := true }, 31, 31, .inl ⟨rfl, rfl⟩, by decide +kernel⟩,
   ⟨mcp, z.setReg (txStat 31 31) 3, 31, 31, .inl ⟨rfl, rfl⟩, by decide +kernel⟩,
   ⟨mcp, z, 31, .inl ⟨rfl, rfl⟩, by decide +kernel⟩,
   ⟨mcp, z, 31, .inl ⟨rfl, rfl⟩, by decide +kernel⟩,
   ⟨pcie, held 287, 31, .inr ⟨rfl, rfl, by decide +kernel⟩, by decide +kernel⟩,
   ⟨z, by decide +kernel⟩,
   ⟨{ onBus { cz with rxf := [List.replicate 32 5] } with pec := { z.pec with canDue := true } }, by decide +kernel⟩⟩

theorem witness_CanAttempts :
    (∃ (s : State) (k : Nat) (e : CanEntry) (q : List CanEntry), k < 32 ∧ s.canMayStart k = true ∧ (s.canc k).queue = e :: q ∧ e.tried = false) ∧
    (∃ (s : State) (k : Nat) (e : CanEntry) (q : List CanEntry), k < 32 ∧ s.canMayStart k = true ∧ (s.canc k).queue = e :: q ∧ e.tried = true ∧ e.slot
      < 32 ∧ (s.reg (canReg k 0x1C)).toNat < 0xFFFFFFFE) ∧
    (∃ (s : State) (k : Nat), k < 32 ∧ s.canMayStart k = false) ∧
    (∃ (s : State) (k : Nat) (e : CanEntry) (q : List CanEntry), k < 32 ∧ (s.canc k).attempt = true ∧ (s.canc k).queue = e :: q ∧ e.slot < 32 ∧
      (s.canc k).mode = 1 ∧ s.canOnBus k = true ∧ s.bit (canReg k 0) 8 = false) ∧
    (∃ (s : State) (k : Nat) (e : CanEntry) (q : List CanEntry), k < 32 ∧ (s.canc k).attempt = true ∧ (s.canc k).queue = e :: q ∧ (s.canc k).cancelled
      = false ∧ s.canOnBus k = true) ∧
    (∃ (s : State) (k more : Nat) (e : CanEntry) (q : List CanEntry), k < 32 ∧ (s.canc k).attempt = true ∧ (s.canc k).queue = e :: q ∧ e.slot < 32 ∧
      (s.canc k).mode = 1 ∧ s.canOnBus k = true ∧ s.bit (canReg k 0) 8 = false ∧ (s.canc k).busOff = false ∧ (s.canc k).tec - 1 + 8 * more ≤ 255) ∧
    (∃ (s : State) (k more : Nat) (e : CanEntry) (q : List CanEntry), k < 32 ∧ (s.canc k).attempt = true ∧ (s.canc k).queue = e :: q ∧ (s.canc
      k).cancelled = false ∧ (s.canc k).busOff = false ∧ s.canOnBus k = true ∧ (s.canc k).tec + 8 * (more + 1) ≤ 255 ∧ s.bit (canReg k 0) 8 = false ∧
      e.slot < 32) ∧
    (∃ (s : State) (k : Nat) (e : CanEntry) (q : List CanEntry), k < 32 ∧ (s.canc k).attempt = true ∧ (s.canc k).queue = e :: q ∧ (s.canc k).cancelled
      = false ∧ s.canOnBus k = false ∧ s.bit (canReg k 0) 8 = false ∧ e.slot < 32) ∧
    (∃ (s : State) (k more : Nat) (e : CanEntry) (q : List CanEntry), k < 32 ∧ (s.canc k).attempt = true ∧ (s.canc k).queue = e :: q ∧ (s.canc
      k).cancelled = false ∧ s.canOnBus k = true ∧ (s.canc k).busOff = false ∧ 255 < (s.canc k).tec + 8 * (more + 1) ∧ s.bit (canReg k 0) 8 = false ∧
      e.slot < 32) ∧
    (∃ (s : State) (k : Nat), k < 32 ∧ ((s.canc k).attempt = false ∨ (s.canc k).queue = [])) :=
  ⟨⟨onBus (queued false), 31, ⟨31, true, false⟩, [⟨0, true, false⟩], by decide +kernel⟩,
   ⟨onBus (queued true), 31, ⟨31, true, true⟩, [⟨0, true, false⟩], by decide +kernel⟩,
   ⟨z, 31, by decide +kernel⟩,
   ⟨onBus { queued true with attempt := true }, 31, ⟨31, true, true⟩, [⟨0, true, false⟩], by decide +kernel⟩,
   ⟨onBus { queued true with attempt := true }, 31, ⟨31, true, true⟩, [⟨0, true, false⟩], by decide +kernel⟩,
   ⟨onBus { queued true with attempt := true, tec := 248 }, 31, 1, ⟨31, true, true⟩, [⟨0, true, false⟩], by decide +kernel⟩,
   ⟨onBus { queued true with attempt := true, tec := 247 }, 31, 0, ⟨31, true, true⟩, [⟨0, true, false⟩], by decide +kernel⟩,
   ⟨z.setCanc 31 { queued true with attempt := true }, 31, ⟨31, true, true⟩, [⟨0, true, false⟩], by decide +kernel⟩,
   ⟨onBus { queued true with attempt := true, tec := 240 }, 31, 1, ⟨31, true, true⟩, [⟨0, true, false⟩], by decide +kernel⟩,
   ⟨z, 31, by decide +kernel⟩⟩

theorem witness_CanReception :
    (∃ (s : State) (k lag b f : Nat) (x : CanFrame), k < 32 ∧ s.canReceives k = true ∧ bitOf x.ctlWord 4 = false ∧ s.canCounts k = true ∧ s.canFate k
      (s.cyc - lag) (recordId x) = (2, b, f) ∧ (s.canc k).rxf.length < 64 ∧ (s.canc k).rec' ≤ 127) ∧
    (∃ (s : State) (k lag b f : Nat) (x : CanFrame), k < 32 ∧ s.canReceives k = true ∧ bitOf x.ctlWord 4 = false ∧ s.canCounts k = true ∧ s.canFate k
      (s.cyc - lag) (recordId x) = (3, b, f) ∧ (s.canc k).rec' ≤ 127) ∧
    (∃ (s : State) (k : Nat), k < 32 ∧ s.canReceives k = false) ∧
    (∃ (s : State) (k : Nat), k < 32 ∧ s.canReceives k = true ∧ s.canCounts k = true ∧ (s.canc k).rec' < 255) ∧
    (∃ (s : State) (k : Nat), k < 32 ∧ s.canReceives k = true ∧ s.bit (canReg k 0) 4 = true) ∧
    (∃ (s : State) (k : Nat), k < 32 ∧ s.canReceives k = false) :=
  ⟨⟨(onBus cz).setReg (canReg 31 0x408) 2, 31, 7, 0, 0, ⟨0, 8, [1, 2, 3, 4, 5, 6, 7, 8]⟩, by decide +kernel⟩,
   ⟨onBus cz, 31, 7, 0, 0x7F, ⟨0, 8, []⟩, by decide +kernel⟩,
   ⟨z, 31, by decide +kernel⟩,
   ⟨onBus cz, 31, by decide +kernel⟩,
   ⟨(onBus cz).setBit (canReg 31 0) 4 true, 31, by decide +kernel⟩,
   ⟨z, 31, by decide +kernel⟩⟩

theorem witness_LinksAndTheirLanes :
    (∃ (s : State) (p : Nat) (x : LinkFacts), p < 40 ∧ s.linkUp p = false ∧ s.pcsMode p = 1 ∧ s.otfPort p = false ∧ x.speed = .g10 ∧ x.localFault =
      false ∧ x.remoteFault = false) ∧
    (∃ (s : State) (p : Nat) (x : LinkFacts), p < 40 ∧ s.linkUp p = false ∧ s.pcsMode p = 1 ∧ (x.localFault = true ∨ x.remoteFault = true)) ∧
    (∃ (s : State) (p : Nat) (x : LinkFacts), p < 40 ∧ s.linkUp p = false ∧ s.pcsMode p = 2 ∧ s.otfPort p = false ∧ x.speed = .g1 ∧ s.bit (portReg p
      0x10) 3 = false ∧ s.bit (portReg p 0) 3 = true ∧ Tab.get (fun _ => 0) s.sw.anUntil p ≤ s.cyc ∧ x.negotiated = true ∧ x.halfDuplex = false) ∧
    (∃ (s : State) (p : Nat) (x : LinkFacts), p < 40 ∧ s.linkUp p = false ∧ s.pcsMode p = 2 ∧ s.otfPort p = false ∧ x.speed = .g1 ∧ s.bit (portReg p
      0x10) 3 = false ∧ s.bit (portReg p 0) 3 = true ∧ Tab.get (fun _ => 0) s.sw.anUntil p ≤ s.cyc ∧ x.negotiated = true ∧ x.halfDuplex = true) ∧
    (∃ (s : State) (p : Nat) (x : LinkFacts), p < 40 ∧ s.linkUp p = false ∧ s.pcsMode p = 2 ∧ s.bit (portReg p 0x10) 3 = false ∧ s.bit (portReg p 0) 3
      = true ∧ (x.negotiated = false ∨ s.cyc < Tab.get (fun _ => 0) s.sw.anUntil p)) ∧
    (∃ (s : State) (p : Nat), p < 40 ∧ (s.linkUp p = true ∨ s.pcsMode p = 0)) ∧
    (∃ (s : State) (p : Nat) (x : LostLink), p < 40 ∧ p = x.port ∧ s.linkUp p = true ∧ s.tx p = none ∧ s.rx p = none) ∧
    (∃ (s : State) (p : Nat) (x : LostLink) (y : Tx) (m : List Byte), p < 40 ∧ p = x.port ∧ s.linkUp p = true ∧ s.tx p = some y ∧ m = ((s.frame
      y.copy.frame).map (fun f => s.outBytes y.copy f.bytes y.edits)).getD []) ∧
    (∃ (s : State) (x : LostLink), x.port < 40 ∧ s.linkUp x.port = false ∧ x.syncLost = false ∧ s.pcsMode x.port ≠ 1) ∧
    (∃ (s : State) (x : LostLink), x.port < 40 ∧ s.linkUp x.port = false ∧ x.syncLost = true ∧ s.pcsMode x.port ≠ 1 ∧ Tab.get (fun _ => false)
      s.sw.synced x.port = true) ∧
    (∃ (w : Who) (s : State) (p m : Nat) (d : Word), Admitted w s ∧ p < 40 ∧ s.portHolder p = none ∧ s.linkUp p = false ∧ fieldOf d 0 3 = m ∧ m ≤ 3 ∧
      (m = 1 → p < 8) ∧ (m = 3 → 8 ≤ p) ∧ fieldOf d 4 2 ≠ 3 ∧ bitOf d 7 = false ∧ bitOf d 6 = false) ∧
    (∃ (w : Who) (s : State) (p : Nat) (d : Word), Admitted w s ∧ p < 40 ∧ s.portHolder p = none ∧ s.linkUp p = false ∧ fieldOf d 0 3 = 2 ∧ fieldOf d
      4 2 ≠ 3 ∧ bitOf d 7 = false ∧ bitOf d 6 = true ∧ bitOf d 3 = true) ∧
    (∃ (w : Who) (s : State) (p : Nat) (d : Word), Admitted w s ∧ p < 40 ∧ s.portHolder p = none ∧ (3 < fieldOf d 0 3 ∨ (fieldOf d 0 3 = 1 ∧ 8 ≤ p) ∨
      (fieldOf d 0 3 = 3 ∧ p < 8))) ∧
    (∃ (s : State) (p : Nat), p < 40 ∧ s.linkUp p = false ∧ s.bit (portReg p 0x10) 2 = true ∧ 2 ≤ s.pcsMode p) ∧
    (∃ (s : State) (p : Nat), p < 40 ∧ (s.bit (portReg p 0x10) 2 = false ∨ s.pcsMode p < 2)) ∧
    (∃ (s : State) (p : Nat), p < 40 ∧ Tab.get (fun _ => false) s.sw.synced p = false ∧ s.bit (portReg p 0x10) 3 = true ∧ 2 ≤ s.pcsMode p ∧ Tab.get
      (fun _ => 0) s.sw.swapAt p + 100 * cycMs ≤ s.cyc) ∧
    (∃ (s : State) (p : Nat), p < 40 ∧ (Tab.get (fun _ => false) s.sw.synced p = true ∨ s.pcsMode p < 2 ∨ s.bit (portReg p 0x10) 3 = false ∨ s.cyc <
      Tab.get (fun _ => 0) s.sw.swapAt p + 100 * cycMs)) ∧
    (∃ (w : Who) (s : State) (p : Nat), Admitted w s ∧ p < 40 ∧ s.portHolder p = none) ∧
    (∃ (s : State) (x : SdrefFinding), (s.tb.sdB = false → x.aBad = false ∨ x.bGood = false) ∧ (s.tb.sdB = true → x.aBad = true ∨ s.cyc < (if
      s.tb.sdABad then s.cyc else s.tb.sdAGoodAt) + 10000 * cycMs)) ∧
    (∃ (s : State) (x : SdrefFinding), (s.tb.sdB = false ∧ x.aBad = true ∧ x.bGood = true) ∨ (s.tb.sdB = true ∧ x.aBad = false ∧ s.tb.sdABad = false ∧
      s.tb.sdAGoodAt + 10000 * cycMs ≤ s.cyc)) :=
  ⟨⟨(z.setReg (portReg 7 0) 1).setReg (portReg 7 0x10) 0, 7, linked .g10 true, by decide +kernel⟩,
   ⟨(z.setReg (portReg 7 0) 1).setReg (portReg 7 0x10) 0, 7, ⟨.g10, 3, false, true, true, false⟩, by decide +kernel⟩,
   ⟨(z.setReg (portReg 39 0) 0xA).setReg (portReg 39 0x10) 0, 39, linked .g1 false, by decide +kernel⟩,
   ⟨(z.setReg (portReg 39 0) 0xA).setReg (portReg 39 0x10) 0, 39, linked .g1 true, by decide +kernel⟩,
   ⟨(z.setReg (portReg 39 0) 0xA).setReg (portReg 39 0x10) 0, 39, ⟨.g1, 3, false, false, false, false⟩, by decide +kernel⟩,
   ⟨z.setReg (portReg 39 0) 0, 39, by decide +kernel⟩,
   ⟨up 39, 39, lost39, by decide +kernel⟩,
   ⟨(up 39).setTx 39 (some sent39), 39, lost39, sent39, [], by decide +kernel⟩,
   ⟨z, ⟨39, false, false, false⟩, by decide +kernel⟩,
   ⟨{ z.setReg (portReg 39 0) 2 with sw := { z.sw with synced := [(39, true)] } }, lost39, by decide +kernel⟩,
   ⟨mcp, z, 39, 3, 0x2B, .inl ⟨rfl, rfl⟩, by decide +kernel⟩,
   ⟨mcp, z, 39, 0x6A, .inl ⟨rfl, rfl⟩, by decide +kernel⟩,
   ⟨mcp, z, 8, 1, .inl ⟨rfl, rfl⟩, by decide +kernel⟩,
   ⟨(z.setReg (portReg 39 0) 2).setBit (portReg 39 0x10) 2 true, 39, by decide +kernel⟩,
   ⟨z.setReg (portReg 39 0) 1, 39, by decide +kernel⟩,
   ⟨{ (z.setReg (portReg 39 0) 2).setBit (portReg 39 0x10) 3 true with cyc := 50000000 }, 39, by decide +kernel⟩,
   ⟨up 39, 39, by decide +kernel⟩,
   ⟨mcp, z, 39, .inl ⟨rfl, rfl⟩, by decide +kernel⟩,
   ⟨z, ⟨false, false⟩, by decide +kernel⟩,
   ⟨z, ⟨true, true⟩, by decide +kernel⟩⟩

theorem witness_FramesAreReceived :
    (∃ (s : State) (p e : Nat) (bs h : List Byte) (a : Action) (c : Copy), p < 40 ∧ h = bs.take (bs.length - 4) ∧ s.linkUp p = true ∧ s.otfPort p =
      false ∧ s.rx p = none ∧ 64 ≤ bs.length ∧ bs.length ≤ s.maxLen p ∧ s.bit (portReg p 8) 0 = true ∧ s.bit (swReg 0) 0 = true ∧ s.bit (swReg 0) 1 =
      false ∧ isControl bs = false ∧ s.fld (portReg p 0x100) 0 2 = 0 ∧ s.sw.pre.testBit p = true ∧ s.sw.pre < 2 ^ 48 ∧ 1000 ≤ s.sw.free ∧ s.bit (swReg
      0x9000) 0 = false ∧ s.pairMode p = 0 ∧ s.pairOf p = none ∧ s.frame s.sw.nextFrame = none ∧ bs.length < 20000 ∧ s.chooseAction p h = a ∧
      a.hit.isSome = true ∧ bitOf a.act 21 = false ∧ bitOf a.act 16 = false ∧ s.vlanInDrops p (s.frameVid p h) = false ∧ s.anchorOf p = none ∧
      s.destCopies s.sw.nextFrame p none h false a none = (s, [c]) ∧ c.egress = e ∧ c.frame = s.sw.nextFrame ∧ c.ct = false ∧ s.bit (pcfg e) 18 =
      false ∧ s.bit (qReg (8 * e + s.frameClass p h a) 0) 2 = false ∧ s.depth (8 * e + s.frameClass p h a) < s.fld (qReg (8 * e + s.frameClass p h a)
      4) 0 17 ∧ s.copies < 131072 ∧ s.isQueued s.sw.nextFrame = false) ∧
    (∃ (s : State) (p : Nat) (bs : List Byte), p < 40 ∧ s.linkUp p = true ∧ s.otfPort p = false ∧ s.rx p = none ∧ 64 ≤ bs.length ∧ bs.length ≤
      s.maxLen p ∧ s.entersSwitch p bs = true ∧ s.sw.pre.testBit p = false ∧ s.sw.free = 0) ∧
    (∃ (s : State) (p : Nat) (bs : List Byte), p < 40 ∧ s.linkUp p = true ∧ s.otfPort p = false ∧ s.rx p = none ∧ 64 ≤ bs.length ∧ bs.length ≤
      s.maxLen p ∧ s.entersSwitch p bs = false) ∧
    (∃ (s : State) (p : Nat) (bs : List Byte), p < 40 ∧ (s.linkUp p = false ∨ s.otfPort p = true ∨ s.rx p ≠ none ∨ bs.length < 64)) ∧
    (∃ (s : State) (p f : Nat) (r : Rx) (x : Frame) (bytes : List Byte), (∀ k y, s.tx k = some y → y.copy.frame ≠ f) ∧ p < 40 ∧ s.rx p = some r ∧
      r.frame = some f ∧ s.frame f = some x ∧ r.capture = false ∧ x.bad = false ∧ x.late = false ∧ x.ingress = p ∧ s.fld (portReg p 0x100) 0 2 = 0 ∧
      (r.bytes ++ bytes).length ≤ s.maxLen p ∧ cellsFor ((r.bytes ++ bytes).length - 4) x.kind - x.cells ≤ s.sw.free) ∧
    (∃ (s : State) (p f : Nat) (r : Rx) (x : Frame) (bytes : List Byte), p < 40 ∧ s.rx p = some r ∧ r.frame = some f ∧ s.frame f = some x ∧ x.bad =
      false ∧ x.late = false ∧ x.reason = 0 ∧ x.arriving = true ∧ x.ingress = p ∧ s.fld (portReg p 0x100) 0 2 = 0 ∧ s.isQueued f = false ∧ (128 ≤
      r.bytes.length ∨ (r.bytes ++ bytes).length < 128) ∧ (r.bytes ++ bytes).length ≤ s.maxLen p ∧ s.sw.free < cellsFor ((r.bytes ++ bytes).length -
      4) x.kind - x.cells) ∧
    (∃ (s : State) (p f : Nat) (r : Rx) (x : Frame) (bytes : List Byte), p < 40 ∧ s.rx p = some r ∧ r.frame = some f ∧ s.frame f = some x ∧ x.bad =
      false ∧ x.late = false ∧ x.reason = 0 ∧ x.arriving = true ∧ x.ingress = p ∧ s.fld (portReg p 0x100) 0 2 = 0 ∧ s.isQueued f = false ∧ (128 ≤
      r.bytes.length ∨ (r.bytes ++ bytes).length < 128) ∧ s.maxLen p < (r.bytes ++ bytes).length ∧ cellsFor (s.maxLen p - 3) x.kind - x.cells ≤
      s.sw.free) ∧
    (∃ (s : State) (p f g : Nat) (r : Rx) (x : Frame) (bytes : List Byte), p < 40 ∧ s.rx p = some r ∧ r.frame = some f ∧ s.frame f = some x ∧
      r.capture = true ∧ r.bytes.length < 128 ∧ x.classed = true ∧ x.bad = false ∧ x.late = false ∧ x.arriving = true ∧ x.ingress = p ∧ s.fld (portReg
      p 0x100) 0 2 = 0 ∧ (r.bytes ++ bytes).length ≤ s.maxLen p ∧ 128 ≤ (r.bytes ++ bytes).length ∧ cellsFor ((r.bytes ++ bytes).length - 4) x.kind ≤
      x.cells ∧ s.bit (pcfg p) 22 = true ∧ s.fld (pcfg p) 23 2 = g ∧ bitOf x.act 19 = false ∧ s.sw.captures.length < 64) ∧
    (∃ (s : State) (p : Nat), p < 40 ∧ s.rx p = none) ∧
    (∃ (s : State) (p : Nat) (r : Rx) (bytes : List Byte), p < 40 ∧ s.linkUp p = true ∧ s.otfPort p = false ∧ s.rx p = some r ∧ r.frame = none ∧
      (r.bytes ++ bytes) ≠ [] ∧ s.macJudge p (r.bytes ++ bytes) false = 0 ∧ isControl (r.bytes ++ bytes) = false ∧ s.bit (portReg p 8) 0 = true) ∧
    (∃ (s : State) (p : Nat) (r : Rx) (bytes : List Byte) (ce : Bool), p < 40 ∧ s.linkUp p = true ∧ s.otfPort p = false ∧ s.rx p = some r ∧ r.frame =
      none ∧ (r.bytes ++ bytes) ≠ [] ∧ s.macJudge p (r.bytes ++ bytes) ce ≠ 0 ∧ s.bit (portReg p 8) 0 = true) ∧
    (∃ (s : State) (p f : Nat) (r : Rx) (x : Frame) (bytes : List Byte), p < 40 ∧ s.linkUp p = true ∧ s.otfPort p = false ∧ s.rx p = some r ∧ r.frame
      = some f ∧ s.frame f = some x ∧ s.macJudge p (r.bytes ++ bytes) false = 0 ∧ isControl (r.bytes ++ bytes) = false ∧ r.capture = false ∧ s.bit
      (portReg p 8) 0 = true ∧ x.bad = false ∧ x.waits = false ∧ x.late = false ∧ x.reason = 0 ∧ x.ingress = p ∧ x.limit = none ∧ x.debits = [] ∧
      s.fld (portReg p 0x100) 0 2 = 0 ∧ s.pairOf p = none ∧ s.ctxOf p = none ∧ s.isQueued f = true ∧ cellsFor ((r.bytes ++ bytes).length - 4) x.kind ≤
      x.cells) ∧
    (∃ (s : State) (p : Nat), p < 40 ∧ (s.linkUp p = false ∨ s.otfPort p = true)) :=
  ⟨⟨directed, 39, 1, zeros 64, (zeros 64).take ((zeros 64).length - 4), ⟨2, 0, 0, some 14336⟩, ⟨0, 1, 0, false, false, 0, 0, 0, none⟩,
     by decide +kernel⟩,
   ⟨{ up 39 with sw := { z.sw with pre := 0, free := 0 } }, 39, zeros 64, by decide +kernel⟩,
   ⟨(up 39).setReg (swReg 0) 0, 39, zeros 64, by decide +kernel⟩,
   ⟨z, 39, zeros 63, by decide +kernel⟩,
   ⟨receiving (up 39) arriving ⟨zeros 64, some 0, false⟩, 39, 0, ⟨zeros 64, some 0, false⟩, arriving, zeros 256, (fun _ _ h => by cases (show (none :
     Option Tx) = some _ from h)), by decide +kernel⟩,
   ⟨{ receiving (up 39) arriving ⟨zeros 128, some 0, false⟩ with sw := { (receiving (up 39) arriving ⟨zeros 128, some 0, false⟩).sw with free := 0 }
     }, 39, 0, ⟨zeros 128, some 0, false⟩, arriving, zeros 256, by decide +kernel⟩,
   ⟨(receiving (up 39) arriving ⟨zeros 64, some 0, false⟩).setFld (portReg 39 8) 16 14 100, 39, 0, ⟨zeros 64, some 0, false⟩, arriving, zeros 37,
     by decide +kernel⟩,
   ⟨(receiving (up 39) arriving ⟨zeros 64, some 0, true⟩).setReg (pcfg 39) 0x01C00001, 39, 0, 3, ⟨zeros 64, some 0, true⟩, arriving, zeros 64,
     by decide +kernel⟩,
   ⟨z, 39, by decide +kernel⟩,
   ⟨(up 39).setRx 39 (some ⟨goodFrame, none, false⟩), 39, ⟨goodFrame, none, false⟩, [], by decide +kernel⟩,
   ⟨(up 39).setRx 39 (some ⟨zeros 64, none, false⟩), 39, ⟨zeros 64, none, false⟩, [], true, by decide +kernel⟩,
   ⟨(receiving (up 39) arriving ⟨goodFrame, some 0, false⟩).setQueue 0 [copyTo 0], 39, 0, ⟨goodFrame, some 0, false⟩, arriving, [], by decide +kernel⟩,
   ⟨z, 39, by decide +kernel⟩⟩

theorem witness_FramesPassOnTheFly :
    (∃ (w : Who) (s : State) (p : Nat) (d : Word), Admitted w s ∧ 8 ≤ p ∧ p < 40 ∧ p % 2 = 0 ∧ s.portHolder p = none ∧ s.linkUp p = false ∧ fieldOf d
      0 3 ≤ 3 ∧ fieldOf d 0 3 ≠ 1 ∧ fieldOf d 4 2 ≠ 3 ∧ bitOf d 6 = false ∧ (bitOf d 7 = true → s.otfFree p = true)) ∧
    (∃ (w : Who) (s : State) (p : Nat) (d : Word), Admitted w s ∧ p < 40 ∧ (p < 8 ∨ p % 2 = 1 ∨ s.otfFree p = false) ∧ s.portHolder p = none ∧ bitOf d
      7 = true) ∧
    (∃ (s : State) (j lo r : Nat) (bs : List Byte) (ce : Bool), j < 16 ∧ lo = 2 * j + 8 ∧ s.otfPort lo = true ∧ s.otfUp (lo + 1) = true ∧ s.otfUp lo =
      true ∧ r = s.macJudge (lo + 1) bs ce ∧ (r ≠ 0 ∨ isControl bs = false) ∧ s.bit (portReg (lo + 1) 8) 0 = true ∧ s.bit (portReg lo 8) 1 = true ∧ 4
      ≤ bs.length ∧ bs.length ≤ s.maxLen lo) ∧
    (∃ (s : State) (j lo dst r : Nat) (bs body : List Byte) (ce ok : Bool), j < 16 ∧ lo = 2 * j + 8 ∧ s.otfPort lo = true ∧ s.otfUp lo = true ∧ dst =
      (if s.otfUp (lo + 1) then lo + 1 else lo) ∧ r = s.macJudge lo bs ce ∧ (r ≠ 0 ∨ isControl bs = false) ∧ s.bit (portReg lo 8) 0 = true ∧ s.bit
      (portReg dst 8) 1 = true ∧ 4 ≤ bs.length ∧ bs.length ≤ s.maxLen dst ∧ body = bs.take (bs.length - 4) ∧ ok = (!ce && leNat (bs.drop (bs.length -
      4)) == crc32 body) ∧ frameType body ≠ 0x88A4) ∧
    (∃ (s : State) (j src : Nat) (bs : List Byte) (ce lower : Bool), j < 16 ∧ src = 2 * j + 8 + (if lower then 0 else 1) ∧ s.otfPort (2 * j + 8) =
      true ∧ s.otfUp src = true ∧ bs ≠ [] ∧ s.macJudge src bs ce = 0 ∧ isControl bs = true) ∧
    (∃ (s : State) (j src : Nat) (bs : List Byte) (lower : Bool), j < 16 ∧ src = 2 * j + 8 + (if lower then 0 else 1) ∧ isControl bs = false ∧ s.bit
      (portReg src 8) 0 = false) ∧
    (∃ (s : State) (j src : Nat) (lower : Bool), j < 16 ∧ src = 2 * j + 8 + (if lower then 0 else 1) ∧ (s.otfPort (2 * j + 8) = false ∨ s.otfUp src =
      false)) :=
  ⟨⟨mcp, z, 38, 0x8B, .inl ⟨rfl, rfl⟩, by decide +kernel⟩,
   ⟨mcp, z, 39, 0x80, .inl ⟨rfl, rfl⟩, by decide +kernel⟩,
   ⟨onTheFly, 15, 38, 5, zeros 64, false, by decide +kernel⟩,
   ⟨onTheFly, 15, 38, 39, 0, goodFrame, zeros 60, false, true, by decide +kernel⟩,
   ⟨onTheFly, 15, 38, pauseFrame, false, true, by decide +kernel⟩,
   ⟨z, 15, 38, zeros 64, true, by decide +kernel⟩,
   ⟨z, 15, 39, false, by decide +kernel⟩⟩

theorem witness_CopiesAndPauseFramesAreSent :
    (∃ (s : State) (p k n : Nat) (c : Copy) (cs : List Copy) (x : Frame), p < 40 ∧ s.tx p = none ∧ s.portSends p = true ∧ (∀ i, i < 8 → s.lqMode (8 *
      p + i) ≠ 2) ∧ (List.range 8).reverse.find? (s.eligible p) = some k ∧ s.queue (8 * p + k) = c :: cs ∧ s.frame c.frame = some x ∧ c.egress = p ∧
      s.overage (8 * p + k) c = false ∧ s.tooLong p k c x = false ∧ Tab.get (fun _ => none) s.sw.shapers (8 * p + k) = none ∧ s.copyPtp c x = none ∧
      x.limit = none ∧ s.bit (pcfg p) 25 = false ∧ x.arriving = false ∧ n = min (portCredits p - Tab.get (fun _ => 0) s.sw.creditsOut p) (max 1
      x.cells)) ∧
    (∃ (s : State) (p k i n : Nat) (c : Copy) (cs : List Copy) (x : Frame), 41 ≤ p ∧ p < 48 ∧ s.portBusy p = false ∧ (∀ i, i < 8 → s.lqMode (8 * p +
      i) ≠ 2) ∧ (List.range 8).reverse.find? (s.eligible p) = some k ∧ s.queue (8 * p + k) = c :: cs ∧ s.frame c.frame = some x ∧ s.overage (8 * p +
      k) c = false ∧ Tab.get (fun _ => none) s.sw.shapers (8 * p + k) = none ∧ s.freeSlot c.l = some i ∧ s.bit (pcfg p) 25 = false ∧ c.egress = p ∧
      c.l ≤ 32 ∧ n = (if 42 ≤ p ∧ x.arriving = true then 1 else min (portCredits p - Tab.get (fun _ => 0) s.sw.creditsOut p) (max 1 x.cells))) ∧
    (∃ (s : State) (p k : Nat) (c : Copy) (cs : List Copy) (x : Frame), p < 40 ∧ s.tx p = none ∧ s.portSends p = true ∧ (∀ i, i < 8 → s.lqMode (8 * p
      + i) ≠ 2) ∧ (List.range 8).reverse.find? (s.eligible p) = some k ∧ s.queue (8 * p + k) = c :: cs ∧ s.frame c.frame = some x ∧ s.overage (8 * p +
      k) c = false ∧ s.tooLong p k c x = true ∧ x.reason ≤ 18 ∧ x.failed ≤ 18) ∧
    (∃ (s : State) (p : Nat), p < 40 ∧ (s.tx p ≠ none ∨ s.portSends p = false)) ∧
    (∃ (s : State) (p : Nat) (t : Tx) (x : Frame), p < 40 ∧ s.tx p = some t ∧ s.frame t.copy.frame = some x ∧ x.bad = false ∧ x.arriving = false ∧
      t.copy.egress = p ∧ t.copy.ct = false ∧ t.stomped = none ∧ t.stamp = none) ∧
    (∃ (s : State) (p : Nat) (t : Tx) (x : Frame), p < 40 ∧ s.tx p = some t ∧ s.frame t.copy.frame = some x ∧ x.bad = true ∧ t.copy.egress = p ∧
      t.stomped = none ∧ t.stamp = none ∧ x.reason ≤ 18 ∧ x.failed ≤ 18) ∧
    (∃ (s : State) (p m : Nat) (t : Tx) (x : Frame) (bs : List Byte), p < 40 ∧ s.tx p = some t ∧ s.frame t.copy.frame = some x ∧ t.copy.egress = p ∧
      t.stomped = some m ∧ t.stamp = none ∧ x.reason ≤ 18 ∧ x.failed ≤ 18 ∧ bs = s.outBytes t.copy (x.bytes.take m) t.edits) ∧
    (∃ (s : State) (p k : Nat) (t : Tx) (x : Frame), 41 ≤ p ∧ p < 48 ∧ k = s.endLane p ∧ s.tx k = some t ∧ s.frame t.copy.frame = some x ∧
      t.copy.egress = p ∧ t.copy.lane = k ∧ x.bad = false ∧ x.arriving = false ∧ t.stomped = none ∧ t.stamp = none ∧ x.reason = 0) ∧
    (∃ (s : State) (p : Nat), p < 48 ∧ s.tx (s.endLane p) = none) ∧
    (∃ (s : State) (p : Nat), p < 40 ∧ s.pauseDue p ≠ 0 ∧ s.tx p = none ∧ s.linkUp p = true ∧ s.bit (portReg p 8) 1 = true) ∧
    (∃ (s : State) (p : Nat), p < 40 ∧ (s.pauseDue p = 0 ∨ s.tx p ≠ none ∨ s.linkUp p = false)) ∧
    (∃ (s : State) (p i : Nat), p < 40 ∧ i ≤ 8 ∧ (s.xoff p).testBit i = true ∧ Tab.get (fun _ => 0) s.sw.stopAt (16 * p + i) + (s.fld (portReg p
      0x104) 0 16 * 64 * byteTenths (s.linkSpeed p) + 19) / 20 ≤ s.cyc) ∧
    (∃ (s : State) (p i : Nat), p < 40 ∧ i ≤ 8 ∧ (s.xoff p).testBit i = false) ∧
    (∃ (s : State) (q : Nat), q < 384 ∧ s.pauseHeld q = false) ∧
    (∃ (s : State) (q : Nat), q < 384 ∧ s.pauseHeld q = true) :=
  ⟨⟨sending 39 7 arriving', 39, 7, 1, copyTo 39, [], arriving', by decide +kernel⟩,
   ⟨(sending 47 7 arriving').setBindState 0 2, 47, 7, 0, 1, copyTo 47, [], arriving', by decide +kernel⟩,
   ⟨(sending 39 7 arriving').setFld (portReg 39 8) 16 14 63, 39, 7, copyTo 39, [], arriving', by decide +kernel⟩,
   ⟨z, 39, by decide +kernel⟩,
   ⟨((up 39).setFrame 0 (some arriving')).setTx 39 (some sent39), 39, sent39, arriving', by decide +kernel⟩,
   ⟨((up 39).setFrame 0 (some { arriving' with bad := true, reason := 12 })).setTx 39 (some sent39), 39, sent39, { arriving' with bad := true, reason
     := 12 }, by decide +kernel⟩,
   ⟨(((up 39).setFrame 0 (some arriving')).setTx 39 (some { sent39 with stomped := some 20 })), 39, 20, { sent39 with stomped := some 20 }, arriving',
     zeros 60, by decide +kernel⟩,
   ⟨(((up 39).setFrame 0 (some arriving')).setTx 69 (some { sent39 with copy := ⟨0, 47, 5, false, false, 0, 0, 0, none⟩ })), 47, 69, { sent39 with
     copy := ⟨0, 47, 5, false, false, 0, 0, 0, none⟩ }, arriving', by decide +kernel⟩,
   ⟨z, 47, by decide +kernel⟩,
   ⟨{ up 39 with sw := { (up 39).sw with pauseDue := [(39, 0x100)], xoff := [(39, 0x100)] } }, 39, by decide +kernel⟩,
   ⟨z, 39, by decide +kernel⟩,
   ⟨{ up 39 with cyc := 10 ^ 9, sw := { (up 39).sw with xoff := [(39, 0x100)] } }, 39, 8, by decide +kernel⟩,
   ⟨z, 39, 8, by decide +kernel⟩,
   ⟨z, 383, by decide +kernel⟩,
   ⟨{ up 39 with sw := { (up 39).sw with holdUntil := [(319, 5)] } }, 319, by decide +kernel⟩⟩

theorem witness_SegmentationAndMdio :
    (∃ (w : Who) (s : State) (p : Nat), Admitted w s ∧ p < 40 ∧ (s.segs p).length < 16) ∧
    (∃ (w : Who) (s : State) (p : Nat), Admitted w s ∧ p < 40 ∧ 16 ≤ (s.segs p).length) ∧
    (∃ (w : Who) (s : State) (n l p : Nat), ByEngine w n ∧ p < 40 ∧ l < 32 ∧ s.logicalOf n = some l ∧ s.grantsPage l ((portReg p 0x3000 - 0x10000000)
      / 0x1000) = true) ∧
    (∃ (s : State) (l p n tk : Nat) (d : Word), l < 32 ∧ p < 40 ∧ Tab.get (fun _ => []) s.pec.released l = [.write (portReg p 0x3000) d] ∧ Tab.get
      (fun _ => (0, 0)) s.pec.releasedBy l = (n, tk) ∧ (s.segs p).length < 16) ∧
    (∃ (s : State) (p : Nat) (j : SegJob) (js : List SegJob), p < 40 ∧ s.segs p = j :: js ∧ j.started = false) ∧
    (∃ (s : State) (p n : Nat) (j : SegJob) (js : List SegJob) (d hdr pay : List Byte), p < 40 ∧ s.segs p = j :: js ∧ j.started = false ∧ j.queue < 8
      ∧ s.segRead j.master j.addr 128 = (s, some d) ∧ (segDesc d).ok = true ∧ s.segRead j.master (segDesc d).hdrAddr (segDesc d).hdrLen = (s, some
      hdr) ∧ s.segRead j.master (segDesc d).payAddr (segDesc d).payLen = (s, some pay) ∧ n = ((segDesc d).payLen + (segDesc d).mss - 1) / (segDesc
      d).mss) ∧
    (∃ (s : State) (p : Nat) (j : SegJob) (js : List SegJob) (d : List Byte), p < 40 ∧ s.segs p = j :: js ∧ j.started = false ∧ s.segRead j.master
      j.addr 128 = (s, some d) ∧ (segDesc d).ok = false) ∧
    (∃ (s : State) (p : Nat), p < 40 ∧ s.segs p = []) ∧
    (∃ (s : State) (p : Nat) (j : SegJob) (js : List SegJob), p < 40 ∧ s.segs p = j :: js ∧ j.started = true) ∧
    (∃ (s : State) (p : Nat) (j : SegJob) (js : List SegJob), p < 40 ∧ s.segs p = j :: js ∧ j.started = true) ∧
    (∃ (s : State) (p : Nat) (j : SegJob) (js : List SegJob) (tag : List Byte), p < 40 ∧ s.segs p = j :: js ∧ j.started = true ∧ j.result ≠ 1 ∧
      (s.setSegs p js).segRead j.master (j.addr + 0x10) 4 = (s.setSegs p js, some tag)) ∧
    (∃ (w : Who) (s : State) (d : Word), Admitted w s ∧ s.bit mdioCmd 31 = false ∧ fieldOf d 28 2 ≠ 3) ∧
    (∃ (w : Who) (s : State), Admitted w s ∧ s.bit mdioCmd 31 = true) ∧
    (∃ (s : State), s.bit mdioCmd 31 = true ∧ s.bit mdioCmd 27 = false) ∧
    (∃ (s : State), s.bit mdioCmd 31 = true ∧ s.bit mdioCmd 27 = true) ∧
    (∃ (s : State), s.bit mdioCmd 31 = false) :=
  ⟨⟨mcp, z.setSegs 39 (List.replicate 15 ⟨0, 0, 41, 1, none, none, false, 0, 0, 0⟩), 39, .inl ⟨rfl, rfl⟩, by decide +kernel⟩,
   ⟨mcp, z.setSegs 39 (List.replicate 16 ⟨0, 0, 41, 1, none, none, false, 0, 0, 0⟩), 39, .inl ⟨rfl, rfl⟩, by decide +kernel⟩,
   ⟨byEngine 35, (active 35 31).setReg (bindAddr 31 + 0x7C) 0xFFFF0000, 35, 31, 39, ⟨rfl, by decide, rfl⟩, by decide +kernel⟩,
   ⟨releasing [.write (portReg 39 0x3000) 0x1C7], 31, 39, 35, 7, 0x1C7, by decide +kernel⟩,
   ⟨z.setSegs 39 [⟨0, 0, 41, 1, none, none, false, 0, 0, 0⟩], 39, ⟨0, 0, 41, 1, none, none, false, 0, 0, 0⟩, [], by decide +kernel⟩,
   ⟨((up 39).store 0 descriptor).setSegs 39 [⟨0, 7, 41, 1, none, none, false, 0, 0, 0⟩], 39, 2, ⟨0, 7, 41, 1, none, none, false, 0, 0, 0⟩, [],
     descriptor, zeros 14, zeros 65, by decide +kernel⟩,
   ⟨z.setSegs 39 [⟨0, 0, 41, 1, none, none, false, 0, 0, 0⟩], 39, ⟨0, 0, 41, 1, none, none, false, 0, 0, 0⟩, [], zeros 128, by decide +kernel⟩,
   ⟨z, 39, by decide +kernel⟩,
   ⟨z.setSegs 39 [⟨0, 0, 41, 1, none, none, true, 0, 0, 0⟩], 39, ⟨0, 0, 41, 1, none, none, true, 0, 0, 0⟩, [], by decide +kernel⟩,
   ⟨z.setSegs 39 [⟨0, 0, 41, 1, none, none, true, 0, 0, 0⟩], 39, ⟨0, 0, 41, 1, none, none, true, 0, 0, 0⟩, [], by decide +kernel⟩,
   ⟨(z.store 0x10 [1, 2, 3, 4]).setSegs 39 [⟨0, 0, 41, 1, none, none, true, 2, 0, 0⟩], 39, ⟨0, 0, 41, 1, none, none, true, 2, 0, 0⟩, [], [1, 2, 3, 4],
     by decide +kernel⟩,
   ⟨mcp, z, 0x6FFFFFFF, .inl ⟨rfl, rfl⟩, by decide +kernel⟩,
   ⟨mcp, z.setReg mdioCmd 0x80000000, .inl ⟨rfl, rfl⟩, by decide +kernel⟩,
   ⟨z.setReg mdioCmd 0x80000000, by decide +kernel⟩,
   ⟨z.setReg mdioCmd 0x88000000, by decide +kernel⟩,
   ⟨z, by decide +kernel⟩⟩

theorem witness_ScratchpadIsWritten :
    (∃ (w : Who) (s : State) (a : Nat) (bs : List Byte), Admitted w s ∧ a + bs.length ≤ 0x800000 ∧ s.copiesAt a bs.length = [] ∧ (∀ i, i < bs.length →
      s.tsUpper (a + i) = false ∧ s.tsAreaOf (a + i) = none ∧ s.isBad (a + i) = false)) ∧
    (∃ (w : Who) (s : State) (a : Nat) (bs : List Byte), Admitted w s ∧ a + bs.length ≤ 0x800000 ∧ bs ≠ [] ∧ bs.length ≤ 8 - a % 8 ∧ s.tsUpper a =
      true) ∧
    (∃ (w : Who) (s : State) (a : Nat) (bs : List Byte), Admitted w s ∧ isHost w = true ∧ a + bs.length ≤ 0x800000 ∧ bs ≠ [] ∧ bs.length ≤ 8 - a % 8 ∧
      s.copiesAt a bs.length ≠ [] ∧ s.tsUpper a = false ∧ s.tsAreaOf a = none) :=
  ⟨⟨mcp, z, 0x7FFFFF, [1], .inl ⟨rfl, rfl⟩, by decide +kernel⟩,
   ⟨mcp, (z.setBindState 31 2).setReg (bindAddr 31 + 8) 0x0100, 0x4000, [1], .inl ⟨rfl, rfl⟩, by decide +kernel⟩,
   ⟨pcie, verified, 0, [1], .inr ⟨rfl, rfl, by decide +kernel⟩, by decide +kernel⟩⟩

theorem witness_EnginesAreTestedAndPreloaded :
    (∃ (s : State), s.mgt.mcpHalted = false) ∧
    (∃ (s : State), s.mgt.mcpHalted = true) ∧
    (∃ (s : State) (n : Nat), n < 36 ∧ s.peState n = 6 ∧ s.recentF2 n < 3) ∧
    (∃ (s : State) (n : Nat), n < 36 ∧ s.peState n = 6 ∧ s.mgt.spareMap.length < 4094) ∧
    (∃ (s : State) (n : Nat), n < 36 ∧ s.peState n ≠ 1 ∧ s.peState n ≠ 6) ∧
    (∃ (s : State), s.spares = []) ∧
    (∃ (s : State), (∀ i, i ∈ s.dealOrder → s.codeBad i = none)) :=
  ⟨⟨z, by decide +kernel⟩,
   ⟨{ z with mgt := { z.mgt with mcpHalted := true } }, by decide +kernel⟩,
   ⟨z.setPeState 35 6, 35, by decide +kernel⟩,
   ⟨z.setPeState 35 6, 35, by decide +kernel⟩,
   ⟨z.setPeState 35 3, 35, by decide +kernel⟩,
   ⟨z, by decide +kernel⟩,
   ⟨withImage (((z.setPeState 35 2).setReg (bindAddr 31 + 0x20) 0x80).setReg (imgStat 0) 1 |>.setBindState 31 2), by decide +kernel⟩⟩

theorem witness_PathTableIsKept :
    (∃ (w : Who) (s : State) (d : Word) (i : Nat), Admitted w s ∧ s.bit ptCmd 31 = false ∧ fieldOf d 0 3 = 1 ∧ bitOf d 30 = true ∧ s.bufHashedOk
      (isMcp w) = true ∧ (s.findKey s.bufKey = some i ∨ (s.findKey s.bufKey = none ∧ (s.candidates s.bufKey).find? (fun j => s.entryType j == 0) =
      some i))) ∧
    (∃ (w : Who) (s : State) (d : Word) (i : Nat), Admitted w s ∧ s.bit ptCmd 31 = false ∧ fieldOf d 0 3 = 1 ∧ bitOf d 30 = true ∧ s.bufHashedOk
      (isMcp w) = true ∧ s.findKey s.bufKey = none ∧ (s.candidates s.bufKey).find? (fun j => s.entryType j == 0) = none ∧ (s.candidates
      s.bufKey).find? (fun j => !s.entryStatic j) = some i) ∧
    (∃ (w : Who) (s : State) (d : Word), Admitted w s ∧ s.bit ptCmd 31 = false ∧ fieldOf d 0 3 = 1 ∧ bitOf d 30 = true ∧ s.bufHashedOk (isMcp w) =
      false) ∧
    (∃ (w : Who) (s : State) (d : Word) (i : Nat), Admitted w s ∧ s.bit ptCmd 31 = false ∧ fieldOf d 0 3 = 2 ∧ bitOf d 30 = true ∧ 1 ≤ s.bufKey.ktype
      ∧ s.bufKey.ktype ≤ 3 ∧ s.findKey s.bufKey = some i) ∧
    (∃ (w : Who) (s : State) (d : Word) (i : Nat), Admitted w s ∧ s.bit ptCmd 31 = false ∧ fieldOf d 0 3 = 3 ∧ bitOf d 30 = true ∧ 1 ≤ s.bufKey.ktype
      ∧ s.bufKey.ktype ≤ 3 ∧ s.findKey s.bufKey = some i) ∧
    (∃ (w : Who) (s : State) (d : Word), Admitted w s ∧ s.bit ptCmd 31 = false ∧ bitOf d 30 = true ∧ 1 ≤ s.bufKey.ktype ∧ s.bufKey.ktype ≤ 3 ∧
      s.findKey s.bufKey = none) ∧
    (∃ (w : Who) (s : State) (d : Word) (j : Nat), Admitted w s ∧ s.bit ptCmd 31 = false ∧ fieldOf d 0 3 = 4 ∧ bitOf d 30 = true ∧ s.bufMaskedOk
      (isMcp w) = true ∧ fieldOf d 16 11 = j) ∧
    (∃ (w : Who) (s : State) (d : Word), Admitted w s ∧ s.bit ptCmd 31 = false ∧ fieldOf d 0 3 = 5 ∧ bitOf d 30 = true ∧ (∀ x, x ∈ s.regs → s.reg x.1
      = x.2)) ∧
    (∃ (w : Who) (s : State), Admitted w s ∧ s.bit ptCmd 31 = true) ∧
    (∃ (s : State), s.bit ptCmd 31 = true) ∧
    (∃ (s : State), s.bit ptCmd 31 = false) ∧
    (∃ (s : State) (p sa vid i : Nat) (rest : List (Nat × Nat × Nat)), s.sw.learns = (p, sa, vid) :: rest ∧ s.bit ptCmd 31 = false ∧ p < 40 ∧
      s.findKey (macPathKey 1 sa 0 vid) = none ∧ (s.candidates (macPathKey 1 sa 0 vid)).find? (fun j => s.entryType j == 0) = some i) ∧
    (∃ (s : State) (p sa vid i : Nat) (rest : List (Nat × Nat × Nat)), s.sw.learns = (p, sa, vid) :: rest ∧ s.bit ptCmd 31 = false ∧ p < 40 ∧
      s.findKey (macPathKey 1 sa 0 vid) = some i ∧ s.entryStatic i = true) ∧
    (∃ (s : State), s.sw.learns = []) ∧
    (∃ (s : State) (i : Nat), i < 14336 ∧ s.ageDue i = true ∧ s.entryType i ≠ 0 ∧ s.entryStatic i = false ∧ s.entryHit i = true) ∧
    (∃ (s : State) (i : Nat), i < 14336 ∧ s.ageDue i = true ∧ s.entryType i ≠ 0 ∧ s.entryStatic i = false ∧ s.entryHit i = false) ∧
    (∃ (s : State) (i : Nat), i < 14336 ∧ s.ageDue i = true ∧ (s.entryType i = 0 ∨ s.entryStatic i = true)) ∧
    (∃ (s : State) (i : Nat), i < 14336 ∧ s.ageDue i = false) :=
  ⟨⟨mcp, buf, 0x40000001, slotOf, .inl ⟨rfl, rfl⟩, by decide +kernel⟩,
   ⟨mcp, full, 0x40000001, slotOf, .inl ⟨rfl, rfl⟩, by decide +kernel⟩,
   ⟨mcp, z, 0x40000001, .inl ⟨rfl, rfl⟩, by decide +kernel⟩,
   ⟨mcp, inserted, 0x40000002, slotOf, .inl ⟨rfl, rfl⟩, by decide +kernel⟩,
   ⟨mcp, inserted, 0x40000003, slotOf, .inl ⟨rfl, rfl⟩, by decide +kernel⟩,
   ⟨mcp, buf, 0x40000003, .inl ⟨rfl, rfl⟩, by decide +kernel⟩,
   ⟨mcp, z, 0x47FF0004, 2047, .inl ⟨rfl, rfl⟩, by decide +kernel⟩,
   ⟨mcp, inserted, 0x40000005, .inl ⟨rfl, rfl⟩, by decide +kernel⟩,
   ⟨mcp, z.setReg ptCmd 0x80000000, .inl ⟨rfl, rfl⟩, by decide +kernel⟩,
   ⟨z.setReg ptCmd 0x80000000, by decide +kernel⟩,
   ⟨z, by decide +kernel⟩,
   ⟨learning, 39, 5, 1, slotOf5, [], by decide +kernel⟩,
   ⟨(learning.setReg (hashedWord slotOf5 0) 0x10011).setReg (hashedWord slotOf5 1) 5, 39, 5, 1, slotOf5, [], by decide +kernel⟩,
   ⟨z, by decide +kernel⟩,
   ⟨(z.setReg (swReg 0x30) 1).setReg (hashedWord 14335 0) 0x21, 14335, by decide +kernel⟩,
   ⟨(z.setReg (swReg 0x30) 1).setReg (hashedWord 14335 0) 0x01, 14335, by decide +kernel⟩,
   ⟨(z.setReg (swReg 0x30) 1).setReg (hashedWord 14335 0) 0x11, 14335, by decide +kernel⟩,
   ⟨z.setReg (swReg 0x30) 0, 14335, by decide +kernel⟩⟩

theorem witness_MirrorsQueuesAndLedgers :
    (∃ (s : State) (c : Capture) (rest : List Capture) (x : Frame) (a : Nat), s.sw.captures = c :: rest ∧ s.frame c.frame = some x ∧ c.ring < 4 ∧
      s.bit (mirReg c.ring 0x10) 0 = true ∧ 2 ≤ s.fld (mirReg c.ring 4) 0 15 ∧ (s.fld (mirReg c.ring 8) 0 15 + 1) % s.fld (mirReg c.ring 4) 0 15 ≠
      s.fld (mirReg c.ring 0x0C) 0 15 ∧ a = s.fld (mirReg c.ring 0) 6 17 * 64 + 144 * s.fld (mirReg c.ring 8) 0 15 ∧ a + 144 ≤ 0x800000 ∧ s.copiesAt a
      144 = [] ∧ (∀ i, i < 144 → s.tsUpper (a + i) = false ∧ s.tsAreaOf (a + i) = none ∧ s.isBad (a + i) = false)) ∧
    (∃ (s : State) (c : Capture) (rest : List Capture) (x : Frame), s.sw.captures = c :: rest ∧ s.frame c.frame = some x ∧ c.ring < 4 ∧ s.bit (mirReg
      c.ring 0x10) 0 = false) ∧
    (∃ (s : State), s.sw.captures = []) ∧
    (∃ (w : Who) (s : State) (r : Nat), Admitted w s ∧ r < 4) ∧
    (∃ (s : State), s.sw.redNo = s.coreCyc / 256 + 1) ∧
    (∃ (s : State), s.sw.redNo ≠ s.coreCyc / 256 + 1) ∧
    (∃ (w : Who) (s : State) (d : Word), Admitted w s ∧ d ≠ 0) ∧
    (∃ (w : Who) (s : State), Admitted w s) ∧
    (∃ (s : State), s.cyc / 8000 % 2 ^ 20 ≠ s.sw.granule) ∧
    (∃ (s : State), s.cyc / 8000 % 2 ^ 20 = s.sw.granule) ∧
    (∃ (w : Who) (s : State) (m : Nat) (d : Word), Admitted w s ∧ m < 4096 ∧ s.bit (meterReg m 0) 0 = false ∧ bitOf d 0 = true ∧ bitOf d 1 = true ∧
      s.fld (meterReg m 0x0C) 0 24 ≠ 0 ∧ s.fld (meterReg m 0x10) 0 24 ≠ 0) ∧
    (∃ (w : Who) (s : State) (m : Nat) (d : Word), Admitted w s ∧ m < 4096 ∧ s.bit (meterReg m 0) 0 = false ∧ bitOf d 0 = true ∧ (s.fld (meterReg m
      0x0C) 0 24 = 0 ∨ s.fld (meterReg m 0x10) 0 24 = 0)) ∧
    (∃ (w : Who) (s : State) (m : Nat) (d : Word), Admitted w s ∧ m < 4096 ∧ s.bit (meterReg m 0) 0 = true ∧ bitOf d 0 = false ∧ fieldOf d 1 2 = s.fld
      (meterReg m 0) 1 2) ∧
    (∃ (s : State), (∀ i, 1 ≤ i → i ≤ 6 → (s.ledger i).1 = (s.ledger i).2) ∧ (s.sw.auditDue = true ∨ (s.running = false ∧ s.sw.auditAt + 500000 ≤
      s.cyc)) ∧ s.sw.shapers = [] ∧ s.sw.meters = []) ∧
    (∃ (s : State) (i : Nat), (∀ j, 1 ≤ j → j < i → (s.ledger j).1 = (s.ledger j).2) ∧ (s.sw.auditDue = true ∨ (s.running = false ∧ s.sw.auditAt +
      500000 ≤ s.cyc)) ∧ s.sw.shapers = [] ∧ s.sw.meters = [] ∧ 1 ≤ i ∧ i ≤ 6 ∧ (s.ledger i).1 ≠ (s.ledger i).2 ∧ s.bit (swReg 0x9008) 0 = false) ∧
    (∃ (s : State), s.sw.auditDue = false ∧ (s.running = true ∨ s.cyc < s.sw.auditAt + 500000)) ∧
    (∃ (w : Who) (s : State) (d : Word), ByMcp w ∧ bitOf d 0 = true ∧ s.openFrames = 0) ∧
    (∃ (w : Who) (s : State) (d : Word), ByMcp w ∧ bitOf d 0 = true ∧ s.openFrames ≠ 0) ∧
    (∃ (w : Who) (d : Word), ByMcp w ∧ bitOf d 0 = false) ∧
    (∃ (w : Who) (s : State), Admitted w s ∧ isHost w = true) :=
  ⟨⟨{ mirrored with sw := { mirrored.sw with captures := [recorded] } }, recorded, [], arriving, 0x1000, by decide +kernel⟩,
   ⟨{ z.setFrame 0 (some arriving) with sw := { (z.setFrame 0 (some arriving)).sw with captures := [recorded] } }, recorded, [], arriving,
     by decide +kernel⟩,
   ⟨z, by decide +kernel⟩,
   ⟨mcp, z, 3, .inl ⟨rfl, rfl⟩, by decide +kernel⟩,
   ⟨{ z with sw := { z.sw with redNo := 1 } }, by decide +kernel⟩,
   ⟨z, by decide +kernel⟩,
   ⟨mcp, z, 0xFFFFFFFF, .inl ⟨rfl, rfl⟩, by decide +kernel⟩,
   ⟨mcp, z, .inl ⟨rfl, rfl⟩⟩,
   ⟨{ z with cyc := 8000 }, by decide +kernel⟩,
   ⟨z, by decide +kernel⟩,
   ⟨mcp, ((z.setReg (meterReg 4095 0x0C) 0xFFFFFF).setReg (meterReg 4095 0x10) 1), 4095, 3, .inl ⟨rfl, rfl⟩, by decide +kernel⟩,
   ⟨mcp, (z.setReg (meterReg 4095 0x0C) 0), 4095, 1, .inl ⟨rfl, rfl⟩, by decide +kernel⟩,
   ⟨mcp, metered, 4095, 0, .inl ⟨rfl, rfl⟩, by decide +kernel⟩,
   ⟨{ z with sw := { z.sw with free := 65536, auditDue := true } }, upTo (by decide +kernel), by decide +kernel⟩,
   ⟨{ z with sw := { z.sw with dict := [(0, ([], 1))], auditDue := true } }, 4, below (by decide +kernel), by decide +kernel⟩,
   ⟨z, by decide +kernel⟩,
   ⟨mcp, z.setBit (swReg 0) 1 true, 1, ⟨rfl, rfl⟩, by decide +kernel⟩,
   ⟨mcp, z.setFrame 0 (some arriving), 1, ⟨rfl, rfl⟩, by decide +kernel⟩,
   ⟨mcp, 0xFFFFFFFE, ⟨rfl, rfl⟩, by decide +kernel⟩,
   ⟨pcie, z, .inr ⟨rfl, rfl, by decide +kernel⟩, by decide +kernel⟩⟩

theorem witness_TimeIsSteered :
    (∃ (w : Who) (s : State) (d : Word), Admitted w s ∧ s.servoOwner w none = true ∧ -4294967 ≤ signed d.toNat 32 ∧ signed d.toNat 32 ≤ 4294967) ∧
    (∃ (w : Who) (s : State) (d : Word), Admitted w s ∧ s.servoOwner w none = true ∧ (signed d.toNat 32 < -4294967 ∨ 4294967 < signed d.toNat 32)) ∧
    (∃ (w : Who) (s : State), Admitted w s ∧ s.servoOwner w none = false) ∧
    (∃ (w : Who) (s : State) (d : Word), Admitted w s ∧ s.servoOwner w none = true ∧ bitOf d 0 = true ∧ s.tb.step = none) ∧
    (∃ (w : Who) (s : State) (d : Word), Admitted w s ∧ s.servoOwner w none = true ∧ bitOf d 0 = true ∧ s.tb.step ≠ none) ∧
    (∃ (s : State) (off : Int), s.running = false ∧ s.tb.step = some off ∧ 0 ≤ Int.ofNat s.ns + off) ∧
    (∃ (s : State) (off : Int), s.running = false ∧ s.tb.step = some off ∧ Int.ofNat s.ns + off < 0) ∧
    (∃ (s : State), (s.running = true ∨ s.tb.step = none)) ∧
    (∃ (w : Who) (s : State), Admitted w s) ∧
    (∃ (w : Who) (s : State) (d : Word), Admitted w s ∧ s.servoOwner w none = true ∧ bitOf d 0 = true) ∧
    (∃ (s : State), s.bit timeStatus 0 = false ∧ s.tb.everUpd = true ∧ s.fld (timeReg 0x38) 0 16 ≤ s.holdAge) ∧
    (∃ (s : State), (s.bit timeStatus 0 = true ∨ s.tb.everUpd = false ∨ s.holdAge < s.fld (timeReg 0x38) 0 16)) ∧
    (∃ (w : Who) (d : Word), ByMcp w ∧ (fieldOf d 0 6 ≤ 0x21 ∨ fieldOf d 0 6 = 0x3F)) ∧
    (∃ (w : Who) (s : State) (d : Word), Admitted w s ∧ (isHost w = true ∨ (0x21 < fieldOf d 0 6 ∧ fieldOf d 0 6 ≠ 0x3F))) :=
  ⟨⟨mcp, z, 4294967, .inl ⟨rfl, rfl⟩, by decide +kernel⟩,
   ⟨pcie, z.setReg (timeReg 0x30) 0x21, 4294968, .inr ⟨rfl, rfl, by decide +kernel⟩, by decide +kernel⟩,
   ⟨pcie, z, .inr ⟨rfl, rfl, by decide +kernel⟩, by decide +kernel⟩,
   ⟨mcp, z, 1, .inl ⟨rfl, rfl⟩, by decide +kernel⟩,
   ⟨mcp, { z with tb := { z.tb with step := some 0 } }, 1, .inl ⟨rfl, rfl⟩, by decide +kernel⟩,
   ⟨{ z with tb := { z.tb with step := some (-5) }, time := 5 * nsUnit }, -5, by decide +kernel⟩,
   ⟨{ z with tb := { z.tb with step := some (-5) }, time := 4 * nsUnit }, -5, by decide +kernel⟩,
   ⟨z, by decide +kernel⟩,
   ⟨mcp, { z with time := 123456789 * 2 ^ 40 }, .inl ⟨rfl, rfl⟩⟩,
   ⟨mcp, z, 1, .inl ⟨rfl, rfl⟩, by decide +kernel⟩,
   ⟨{ z with cyc := 3000 * cycMs, tb := { z.tb with everUpd := true } }, by decide +kernel⟩,
   ⟨{ z with cyc := 2999 * cycMs }, by decide +kernel⟩,
   ⟨mcp, 0x3F, ⟨rfl, rfl⟩, by decide +kernel⟩,
   ⟨pcie, z, 0, .inr ⟨rfl, rfl, by decide +kernel⟩, by decide +kernel⟩⟩

theorem witness_ReferencesAreChosen :
    (∃ (s : State), s.tb.monitors = false) ∧
    (∃ (s : State) (b : Bool), s.tb.monitors = true ∧ s.refActive ≠ bit01 b ∧ Tab.get (fun _ => false) s.tb.refBad (1 - bit01 b) = false ∧ (Tab.get
      (fun _ => false) s.tb.refBad (bit01 b) = true ∨ (s.within 24 (Tab.get (fun _ => []) s.mgt.refBadAt (bit01 b))).length < 2 ∨ s.mcpRuns = false)) ∧
    (∃ (s : State) (b : Bool), s.tb.monitors = true ∧ Tab.get (fun _ => false) s.tb.refBad (bit01 b) = false ∧ 2 ≤ (s.within 24 (Tab.get (fun _ => [])
      s.mgt.refBadAt (bit01 b))).length ∧ s.mcpRuns = true ∧ s.mgt.spareMap.length < 4094) ∧
    (∃ (s : State) (b : Bool), s.tb.monitors = true ∧ s.refActive = bit01 b ∧ Tab.get (fun _ => false) s.tb.refBad (1 - bit01 b) = false ∧ s.refOk (1
      - bit01 b) = true ∧ s.fld (timeReg 0x48) 0 2 = 0 ∧ (s.within 24 (Tab.get (fun _ => []) s.mgt.refBadAt (bit01 b))).length < 2) ∧
    (∃ (s : State) (b : Bool), s.tb.monitors = true ∧ Tab.get (fun _ => false) s.tb.refBad (1 - bit01 b) = true ∧ s.refOk (1 - bit01 b) = false ∧
      s.bit timeStatus 5 = false ∧ (Tab.get (fun _ => false) s.tb.refBad (bit01 b) = true ∨ (s.within 24 (Tab.get (fun _ => []) s.mgt.refBadAt (bit01
      b))).length < 2)) ∧
    (∃ (s : State) (b : Bool), (s.tb.monitors = false ∨ s.cyc < Tab.get (fun _ => 0) s.tb.refFrom (bit01 b) + 100 * cycMs ∨ s.refOk (bit01 b) = true)) ∧
    (∃ (s : State) (b : Bool), s.tb.monitors = true ∧ Tab.get (fun _ => 0) s.tb.refFrom (bit01 b) + 100 * cycMs ≤ s.cyc ∧ s.refOk (bit01 b) = false ∧
      s.bit timeStatus 5 = true) ∧
    (∃ (s : State) (b : Bool), s.tb.monitors = true ∧ Tab.get (fun _ => 0) s.tb.refFrom (bit01 b) + 100 * cycMs ≤ s.cyc ∧ s.refOk (bit01 b) = false ∧
      s.bit timeStatus 5 = false ∧ Tab.get (fun _ => false) s.tb.refBad s.refActive = false) ∧
    (∃ (s : State), s.fld (timeReg 0x48) 0 2 = 0 ∧ s.bit (timeReg 0x48) 3 = true ∧ s.refOk (s.fld (timeReg 0x48) 2 1) = true ∧ Tab.get (fun _ => 0)
      s.tb.refGoodAt (s.fld (timeReg 0x48) 2 1) + 10000 * cycMs ≤ s.cyc ∧ s.refActive ≠ s.fld (timeReg 0x48) 2 1) ∧
    (∃ (s : State), (s.bit (timeReg 0x48) 3 = false ∨ s.fld (timeReg 0x48) 0 2 ≠ 0 ∨ s.refOk (s.fld (timeReg 0x48) 2 1) = false)) ∧
    (∃ (w : Who) (s : State) (d : Word), Admitted w s ∧ fieldOf d 0 2 = 0 ∧ Tab.get (fun _ => false) s.tb.refBad s.refActive = false) ∧
    (∃ (w : Who) (s : State) (d : Word) (x : Nat), Admitted w s ∧ fieldOf d 0 2 = x + 1 ∧ x < 2 ∧ Tab.get (fun _ => false) s.tb.refBad x = false) ∧
    (∃ (w : Who) (s : State) (d : Word), Admitted w s ∧ (fieldOf d 0 2 = 3 ∨ (fieldOf d 0 2 ≠ 0 ∧ Tab.get (fun _ => false) s.tb.refBad (fieldOf d 0 2
      - 1) = true))) :=
  ⟨⟨z, by decide +kernel⟩,
   ⟨judging z, true, by decide +kernel⟩,
   ⟨losing 1, true, by decide +kernel⟩,
   ⟨(judging z).setBit timeStatus 4 true, false, by decide +kernel⟩,
   ⟨badRefs [(1, true)], false, by decide +kernel⟩,
   ⟨z, true, by decide +kernel⟩,
   ⟨(judging z).setBit timeStatus 5 true, true, by decide +kernel⟩,
   ⟨judging z, true, by decide +kernel⟩,
   ⟨{ (z.setReg (timeReg 0x48) 0xC).setBit timeStatus 4 true with cyc := 10000 * cycMs }, by decide +kernel⟩,
   ⟨z, by decide +kernel⟩,
   ⟨mcp, z, 0xFFFFFFFC, .inl ⟨rfl, rfl⟩, by decide +kernel⟩,
   ⟨mcp, z, 2, 1, .inl ⟨rfl, rfl⟩, by decide +kernel⟩,
   ⟨pcie, z, 3, .inr ⟨rfl, rfl, by decide +kernel⟩, by decide +kernel⟩⟩

theorem witness_LaunchesStampsAndPulses :
    (∃ (w : Who) (s : State) (p : Nat) (e : Stamp) (q : List Stamp), Admitted w s ∧ p < 40 ∧ Tab.get (fun _ => []) s.tb.txts p = e :: q) ∧
    (∃ (w : Who) (s : State) (p : Nat), Admitted w s ∧ p < 40 ∧ Tab.get (fun _ => []) s.tb.txts p = []) ∧
    (∃ (w : Who) (s : State) (i : Nat) (e : Stamp) (q : List Stamp), Admitted w s ∧ i < 2 ∧ Tab.get (fun _ => []) s.tb.caps i = e :: q) ∧
    (∃ (w : Who) (s : State) (i : Nat), Admitted w s ∧ i < 2 ∧ Tab.get (fun _ => []) s.tb.caps i = []) ∧
    (∃ (s : State) (n : Nat), n < 1024 ∧ s.gateOpenNow n = true) ∧
    (∃ (s : State) (n : Nat), n < 1024 ∧ s.gateOpenNow n = false) ∧
    (∃ (s : State) (n q : Nat), n < 1024 ∧ q = s.fld (launchAddr n) 8 9 ∧ s.bit (launchAddr n) 0 = true ∧ s.bit (launchAddr n) 1 = false ∧ s.onceEntry
      q = some n ∧ s.lqMode q = 2 ∧ s.queue q ≠ [] ∧ (s.reg (launchAddr n + 0x14)).toNat < (s.ns % trigSpan + bytesNs (s.linkSpeed (q / 8)) 8 +
      trigSpan - s.launchX n) % trigSpan ∧ (s.ns % trigSpan + bytesNs (s.linkSpeed (q / 8)) 8 + trigSpan - s.launchX n) % trigSpan < trigSpan / 2 ∧
      Tab.get (fun _ => false) s.sw.onceLate n = false ∧ s.bit (launchAddr n) 3 = false) ∧
    (∃ (s : State) (n q : Nat), n < 1024 ∧ q = s.fld (launchAddr n) 8 9 ∧ (s.bit (launchAddr n) 0 = false ∨ s.bit (launchAddr n) 1 = true ∨ s.queue q
      = [] ∨ (s.ns % trigSpan + bytesNs (s.linkSpeed (q / 8)) 8 + trigSpan - s.launchX n) % trigSpan ≤ (s.reg (launchAddr n + 0x14)).toNat)) ∧
    (∃ (w : Who) (s : State) (n : Nat) (d : Word), Admitted w s ∧ n < 1024 ∧ fieldOf d 8 9 ≤ 319 ∧ bitOf d 0 = true ∧ ((s.reg (launchAddr n +
      0x10)).toNat = 0 ∨ (s.reg (launchAddr n + 0x0C)).toNat ≤ (s.reg (launchAddr n + 0x10)).toNat)) ∧
    (∃ (w : Who) (s : State) (n : Nat) (d : Word), Admitted w s ∧ n < 1024 ∧ fieldOf d 8 9 ≤ 319 ∧ bitOf d 0 = false) ∧
    (∃ (w : Who) (s : State) (n : Nat) (d : Word), Admitted w s ∧ n < 1024 ∧ 319 < fieldOf d 8 9) ∧
    (∃ (w : Who) (s : State) (q : Nat) (d : Word), Admitted w s ∧ q < 320 ∧ fieldOf d 0 2 ≠ 3) ∧
    (∃ (w : Who) (s : State) (q : Nat) (d : Word), Admitted w s ∧ q < 320 ∧ fieldOf d 0 2 = 3) ∧
    (∃ (s : State) (o x : Nat), o < 2 ∧ s.ppsInstant o = some x ∧ s.bit (timeReg (0x400 + 0x40 * o)) 0 = true ∧ s.flt.f3 = false ∧ s.flt.f4 = false ∧
      Tab.get (fun _ => none) s.tb.ppsAt o ≠ some x) ∧
    (∃ (s : State) (o : Nat), o < 2 ∧ (s.bit (timeReg (0x400 + 0x40 * o)) 0 = false ∨ s.flt.f3 = true ∨ s.flt.f4 = true ∨ s.ppsInstant o = none)) ∧
    (∃ (s : State) (o : Nat), o < 2 ∧ Tab.get (fun _ => false) s.tb.ppsHigh o = true ∧ Tab.get (fun _ => 0) s.tb.ppsEnd o ≤ s.ns) ∧
    (∃ (s : State) (o : Nat), o < 2 ∧ (Tab.get (fun _ => false) s.tb.ppsHigh o = false ∨ s.ns < Tab.get (fun _ => 0) s.tb.ppsEnd o)) ∧
    (∃ (s : State) (i : Nat) (r : Bool), i < 2 ∧ s.bit (timeReg (0x500 + 0x40 * i)) (if r then 0 else 1) = true ∧ (Tab.get (fun _ => []) s.tb.caps
      i).length < 16) ∧
    (∃ (s : State) (i : Nat) (r : Bool), i < 2 ∧ s.bit (timeReg (0x500 + 0x40 * i)) (if r then 0 else 1) = true ∧ 16 ≤ (Tab.get (fun _ => [])
      s.tb.caps i).length) ∧
    (∃ (s : State) (i : Nat) (r : Bool), i < 2 ∧ s.bit (timeReg (0x500 + 0x40 * i)) (if r then 0 else 1) = false) :=
  ⟨⟨mcp, { z with tb := { z.tb with txts := [(39, [⟨7, 9⟩])] } }, 39, ⟨7, 9⟩, [], .inl ⟨rfl, rfl⟩, by decide +kernel⟩,
   ⟨mcp, z, 39, .inl ⟨rfl, rfl⟩, by decide +kernel⟩,
   ⟨mcp, { z with tb := { z.tb with caps := [(1, [⟨7, 9⟩])] } }, 1, ⟨7, 9⟩, [], .inl ⟨rfl, rfl⟩, by decide +kernel⟩,
   ⟨mcp, z, 1, .inl ⟨rfl, rfl⟩, by decide +kernel⟩,
   ⟨(z.setReg (launchAddr 1023) 3).setReg (launchAddr 1023 + 0x0C) 1, 1023, by decide +kernel⟩,
   ⟨z, 1023, by decide +kernel⟩,
   ⟨(({ sending 39 7 arriving' with time := 999 * nsUnit }).setReg (launchAddr 1023) (1 + 319 * 256)).setReg (lqAddr 319) 2, 1023, 319,
     by decide +kernel⟩,
   ⟨z, 1023, 0, by decide +kernel⟩,
   ⟨mcp, z, 1023, 0x13F01, .inl ⟨rfl, rfl⟩, by decide +kernel⟩,
   ⟨mcp, z, 1023, 0x13F0E, .inl ⟨rfl, rfl⟩, by decide +kernel⟩,
   ⟨mcp, z, 1023, 0x14000, .inl ⟨rfl, rfl⟩, by decide +kernel⟩,
   ⟨mcp, z, 319, 2, .inl ⟨rfl, rfl⟩, by decide +kernel⟩,
   ⟨mcp, z, 319, 3, .inl ⟨rfl, rfl⟩, by decide +kernel⟩,
   ⟨z.setReg (timeReg 0x440) 1, 1, 0, by decide +kernel⟩,
   ⟨z, 1, by decide +kernel⟩,
   ⟨{ z with tb := { z.tb with ppsHigh := [(1, true)] } }, 1, by decide +kernel⟩,
   ⟨z, 1, by decide +kernel⟩,
   ⟨{ z.setReg (timeReg 0x540) 3 with tb := { z.tb with caps := [(1, List.replicate 15 ⟨0, 0⟩)] } }, 1, true, by decide +kernel⟩,
   ⟨{ z.setReg (timeReg 0x540) 3 with tb := { z.tb with caps := [(1, List.replicate 16 ⟨0, 0⟩)] } }, 1, false, by decide +kernel⟩,
   ⟨z, 1, true, by decide +kernel⟩⟩

theorem witness_StationsKeepTheirCycle :
    (∃ (w : Who) (s : State) (r : Nat) (d : Word), Admitted w s ∧ r < 4 ∧ s.ctxOn r = false ∧ bitOf d 0 = true ∧ s.ctxEnableOk r d = true) ∧
    (∃ (w : Who) (s : State) (r : Nat) (d : Word), Admitted w s ∧ r < 4 ∧ bitOf d 0 = true ∧ (s.ctxOn r = true ∨ s.ctxEnableOk r d = false)) ∧
    (∃ (w : Who) (s : State) (r : Nat) (d : Word), Admitted w s ∧ r < 4 ∧ s.ctxOn r = true ∧ bitOf d 0 = false ∧ fieldOf d 1 2 ≠ 3 ∧ (s.ctx r).wins =
      []) ∧
    (∃ (w : Who) (s : State) (r : Nat) (d : Word), Admitted w s ∧ r < 4 ∧ fieldOf d 1 2 = 3) ∧
    (∃ (s : State) (r x c : Nat), r < 4 ∧ s.ctxOn r = true ∧ (s.ctx r).running = true ∧ s.leadSends r = true ∧ s.buildDue r = some (x, c)) ∧
    (∃ (s : State) (r : Nat), r < 4 ∧ (s.ctxOn r = false ∨ (s.ctx r).running = false ∨ s.leadSends r = false ∨ s.buildDue r = none)) ∧
    (∃ (s : State) (r i p : Nat), r < 4 ∧ i < 4096 ∧ p < 40 ∧ s.stationPort r p = true ∧ (s.ctx r).running = true ∧ (s.slots r).contains i = true ∧
      (s.ctx r).released ≤ i ∧ (s.ctx r).triedSlot ≠ i + 1 ∧ s.slotAt r i ≤ s.ns + bytesNs (s.linkSpeed p) 8 ∧ s.ns + bytesNs (s.linkSpeed p) 8 <
      s.slotAt r i + 10 ∧ s.queue (8 * p + s.rq r) = [] ∧ s.portSet r 0x08 = 2 ^ p ∧ s.slotKind r (s.bankOf r) i = 2 ∧ s.slotOwner r (s.bankOf r) i =
      s.nodeId r) ∧
    (∃ (s : State) (r i p : Nat), r < 4 ∧ i < 4096 ∧ p < 40 ∧ s.stationPort r p = true ∧ (s.ctx r).running = true ∧ (s.slots r).contains i = true ∧
      (s.ctx r).released ≤ i ∧ (s.ctx r).triedSlot ≠ i + 1 ∧ s.slotAt r i ≤ s.ns + bytesNs (s.linkSpeed p) 8 ∧ s.ns + bytesNs (s.linkSpeed p) 8 <
      s.slotAt r i + 10 ∧ s.queue (8 * p + s.rq r) = [] ∧ s.portSet r 0x08 &&& 2 ^ p ≠ s.portSet r 0x08) ∧
    (∃ (s : State) (r i p : Nat), r < 4 ∧ i < 4096 ∧ p < 40 ∧ i < (s.ctx r).released) ∧
    (∃ (s : State) (r i p n : Nat) (c : Copy) (cs : List Copy) (x : Frame), r < 4 ∧ i < 4096 ∧ p < 40 ∧ s.stationPort r p = true ∧ (s.ctx r).running =
      true ∧ (s.slots r).contains i = true ∧ (s.ctx r).released ≤ i ∧ (s.ctx r).triedSlot ≠ i + 1 ∧ s.overage (8 * p + s.rq r) c = false ∧
      s.creditLeft p = true ∧ n = min (portCredits p - Tab.get (fun _ => 0) s.sw.creditsOut p) (max 1 x.cells) ∧ s.slotAt r i ≤ s.ns + bytesNs
      (s.linkSpeed p) 8 ∧ s.ns + bytesNs (s.linkSpeed p) 8 < s.slotAt r i + 10 ∧ s.queue (8 * p + s.rq r) = c :: cs ∧ s.frame c.frame = some x ∧
      c.after = none ∧ s.tx p = none ∧ s.portSends p = true ∧ x.arriving = false ∧ s.pauseHeld (8 * p + s.rq r) = false ∧ s.slotMatches r i (c.base
      x.bytes) = true ∧ s.ns + s.wireNs p (c.length x) ≤ s.slotEnd r i ∧ s.tooLong p (s.rq r) c x = false ∧ s.lqMode (8 * p + s.rq r) ≠ 2 ∧ Tab.get
      (fun _ => none) s.sw.shapers (8 * p + s.rq r) = none ∧ s.copyPtp c x = none ∧ x.limit = none ∧ s.bit (pcfg p) 25 = false ∧ c.egress = p) ∧
    (∃ (s : State) (r i p : Nat), r < 4 ∧ i < 4096 ∧ p < 40 ∧ (s.stationPort r p = false ∨ (s.ctx r).running = false ∨ (s.slots r).contains i =
      false)) ∧
    (∃ (s : State) (r : Nat) (x : RopeRef), r < 4 ∧ (s.ctx r).carry = none ∧ s.refPending r = some x ∧ s.refTime r = true ∧ (s.ctx r).took = false ∧
      x.poll.length = 128) ∧
    (∃ (s : State) (r : Nat) (y : RefCarry) (x : RopeRef), r < 4 ∧ (s.ctx r).carry = some y ∧ s.ctxOn r = true ∧ y.due ≤ s.ns ∧ s.refOfCycle r y =
      some x ∧ s.acting r = false ∧ x.poll.length = 128) ∧
    (∃ (s : State) (r : Nat) (y : RefCarry), r < 4 ∧ (s.ctx r).carry = some y ∧ (s.ctxOn r = false ∨ s.ns < y.due)) ∧
    (∃ (s : State) (r : Nat), r < 4 ∧ (s.ctx r).carry = none ∧ (s.refPending r = none ∨ s.refTime r = false ∨ (s.ctx r).took = true)) ∧
    (∃ (s : State) (r : Nat), r < 4 ∧ (s.ctx r).carry = none ∧ s.refTime r = true ∧ (s.ctx r).took = false ∧ (s.ctx r).closed = false ∧ s.refPending r
      = none) ∧
    (∃ (s : State) (r : Nat), r < 4 ∧ (s.ctx r).carry = none ∧ (s.refTime r = false ∨ (s.ctx r).took = true ∨ (s.ctx r).closed = true)) ∧
    (∃ (s : State) (r : Nat), r < 4 ∧ s.ctxOn r = true ∧ s.isLead r = true ∧ s.station r = 1 ∧ (2 + 2 * s.leadRank r) * s.cycleNs r ≤ 2 * (s.cyc -
      (s.ctx r).listenAt)) ∧
    (∃ (s : State) (r : Nat), r < 4 ∧ (s.ctxOn r = false ∨ s.isLead r = false ∨ s.station r ≠ 1)) :=
  ⟨⟨mcp, ((rope cycling).setReg (ctxReg 3 0) 0).setReg (portReg 0 0) 2 |>.setReg (portReg 1 0) 2 |>.setReg (ctxReg 3 0x60) 7, 3, 0x25 + 7 * 65536,
     .inl ⟨rfl, rfl⟩, by decide +kernel⟩,
   ⟨mcp, z, 3, 7, .inl ⟨rfl, rfl⟩, by decide +kernel⟩,
   ⟨mcp, rope cycling, 3, 0, .inl ⟨rfl, rfl⟩, by decide +kernel⟩,
   ⟨mcp, rope cycling, 3, 6, .inl ⟨rfl, rfl⟩, by decide +kernel⟩,
   ⟨ropeAt cycling 6000, 3, 10000, 0, by decide +kernel⟩,
   ⟨z, 3, by decide +kernel⟩,
   ⟨ropeAt cycling 29936, 3, 1, 0, by decide +kernel⟩,
   ⟨(ropeAt cycling 29936).setReg (ctxReg 3 8) 3, 3, 1, 0, by decide +kernel⟩,
   ⟨ropeAt { cycling with released := 2 } 29936, 3, 1, 0, by decide +kernel⟩,
   ⟨((ropeAt cycling 29936).setFrame 0 (some ropeFrame) |>.setQueue 7 [copyTo 0]).setFld (ctxReg 3 0x40) 0 3 4, 3, 1, 0, 1, copyTo 0, [], ropeFrame,
     by decide +kernel⟩,
   ⟨z, 3, 4095, 39, by decide +kernel⟩,
   ⟨ropeAt { cycling with heard := some ref7 } 22000, 3, ref7, by decide +kernel⟩,
   ⟨ropeAt { cycling with carry := some ⟨22000, some ref7, none, none, false⟩ } 22000, 3, ⟨22000, some ref7, none, none, false⟩, ref7,
     by decide +kernel⟩,
   ⟨ropeAt { cycling with carry := some ⟨22001, some ref7, none, none, false⟩ } 22000, 3, ⟨22001, some ref7, none, none, false⟩, by decide +kernel⟩,
   ⟨z, 3, by decide +kernel⟩,
   ⟨ropeAt cycling 22000, 3, by decide +kernel⟩,
   ⟨z, 3, by decide +kernel⟩,
   ⟨{ (rope CtxSt.reset).setReg (ctxReg 3 0x40) 1 with cyc := 1000000 }, 3, by decide +kernel⟩,
   ⟨z, 3, by decide +kernel⟩⟩

theorem witness_AnchorsGuardTheRope :
    (∃ (s : State) (r i : Nat), r < 4 ∧ i ≤ 4096 ∧ s.ctxOn r = true ∧ s.anchor r = 3 ∧ (s.ctx r).running = true ∧ (s.slots r).contains i = true ∧
      s.slotKind r (s.bankOf r) i ≠ 4 ∧ s.openPorts r i ≠ [] ∧ s.winStart r i ≤ s.ns ∧ s.ns < s.winEnd r i ∧ s.win r i = none ∧ (s.ctx
      r).ended.contains i = false ∧ s.fld (ropeReg 0x28) 0 16 < 65535) ∧
    (∃ (s : State) (r i : Nat), r < 4 ∧ i ≤ 4096 ∧ (s.ctxOn r = false ∨ s.anchor r ≠ 3 ∨ (s.ctx r).running = false ∨ (slotForms i).find? (s.windowNow
      r) = none)) ∧
    (∃ (s : State) (r i j : Nat), r < 4 ∧ i ≤ 4096 ∧ (slotForms i).find? (s.windowNow r) = some j ∧ (s.win r j ≠ none ∨ (s.ctx r).ended.contains j =
      true)) ∧
    (∃ (s : State) (r i : Nat) (w : RopeWin), r < 4 ∧ i < 4096 ∧ s.win r i = some w ∧ w.rivals = [] ∧ w.used = false ∧ s.winEnd r i + s.unjudgedNs r i
      ≤ s.ns) ∧
    (∃ (s : State) (r i : Nat) (w : RopeWin), r < 4 ∧ i < 4096 ∧ s.win r i = some w ∧ w.rivals = [] ∧ w.used = true ∧ s.winEnd r i + s.unjudgedNs r i
      ≤ s.ns) ∧
    (∃ (s : State) (r i : Nat), r < 4 ∧ i ≤ 4096 ∧ (i = 4096 ∨ (slotForms i).find? (s.windowDone r) = none)) ∧
    (∃ (s : State) (r f : Nat) (w : RopeWin) (x : Frame), r < 4 ∧ (s.ctx r).wins = [w] ∧ w.rivals = [f] ∧ w.used = false ∧ s.frame f = some x ∧ x.bad
      = false ∧ x.arriving = true ∧ x.late = false ∧ w.slot < staleSlot ∧ x.stamp / nsUnit + 640 ≤ s.ns) ∧
    (∃ (s : State) (r : Nat), r < 4 ∧ (s.ctx r).wins = []) ∧
    (∃ (s : State) (p f r lim : Nat) (y : Rx) (x : Frame), p < 40 ∧ s.rx p = some y ∧ y.frame = some f ∧ s.frame f = some x ∧ x.limit = some (lim, r)
      ∧ r < 4 ∧ x.waits = false ∧ x.late = false ∧ x.bad = false ∧ x.reason = 0 ∧ x.arriving = true ∧ lim ≤ s.ns ∧ s.anchor r = 3 ∧ s.fld (aport p 0)
      1 2 < 2 ∧ s.isQueued f = false) ∧
    (∃ (s : State) (p f r lim : Nat) (y : Rx) (x : Frame), p < 40 ∧ s.rx p = some y ∧ y.frame = some f ∧ s.frame f = some x ∧ x.limit = some (lim, r)
      ∧ r < 4 ∧ x.waits = false ∧ x.late = false ∧ x.bad = false ∧ x.arriving = true ∧ lim ≤ s.ns ∧ s.anchor r = 3 ∧ 2 ≤ s.fld (aport p 0) 1 2 ∧
      s.isQueued f = false) ∧
    (∃ (s : State) (p f r lim : Nat) (y : Rx) (x : Frame), p < 40 ∧ s.rx p = some y ∧ y.frame = some f ∧ s.frame f = some x ∧ x.limit = some (lim, r)
      ∧ x.waits = true ∧ x.late = false ∧ x.bad = false ∧ x.arriving = true ∧ lim ≤ s.ns) ∧
    (∃ (s : State) (p : Nat), p < 40 ∧ s.rx p = none) ∧
    (∃ (s : State) (p f r lim : Nat) (y : Rx) (x : Frame), p < 40 ∧ s.rx p = some y ∧ y.frame = some f ∧ s.frame f = some x ∧ x.limit = some (lim, r)
      ∧ s.ns < lim) ∧
    (∃ (s : State) (r : Nat), r < 4 ∧ s.ctxOn r = true ∧ s.anchor r = 2 ∧ 8 ≤ (s.ctx r).lockMiss) ∧
    (∃ (s : State) (r : Nat), r < 4 ∧ (s.anchor r ≠ 2 ∨ (s.ctx r).lockMiss < 8)) ∧
    (∃ (w : Who) (s : State) (p : Nat), Admitted w s ∧ p < 40) :=
  ⟨⟨ropeAt cycling 50000, 3, 2, by decide +kernel⟩,
   ⟨z, 3, 4096, by decide +kernel⟩,
   ⟨ropeAt { cycling with wins := [⟨2, 0, false, []⟩] } 50000, 3, 2, 2, by decide +kernel⟩,
   ⟨(ropeAt { cycling with wins := [⟨1, 0, false, []⟩] } 60000).setReg (ropeReg 0x28) 1, 3, 1, ⟨1, 0, false, []⟩, by decide +kernel⟩,
   ⟨ropeAt { cycling with wins := [⟨1, 0, true, []⟩] } 60000, 3, 1, ⟨1, 0, true, []⟩, by decide +kernel⟩,
   ⟨z, 3, 4096, by decide +kernel⟩,
   ⟨{ (rope { cycling with wins := [⟨2, 0, false, [0]⟩] }).setFrame 0 (some { arriving with ingress := 1 }) with time := 640 * nsUnit }, 3, 0, ⟨2, 0,
     false, [0]⟩, { arriving with ingress := 1 }, by decide +kernel⟩,
   ⟨z, 3, by decide +kernel⟩,
   ⟨limiting (ropeAt cycling 5), 1, 0, 3, 5, ⟨zeros 64, some 0, false⟩, limited, by decide +kernel⟩,
   ⟨(limiting (ropeAt cycling 5)).setReg (aport 1 0) 4, 1, 0, 3, 5, ⟨zeros 64, some 0, false⟩, limited, by decide +kernel⟩,
   ⟨((ropeAt cycling 5).setFrame 0 (some { limited with waits := true })).setRx 1 (some ⟨zeros 64, some 0, false⟩), 1, 0, 3, 5, ⟨zeros 64, some 0,
     false⟩, { limited with waits := true }, by decide +kernel⟩,
   ⟨z, 39, by decide +kernel⟩,
   ⟨limiting (ropeAt cycling 4), 1, 0, 3, 5, ⟨zeros 64, some 0, false⟩, limited, by decide +kernel⟩,
   ⟨(rope { cycling with lockMiss := 8 }).setReg (ctxReg 3 0x40) 0x23, 3, by decide +kernel⟩,
   ⟨z, 3, by decide +kernel⟩,
   ⟨mcp, z, 39, .inl ⟨rfl, rfl⟩, by decide +kernel⟩⟩

theorem witness_TraverseTakesItsCommands :
    (∃ (w : Who) (s : State) (a : Nat), Admitted w s ∧ a < 64) ∧
    (∃ (w : Who) (s : State) (a n : Nat) (d : Word), Admitted w s ∧ a < 64 ∧ fieldOf d 0 13 = n ∧ n < s.ahead.segSize a ∧ s.ahead.segQueued a
      (s.ahead.segWr a) ≤ s.ahead.segQueued a n) ∧
    (∃ (w : Who) (s : State) (a n : Nat) (d : Word), Admitted w s ∧ a < 64 ∧ fieldOf d 0 13 = n ∧ s.ahead.segSize a ≤ n) ∧
    (∃ (w : Who) (s : State) (a n : Nat) (d : Word), Admitted w s ∧ a < 64 ∧ fieldOf d 0 13 = n ∧ n < s.ahead.segSize a ∧ s.ahead.segQueued a n <
      s.ahead.segQueued a (s.ahead.segWr a)) ∧
    (∃ (w : Who) (s : State) (a : Nat) (d : Word), Admitted w s ∧ a < 64 ∧ fieldOf d 0 2 ≠ 0 ∧ (s.axis a).changes.length < 16) ∧
    (∃ (w : Who) (s : State) (a : Nat) (d : Word), Admitted w s ∧ a < 64 ∧ fieldOf d 0 2 = 0) ∧
    (∃ (w : Who) (s : State) (a : Nat) (d : Word), Admitted w s ∧ a < 64 ∧ fieldOf d 0 2 ≠ 0 ∧ 16 ≤ (s.axis a).changes.length) ∧
    (∃ (w : Who) (s : State) (g : Nat) (d : Word) (ts : List (Nat × Int)), Admitted w s ∧ g < 8 ∧ bitOf d 0 = true ∧ ts = s.groupTargets g ∧
      s.groupAllowed g ts = true ∧ s.trav.cmds.all (fun o => !TravOrder.claims g ts o) = true) ∧
    (∃ (w : Who) (s : State) (g : Nat) (d : Word) (ts : List (Nat × Int)), Admitted w s ∧ g < 8 ∧ bitOf d 0 = true ∧ ts = s.groupTargets g ∧
      (s.groupAllowed g ts = false ∨ s.trav.cmds.any (TravOrder.claims g ts) = true)) ∧
    (∃ (w : Who) (s : State) (g : Nat) (d : Word), Admitted w s ∧ g < 8 ∧ bitOf d 0 = false) ∧
    (∃ (w : Who) (s : State) (a : Nat), Admitted w s ∧ a < 64) ∧
    (∃ (s : State) (a : Nat), a < 64 ∧ s.axisOn a = true ∧ s.fld (axisReg a 0xA8) 0 16 ≠ 0 ∧ (s.axis a).v ≠ 0 ∧ (s.axis a).state = 1 ∧ (s.axis a).kick
      + s.fld (axisReg a 0xA8) 0 16 ≤ (s.count (tickReg 0x30)).toNat ∧ s.trav.groups = []) ∧
    (∃ (s : State) (a : Nat), a < 64 ∧ (s.axisOn a = false ∨ s.fld (axisReg a 0xA8) 0 16 = 0 ∨ (s.axis a).moving = false ∨ (s.count (tickReg
      0x30)).toNat < (s.axis a).kick + s.fld (axisReg a 0xA8) 0 16)) :=
  ⟨⟨mcp, z, 63, .inl ⟨rfl, rfl⟩, by decide +kernel⟩,
   ⟨pcie, (lone az).setReg (axisReg 63 0x2C) 0, 63, 15, 15, .inr ⟨rfl, rfl, by decide +kernel⟩, by decide +kernel⟩,
   ⟨mcp, lone az, 63, 16, 16, .inl ⟨rfl, rfl⟩, by decide +kernel⟩,
   ⟨mcp, (lone az).setReg (axisReg 63 0x2C) 2, 63, 1, 1, .inl ⟨rfl, rfl⟩, by decide +kernel⟩,
   ⟨mcp, lone az, 63, 3, .inl ⟨rfl, rfl⟩, by decide +kernel⟩,
   ⟨mcp, z, 63, 4, .inl ⟨rfl, rfl⟩, by decide +kernel⟩,
   ⟨pcie, fullGear, 63, 3, .inr ⟨rfl, rfl, by decide +kernel⟩, by decide +kernel⟩,
   ⟨mcp, grouped, 7, 1, [(62, 0x20000), (63, 0x10000)], .inl ⟨rfl, rfl⟩, by decide +kernel⟩,
   ⟨mcp, z, 7, 1, [], .inl ⟨rfl, rfl⟩, by decide +kernel⟩,
   ⟨pcie, grouped, 7, 0, .inr ⟨rfl, rfl, by decide +kernel⟩, by decide +kernel⟩,
   ⟨mcp, z, 63, .inl ⟨rfl, rfl⟩, by decide +kernel⟩,
   ⟨{ lone going with cnts := [(tickReg 0x30, 4)] }, 63, by decide +kernel⟩,
   ⟨{ lone going with cnts := [(tickReg 0x30, 3)] }, 63, by decide +kernel⟩⟩

theorem witness_AxesMoveOnTheGrid :
    (∃ (s : State) (g : Int), s.trav.grid = some g ∧ s.gridTime ≤ g) ∧
    (∃ (s : State) (a : Nat) (t : Int) (g : MotionSeg), AloneOnGrid s a t ∧ s.trav.cmds = [] ∧ (s.axis a).state = 1 ∧ (s.axis a).seg = some g ∧ t <
      g.start + Int.ofNat g.len) ∧
    (∃ (s : State) (a : Nat) (t : Int), AloneOnGrid s a t ∧ s.trav.cmds = [] ∧ (s.axis a).state = 0 ∧ (s.axis a).seg = none) ∧
    (∃ (s : State) (a : Nat) (t x : Int) (g : MotionSeg), AloneOnGrid s a t ∧ s.trav.cmds = [.cmd a 1 x] ∧ (s.axis a).state = 0 ∧ (s.axis a).seg =
      none ∧ s.segWaits a = true ∧ g = s.segAt a (s.segRd a) (s.axis a).p (s.axis a).v t ∧ 0 < g.len ∧ g.speedOk (s.reg (axisReg a 0x0C)).toNat = true
      ∧ g.accelOk (s.amax a).num = true ∧ g.limitsOk (s.posMin a) (s.posMax a) = true ∧ 0 < s.segSize a ∧ s.segSize a ≤ 8192) ∧
    (∃ (s : State) (a : Nat) (t x : Int) (g : MotionSeg), AloneOnGrid s a t ∧ s.trav.cmds = [.cmd a 3 x] ∧ (s.axis a).state = 1 ∧ (s.axis a).seg =
      some g ∧ t < g.start + Int.ofNat g.len ∧ g.vel (t - g.start) ≠ 0) ∧
    (∃ (s : State) (a : Nat) (t x : Int), AloneOnGrid s a t ∧ s.trav.cmds = [.cmd a 4 x] ∧ (s.axis a).state = 0 ∧ (s.axis a).seg = none) ∧
    (∃ (s : State) (a : Nat) (t x : Int), AloneOnGrid s a t ∧ s.trav.cmds = [.cmd a 5 x] ∧ (s.axis a).state = 0 ∧ (s.axis a).seg = none ∧ s.gearKind a
      = 0) ∧
    (∃ (s : State) (a : Nat) (t x : Int), AloneOnGrid s a t ∧ s.trav.cmds = [.cmd a 6 x] ∧ (s.axis a).state = 6 ∧ (s.axis a).seg = none) ∧
    (∃ (s : State) (a : Nat) (t x : Int), AloneOnGrid s a t ∧ s.trav.cmds = [.cmd a 2 x] ∧ (s.axis a).state = 0 ∧ (s.axis a).seg = none ∧ (x <
      s.posMin a ∨ s.posMax a < x)) ∧
    (∃ (s : State) (a : Nat) (t : Int) (n : Nat), AloneOnGrid s a t ∧ s.trav.cmds = [.segWr a n] ∧ (s.axis a).state = 0 ∧ (s.axis a).seg = none ∧ n <
      s.segSize a ∧ s.segSize a ≤ 8192) ∧
    (∃ (s : State) (a : Nat) (t : Int) (i k : Nat) (d : Word), AloneOnGrid s a t ∧ i < 8192 ∧ k < 4 ∧ s.trav.cmds = [.seg (travReg (0x100000 + 16 * i
      + 4 * k)) d] ∧ (s.axis a).state = 0 ∧ (s.axis a).seg = none) ∧
    (∃ (s : State) (a g : Nat) (t x : Int), AloneOnGrid s a t ∧ g < 8 ∧ s.trav.cmds = [.go g [(a, x)]] ∧ (s.axis a).state = 0 ∧ (s.axis a).seg = none
      ∧ s.groupAllowed g [(a, x)] = true ∧ x ≠ (s.axis a).p ∧ s.amax a ≠ ⟨0, 1⟩ ∧ s.segWr a < s.segSize a ∧ s.segBase a + s.segSize a ≤ 8192) ∧
    (∃ (s : State) (a g : Nat) (t : Int) (ts : List (Nat × Int)), AloneOnGrid s a t ∧ g < 8 ∧ s.trav.cmds = [.go g ts] ∧ (s.axis a).state = 0 ∧
      (s.axis a).seg = none ∧ s.groupAllowed g ts = false) ∧
    (∃ (s : State) (a : Nat) (g : MotionSeg), a < 64 ∧ (s.axis a).state = 5 ∧ (s.axis a).captured = none ∧ s.axisOn a = true ∧ s.limFlag a 16 = true ∧
      (s.axis a).seg = some g ∧ s.motionNs < g.start + Int.ofNat g.len ∧ g.vel (s.motionNs - g.start) ≠ 0) ∧
    (∃ (s : State) (a : Nat), a < 64 ∧ ((s.axis a).state ≠ 5 ∨ (s.axis a).captured ≠ none ∨ s.axisOn a = false ∨ s.limFlag a 16 = false)) ∧
    (∃ (s : State) (xs : List Setpoint), s.trav.spNew = some xs ∧ xs.Pairwise (fun x y => x.axis ≠ y.axis) ∧ (∀ x, x ∈ xs → x.axis < 64)) ∧
    (∃ (s : State), s.trav.spNew = none) :=
  ⟨⟨{ lone going with trav := { (lone going).trav with grid := some 5000 } }, 5000, by decide +kernel⟩,
   ⟨lone going, 63, 5000, even, ⟨by decide +kernel, by decide, by decide +kernel, by decide +kernel, by decide +kernel, by decide +kernel,
     by decide +kernel, by decide +kernel, by decide +kernel, by decide +kernel, before (by decide +kernel)⟩, by decide +kernel⟩,
   ⟨lone' az [], 63, 5000, ⟨by decide +kernel, by decide, by decide +kernel, by decide +kernel, by decide +kernel, by decide +kernel,
     by decide +kernel, by decide +kernel, by decide +kernel, by decide +kernel, before (by decide +kernel)⟩, by decide +kernel⟩,
   ⟨lone' az [.cmd 63 1 (0)], 63, 5000, 0, (lone az).segAt 63 0 0 0 5000, ⟨by decide +kernel, by decide, by decide +kernel, by decide +kernel,
     by decide +kernel, by decide +kernel, by decide +kernel, by decide +kernel, by decide +kernel, by decide +kernel, before (by decide +kernel)⟩,
     by decide +kernel⟩,
   ⟨lone' going [.cmd 63 3 (0)], 63, 5000, 0, even, ⟨by decide +kernel, by decide, by decide +kernel, by decide +kernel, by decide +kernel,
     by decide +kernel, by decide +kernel, by decide +kernel, by decide +kernel, by decide +kernel, before (by decide +kernel)⟩, by decide +kernel⟩,
   ⟨lone' az [.cmd 63 4 (0)], 63, 5000, 0, ⟨by decide +kernel, by decide, by decide +kernel, by decide +kernel, by decide +kernel, by decide +kernel,
     by decide +kernel, by decide +kernel, by decide +kernel, by decide +kernel, before (by decide +kernel)⟩, by decide +kernel⟩,
   ⟨lone' { az with p := 70000 } [.cmd 63 5 (0)], 63, 5000, 0, ⟨by decide +kernel, by decide, by decide +kernel, by decide +kernel, by decide +kernel,
     by decide +kernel, by decide +kernel, by decide +kernel, by decide +kernel, by decide +kernel, before (by decide +kernel)⟩, by decide +kernel⟩,
   ⟨lone' { az with state := 6 } [.cmd 63 6 (0)], 63, 5000, 0, ⟨by decide +kernel, by decide, by decide +kernel, by decide +kernel, by decide +kernel,
     by decide +kernel, by decide +kernel, by decide +kernel, by decide +kernel, by decide +kernel, before (by decide +kernel)⟩, by decide +kernel⟩,
   ⟨lone' az [.cmd 63 2 (-281474976710657)], 63, 5000, -281474976710657, ⟨by decide +kernel, by decide, by decide +kernel, by decide +kernel,
     by decide +kernel, by decide +kernel, by decide +kernel, by decide +kernel, by decide +kernel, by decide +kernel, before (by decide +kernel)⟩,
     by decide +kernel⟩,
   ⟨lone' az [.segWr 63 2], 63, 5000, 2, ⟨by decide +kernel, by decide, by decide +kernel, by decide +kernel, by decide +kernel, by decide +kernel,
     by decide +kernel, by decide +kernel, by decide +kernel, by decide +kernel, before (by decide +kernel)⟩, by decide +kernel⟩,
   ⟨lone' az [.seg (travReg 0x11FFFC) 0xFFFFFFFF], 63, 5000, 8191, 3, 0xFFFFFFFF, ⟨by decide +kernel, by decide, by decide +kernel, by decide +kernel,
     by decide +kernel, by decide +kernel, by decide +kernel, by decide +kernel, by decide +kernel, by decide +kernel, before (by decide +kernel)⟩,
     by decide +kernel⟩,
   ⟨lone' az [.go 7 [(63, 0x10000)]], 63, 7, 5000, 0x10000, ⟨by decide +kernel, by decide, by decide +kernel, by decide +kernel, by decide +kernel,
     by decide +kernel, by decide +kernel, by decide +kernel, by decide +kernel, by decide +kernel, before (by decide +kernel)⟩, by decide +kernel⟩,
   ⟨lone' az [.go 7 []], 63, 7, 5000, [], ⟨by decide +kernel, by decide, by decide +kernel, by decide +kernel, by decide +kernel, by decide +kernel,
     by decide +kernel, by decide +kernel, by decide +kernel, by decide +kernel, before (by decide +kernel)⟩, by decide +kernel⟩,
   ⟨homing (lone { going with state := 5 }), 63, even, by decide +kernel⟩,
   ⟨lone { going with state := 5 }, 63, by decide +kernel⟩,
   ⟨{ lone az with trav := { (lone az).trav with spNew := some [⟨63, 7, none⟩, ⟨0, 1, some (9, -3)⟩] } }, [⟨63, 7, none⟩, ⟨0, 1, some (9, -3)⟩],
     by decide +kernel⟩,
   ⟨z, by decide +kernel⟩⟩

theorem witness_FaultsAreCollected :
    (∃ (s : State) (c : Nat) (e : Event), c < 16 ∧ s.flt.detected.find? (onLine (0x44 + c) 2) = some e ∧ e.broken = false ∧ e.waits = false) ∧
    (∃ (s : State) (src : Nat) (e : Event), src ≤ 0x6C ∧ s.flt.detected.find? (onLine src 3) = some e) ∧
    (∃ (s : State) (src cls : Nat), src ≤ 0x6C ∧ cls ≤ 1 ∧ s.flt.detected.find? (onLine src cls) = none ∧ s.flt.injection = none) ∧
    (∃ (s : State) (src cls : Nat), src ≤ 0x6C ∧ 2 ≤ cls ∧ cls ≤ 4 ∧ canRaise src cls = true ∧ s.lineBroken src cls = false) ∧
    (∃ (s : State) (src cls : Nat), src ≤ 0x6C ∧ cls ≤ 4 ∧ (cls < 2 ∨ canRaise src cls = false ∨ s.lineBroken src cls = true)) ∧
    (∃ (s : State) (src cls : Nat), src ≤ 0x6C ∧ cls ≤ 4 ∧ s.testDue src cls = false) ∧
    (∃ (s : State) (src cls : Nat) (b : Bool), src ≤ 0x6C ∧ 2 ≤ cls ∧ cls ≤ 4 ∧ canRaise src cls = true ∧ s.lineBroken src cls = false ∧ s.testDue src
      cls = true ∧ (b = true ∨ Tab.get (fun _ => false) s.flt.missed (lineKey src cls) = false)) ∧
    (∃ (s : State) (src cls : Nat), src ≤ 0x6C ∧ 2 ≤ cls ∧ cls ≤ 4 ∧ canRaise src cls = true ∧ s.lineBroken src cls = false ∧ s.testDue src cls = true
      ∧ Tab.get (fun _ => false) s.flt.missed (lineKey src cls) = true) ∧
    (∃ (s : State) (e : Event) (rest : List Event), s.flt.bus = e :: rest ∧ e.inj = false ∧ (e.cls ≤ 2 → (Tab.get (fun _ => ⟨0, 0⟩) s.flt.burst
      e.src).events < s.fld (fltReg 0x08) 8 8) ∧ tallied s.flt.queue.length e.cls = false) ∧
    (∃ (s : State) (e : Event) (rest : List Event), s.flt.bus = e :: rest ∧ e.inj = false ∧ e.cls ≤ 2 ∧ e.src ≤ 0x6C ∧ (Tab.get (fun _ => ⟨0, 0⟩)
      s.flt.burst e.src).window = s.cyc / cycMs ∧ s.fld (fltReg 0x08) 8 8 ≤ (Tab.get (fun _ => ⟨0, 0⟩) s.flt.burst e.src).events ∧ (s.reg (tallyAddr
      e.src + 4 * e.cls)).toNat < 0xFFFFFFFE) ∧
    (∃ (s : State), s.flt.bus = []) ∧
    (∃ (w : Who) (s : State) (d : Word), ByMcp w ∧ s.flt.injection = none ∧ 2 ≤ fieldOf d 8 3 ∧ fieldOf d 8 3 ≤ 4 ∧ canRaise (fieldOf d 0 7) (fieldOf
      d 8 3) = true ∧ bitOf d 30 = true ∧ s.injAccepted (fieldOf d 12 2) (fieldOf d 8 3) = true) ∧
    (∃ (w : Who) (s : State), ByMcp w ∧ s.flt.injection ≠ none) ∧
    (∃ (w : Who) (s : State), Admitted w s ∧ isHost w = true) ∧
    (∃ (s : State) (i : Injection), s.flt.injection = some i ∧ i.seen = false ∧ i.real = false ∧ i.starts + cycUs ≤ s.cyc ∧ s.lineBroken i.src i.cls =
      false) ∧
    (∃ (s : State), (s.flt.injection = none ∨ (∃ i, s.flt.injection = some i ∧ (i.seen = true ∨ s.cyc < i.starts + cycUs)))) ∧
    (∃ (s : State) (i : Injection), s.flt.injection = some i ∧ i.ends ≤ s.cyc) ∧
    (∃ (s : State), (s.flt.injection = none ∨ (∃ i, s.flt.injection = some i ∧ s.cyc < i.ends))) ∧
    (∃ (s : State) (u : Nat), s.flt.intUntil = some u ∧ u ≤ s.cyc ∧ s.flt.intWaits = false) ∧
    (∃ (s : State) (u : Nat), s.flt.intUntil = some u ∧ u ≤ s.cyc ∧ s.flt.intWaits = true ∧ s.epTarget 1 ≠ 0) ∧
    (∃ (s : State), (s.flt.intUntil = none ∨ (∃ u, s.flt.intUntil = some u ∧ s.cyc < u))) :=
  ⟨⟨withFlt (fun f => { f with detected := [ev 0x44 2, ev 0x53 2] }), 15, ev 0x53 2, by decide +kernel⟩,
   ⟨withFlt (fun f => { f with detected := [ev 0x6C 3] }), 0x6C, ev 0x6C 3, by decide +kernel⟩,
   ⟨z, 0x6C, 1, by decide +kernel⟩,
   ⟨z, 0x6C, 4, by decide +kernel⟩,
   ⟨broke 0x53 2, 0x53, 2, by decide +kernel⟩,
   ⟨withFlt (fun f => { f with testAt := [(lineKey 0x53 2, 2 * cycMs + 1)] }) |>.setReg (fltReg 0x64) 1, 0x53, 2, by decide +kernel⟩,
   ⟨z, 0x6A, 2, false, by decide +kernel⟩,
   ⟨missed 0x6C 4, 0x6C, 4, by decide +kernel⟩,
   ⟨withFlt (fun f => { f with bus := [ev 0x53 2, ev 0x6C 1] }), ev 0x53 2, [ev 0x6C 1], by decide +kernel⟩,
   ⟨withFlt (fun f => { f with bus := [ev 0x6C 2, ev 0x53 2], burst := [(0x6C, ⟨2, 255⟩)] }), ev 0x6C 2, [ev 0x53 2], by decide +kernel⟩,
   ⟨z, by decide +kernel⟩,
   ⟨mcp, z, 0x40001253, ⟨rfl, rfl⟩, by decide +kernel⟩,
   ⟨mcp, injecting inj, ⟨rfl, rfl⟩, by decide +kernel⟩,
   ⟨pcie, z, .inr ⟨rfl, rfl, by decide +kernel⟩, by decide +kernel⟩,
   ⟨injecting inj, inj, by decide +kernel⟩,
   ⟨injecting { inj with seen := true }, .inr ⟨_, rfl, by decide +kernel⟩⟩,
   ⟨injecting inj, inj, by decide +kernel⟩,
   ⟨{ injecting inj with cyc := cycMs - 1 }, .inr ⟨_, rfl, by decide +kernel⟩⟩,
   ⟨withFlt (fun f => { f with intUntil := some 5 }), 5, by decide +kernel⟩,
   ⟨withFlt (fun f => { f with intUntil := some 5, intWaits := true }), 5, by decide +kernel⟩,
   ⟨withFlt (fun f => { f with intUntil := some (2 * cycMs + 1) }), .inr ⟨_, rfl, by decide +kernel⟩⟩⟩

theorem witness_OutputsAreHeldAndReleased :
    (∃ (w : Who) (s : State) (d : Word) (o : Nat), Admitted w s ∧ fieldOf d 0 9 = o ∧ o < 288 ∧ bitOf d 9 = false ∧ bitOf d 10 = true ∧ s.holderOf o =
      none ∧ s.reasons o = 1) ∧
    (∃ (w : Who) (s : State) (d : Word) (o : Nat), Admitted w s ∧ fieldOf d 0 9 = o ∧ o < 288 ∧ bitOf d 9 = true ∧ bitOf d 10 = false ∧ s.lineBroken
      (0x44 + o / 16) 2 = false ∧ s.bit (outSafe o) 2 = true) ∧
    (∃ (w : Who) (s : State) (d : Word) (o : Nat), Admitted w s ∧ fieldOf d 0 9 = o ∧ o < 256 ∧ bitOf d 9 = true ∧ s.lineBroken (0x44 + o / 16) 2 =
      true ∧ s.bit (outSafe o) 2 = true) ∧
    (∃ (w : Who) (s : State) (d : Word), Admitted w s ∧ 288 ≤ fieldOf d 0 9) ∧
    (∃ (s : State) (o : Nat), o < 288 ∧ s.unitSafe o = true ∧ s.reasons o = 0 ∧ (s.bit (tickReg 8) 0 = false ∨ Tab.get (fun _ => false) s.flt.relReady
      o = true)) ∧
    (∃ (s : State) (o : Nat), o < 288 ∧ (s.unitSafe o = false ∨ s.reasons o ≠ 0 ∨ (s.bit (tickReg 8) 0 = true ∧ Tab.get (fun _ => false)
      s.flt.relReady o = false))) ∧
    (∃ (s : State) (i : Nat), i = s.cyc / (500 * cycUs) + 1 ∧ s.flt.aliveAt ≠ i) ∧
    (∃ (s : State) (i : Nat), i = s.cyc / (500 * cycUs) + 1 ∧ s.flt.aliveAt = i) ∧
    (∃ (w : Who) (s : State) (d : Word), ByMcp w ∧ (fieldOf d 0 8 = 0x5A ∨ fieldOf d 0 8 = 0xA5) ∧ fieldOf d 0 8 ≠ s.flt.hbKey) ∧
    (∃ (w : Who) (s : State) (d : Word), ByMcp w ∧ (fieldOf d 0 8 = 0x5A ∨ fieldOf d 0 8 = 0xA5) ∧ fieldOf d 0 8 = s.flt.hbKey) ∧
    (∃ (w : Who) (s : State), Admitted w s ∧ isHost w = true) ∧
    (∃ (s : State), s.flt.hbAt.isSome = true ∧ s.hbOk = false ∧ s.flt.hbLost = false) ∧
    (∃ (s : State), (s.hbOk = true ∨ s.flt.hbLost = true ∨ s.flt.hbAt = none)) ∧
    (∃ (w : Who) (s : State) (d : Word), Admitted w s ∧ bitOf d 0 = true) ∧
    (∃ (s : State), s.bit (fltReg 0x58) 0 = true ∧ s.flt.wdogExpired = false ∧ s.flt.kickAt + s.fld (fltReg 0x58) 16 16 * cycMs ≤ s.cyc) ∧
    (∃ (s : State), (s.bit (fltReg 0x58) 0 = false ∨ s.flt.wdogExpired = true ∨ s.cyc < s.flt.kickAt + s.fld (fltReg 0x58) 16 16 * cycMs)) ∧
    (∃ (w : Who) (s : State), Admitted w s ∧ isHost w = true) ∧
    (∃ (w : Who) (n : Nat), ByEngine w n) ∧
    (∃ (s : State), s.lineLive 0x6A 2 = false) ∧
    (∃ (s : State), s.lineLive 0x6A 2 = true) ∧
    (∃ (s : State), s.flt.nsafe = true ∧ s.lineBroken 0x6A 2 = false ∧ s.flt.nsafeAt + s.fld (fltReg 0x60) 0 10 * cycMs ≤ s.cyc) ∧
    (∃ (s : State), (s.flt.nsafe = false ∨ s.lineBroken 0x6A 2 = true ∨ s.cyc < s.flt.nsafeAt + s.fld (fltReg 0x60) 0 10 * cycMs)) ∧
    (∃ (w : Who) (s : State) (d : Word), ByMcp w ∧ bitOf d 0 = true ∧ s.flt.f3 = true ∧ s.flt.f4 = false ∧ s.f3Live = false) ∧
    (∃ (w : Who) (s : State), ByMcp w ∧ (s.flt.f4 = true ∨ s.f3Live = true)) ∧
    (∃ (w : Who) (s : State), Admitted w s ∧ isHost w = true) :=
  ⟨⟨mcp, unitAt 287 0x21 true, 0x51F, 287, .inl ⟨rfl, rfl⟩, by decide +kernel⟩,
   ⟨pcie, unitAt 287 0x3F true, 0x31F, 287, .inr ⟨rfl, rfl, by decide +kernel⟩, by decide +kernel⟩,
   ⟨mcp, (unitAt 255 0x24 true).setBroken 0x53 2, 0x2FF, 255, .inl ⟨rfl, rfl⟩, by decide +kernel⟩,
   ⟨pcie, z, 288, .inr ⟨rfl, rfl, by decide +kernel⟩, by decide +kernel⟩,
   ⟨unitAt 287 0x20 false, 287, by decide +kernel⟩,
   ⟨unitAt 287 0x60 true, 287, by decide +kernel⟩,
   ⟨living, 5, by decide +kernel⟩,
   ⟨{ z with flt := { z.flt with aliveAt := 1 } }, 1, by decide +kernel⟩,
   ⟨mcp, z, 0x5A, ⟨rfl, rfl⟩, by decide +kernel⟩,
   ⟨mcp, withFlt (fun f => { f with hbKey := 0xA5 }), 0xA5, ⟨rfl, rfl⟩, by decide +kernel⟩,
   ⟨pcie, z, .inr ⟨rfl, rfl, by decide +kernel⟩, by decide +kernel⟩,
   ⟨{ living with cyc := 1 + 10 * cycMs + 1 }, by decide +kernel⟩,
   ⟨{ living with cyc := 1 + 10 * cycMs }, by decide +kernel⟩,
   ⟨mcp, watched 0, 1, .inl ⟨rfl, rfl⟩, by decide +kernel⟩,
   ⟨watched cycMs, by decide +kernel⟩,
   ⟨watched (cycMs + 1), by decide +kernel⟩,
   ⟨pcie, z, .inr ⟨rfl, rfl, by decide +kernel⟩, by decide +kernel⟩,
   ⟨byEngine 35, 35, ⟨rfl, by decide, rfl⟩⟩,
   ⟨z, by decide +kernel⟩,
   ⟨z.setLive 0x6A 2 true, by decide +kernel⟩,
   ⟨(withFlt (fun f => { f with nsafe := true })).setReg (outSafe 287) 0x28 |>.setReg (fltReg 0x60) 1, by decide +kernel⟩,
   ⟨z, by decide +kernel⟩,
   ⟨mcp, withFlt (fun f => { f with f3 := true }), 1, ⟨rfl, rfl⟩, by decide +kernel⟩,
   ⟨mcp, (withFlt (fun f => { f with f3 := true })).setLive 0x6C 3 true, ⟨rfl, rfl⟩, by decide +kernel⟩,
   ⟨pcie, z, .inr ⟨rfl, rfl, by decide +kernel⟩, by decide +kernel⟩⟩

theorem witness_TheCairnIsWritten :
    (∃ (s : State) (e : Event) (rest : List Event), s.flt.queue = e :: rest ∧ s.bit (fltReg 0x8000) 0 = true ∧ s.flt.powerFail = false ∧ e.cls ≤ 2) ∧
    (∃ (s : State) (e : Event) (rest : List Event) (k : Nat), s.flt.queue = e :: rest ∧ s.bit (fltReg 0x8000) 0 = true ∧ s.flt.powerFail = false ∧ 3 ≤
      e.cls ∧ s.firstFree = k ∧ k < 256) ∧
    (∃ (s : State), (s.flt.queue = [] ∨ s.bit (fltReg 0x8000) 0 = false ∨ s.flt.powerFail = true)) ∧
    (∃ (s : State) (src : Nat), src ≤ 0x6C ∧ s.tallyAny src = true ∧ (s.tallyOf src).written = none ∧ s.flt.queue.length < 1024 ∧ s.bit (fltReg
      0x8000) 0 = true ∧ s.flt.powerFail = false) ∧
    (∃ (s : State) (src : Nat), src ≤ 0x6C ∧ (s.tallyAny src = false ∨ 1024 ≤ s.flt.queue.length)) ∧
    (∃ (s : State) (o : Nat), s.bit (fltReg 0x8000) 0 = false ∧ s.mem = [] ∧ s.flt.mramBad = [] ∧ o = 0x8000 * ((s.flt.boot + 1) % 2 ^ 32 % 2)) ∧
    (∃ (s : State), s.bit (fltReg 0x8000) 0 = true) ∧
    (∃ (s : State), s.flt.powerFail = false ∧ s.bit (fltReg 0x8000) 0 = true) ∧
    (∃ (s : State), s.flt.powerFail = false ∧ s.bit (fltReg 0x8000) 0 = false) ∧
    (∃ (s : State), s.flt.powerFail = true) ∧
    (∃ (w : Who) (s : State) (d : Word), ByMcp w ∧ s.bit (fltReg 0x8000) 1 = false ∧ bitOf d 31 = true) ∧
    (∃ (w : Who) (s : State), ByMcp w ∧ s.bit (fltReg 0x8000) 1 = true) ∧
    (∃ (s : State) (n b : Nat), s.bit (fltReg 0x8000) 1 = true ∧ s.flt.scrub = some b ∧ n ≤ 4 ∧ (n < 4 ∨ s.mcpRuns = false ∨ 32 ≤ s.sparesUsedOf 6) ∧
      (b ≠ 65535 ∨ s.mcpRuns = false)) ∧
    (∃ (s : State) (n b : Nat), s.bit (fltReg 0x8000) 1 = true ∧ s.flt.scrub = some b ∧ 4 < n ∧ s.mcpRuns = false) ∧
    (∃ (s : State) (n b : Nat), s.bit (fltReg 0x8000) 1 = true ∧ s.flt.scrub = some b ∧ 4 ≤ n ∧ s.mcpRuns = true ∧ s.sparesUsedOf 6 < 32 ∧
      s.mgt.spareMap.length < 4094) ∧
    (∃ (s : State) (n : Nat), s.bit (fltReg 0x8000) 1 = true ∧ s.flt.scrub = some 65535 ∧ n < 4 ∧ s.mcpRuns = true) ∧
    (∃ (s : State), s.bit (fltReg 0x8000) 1 = false) ∧
    (∃ (w : Who) (s : State) (d : Word), ByMcp w ∧ s.postBusy = false ∧ fieldOf d 0 3 ≤ 1 ∧ bitOf d 8 = true) ∧
    (∃ (w : Who) (s : State) (d : Word), ByMcp w ∧ s.postBusy = false ∧ 2 ≤ fieldOf d 0 3 ∧ fieldOf d 0 3 ≤ 4 ∧ bitOf d 8 = true) ∧
    (∃ (w : Who) (s : State) (d : Word), ByMcp w ∧ (s.postBusy = true ∨ 4 < fieldOf d 0 3)) :=
  ⟨⟨(cairn (fun f => { f with queue := [ev 0x53 2, ev 0 0] })).setReg (fltReg 0x8010) 29695, ev 0x53 2, [ev 0 0], by decide +kernel⟩,
   ⟨cairn (fun f => { f with queue := [ev 0x68 4] }), ev 0x68 4, [], 0, by decide +kernel⟩,
   ⟨cairn id, by decide +kernel⟩,
   ⟨(cairn id).setReg (tallyAddr 0x6C + 16) 5, 0x6C, by decide +kernel⟩,
   ⟨(cairn id), 0x6C, by decide +kernel⟩,
   ⟨z, 0x8000, by decide +kernel⟩,
   ⟨cairn id, by decide +kernel⟩,
   ⟨cairn id, by decide +kernel⟩,
   ⟨z, by decide +kernel⟩,
   ⟨cairn (fun f => { f with powerFail := true }), by decide +kernel⟩,
   ⟨mcp, z, 0x8000FFFF, ⟨rfl, rfl⟩, by decide +kernel⟩,
   ⟨mcp, z.setReg (fltReg 0x8000) 2, ⟨rfl, rfl⟩, by decide +kernel⟩,
   ⟨scrubbing 7 z, 4, 7, by decide +kernel⟩,
   ⟨scrubbing 7 z, 5, 7, by decide +kernel⟩,
   ⟨scrubbing 7 svc, 4, 7, by decide +kernel⟩,
   ⟨scrubbing 65535 svc, 3, by decide +kernel⟩,
   ⟨z, by decide +kernel⟩,
   ⟨mcp, z.setReg (fltReg 0xC0) 0x12345678, 0x80010101, ⟨rfl, rfl⟩, by decide +kernel⟩,
   ⟨mcp, z, 0x104, ⟨rfl, rfl⟩, by decide +kernel⟩,
   ⟨mcp, withFlt (fun f => { f with bus := [{ ev 0x6C 1 with kind := 5 }] }), 0, ⟨rfl, rfl⟩, by decide +kernel⟩⟩

theorem witness_PowerAndResets :
    (∃ (s : State), s.mgt.phase ≠ .held) ∧
    (∃ (s : State) (f : BootFacts), s.mgt.phase = .held ∧ s.wiping = false ∧ s.mgt.lcNext = none ∧ s.mgt.fuses.lcState ≠ 2 ∧ f.namedPllLocks = false ∧
      f.otherPllLocks = false ∧ f.update = none) ∧
    (∃ (s : State) (f : BootFacts) (b : BundleFacts) (a : Bool), s.mgt.phase = .held ∧ s.wiping = false ∧ s.flt.f4 = false ∧ f.namedPllLocks = false ∧
      f.otherPllLocks = false ∧ f.update = some b ∧ s.readHeader.mgt.header.active = a ∧ s.bundleCheck b = 0) ∧
    (∃ (s : State) (f : BootFacts) (b : BundleFacts), s.mgt.phase = .held ∧ s.wiping = false ∧ s.flt.f4 = false ∧ f.namedPllLocks = false ∧
      f.otherPllLocks = false ∧ f.update = some b ∧ s.bundleCheck b ≠ 0) ∧
    (∃ (s : State) (f : BootFacts) (h : BootHeader) (b : BundleFacts), s.mgt.phase = .held ∧ s.wiping = false ∧ s.mgt.lcNext = none ∧ 1 ≤
      s.mgt.fuses.lcState ∧ s.mgt.fuses.lcState ≤ 3 ∧ s.flt.f4 = false ∧ f.namedPllLocks = true ∧ f.fusesOk = true ∧ f.failed = [] ∧ f.bootMode = 0 ∧
      f.update = none ∧ s.readHeader.mgt.header = h ∧ h.trial = none ∧ b = (if h.active then f.slotB else f.slotA) ∧ s.bundleCheck b = 0 ∧ b.images =
      [] ∧ b.writes = [] ∧ b.firmware.length ≤ 0x100000 ∧ b.keys.length ≤ 0x40000) ∧
    (∃ (s : State) (f : BootFacts), s.mgt.phase = .held ∧ s.wiping = false ∧ s.mgt.lcNext = none ∧ 1 ≤ s.mgt.fuses.lcState ∧ s.mgt.fuses.lcState ≤ 3 ∧
      s.flt.f4 = false ∧ f.namedPllLocks = true ∧ f.fusesOk = true ∧ f.failed = [] ∧ 1 ≤ f.bootMode ∧ f.bootMode ≤ 3) ∧
    (∃ (s : State) (f : BootFacts), s.mgt.phase = .held ∧ s.wiping = false ∧ s.mgt.lcNext = none ∧ s.mgt.fuses.lcState ≠ 2 ∧ (s.mgt.fuses.lcState = 0
      ∨ s.mgt.fuses.lcState = 4 ∨ s.flt.f4 = true) ∧ f.namedPllLocks = true ∧ f.fusesOk = true ∧ f.failed = []) ∧
    (∃ (s : State), (s.mgt.porstLow = true ∨ s.mgt.phase = .unpowered)) ∧
    (∃ (s : State), s.mgt.porstLow = false ∧ s.mgt.phase ≠ .unpowered ∧ s.wiping = false) ∧
    (∃ (w : Who) (s : State) (d : Word), ByMcp w ∧ fieldOf d 0 16 = 0x5352 ∧ s.wiping = false) ∧
    (∃ (w : Who) (d : Word), ByMcp w ∧ fieldOf d 0 16 ≠ 0x5352) ∧
    (∃ (w : Who) (s : State), Admitted w s ∧ isHost w = true) ∧
    (∃ (s : State), s.wiping = false) ∧
    (∃ (s : State), s.wiping = false) ∧
    (∃ (s : State), s.sparesUsedOf 7 = 0) ∧
    (∃ (s : State), s.sparesUsedOf 7 ≠ 0) ∧
    (∃ (w : Who) (d : Word), ByMcp w ∧ bitOf d 0 = true) ∧
    (∃ (w : Who) (d : Word), ByMcp w ∧ bitOf d 0 = false) ∧
    (∃ (w : Who) (s : State), Admitted w s ∧ isHost w = true) :=
  ⟨⟨part 3 .service, by decide +kernel⟩,
   ⟨part 3 .held, { facts with namedPllLocks := false }, by decide +kernel⟩,
   ⟨part 3 .held, { facts with namedPllLocks := false, update := some loaded }, loaded, false, by decide +kernel⟩,
   ⟨part 3 .held, { facts with namedPllLocks := false, update := some (bundle 0 0 false) }, bundle 0 0 false, by decide +kernel⟩,
   ⟨part 3 .held, facts, ⟨0, false, none, 0⟩, loaded, by decide +kernel⟩,
   ⟨part 3 .held, { facts with bootMode := 3 }, by decide +kernel⟩,
   ⟨part 4 .held, facts, by decide +kernel⟩,
   ⟨{ part 3 .service with mgt := { (part 3 .service).mgt with porstLow := true } }, by decide +kernel⟩,
   ⟨high trying, by decide +kernel⟩,
   ⟨mcp, { trying with flt := { trying.flt with f4 := true } }, 0x5352, ⟨rfl, rfl⟩, by decide +kernel⟩,
   ⟨mcp, 0x5353, ⟨rfl, rfl⟩, by decide +kernel⟩,
   ⟨pcie, trying, .inr ⟨rfl, rfl, by decide +kernel⟩, by decide +kernel⟩,
   ⟨trying, by decide +kernel⟩,
   ⟨trying, by decide +kernel⟩,
   ⟨trying, by decide +kernel⟩,
   ⟨{ trying with mgt := { trying.mgt with sparesUsed := [(7, 1)] } }, by decide +kernel⟩,
   ⟨mcp, 1, ⟨rfl, rfl⟩, by decide +kernel⟩,
   ⟨mcp, 0, ⟨rfl, rfl⟩, by decide +kernel⟩,
   ⟨pcie, living, .inr ⟨rfl, rfl, by decide +kernel⟩, by decide +kernel⟩⟩

theorem witness_BundlesAndTrials :
    (∃ (w : Who) (s : State), Admitted w s ∧ s.count (tickReg 0x30) = 0) ∧
    (∃ (w : Who) (s : State) (t0 : Bool), Admitted w s ∧ (∀ k : Nat, versionOf s.mgt.running k < 2 ^ 32) ∧ s.count (tickReg 0x30) ≠ 0 ∧
      s.mgt.header.trial = some t0 ∧ s.mgt.runSlot = some t0 ∧ (∀ k, k < 4 → s.counterSplit (4 * k) 4 = false) ∧ s.counterSplit 0x300 4 = false) ∧
    (∃ (s : State) (o : Nat), (o = 0 ∨ o = 0x300) ∧ s.mgt.header.trial = some true ∧ s.mgt.runSlot = some true ∧ s.counterSplit o 4 = true ∧ s.count
      (tickReg 0x30) ≠ 0 ∧ (∀ k : Nat, k < 4 → s.antiRb k < versionOf s.mgt.running k)) ∧
    (∃ (w : Who) (s : State), Admitted w s ∧ s.count (tickReg 0x30) ≠ 0 ∧ s.mgt.header.trial = none) ∧
    (∃ (s : State) (t0 : Bool), s.bit (mgtReg 0x14) 0 = true ∧ s.mgt.troubled = false ∧ s.flt.f3 = false ∧ s.flt.f4 = false ∧ s.mgt.phase = .service ∧
      s.mgt.serviceAt + 600000 * cycMs ≤ s.cyc ∧ s.mgt.header.trial = some t0 ∧ s.mgt.runSlot = some t0) ∧
    (∃ (s : State), (s.bit (mgtReg 0x14) 0 = false ∨ s.mgt.troubled = true ∨ s.flt.f3 = true ∨ s.flt.f4 = true ∨ s.mgt.phase ≠ .service ∨ s.cyc <
      s.mgt.serviceAt + 600000 * cycMs ∨ s.mgt.header.trial = none)) ∧
    (∃ (w : Who) (s : State) (b : BundleFacts), ByMcp w ∧ s.mgt.phase = .waitHost ∧ s.mcpRuns = true ∧ s.bundleCheck b = 0 ∧ 1 ≤ s.fld (mgtReg 0x20) 0
      23 ∧ s.fld (mgtReg 0x20) 0 23 ≤ 0x600000 ∧ s.fld (mgtReg 0x18) 0 23 + s.fld (mgtReg 0x20) 0 23 ≤ 0x800000 ∧ s.wiping = false ∧ b.images = [] ∧
      b.writes = [] ∧ b.firmware.length ≤ 0x100000 ∧ b.keys.length ≤ 0x40000) ∧
    (∃ (w : Who) (s : State) (b : BundleFacts) (a : Nat) (bs : List Byte), ByMcp w ∧ s.mgt.phase = .waitHost ∧ s.mcpRuns = true ∧ s.bundleCheck b = 0
      ∧ 1 ≤ s.fld (mgtReg 0x20) 0 23 ∧ s.fld (mgtReg 0x20) 0 23 ≤ 0x600000 ∧ s.fld (mgtReg 0x18) 0 23 + s.fld (mgtReg 0x20) 0 23 ≤ 0x800000 ∧ b.images
      = [(a, bs)] ∧ b.writes = [] ∧ a + bs.length ≤ 0x800000) ∧
    (∃ (w : Who) (s : State) (b : BundleFacts), ByMcp w ∧ s.mgt.phase = .waitHost ∧ s.mcpRuns = true ∧ s.bundleCheck b ≠ 0 ∧ 1 ≤ s.fld (mgtReg 0x20) 0
      23 ∧ s.fld (mgtReg 0x20) 0 23 ≤ 0x600000 ∧ s.fld (mgtReg 0x18) 0 23 + s.fld (mgtReg 0x20) 0 23 ≤ 0x800000) ∧
    (∃ (w : Who) (s : State), ByMcp w ∧ s.mgt.phase = .waitHost ∧ s.mcpRuns = false) ∧
    (∃ (w : Who) (s : State), ByMcp w ∧ s.mgt.phase ≠ .waitHost) ∧
    (∃ (w : Who) (s : State), ByMcp w ∧ s.mgt.phase = .waitHost) ∧
    (∃ (w : Who) (s : State), ByMcp w ∧ s.mgt.phase ≠ .waitHost) ∧
    (∃ (w : Who) (s : State) (d : Word) (s1 : State), ByMcp w ∧ s.mgt.phase = .waitHost ∧ s.spBurst w.master 8 s.mgt.append (leBytes 4 d.toNat) = (s1,
      true)) ∧
    (∃ (s : State), (s.mgt.phase ≠ .waitHost ∨ s.fld bootStat 0 3 ≠ 3 ∨ s.mcpRuns = false)) ∧
    (∃ (s : State) (n : Nat) (bs : List Byte) (crc : Word) (g : Bool), s.mgt.phase = .waitHost ∧ s.fld bootStat 0 3 = 3 ∧ s.mcpRuns = true ∧ (n = 0 ∨
      0x600000 < n ∨ g = true ∨ bs.length ≠ n ∨ crc.toNat ≠ crc32 bs)) ∧
    (∃ (s : State) (bs : List Byte) (crc : Word) (b : BundleFacts), s.mgt.phase = .waitHost ∧ s.fld bootStat 0 3 = 3 ∧ s.mcpRuns = true ∧ 1 ≤
      bs.length ∧ bs.length ≤ 0x600000 ∧ crc.toNat = crc32 bs ∧ s.bundleCheck b = 0 ∧ b.firmware = [] ∧ b.keys = [] ∧ b.images = [] ∧ b.writes = []) :=
  ⟨⟨mcp, z, .inl ⟨rfl, rfl⟩, by decide +kernel⟩,
   ⟨pcie, trying, true, .inr ⟨rfl, rfl, by decide +kernel⟩, newest (by decide +kernel), by decide +kernel⟩,
   ⟨splitted, 0, by decide +kernel⟩,
   ⟨pcie, { part 3 .service with cnts := [(tickReg 0x30, 5)] }, .inr ⟨rfl, rfl, by decide +kernel⟩, by decide +kernel⟩,
   ⟨trying.setReg (mgtReg 0x14) 1, true, by decide +kernel⟩,
   ⟨trying, by decide +kernel⟩,
   ⟨mcp, (intake 1).setReg (mgtReg 0x18) 0x7FFFFC, loaded, ⟨rfl, rfl⟩, by decide +kernel⟩,
   ⟨mcp, intake 1, withImages, 0x7FFFF8, [1, 2, 3, 4, 5, 6, 7, 8], ⟨rfl, rfl⟩, by decide +kernel⟩,
   ⟨mcp, intake 3, bundle 0 0 false, ⟨rfl, rfl⟩, by decide +kernel⟩,
   ⟨mcp, { intake 3 with mgt := { (intake 3).mgt with mcpHalted := true } }, ⟨rfl, rfl⟩, by decide +kernel⟩,
   ⟨mcp, z, ⟨rfl, rfl⟩, by decide +kernel⟩,
   ⟨mcp, intake 2, ⟨rfl, rfl⟩, by decide +kernel⟩,
   ⟨mcp, trying, ⟨rfl, rfl⟩, by decide +kernel⟩,
   ⟨mcp, intake 2, 0x12345678, ((intake 2).spBurst 1 8 (intake 2).mgt.append (leBytes 4 0x12345678)).1, ⟨rfl, rfl⟩, by decide +kernel⟩,
   ⟨intake 2, by decide +kernel⟩,
   ⟨intake 3, 4, [1, 2, 3, 4], 0, false, by decide +kernel⟩,
   ⟨intake 3, [1, 2, 3, 4], word (crc32 [1, 2, 3, 4]), bundle 0 0 true, by decide +kernel⟩⟩

theorem witness_KeysSensorsAndTwoWireBus :
    (∃ (w : Who) (s : State) (slot signer : Nat), ByMcp w ∧ slot < 4 ∧ signer ≤ 1 ∧ signer ≠ slot ∧ s.mgt.fuses.keyPresent.testBit signer = true ∧
      s.mgt.fuses.keyRevoked.testBit signer = false ∧ s.mgt.fuses.keyRevoked.testBit slot = false) ∧
    (∃ (w : Who) (s : State) (slot signer : Nat) (ok : Bool), ByMcp w ∧ slot < 4 ∧ signer < 4 ∧ (ok = false ∨ signer = slot ∨ 1 < signer ∨
      s.mgt.fuses.keyPresent.testBit signer = false ∨ s.mgt.fuses.keyRevoked.testBit signer = true ∨ s.mgt.fuses.keyRevoked.testBit slot = true)) ∧
    (∃ (w : Who) (s : State) (slot signer : Nat), Admitted w s ∧ isHost w = true ∧ slot < 4 ∧ signer < 4) ∧
    (∃ (w : Who) (s : State) (d : Word) (ok : Bool), ByMcp w ∧ fieldOf d 16 16 = 0x4C43 ∧ s.lcBurnt < fieldOf d 0 3 ∧ fieldOf d 0 3 ≤ 4 ∧ (fieldOf d 0
      3 = 3 → ok = true)) ∧
    (∃ (w : Who) (s : State) (d : Word) (ok : Bool), ByMcp w ∧ (fieldOf d 16 16 ≠ 0x4C43 ∨ fieldOf d 0 3 ≤ s.lcBurnt ∨ 4 < fieldOf d 0 3 ∨ (fieldOf d
      0 3 = 3 ∧ ok = false))) ∧
    (∃ (s : State) (b : Nat), isTamper b = true ∧ (s.mgt.phase = .unpowered ∨ (b < 4 ∧ s.bit (mgtReg 0x220) b = false) ∨ (b = 4 ∧ s.mgt.porstLow =
      true))) ∧
    (∃ (s : State) (b : Nat), isTamper b = true ∧ s.tamperActs b = true ∧ s.mcpRuns = false) ∧
    (∃ (s : State) (b : Nat), isTamper b = true ∧ s.tamperActs b = true ∧ s.mcpRuns = true) ∧
    (∃ (s : State), s.mgt.sensorAt = s.cyc / cycMs + 1) ∧
    (∃ (s : State), s.mgt.sensorAt ≠ s.cyc / cycMs + 1) ∧
    (∃ (s : State) (d : Word), (∀ k, k < 3 → Tab.get (fun _ => 0) s.mgt.sensorSeen k = 0) ∧ s.mgt.sensorAt ≠ s.cyc / cycMs + 1 ∧ signed (s.fld (mgtReg
      0x480) 0 16) 16 < signed (fieldOf d 0 16) 16 ∧ signed (fieldOf d 0 16) 16 ≤ signed (s.fld (mgtReg 0x484) 0 16) 16 ∧ signed (fieldOf d 0 16) 16 ≤
      signed (s.fld (mgtReg 0x488) 0 16) 16) ∧
    (∃ (s : State), (∀ k, k < 3 → Tab.get (fun _ => 0) s.mgt.sensorSeen k = 1) ∧ s.mcpRuns = false) ∧
    (∃ (s : State), s.mgt.sensorAt ≠ s.cyc / cycMs + 1 ∧ s.mcpRuns = true ∧ (s.cyc - s.mgt.powerAt) / (3600000 * cycMs) = s.mgt.hourAt + 1 ∧
      s.counterSplit 0x100 8 = false ∧ s.powerOnHours + 1 < 2 ^ 64) ∧
    (∃ (w : Who) (s : State) (d : Word), ByMcp w ∧ s.bit (mgtReg 0x804) 31 = false ∧ 1 ≤ fieldOf d 16 4 ∧ fieldOf d 16 4 ≤ 8) ∧
    (∃ (w : Who) (s : State) (d : Word), ByMcp w ∧ (s.bit (mgtReg 0x804) 31 = true ∨ fieldOf d 16 4 = 0 ∨ 8 < fieldOf d 16 4)) ∧
    (∃ (s : State), s.bit (mgtReg 0x804) 31 = false) ∧
    (∃ (s : State), s.bit (mgtReg 0x804) 31 = true) ∧
    (∃ (s : State) (o : TwbOutcome) (a r : Nat), s.bit (mgtReg 0x804) 31 = true ∧ s.fld (mgtReg 0x804) 0 7 = a ∧ s.fld (mgtReg 0x804) 8 8 = r ∧
      o.early = none ∧ s.bit (mgtReg 0x804) 20 = false ∧ s.bit (mgtReg 0x804) 21 = false) ∧
    (∃ (s : State) (o : TwbOutcome), s.bit (mgtReg 0x804) 31 = true ∧ s.bit (mgtReg 0x804) 7 = true ∧ o.early = none ∧ s.fld (mgtReg 0x804) 16 4 ≤ 8 ∧
      s.fld (mgtReg 0x804) 16 4 ≤ o.data.length) :=
  ⟨⟨mcp, part 3 .service, 3, 1, ⟨rfl, rfl⟩, by decide +kernel⟩,
   ⟨mcp, part 3 .service, 3, 2, true, ⟨rfl, rfl⟩, by decide +kernel⟩,
   ⟨pcie, part 3 .service, 3, 1, .inr ⟨rfl, rfl, by decide +kernel⟩, by decide +kernel⟩,
   ⟨mcp, part 2 .service, 0x4C430003, true, ⟨rfl, rfl⟩, by decide +kernel⟩,
   ⟨mcp, part 3 .service, 0x4C430003, true, ⟨rfl, rfl⟩, by decide +kernel⟩,
   ⟨z, 3, by decide +kernel⟩,
   ⟨z.setReg (mgtReg 0x220) 8, 3, by decide +kernel⟩,
   ⟨part 2 .service, 6, by decide +kernel⟩,
   ⟨{ z with mgt := { z.mgt with sensorAt := 1 } }, by decide +kernel⟩,
   ⟨sensed 0, by decide +kernel⟩,
   ⟨sensed 0, 900, by decide +kernel, by decide +kernel⟩,
   ⟨{ sensed 1 with mgt := { (sensed 1).mgt with mcpHalted := true } }, by decide +kernel, by decide +kernel⟩,
   ⟨{ sensed 0 with cyc := 3600000 * cycMs }, by decide +kernel⟩,
   ⟨mcp, z.setReg (mgtReg 0x800) 1, 0x40080055, ⟨rfl, rfl⟩, by decide +kernel⟩,
   ⟨mcp, z, 0x40090055, ⟨rfl, rfl⟩, by decide +kernel⟩,
   ⟨z, by decide +kernel⟩,
   ⟨twb 0x80080, by decide +kernel⟩,
   ⟨twb 0x85AD5, good [1, 2, 3, 4, 5, 6, 7, 8], 0x55, 0x5A, by decide +kernel⟩,
   ⟨twb 0x80080, good [1, 2, 3, 4, 5, 6, 7, 8], by decide +kernel⟩⟩

theorem witness_HostRingsAndInterrupts :
    (∃ (s : State), s.tx 40 = none ∧ s.host.txOpen = none) ∧
    (∃ (s : State), s.tx 40 = none ∧ s.host.txOpen = none) ∧
    (∃ (s : State) (x : Tx), s.tx 40 = some x ∧ s.host.txOpen = none) ∧
    (∃ (s : State) (r f : Nat) (x : Frame), s.tx 40 = none ∧ s.host.txOpen = some (r, some f) ∧ s.frame f = some x ∧ x.bad = false ∧ x.arriving =
      true) ∧
    (∃ (s : State) (i : Nat), i < 16 ∧ s.dmaRuns = true ∧ s.bit (dbPend 2) i = true ∧ s.bit (dbMask 2) i = false) ∧
    (∃ (s : State) (i : Nat), i < 16 ∧ (s.dmaRuns = false ∨ s.bit (dbPend 2) i = false ∨ s.bit (dbMask 2) i = true)) ∧
    (∃ (s : State) (r : Nat), r < 8 ∧ (s.dmaRuns = false ∨ s.txTurn r = false)) ∧
    (∃ (s : State) (r : Nat) (w8 : Word) (h : HostData), r < 8 ∧ s.dmaRuns = true ∧ s.txTurn r = true ∧ (h.more = false ∨ (s.host.txOpen = none ∧
      fieldOf w8 17 2 ≠ 0))) ∧
    (∃ (s : State) (r : Nat) (w8 : Word) (h : HostData), r < 8 ∧ s.dmaRuns = true ∧ s.txTurn r = true ∧ s.host.txOpen = none ∧ fieldOf w8 17 2 = 0 ∧
      14 ≤ fieldOf w8 0 17 ∧ fieldOf w8 0 17 ≤ 9212 ∧ h.readError = false ∧ h.more = true) ∧
    (∃ (s : State) (r : Nat) (w8 wC : Word) (bs : List Byte), s.host.txOpen = none ∧ r < 8 ∧ s.dmaRuns = true ∧ s.txTurn r = true ∧ fieldOf w8 17 2 =
      3 ∧ 1 ≤ fieldOf w8 0 17 ∧ fieldOf w8 0 17 ≤ 65536 ∧ bitOf wC 30 = false ∧ s.spLoad 0x02 (fieldOf w8 0 17 + 1) (fieldOf wC 0 23) (fieldOf w8 0
      17) = (bs, true, none) ∧ bs ≠ []) ∧
    (∃ (s : State) (r : Nat) (w8 wC : Word), r < 8 ∧ s.dmaRuns = true ∧ s.txTurn r = true ∧ s.host.txOpen = none ∧ 2 ≤ fieldOf w8 17 2 ∧ (fieldOf w8 0
      17 = 0 ∨ 65536 < fieldOf w8 0 17) ∧ bitOf wC 30 = false) ∧
    (∃ (s : State) (r : Nat), r < 8 ∧ s.rxInProgress r = none) ∧
    (∃ (s : State) (r : Nat) (x : Tx) (f : Frame), r < 8 ∧ s.rxInProgress r = some (x, f) ∧ f.bad = false ∧ f.arriving = true) ∧
    (∃ (s : State) (r : Nat) (x : Tx) (f : Frame), r < 8 ∧ s.rxInProgress r = some (x, f) ∧ f.bad = false ∧ f.arriving = false ∧ (Tab.get (fun _ => 0)
      s.host.holdUntil (8 + r) ≤ s.cyc ∨ s.fld (hostReg (0x3000 + 4 * (8 + r))) 0 16 = 0)) ∧
    (∃ (w : Who) (s : State) (r : Nat) (d : Word), Admitted w s ∧ r < 8 ∧ bitOf d 0 = false) ∧
    (∃ (w : Who) (s : State) (r : Nat) (d : Word), Admitted w s ∧ r < 8 ∧ bitOf d 0 = false ∧ s.rxInProgress r = none) ∧
    (∃ (w : Who) (s : State) (r : Nat) (d : Word), Admitted w s ∧ r < 8 ∧ bitOf d 0 = false ∧ (s.rxInProgress r).isSome = true) ∧
    (∃ (w : Who) (s : State) (r : Nat) (d : Word), Admitted w s ∧ r < 8 ∧ bitOf d 0 = true) ∧
    (∃ (s : State) (v : Nat), v < 16 ∧ (s.cyc < Tab.get (fun _ => 0) s.host.holdUntil v ∨ Tab.get (fun _ => false) s.host.holdWaits v = false)) ∧
    (∃ (s : State) (v : Nat), v < 16 ∧ Tab.get (fun _ => 0) s.host.holdUntil v ≤ s.cyc ∧ Tab.get (fun _ => false) s.host.holdWaits v = true) :=
  ⟨⟨dma 7, by decide +kernel⟩,
   ⟨dma 7, by decide +kernel⟩,
   ⟨handing top, toHost, by decide +kernel⟩,
   ⟨{ (dma 7).setFrame 0 (some arriving) with host := { (dma 7).host with txOpen := some (7, some 0) } }, 7, 0, arriving, by decide +kernel⟩,
   ⟨dma 7, 15, by decide +kernel⟩,
   ⟨z, 15, by decide +kernel⟩,
   ⟨dma 7, 6, by decide +kernel⟩,
   ⟨dma 7, 7, 0, noData, by decide +kernel⟩,
   ⟨dma 7, 7, word 14, ⟨zeros 14, false, true⟩, by decide +kernel⟩,
   ⟨dma 7, 7, word (5 + 3 * 2 ^ 17), 0x100, zeros 5, by decide +kernel⟩,
   ⟨dma 7, 7, word (65537 + 2 * 2 ^ 17), 0, by decide +kernel⟩,
   ⟨dma 7, 7, by decide +kernel⟩,
   ⟨handing { top with arriving := true }, 7, toHost, { top with arriving := true }, by decide +kernel⟩,
   ⟨handing top, 7, toHost, top, by decide +kernel⟩,
   ⟨mcp, dma 7, 7, 0, .inl ⟨rfl, rfl⟩, by decide +kernel⟩,
   ⟨mcp, dma 7, 7, 0, .inl ⟨rfl, rfl⟩, by decide +kernel⟩,
   ⟨pcie, handing top, 7, 0xFFFFFFFE, .inr ⟨rfl, rfl, by decide +kernel⟩, by decide +kernel⟩,
   ⟨mcp, dma 7, 7, 1, .inl ⟨rfl, rfl⟩, by decide +kernel⟩,
   ⟨{ z with host := { z.host with holdUntil := [(15, 1)], holdWaits := [(15, true)] } }, 15, by decide +kernel⟩,
   ⟨{ z with cyc := 1, host := { z.host with holdUntil := [(15, 1)], holdWaits := [(15, true)] } }, 15, by decide +kernel⟩⟩

theorem witness_SerialLinkAndUart :
    (∃ (s : State) (cmd : Byte) (o : Word) (crc : Byte), s.awake = true ∧ cmd ≠ 0x02 ∧ crc.toNat ≠ crc8 (cmd :: beBytes 4 o.toNat)) ∧
    (∃ (s : State) (cmd : Byte) (o : Word) (crc : Byte), s.awake = true ∧ cmd ≠ 0x02 ∧ cmd ≠ 0x0B ∧ crc.toNat = crc8 (cmd :: beBytes 4 o.toNat)) ∧
    (∃ (s : State) (o : Word) (crc : Byte), s.awake = true ∧ crc.toNat = crc8 (0x0B :: beBytes 4 o.toNat)) ∧
    (∃ (s : State) (o : Word) (crc : Byte), s.awake = true ∧ crc.toNat = crc8 (0x0B :: beBytes 4 o.toNat) ∧ o.toNat = 0 ∧ s.hostClosed = false) ∧
    (∃ (s : State) (o d : Word) (crc : Byte), s.awake = true ∧ crc.toNat ≠ crc8 (0x02 :: beBytes 4 o.toNat ++ beBytes 4 d.toNat)) ∧
    (∃ (s : State) (o d : Word) (crc : Byte), s.awake = true ∧ crc.toNat = crc8 (0x02 :: beBytes 4 o.toNat ++ beBytes 4 d.toNat) ∧ 0x10000000 ≤
      o.toNat) ∧
    (∃ (s : State) (d o : Word) (crc : Byte), s.awake = true ∧ o.toNat = hostBase - 0x10000000 + 0x3000 ∧ crc.toNat = crc8 (0x02 :: beBytes 4 o.toNat
      ++ beBytes 4 d.toNat) ∧ s.hostClosed = false ∧ d.toNat < 2 ^ 16) ∧
    (∃ (s : State) (o : Word) (n : Nat) (crc : Byte), s.awake = true ∧ s.uartBusy = false ∧ 1 ≤ n ∧ n ≤ 64 ∧ crc.toNat ≠ crc8 ([0xA5, 0x52] ++ beBytes
      4 o.toNat ++ [BitVec.ofNat 8 n])) ∧
    (∃ (s : State) (n : Nat), 1 ≤ n ∧ n ≤ 64 ∧ (s.awake = false ∨ s.uartBusy = true)) ∧
    (∃ (s : State) (o : Word) (crc : Byte), s.awake = true ∧ crc.toNat = crc8 ([0xA5, 0x52] ++ beBytes 4 o.toNat ++ [1]) ∧ s.uartBusy = false ∧
      (s.busLoad uartWho (barAddr o)).err = false) ∧
    (∃ (s : State) (o : Word) (crc : Byte), s.awake = true ∧ crc.toNat = crc8 ([0xA5, 0x52] ++ beBytes 4 o.toNat ++ [1]) ∧ s.uartBusy = false ∧
      (s.busLoad uartWho (barAddr o)).err = true) ∧
    (∃ (s : State) (n : Nat), s.awake = true ∧ s.mcpRuns = true ∧ (n = 0 ∨ 64 < n) ∧ lcConsole s.mgt.fuses.lcState = true) ∧
    (∃ (s : State), s.mcpRuns = true ∧ lcConsole s.mgt.fuses.lcState = true) ∧
    (∃ (s : State), (lcConsole s.mgt.fuses.lcState = false ∨ s.mcpRuns = false)) ∧
    (∃ (s : State), s.awake = false) :=
  ⟨⟨high z, 0x0B, 0, crcOf [0x0B, 0, 0, 0, 1], by decide +kernel⟩,
   ⟨high z, 0x0C, 4, crcOf [0x0C, 0, 0, 0, 4], by decide +kernel⟩,
   ⟨high (part 3 .service), 4, crcOf [0x0B, 0, 0, 0, 4], by decide +kernel⟩,
   ⟨high (part 3 .service), 0, crcOf [0x0B, 0, 0, 0, 0], by decide +kernel⟩,
   ⟨high z, 4, 5, crcOf [0x02, 0, 0, 0, 4, 0, 0, 0, 4], by decide +kernel⟩,
   ⟨high (part 3 .service), 0x10000000, 5, crcOf [0x02, 0x10, 0, 0, 0, 0, 0, 0, 5], by decide +kernel⟩,
   ⟨high (part 3 .service), 0xFFFF, imodAt, crcOf (0x02 :: beBytes 4 imodAt.toNat ++ [0, 0, 0xFF, 0xFF]), by decide +kernel⟩,
   ⟨high z, 0, 64, crcOf [0xA5, 0x52, 0, 0, 0, 0, 63], by decide +kernel⟩,
   ⟨z, 1, by decide +kernel⟩,
   ⟨high (part 3 .service), 0, crcOf [0xA5, 0x52, 0, 0, 0, 0, 1], by decide +kernel⟩,
   ⟨high (part 3 .service), 0x10000000, crcOf [0xA5, 0x52, 0x10, 0, 0, 0, 1], by decide +kernel⟩,
   ⟨high (part 3 .service), 65, by decide +kernel⟩,
   ⟨part 3 .service, by decide +kernel⟩,
   ⟨part 2 .service, by decide +kernel⟩,
   ⟨z, by decide +kernel⟩⟩

theorem witness_ResetState :
    (∃ (o : Nat), o < 288) ∧
    (∃ (l : Nat), l < 32) ∧
    (∃ (n : Nat), n < 36) ∧
    (∃ (e : Nat), e < 40) :=
  ⟨⟨287, by decide +kernel⟩,
   ⟨31, by decide +kernel⟩,
   ⟨35, by decide +kernel⟩,
   ⟨39, by decide +kernel⟩⟩

theorem witness_StepsKeepMemoryCanonicalAndTheQueue :
    (∃ (s t : State), MemoryCanonical s ∧ step s = .next t) ∧
    (∃ (s : State), MemoryCanonical s) :=
  ⟨⟨{ z with pending := [.travRun mcp 63] }, acked (noted z 63 1), rfl, rfl⟩,
   ⟨z, rfl⟩⟩

end Sys2Proof.Tests
end

section
/-!
Proofs about the scope of the block (family 00_scope): every command completes, the accesses of the host and the MCP reach the unit's own answer
(R6 to R8, R449), and the reads of TICK.INDEX and the snapshots (R10, R14).
-/
namespace Sys2Proof.Machine

variable {w : Who} {s t : State} {a o n : Nat} {b : Block} {d v : Word}

/-! ## Every command completes -/

/-- Each command is an event, an access, a query or an unconditional effect, and each of the four completes. -/
theorem exec_completes (c : Instr) (s : State) : ∃ t, exec c s = .next t := by
  cases c <;> exact ⟨_, rfl⟩

theorem access_masterless (h : w.ok = false) (ok : Bool) (s s1 : State) : access w ok s s1 = .next s := by simp [access, h]
theorem query_masterless (h : w.ok = false) (ok : Bool) (s s1 : State) : query w ok s s1 = .next s := by simp [query, h]
theorem access_ok (h : w.ok = true) (ok : Bool) (s s1 : State) :
    access w ok s s1 = .next (if ok then s1 else regWrite w nowhere 0 s) := by simp [access, h]
theorem query_ok (h : w.ok = true) (ok : Bool) (s s1 : State) :
    query w ok s s1 = .next (if ok then s1 else regRead w nowhere s) := by simp [query, h]

theorem exec_bundleIssue (n : Nat) (f : CoreFinding) (s : State) :
    exec (.bundleIssue n f) s = event (isCore n) s (s.bundleIssue n f) := rfl
theorem exec_ctlWaitEnd (n : Nat) (s : State) : exec (.ctlWaitEnd n) s = event (isCore n) s (s.waitEnd n) := rfl
theorem exec_farResult (n : Nat) (e : EccFinding) (s : State) : exec (.farResult n e) s = event (isCore n) s (s.farResult n e) := rfl
theorem exec_txdWrite (w : Who) (n : Nat) (d : Word) (s : State) :
    exec (.txdWrite w n d) s = access w (isChan n) s (regWrite w (pchReg n 0x1120) d s) := rfl
theorem exec_rxdRead (w : Who) (n : Nat) (s : State) :
    exec (.rxdRead w n) s = query w (isChan n) s (regRead w (pchReg n 0x1124) s) := rfl
theorem exec_registerWrite (w : Who) (a : Nat) (d : Word) (s : State) :
    exec (.registerWrite w a d) s = access w (decide (a < 2 ^ 40)) s (anyWrite w a d s) := rfl
theorem exec_lowWordRead (w : Who) (a : Nat) (s : State) :
    exec (.lowWordRead w a) s = query w (decide (a < 2 ^ 40)) s (regRead w a s) := rfl
/-- The two reads of R10 are one access, told apart by their address alone. -/
theorem exec_highWordRead (w : Who) (a : Nat) (s : State) : exec (.highWordRead w a) s = exec (.lowWordRead w a) s := rfl
theorem exec_snapReq (w : Who) (d : Word) (s : State) : exec (.snapReq w d) s = access w true s (regWrite w (sysReg 0x10) d s) := rfl
theorem exec_snapshotCopy (s : State) : exec .snapshotCopy s = .next s.snapshotCopy := rfl

theorem isCore_absent (h : 37 ≤ n) : isCore n = false := by simpa [isCore] using h
theorem isChan_absent (h : 256 ≤ n) : isChan n = false := by simpa [isChan] using h

/-! ## Masters -/

/-- Taking free values does not change whom the device admits. -/
theorem Admitted.withFreeCtr (h : Admitted w s) (k : Nat) : Admitted w { s with freeCtr := k } := h

theorem ByEngine.engineOf (h : ByEngine w n) : engineOf w.master = some n := by
  obtain ⟨hm, hn, -⟩ := h
  rw [hm, Machine.engineOf, if_pos (by omega)]
  simp

theorem ByEngine.ok (h : ByEngine w n) : w.ok = true := by
  obtain ⟨hm, hn, hp⟩ := h
  have h0 : ((0x10 + n == 0) = false) := by simp
  have hi : isMaster (0x10 + n) = true := by simp [isMaster]; omega
  simp [Who.ok, hm, hp, hi, h0]

/-- The host, where it is admitted, has no path to the secure memory and the engine windows (R449); everything else is open. -/
theorem Admitted.pathOpen_iff (h : Admitted w s) (b : Block) (wr : Bool) :
    s.pathOpen w (some b) wr = true ↔ (isHost w = true → b ≠ .secure ∧ b ≠ .pe) := by
  by_cases hb : b ≠ .secure ∧ b ≠ .pe
  · simp [h.pathOpen hb wr, hb]
  · rcases h with ⟨hm, -⟩ | ⟨hm, hp, -⟩
    · simp [State.pathOpen, isHost, hm]
    · have hw : b = .secure ∨ b = .pe := by tauto
      simp [State.pathOpen, isHost, hm, hp, hw, hb]

/-- The paths of an admitted master are open at the addresses where no block stands. -/
theorem Admitted.pathOpen_none (h : Admitted w s) (wr : Bool) : s.pathOpen w none wr = true := by
  rcases h with ⟨hm, -⟩ | ⟨hm, hp, hc⟩
  · simp [State.pathOpen, isHost, hm]
  · simp [State.pathOpen, hp, hc]

/-- The MCP is charged with its bus errors as a core of its own (R84, R446). -/
theorem ByMcp.masterError (h : ByMcp w) (a : Nat) (wr : Bool) : s.masterError w a wr = s.coreRefused 36 0 (s.core 36).pc := by
  have ha : Admitted w s := h.admitted
  rw [State.masterError, ha.notEngine]
  exact if_pos h.isMcp

theorem not_isMcp_of_isHost (h : isHost w = true) : isMcp w = false := by
  have hm : w.master = 0 := by simpa [isHost] using h
  simp [isMcp, hm]

/-! ## The address map -/

/-- An address that some row of the map covers lies below every bound on the rows' ends. -/
theorem findBlock_lt {m : Nat} {r : Block × Nat} :
    ∀ {rows : List (Block × Nat × Nat)}, (∀ x ∈ rows, x.2.2 ≤ m) → findBlock a rows = some r → a < m
  | [], _, h => by simp [findBlock] at h
  | (c, lo, hi) :: rows, hm, h => by
    rw [List.forall_mem_cons] at hm
    unfold findBlock at h
    split at h
    · next hin => exact lt_of_lt_of_le hin.2 hm.1
    · exact findBlock_lt hm.2 h

theorem blockOf_lt (h : blockOf a = some (b, o)) : a < 2 ^ 40 := findBlock_lt (by decide) h

theorem blockOf_nowhere : blockOf nowhere = none := by decide

/-! ## Writes -/

/-- The secure memory and the engine windows refuse the host's writes, as its closed path does (R449). -/
theorem blockWrite_window_host (h : isHost w = true) (hb : b = .secure ∨ b = .pe) (x : Signed) :
    s.blockWrite w b o a d x = .err s := by
  have hm := not_isMcp_of_isHost h
  rcases hb with rfl | rfl
  · simp [State.blockWrite, State.secureWrite, hm]
  · simp [State.blockWrite, State.peWrite, hm]

/-- An aligned write of an admitted master is what its block answers. -/
theorem Admitted.busWrite (h : Admitted w s) (ha : a % 4 = 0) (hb : blockOf a = some (b, o)) (x : Signed) :
    s.busWrite w a d x = ((s.blockWrite w b o a d x).orPlain s a d).state s := by
  by_cases hp : s.pathOpen w (some b) true = true
  · simp [State.busWrite, h.notEngine, ha, hb, hp, h.notBar4, h.hostOrMcp, State.writeWord]
  · have hc : isHost w = true ∧ (b = .secure ∨ b = .pe) := by rw [h.pathOpen_iff] at hp; tauto
    rw [blockWrite_window_host hc.1 hc.2]
    simp [State.busWrite, h.notEngine, hb, hp, h.notBar4, WRes.orPlain, WRes.state]

/-- A write that is not aligned, or at an address that no block has, is a bus error (R8). -/
theorem Admitted.busWrite_nothing (h : Admitted w s) (ha : a % 4 ≠ 0 ∨ blockOf a = none) (x : Signed) : s.busWrite w a d x = (s, true) := by
  rcases ha with ha | ha
  · simp [State.busWrite, h.notEngine, h.notBar4, ha]
  · simp [State.busWrite, h.notEngine, h.notBar4, ha, State.writeWord]

/-- A write at an address with nothing to write leaves its master with a bus error. -/
theorem regWrite_nothing (h : Admitted w s) (d : Word) (ha : a % 4 ≠ 0 ∨ blockOf a = none) :
    regWrite w a d s = refusedWrite (s.masterError w a true) := by
  rw [regWrite, State.busStore, h.busWrite_nothing ha]
  rfl

/-- What a master that exists sees of its write of any register. -/
theorem registerWrite_of_busWrite (hw : w.ok = true) (ha : a < 2 ^ 40) {e : Bool}
    (hr : ({ s with freeCtr := s.freeCtr + 4 } : State).busWrite w a d s.signedFree = (t, e)) :
    exec (.registerWrite w a d) s = .next (if e then refusedWrite (t.masterError w a true) else acked t) := by
  rw [exec_registerWrite, access_ok hw]
  simp only [ha, decide_true, if_true, anyWrite, signedWrite, State.busStore, hr]
  cases e <;> rfl

/-- The same, by the answer of the block. -/
theorem registerWrite_of_block (h : Admitted w s) (ha : a % 4 = 0) (hb : blockOf a = some (b, o)) {s1 : State} {e : Bool}
    (h1 : s1 = { s with freeCtr := s.freeCtr + 4 }) (hr : ((s1.blockWrite w b o a d s.signedFree).orPlain s1 a d).state s1 = (t, e)) :
    exec (.registerWrite w a d) s = .next (if e then refusedWrite (t.masterError w a true) else acked t) := by
  subst h1
  exact registerWrite_of_busWrite h.ok (blockOf_lt hb) (((h.withFreeCtr _).busWrite ha hb _).trans hr)

/-- A register to whose write its unit adds nothing is written by its access codes (R6 to R8). -/
theorem registerWrite_of_plain (h : Admitted w s) (ha : a % 4 = 0) (hb : blockOf a = some (b, o)) {s1 : State} {e : Bool}
    (h1 : s1 = { s with freeCtr := s.freeCtr + 4 }) (hp : s1.blockWrite w b o a d s.signedFree = .plain)
    (hr : (plainWrite s1 a d).state s1 = (t, e)) :
    exec (.registerWrite w a d) s = .next (if e then refusedWrite (t.masterError w a true) else acked t) :=
  registerWrite_of_block h ha hb h1 (by rw [hp]; exact hr)

/-- A word without W1C bits keeps what its RW bits store. -/
theorem plainWord_no_w1c (s : State) (a rw : Nat) (d : Word) :
    plainWord s a rw 0 d = s.setReg a ((s.reg a &&& ~~~(word rw)) ||| (d &&& word rw)) := by
  rw [plainWord, clearBits, show d &&& word 0 = 0#32 from BitVec.and_zero, BitVec.not_zero, BitVec.and_allOnes]

/-! ## Reads -/

/-- The secure memory and the engine windows answer every read themselves. -/
theorem not_window_of_blockRead_plain (h : s.blockRead w b o a = .plain) : b ≠ .secure ∧ b ≠ .pe := by
  constructor <;> rintro rfl
  · simp only [State.blockRead, State.secureRead, State.wordAt] at h
    split_ifs at h
  · simp only [State.blockRead, State.peRead] at h
    split_ifs at h

/-- An aligned read of an admitted master is what its block answers, with R10 applied; the host has no path to the windows (R449). -/
theorem Admitted.busRead (h : Admitted w s) (ha : a % 4 = 0) (hb : blockOf a = some (b, o))
    (hn : isHost w = true → b ≠ .secure ∧ b ≠ .pe) :
    s.busRead w a = s.finishRead w a ((s.blockRead w b o a).orPlain s a) := by
  simp [State.busRead, ha, hb, (h.pathOpen_iff b false).2 hn, h.notBar4, State.readWord, State.mayReach, h.hostOrMcp]

/-- An aligned read at an address that no block has is zero (R8). -/
theorem regRead_nothing (h : Admitted w s) (ha : a % 4 = 0) (hb : blockOf a = none) : regRead w a s = answered s 0 := by
  have hbus : s.busRead w a = ⟨s, 0, false⟩ := by
    simp [State.busRead, ha, hb, h.pathOpen_none, h.notBar4, State.readWord, h.hostOrMcp]
  simp [regRead, h.notPair, State.busLoad, hbus, BusVal.answer, answered]

/-- What an admitted master sees of its read of any register. -/
theorem Admitted.lowWordRead (h : Admitted w s) (ha : a < 2 ^ 40) : exec (.lowWordRead w a) s = .next (s.busLoad w a).answer := by
  rw [exec_lowWordRead, query_ok h.ok, if_pos (decide_eq_true ha)]
  simp [regRead, h.notPair]

/-- The same, by the answer of the block. -/
theorem lowWordRead_of_block (h : Admitted w s) (ha : a % 4 = 0) (hb : blockOf a = some (b, o))
    (hn : isHost w = true → b ≠ .secure ∧ b ≠ .pe)
    (hr : s.finishRead w a ((s.blockRead w b o a).orPlain s a) = ⟨t, v, false⟩) :
    exec (.lowWordRead w a) s = .next (answered t v) := by
  have hbus : s.busRead w a = ⟨t, v, false⟩ := (h.busRead ha hb hn).trans hr
  simp [h.lowWordRead (blockOf_lt hb), State.busLoad, hbus, BusVal.answer, answered]

/-- A register to whose read its unit adds nothing is read by its access codes (R6, R8, R10). -/
theorem lowWordRead_of_plain (h : Admitted w s) (ha : a % 4 = 0) (hb : blockOf a = some (b, o)) (hp : s.blockRead w b o a = .plain)
    (hr : s.finishRead w a (plainRead s a) = ⟨t, v, false⟩) : exec (.lowWordRead w a) s = .next (answered t v) :=
  lowWordRead_of_block h ha hb (fun _ => not_window_of_blockRead_plain hp) (by rw [hp]; exact hr)

/-- The host's read of the secure memory or of an engine window is a bus error (R449). -/
theorem lowWordRead_window_host (h : Admitted w s) (hw : isHost w = true) (hb : blockOf a = some (b, o)) (hn : b = .secure ∨ b = .pe) :
    exec (.lowWordRead w a) s = .next { s.masterError w a false with reply := [0xFFFFFFFF], replyErr := true } := by
  have hc : s.pathOpen w (some b) false = false := by
    rw [Bool.eq_false_iff, ne_eq, h.pathOpen_iff]
    tauto
  have hbus : s.busRead w a = busError s := by simp [State.busRead, hb, hc, h.notBar4]
  simp [h.lowWordRead (blockOf_lt hb), State.busLoad, hbus, busError, BusVal.answer]

/-! ## The halves of a 64-bit register (R9, R10) -/

theorem word_reg64 (s : State) (a : Nat) : word (s.reg64 a) = s.reg a := by
  apply BitVec.eq_of_toNat_eq
  have := (s.reg a).isLt
  simp only [word, State.reg64, BitVec.toNat_ofNat]
  omega

theorem word_reg64_high (s : State) (a : Nat) : word (s.reg64 a / 2 ^ 32) = s.reg (a + 4) := by
  apply BitVec.eq_of_toNat_eq
  have := (s.reg a).isLt
  have := (s.reg (a + 4)).isLt
  simp only [word, State.reg64, BitVec.toNat_ofNat]
  omega

theorem highWord_latched {h : Word} (live : Nat) (hl : s.held w = some (a, h)) : s.highWord w a live = ⟨s.setHeld w none, h, false⟩ := by
  simp [State.highWord, hl]

theorem highWord_live {live : Nat} (hl : ∀ h, s.held w ≠ some (a, h)) : s.highWord w a live = ⟨s, word (live / 2 ^ 32), false⟩ := by
  unfold State.highWord
  split
  · next c h hc => exact if_neg (fun hca => hl h (by rw [hc, hca]))
  · rfl

/-! ## TICK.INDEX -/

theorem plainRead_index_low (s : State) : plainRead s (tickReg 0x10) = .low s (s.reg64 (tickReg 0x10)) := rfl
theorem plainRead_index_high (s : State) : plainRead s (tickReg 0x14) = .high s (s.reg64 (tickReg 0x10)) := rfl

theorem finishRead_index_low (w : Who) (s : State) : s.finishRead w (tickReg 0x10) (plainRead s (tickReg 0x10)) =
    ⟨s.setHeld w (some (tickReg 0x10, s.reg (tickReg 0x14))), s.reg (tickReg 0x10), false⟩ := by
  rw [plainRead_index_low, State.finishRead, word_reg64, word_reg64_high]
  rfl

theorem finishRead_index_high (w : Who) (s : State) : s.finishRead w (tickReg 0x14) (plainRead s (tickReg 0x14)) =
    s.highWord w (tickReg 0x10) (s.reg64 (tickReg 0x10)) := by
  rw [plainRead_index_high]
  rfl

/-- TICK serves every read by its registers' words. -/
theorem tickRead_of_plain (h : Admitted w s) (ha : tickReg o % 4 = 0) (ho : o < 0x100000)
    (hr : s.finishRead w (tickReg o) (plainRead s (tickReg o)) = ⟨t, v, false⟩) :
    exec (.lowWordRead w (tickReg o)) s = .next (answered t v) :=
  lowWordRead_of_plain h ha (blockOf_tick ho) rfl hr

/-! ## Snapshots -/

/-- Is a snapshot to be copied: one due in the tick, or one requested while no ticks run (R14, R54)? -/
def State.SnapshotWanted (s : State) : Prop := s.tick.snapDue = true ∨ (s.tick.snapReq = true ∧ s.bit tickStatus 0 = false)

/-- The state that a copied snapshot leaves. -/
def State.snapshotTaken (s : State) : State :=
  { (({ s with snaps := s.cnts }.setReg (swBase + 0x9024) (word s.sw.frames.length)).setReg (sysReg 0x14) (s.reg (sysReg 0x14) + 1)) with
    tick := { s.tick with snapDue := false, snapReq := s.tick.snapDue && s.tick.snapReq } }

theorem snapshotCopy_wanted (h : s.SnapshotWanted) : s.snapshotCopy = s.snapshotTaken := by
  have hc : (s.tick.snapDue || (s.tick.snapReq && !s.running)) = true := by
    simpa [State.SnapshotWanted, State.running] using h
  have hseq : word (((({ s with snaps := s.cnts } : State).setReg (swBase + 0x9024) (word s.sw.frames.length)).reg (sysReg 0x14)).toNat + 1) =
      s.reg (sysReg 0x14) + 1 := by
    rw [State.reg_setReg_other _ _ (by decide)]
    exact BitVec.eq_of_toNat_eq (by simp [word, State.reg])
  have hreq : (if s.tick.snapDue then s.tick.snapReq else false) = (s.tick.snapDue && s.tick.snapReq) := by
    cases s.tick.snapDue <;> rfl
  unfold State.snapshotCopy
  rw [if_pos hc, hreq]
  simp only [show sysBase + 0x14 = sysReg 0x14 from rfl, hseq, State.setReg_tick]
  rfl

theorem snapshotCopy_unwanted (h : ¬ s.SnapshotWanted) : s.snapshotCopy = s := by
  have hc : ¬ (s.tick.snapDue || (s.tick.snapReq && !s.running)) = true := by
    simpa [State.SnapshotWanted, State.running] using h
  exact if_neg hc

theorem snapshotTaken_reg (s : State) (a : Nat) (h1 : a ≠ sysReg 0x14) (h2 : a ≠ swBase + 0x9024) : s.snapshotTaken.reg a = s.reg a :=
  (State.reg_setReg_other _ _ h1).trans (State.reg_setReg_other _ _ h2)

theorem snapshotTaken_seq (s : State) : s.snapshotTaken.reg (sysReg 0x14) = s.reg (sysReg 0x14) + 1 := State.reg_setReg_same _ _ _

/-- SNAP_REQ is written as the request itself, with no bus error (R14). -/
theorem snapReq_admitted (h : Admitted w s) (d : Word) : exec (.snapReq w d) s = .next (acked (s.snapRequest d)) := by
  rw [exec_snapReq, access_true h, regWrite_admitted h d (by decide) (blockOf_sys (by decide)) (by decide) rfl]

end Sys2Proof.Machine

open Sys2Proof Sys2Proof.Machine

/-- Settles O2: every command is an event, an access, a query or an unconditional effect, and none of these can fail. -/
theorem everyCommandCompletes : Obligations.EveryCommandCompletes := by
  refine ⟨exec_completes, fun s n f e hn => ?_, fun w s n d hw => ?_, fun w s n d hw hn => ?_⟩
  · rw [exec_bundleIssue, exec_ctlWaitEnd, exec_farResult, isCore_absent hn]
    exact ⟨event_false _ _, event_false _ _, event_false _ _⟩
  · exact ⟨access_masterless hw _ _ _, query_masterless hw _ _ _⟩
  · have h : Admitted w s := hw.admitted
    have hc := isChan_absent hn
    constructor
    · rw [exec_txdWrite, access_ok h.ok, hc, regWrite_nothing h _ (.inr blockOf_nowhere), hw.masterError]
      rfl
    · rw [exec_rxdRead, query_ok h.ok, hc, regRead_nothing h (by decide) blockOf_nowhere]
      rfl

/-- Settles O3: an access by an admitted master is its block's answer, which is that of the access codes where the unit adds nothing. -/
theorem registerAccessFollowsItsAccessCodes : Obligations.RegisterAccessFollowsItsAccessCodes := by
  refine ⟨?_, ?_, ?_, ?_, ?_, ?_, ?_, ?_, ?_, ?_, ?_⟩
  -- a write that is acknowledged
  · exact fun w s s1 t a o b d h ha hb h1 hr => registerWrite_of_block h ha hb h1 hr
  -- a write that is refused
  · exact fun w s s1 t a o b d h ha hb h1 hr => registerWrite_of_block h ha hb h1 hr
  -- nothing to write (R8)
  · exact fun w s a d h hl ha => registerWrite_of_busWrite h.ok hl ((h.withFreeCtr _).busWrite_nothing ha _)
  -- an engine's write is staged
  · intro w s s1 t a n d h hl h1
    subst h1
    have hbus (x : Signed) : ({ s with freeCtr := s.freeCtr + 4 } : State).busWrite w a d x =
        ({ s with freeCtr := s.freeCtr + 4 } : State).stageWrite n a d := by simp [State.busWrite, h.engineOf]
    exact ⟨fun hr => registerWrite_of_busWrite h.ok hl ((hbus _).trans hr), fun hr => registerWrite_of_busWrite h.ok hl ((hbus _).trans hr)⟩
  -- a read
  · exact fun w s t a o b v h ha hb hn hr => lowWordRead_of_block h ha hb hn hr
  -- the windows that no BAR maps (R449)
  · exact fun w s a o b h hw ha hb hn => lowWordRead_window_host h hw hb hn
  -- a plain word (R6)
  · intro w s s1 a o rw w1c r b d h ha hb h1 hc hp
    have hr : (plainWrite s1 a d).state s1 = (plainWord s1 a rw w1c d, false) := by simp [plainWrite, hc, WRes.state]
    rw [registerWrite_of_plain h ha hb h1 hp hr, h1]
    rfl
  -- a half of a plain 64-bit register (R9)
  · intro w s s1 a o rw r b d h ha hb h1 hc hp
    have hr : (plainWrite s1 a d).state s1 = (plainWord s1 a rw 0 d, false) := by
      rcases hc with hc | hc <;> simp [plainWrite, hc, WRes.state]
    rw [registerWrite_of_plain h ha hb h1 hp hr, plainWord_no_w1c, h1]
    rfl
  -- a plain word is read
  · exact fun w s a o rw w1c r b h ha hb hc hp => lowWordRead_of_plain h ha hb hp (by simp [plainRead, hc, State.finishRead])
  -- no register stands here: the write
  · exact fun w s s1 a o b d h ha hb hc h1 hp => registerWrite_of_plain h ha hb h1 hp (t := s1) (e := true) (by simp [plainWrite, hc, WRes.state])
  -- no register stands here: the read
  · exact fun w s a o b h ha hb hc hp => lowWordRead_of_plain h ha hb hp (by simp [plainRead, hc, State.finishRead])

/-- Settles O4: TICK.INDEX through the holding register of its reader, SNAP_REQ and the snapshot that serves it. -/
theorem wideReadsAndSnapshots : Obligations.WideReadsAndSnapshots := by
  refine ⟨?_, ?_, ?_, ?_, ?_, ?_⟩
  · exact fun w s h => tickRead_of_plain h (by decide) (by decide) (finishRead_index_low w s)
  · intro w s v h hl
    exact tickRead_of_plain h (by decide) (by decide) ((finishRead_index_high w s).trans (highWord_latched _ hl))
  · intro w s h hl
    have hr := (finishRead_index_high w s).trans (highWord_live hl)
    rw [word_reg64_high] at hr
    exact tickRead_of_plain h (by decide) (by decide) hr
  · exact fun w s d h => snapReq_admitted h d
  · intro s h
    exact ⟨s.snapshotTaken, by rw [exec_snapshotCopy, snapshotCopy_wanted h], fun k => ⟨rfl, rfl⟩, snapshotTaken_seq s, rfl, rfl,
      snapshotTaken_reg s, rfl⟩
  · intro s hd hr
    have hn : ¬ s.SnapshotWanted := by
      rintro (h | ⟨h1, h2⟩)
      · simp [hd] at h
      · rcases hr with hr | hr
        · simp [hr] at h1
        · simp [hr] at h2
    rw [exec_snapshotCopy, snapshotCopy_unwanted hn]
end

section
/-!
Proofs about the base tick (family 02_tick_model): RUN and PERIOD (R32 to R35).
-/
namespace Sys2Proof.Machine

variable {w : Who} {s t : State} {d : Word} {v : Nat}

/-! ## RUN and PERIOD (R32 to R35) -/

theorem tickWrite_period (s : State) (d : Word) : tickWrite s 4 d = s.periodWrite d := rfl

theorem tickRunStart_admitted (h : Admitted w s) : exec (.tickRunStart w) s = .next (acked s.tickStart) := by
  have hw : regWrite w (tickReg 0) 1 s = acked s.tickStart :=
    regWrite_admitted h 1 (by decide) (blockOf_tick (by decide)) (by decide) rfl
  exact (access_true h _).trans (congrArg _ hw)

theorem tickRunStop_admitted (h : Admitted w s) : exec (.tickRunStop w) s = .next (acked s.tickStop) := by
  have hw : regWrite w (tickReg 0) 0 s = acked s.tickStop :=
    regWrite_admitted h 0 (by decide) (blockOf_tick (by decide)) (by decide) rfl
  exact (access_true h _).trans (congrArg _ hw)

theorem tickPeriodWrite_done (h : Admitted w s) (hd : s.periodWrite d = .done t) :
    exec (.tickPeriodWrite w d) s = .next (acked t) := by
  have hw : regWrite w (tickReg 4) d s = acked t :=
    regWrite_admitted h d (by decide) (blockOf_tick (by decide)) (by decide)
      (by rw [State.blockWrite, tickWrite_period, hd]; rfl)
  exact (access_true h _).trans (congrArg _ hw)

theorem tickPeriodWrite_refused (h : Admitted w s) (hd : s.periodWrite d = .err s) :
    exec (.tickPeriodWrite w d) s = .next (refusedWrite (s.masterError w (tickReg 4) true)) := by
  have hw : regWrite w (tickReg 4) d s = refusedWrite (s.masterError w (tickReg 4) true) :=
    regWrite_refused h d (by decide) (blockOf_tick (by decide)) (by decide)
      (by rw [State.blockWrite, tickWrite_period, hd]; rfl)
  exact (access_true h _).trans (congrArg _ hw)

theorem State.running_setReg_other {a : Nat} (d : Word) (h : tickStatus ≠ a) : (s.setReg a d).running = s.running :=
  State.bit_setReg_other _ _ _ h

/-- RUN 0 to 1 with no tick running: a fault of the generator ends, and the first boundary is chosen (R34). -/
theorem tickStart_idle (hr : s.bit (tickReg 0) 0 = false) (ht : s.running = false) : s.tickStart = ({ s with
    flt := { s.flt with tickFault := false }, tick := { s.tick with next := some s.firstBoundary } }).setReg (tickReg 0) 1 := by
  have hrun : (({ s with flt := { s.flt with tickFault := false } } : State).setReg (tickReg 0) 1).running = false :=
    (State.running_setReg_other _ (by decide)).trans ht
  have hbit : (({ s with flt := { s.flt with tickFault := false } } : State).setReg (tickReg 0) 1).bit (tickReg 0) 0 = true := by
    rw [State.bit, State.reg_setReg_same]; rfl
  simp only [State.tickStart, State.replan, hr, hrun, hbit]
  rfl

theorem tickStart_of_run (hr : s.bit (tickReg 0) 0 = true) : s.tickStart = s := if_pos hr

theorem tickStop_running (ht : s.running = true) :
    s.tickStop = ({ s with tick := { s.tick with stopping := true } }).setReg (tickReg 0) 0 := by
  have hrun : (s.setReg (tickReg 0) 0).running = true := (State.running_setReg_other _ (by decide)).trans ht
  exact if_pos hrun

theorem tickStop_idle (ht : s.running = false) :
    s.tickStop = ({ s with tick := { s.tick with next := none } }).setReg (tickReg 0) 0 := by
  have hrun : ¬ (s.setReg (tickReg 0) 0).running = true := by
    rw [State.running_setReg_other _ (by decide), ht]; decide
  exact if_neg hrun

theorem fieldOf_word_low {len : Nat} (hv : v < 2 ^ len) (hl : len ≤ 32) : fieldOf (word v) 0 len = v := by
  have h32 : v < 2 ^ 32 := lt_of_lt_of_le hv (Nat.pow_le_pow_right (by decide) hl)
  rw [fieldOf, bitsOf, word, BitVec.toNat_ofNat, Nat.mod_eq_of_lt h32, Nat.pow_zero, Nat.div_one, Nat.mod_eq_of_lt hv]

theorem periodWrite_refused (hv : v < 2 ^ 20) (hb : v < 10 ∨ 1000000 < v) : s.periodWrite (word v) = .err s := by
  rw [State.periodWrite, fieldOf_word_low hv (by decide), if_pos (by tauto)]

section
variable (h1 : 10 ≤ v) (h2 : v ≤ 1000000) (h3 : s.minPeriod ≤ v)
include h1 h2 h3

/-- While ticks run, a period in range waits for the next boundary (R35). -/
theorem periodWrite_running (ht : s.running = true) :
    s.periodWrite (word v) = .done ((s.setReg (tickReg 4) (word v)).setBit tickStatus 1 true) := by
  have hrun : (s.setReg (tickReg 4) (word v)).running = true := (State.running_setReg_other _ (by decide)).trans ht
  simp only [State.periodWrite]
  rw [fieldOf_word_low (by omega) (by decide), if_neg (by omega), if_pos hrun]

/-- While neither RUN nor RUNNING is 1, a period in range is in force at once (R35). -/
theorem periodWrite_idle (ht : s.running = false) (hr : s.bit (tickReg 0) 0 = false) :
    s.periodWrite (word v) = .done (({ s with tick := { s.tick with inForce := v } }).setReg (tickReg 4) (word v)) := by
  have hrun : ¬ (s.setReg (tickReg 4) (word v)).running = true := by
    rw [State.running_setReg_other _ (by decide), ht]; decide
  have hbit : (s.setReg (tickReg 4) (word v)).bit (tickReg 0) 0 = false := (State.bit_setReg_other _ _ _ (by decide)).trans hr
  simp only [State.periodWrite]
  rw [fieldOf_word_low (by omega) (by decide), if_neg (by omega), if_neg hrun, State.replan, if_neg]
  · rfl
  · exact fun h => absurd ((Bool.and_eq_true_iff.1 h).1.symm.trans hbit) (by decide)
end

end Sys2Proof.Machine

open Sys2Proof Sys2Proof.Machine

/-- Settles O5: what a write of RUN and of PERIOD comes to, while ticks run and while none does. -/
theorem tickControlIsByRunAndPeriod : Obligations.TickControlIsByRunAndPeriod := by
  refine ⟨?_, ?_, ?_, ?_, ?_, ?_, ?_⟩
  · intro w s h hr ht
    rw [tickRunStart_admitted h, tickStart_idle hr ht]
    rfl
  · intro w s h hr
    rw [tickRunStart_admitted h, tickStart_of_run hr]
  · intro w s h ht
    rw [tickRunStop_admitted h, tickStop_running ht]
  · intro w s h ht
    rw [tickRunStop_admitted h, tickStop_idle ht]
  · exact fun w s v h h1 h2 h3 ht => tickPeriodWrite_done h (periodWrite_running h1 h2 h3 ht)
  · exact fun w s v h h1 h2 h3 ht hr => tickPeriodWrite_done h (periodWrite_idle h1 h2 h3 ht hr)
  · exact fun w s v h hv hb => tickPeriodWrite_refused h (periodWrite_refused hv hb)
end

section
/-!
What a tick boundary leaves alone (R37): Traverse, Ropeline, the views and the takeovers neither move the tick generator and the device time nor
touch what waits for the boundary or the transmit FIFOs. One lemma for each operation.
-/
namespace Sys2Proof.Machine

variable (s : State)

/-! ## The views -/

/-- The tick generator and the device time. -/
def State.clock (s : State) : TickSt × Nat := (s.tick, s.time)

/-- The writes that wait for the boundary, and the transmit FIFOs of the channels. -/
def State.outputs (s : State) : List (Nat × Nat × Word) × (Nat → List Word) := (s.pec.atBoundary, fun n => (s.chan n).tx)

/-- Both. -/
def State.tickView (s : State) : (TickSt × Nat) × (List (Nat × Nat × Word) × (Nat → List Word)) := (s.clock, s.outputs)

theorem State.clock_of_tickView {s t : State} (h : t.tickView = s.tickView) : t.clock = s.clock := congrArg Prod.fst h
theorem State.outputs_of_tickView {s t : State} (h : t.tickView = s.tickView) : t.outputs = s.outputs := congrArg Prod.snd h

@[simp] theorem State.tickView_ite (c : Prop) [Decidable c] (x y : State) :
    (if c then x else y).tickView = if c then x.tickView else y.tickView := apply_ite State.tickView c x y
@[simp] theorem State.clock_ite (c : Prop) [Decidable c] (x y : State) : (if c then x else y).clock = if c then x.clock else y.clock :=
  apply_ite State.clock c x y

/-- A loop whose every turn keeps a view of the state keeps it. -/
theorem foldl_keeps {α β : Type} {k : State → β} {f : State → α → State} (h : ∀ s x, k (f s x) = k s) (xs : List α) (s : State) :
    k (xs.foldl f s) = k s := by
  induction xs generalizing s with
  | nil => rfl
  | cons x xs ih => exact (ih _).trans (h s x)

@[simp] theorem tickView_foldl {α : Type} {f : State → α → State} (h : ∀ s x, (f s x).tickView = s.tickView) (xs : List α) (s : State) :
    (xs.foldl f s).tickView = s.tickView := foldl_keeps h xs s
@[simp] theorem clock_foldl {α : Type} {f : State → α → State} (h : ∀ s x, (f s x).clock = s.clock) (xs : List α) (s : State) :
    (xs.foldl f s).clock = s.clock := foldl_keeps h xs s

/-! ## The shared operations -/

theorem tickView_congr {s t : State} (htick : t.tick = s.tick) (htime : t.time = s.time) (hpec : t.pec = s.pec) (hpch : t.pch = s.pch) :
    t.tickView = s.tickView := by
  simp only [State.tickView, State.clock, State.outputs, State.chan, htick, htime, hpec, hpch]

@[simp] theorem setReg_tickView (a : Nat) (d : Word) : (s.setReg a d).tickView = s.tickView := tickView_congr rfl rfl rfl rfl
@[simp] theorem setFld_tickView (a lo len n : Nat) : (s.setFld a lo len n).tickView = s.tickView := tickView_congr rfl rfl rfl rfl
@[simp] theorem setBit_tickView (a i : Nat) (b : Bool) : (s.setBit a i b).tickView = s.tickView := tickView_congr rfl rfl rfl rfl
@[simp] theorem setReg64_tickView (a n : Nat) : (s.setReg64 a n).tickView = s.tickView := tickView_congr rfl rfl rfl rfl
@[simp] theorem bumpBy_tickView (a n : Nat) : (s.bumpBy a n).tickView = s.tickView := tickView_congr rfl rfl rfl rfl
@[simp] theorem bump_tickView (a : Nat) : (s.bump a).tickView = s.tickView := tickView_congr rfl rfl rfl rfl
@[simp] theorem withFlt_tickView (x : FltSt) : State.tickView { s with flt := x } = s.tickView := tickView_congr rfl rfl rfl rfl
@[simp] theorem withHost_tickView (x : HostSt) : State.tickView { s with host := x } = s.tickView := tickView_congr rfl rfl rfl rfl
@[simp] theorem withTrav_tickView (x : TravSt) : State.tickView { s with trav := x } = s.tickView := tickView_congr rfl rfl rfl rfl
@[simp] theorem withSw_tickView (x : SwSt) : State.tickView { s with sw := x } = s.tickView := tickView_congr rfl rfl rfl rfl
@[simp] theorem raise_tickView (src cls cause : Nat) (v : Word) (d : List Byte) : (s.raise src cls cause v d).tickView = s.tickView := by
  simp [State.raise, State.onBus, State.detect]
@[simp] theorem raiseVector_tickView (v : Nat) : (s.raiseVector v).tickView = s.tickView := by
  simp [State.raiseVector, State.sendVector]
@[simp] theorem ring_tickView (e : Nat) (d : Word) : (s.ring e d).tickView = s.tickView := by
  simp [State.ring, State.dbNotify]

/-! ## Traverse -/

@[simp] theorem setAxis_tickView (a : Nat) (c : AxisSt) : (s.setAxis a c).tickView = s.tickView := tickView_congr rfl rfl rfl rfl
@[simp] theorem axisSticky_tickView (a i : Nat) : (s.axisSticky a i).tickView = s.tickView := by simp [State.axisSticky]
@[simp] theorem segFlush_tickView (a : Nat) : (s.segFlush a).tickView = s.tickView := by simp [State.segFlush]
@[simp] theorem homeEnd_tickView (a : Nat) (x : Int) : (s.homeEnd a x).tickView = s.tickView := by simp [State.homeEnd]
@[simp] theorem axisOff_tickView (a : Nat) : (s.axisOff a).tickView = s.tickView := by simp [State.axisOff]

@[simp] theorem axisRest_tickView (a : Nat) : (s.axisRest a).tickView = s.tickView := by
  unfold State.axisRest
  dsimp only
  repeat' split
  all_goals simp
@[simp] theorem decelerate_tickView (a : Nat) (d : Frac) (t : Int) : (s.decelerate a d t).tickView = s.tickView := by
  simp [State.decelerate]
@[simp] theorem axisStop_tickView (a after : Nat) (t : Int) : (s.axisStop a after t).tickView = s.tickView := by
  simp [State.axisStop]
@[simp] theorem segActivate_tickView (a : Nat) (t : Int) : (s.segActivate a t).tickView = s.tickView := by
  simp [State.segActivate]
@[simp] theorem segNext_tickView (a : Nat) (e : Int) : (s.segNext a e).tickView = s.tickView := by
  simp [State.segNext]
@[simp] theorem segEnd_tickView (a : Nat) (g : MotionSeg) : (s.segEnd a g).tickView = s.tickView := by
  simp [State.segEnd]

@[simp] theorem follow_tickView (a : Nat) (t : Int) (n : Nat) : (s.follow a t n).tickView = s.tickView := by
  induction n generalizing s with
  | zero => rfl
  | succ n ih =>
    unfold State.follow
    dsimp only
    split <;> simp [ih]
@[simp] theorem advance_tickView (a : Nat) (t : Int) : (s.advance a t).tickView = s.tickView := follow_tickView s a t 8200

@[simp] theorem gearEngage_tickView (a : Nat) (t : Int) : (s.gearEngage a t).tickView = s.tickView := by simp [State.gearEngage]
@[simp] theorem gearStep_tickView (a : Nat) (t : Int) : (s.gearStep a t).tickView = s.tickView := by simp [State.gearStep]
@[simp] theorem limTake_tickView (a : Nat) : (s.limTake a).tickView = s.tickView := by simp [State.limTake]
@[simp] theorem limSample_tickView (a : Nat) (b : Bool) : (s.limSample a b).tickView = s.tickView := by simp [State.limSample]
@[simp] theorem homeStart_tickView (a : Nat) (t : Int) : (s.homeStart a t).tickView = s.tickView := by simp [State.homeStart]

@[simp] theorem setGroup_tickView (g : Nat) (p : Option GroupPlan) : (s.setGroup g p).tickView = s.tickView :=
  tickView_congr rfl rfl rfl rfl
@[simp] theorem segWrite_tickView (a : Nat) (qs : List Planned) : (s.segWrite a qs).tickView = s.tickView := by
  induction qs generalizing s with
  | nil => unfold State.segWrite; rfl
  | cons q qs ih => unfold State.segWrite; simp [ih]
@[simp] theorem groupStart_tickView (g : Nat) (ts : List (Nat × Int)) : (s.groupStart g ts).tickView = s.tickView := by
  simp [State.groupStart]
@[simp] theorem groupStop_tickView (g : Nat) (leave : List Nat) (t : Int) : (s.groupStop g leave t).tickView = s.tickView := by
  unfold State.groupStop
  split <;> simp
@[simp] theorem groupEnd_tickView (g : Nat) : (s.groupEnd g).tickView = s.tickView := by
  unfold State.groupEnd
  split <;> simp
@[simp] theorem stopCause_tickView (a after : Nat) (t : Int) : (s.stopCause a after t).tickView = s.tickView := by
  unfold State.stopCause
  split <;> simp
@[simp] theorem limTrip_tickView (a : Nat) (t : Int) : (s.limTrip a t).tickView = s.tickView := by simp [State.limTrip]
@[simp] theorem targetGo_tickView (a : Nat) (x : Int) : (s.targetGo a x).tickView = s.tickView := by simp [State.targetGo]
@[simp] theorem axisCommand_tickView (a op : Nat) (x t : Int) : (s.axisCommand a op x t).tickView = s.tickView := by
  simp [State.axisCommand]

@[simp] theorem takeOrder_tickView (t : Int) (o : TravOrder) : (s.takeOrder t o).tickView = s.tickView := by
  cases o with
  | cmd a op x => simp [State.takeOrder]
  | segWr a n => simp [State.takeOrder]
  | seg x d =>
    simp only [State.takeOrder]
    split <;> simp [State.segStore]
  | go g ts => simp [State.takeOrder]
@[simp] theorem takeOrders_tickView (t : Int) (os : List TravOrder) : (s.takeOrders t os).tickView = s.tickView := by
  simp [State.takeOrders]
@[simp] theorem mvalPoint_tickView (a : Nat) (t : Int) : (s.mvalPoint a t).tickView = s.tickView := by simp [State.mvalPoint]
@[simp] theorem ordersNow_tickView (n : Nat) : (s.ordersNow n).tickView = s.tickView := by simp [State.ordersNow]

@[simp] theorem axisFault_tickView (a : Nat) : (s.axisFault a).tickView = s.tickView := by
  unfold State.axisFault
  dsimp only
  repeat' split
  all_goals simp
@[simp] theorem padCheck_tickView (a : Nat) : (s.padCheck a).tickView = s.tickView := by simp [State.padCheck]
@[simp] theorem padChecks_tickView : s.padChecks.tickView = s.tickView := by simp [State.padChecks]
@[simp] theorem axesOff_tickView : s.axesOff.tickView = s.tickView := by simp [State.axesOff]
@[simp] theorem axisPoint_tickView (a : Nat) (t : Int) : (s.axisPoint a t).tickView = s.tickView := by simp [State.axisPoint]
@[simp] theorem axisLimits_tickView (a : Nat) (t : Int) (b : Bool) : (s.axisLimits a t b).tickView = s.tickView := by
  simp [State.axisLimits]
@[simp] theorem gridEval_tickView (t : Int) : (s.gridEval t).tickView = s.tickView := by simp [State.gridEval]

/-- A channel that keeps its transmit FIFO. -/
theorem setChan_tickView {n : Nat} {c : Chan} (h : c.tx = (s.chan n).tx) : (s.setChan n c).tickView = s.tickView := by
  have htx : (fun m => ((s.setChan n c).chan m).tx) = fun m => (s.chan m).tx := by
    funext m
    rcases eq_or_ne m n with rfl | hm
    · exact (congrArg Chan.tx (Tab.get_set_same s.pch.chans c)).trans h
    · exact congrArg Chan.tx (Tab.get_set_other s.pch.chans c hm)
  exact congrArg (fun x => (s.clock, (s.pec.atBoundary, x))) htx

theorem taqPush_tickView (n t : Nat) (w : Word) : (s.taqPush n t w).1.tickView = s.tickView := by
  unfold State.taqPush
  dsimp only
  split
  · rfl
  · exact setChan_tickView s rfl
@[simp] theorem writeAct_tickView (a : Nat) (x : StepAct) : (s.writeAct a x).tickView = s.tickView := by
  simp [State.writeAct, taqPush_tickView]
@[simp] theorem writeActs_tickView (a : Nat) (t : Int) : (s.writeActs a t).tickView = s.tickView := by simp [State.writeActs]
@[simp] theorem stepLine_tickView (a : Nat) (t : Int) : (s.stepLine a t).tickView = s.tickView := by simp [State.stepLine]
@[simp] theorem afterOrders_tickView (t : Int) : (s.afterOrders t).tickView = s.tickView := by simp [State.afterOrders]
@[simp] theorem noteSetpoints_tickView : s.noteSetpoints.tickView = s.tickView := tickView_congr rfl rfl rfl rfl

/-! ## Writes that waited for the boundary -/

/-- Whatever state a unit's answer to a write carries shows the same view. -/
def WRes.Keeps {β : Type} (k : State → β) (s : State) (r : WRes) : Prop := ∀ t, r = .done t ∨ r = .err t → k t = k s

section
variable {s} {β : Type} {k : State → β} {r : WRes}

@[simp] theorem keeps_done (t : State) : (WRes.done t).Keeps k s ↔ k t = k s := by simp [WRes.Keeps]
@[simp] theorem keeps_err (t : State) : (WRes.err t).Keeps k s ↔ k t = k s := by simp [WRes.Keeps]
@[simp] theorem keeps_plain : WRes.plain.Keeps k s := by simp [WRes.Keeps]
@[simp] theorem keeps_ite (c : Prop) [Decidable c] (x y : WRes) :
    (if c then x else y).Keeps k s ↔ (c → x.Keeps k s) ∧ (¬c → y.Keeps k s) := by split <;> simp [*]
@[simp] theorem keeps_unless (ok : Bool) : (WRes.unless ok s r).Keeps k s ↔ (ok = true → r.Keeps k s) := by
  cases ok <;> simp [WRes.unless]

/-- What keeps the view of a state keeps that of any state that shows the same. -/
theorem WRes.Keeps.of_eq {t : State} (h : r.Keeps k t) (he : k t = k s) : r.Keeps k s := fun u hu => (h u hu).trans he

theorem plainWrite_keeps (hk : ∀ (s : State) a d, k (s.setReg a d) = k s) (s : State) (a : Nat) (d : Word) :
    (plainWrite s a d).Keeps k s := by
  unfold plainWrite
  split <;> simp [plainWord, hk]

theorem WRes.Keeps.orPlain (hk : ∀ (s : State) a d, k (s.setReg a d) = k s) (h : r.Keeps k s) (a : Nat) (d : Word) :
    (r.orPlain s a d).Keeps k s := by
  cases r with
  | done t => exact h
  | err t => exact h
  | plain => exact plainWrite_keeps hk s a d
end

end Sys2Proof.Machine
end

section
/-!
What the writes that waited for the boundary do when they take effect there (R147): each is a write of Traverse or of a pin channel.
-/
namespace Sys2Proof.Machine

variable (s : State)

theorem plainWrite_tickView (a : Nat) (d : Word) : (plainWrite s a d).Keeps State.tickView s := plainWrite_keeps setReg_tickView s a d

/-! ### Traverse -/

@[simp] theorem noteOrder_tickView (o : TravOrder) : (s.noteOrder o).tickView = s.tickView := by simp [State.noteOrder]
@[simp] theorem axisCfg_tickView (a : Nat) (d : Word) : (s.axisCfg a d).tickView = s.tickView := by simp [State.axisCfg]
@[simp] theorem softWrite_tickView (a r : Nat) (d : Word) : (s.softWrite a r d).Keeps State.tickView s := by
  simp [State.softWrite]
@[simp] theorem segCfgWrite_tickView (a : Nat) (d : Word) : (s.segCfgWrite a d).Keeps State.tickView s := by
  simp [State.segCfgWrite]
@[simp] theorem segWrWrite_tickView (a : Nat) (d : Word) (b : Bool) : (s.segWrWrite a d b).Keeps State.tickView s := by
  simp [State.segWrWrite]
@[simp] theorem gearPush_tickView (a : Nat) (d : Word) : (s.gearPush a d).Keeps State.tickView s := by simp [State.gearPush]
@[simp] theorem limCfg_tickView (a : Nat) (d : Word) : (s.limCfg a d).Keeps State.tickView s := by
  have h : (WRes.plain.orPlain s (axisReg a 0x60) d).Keeps State.tickView s := plainWrite_tickView s _ d
  unfold State.limCfg
  split
  · next t ht => simpa using h t (.inl ht)
  · exact h
@[simp] theorem axisWrite_tickView (a r : Nat) (d : Word) (b : Bool) : (s.axisWrite a r d b).Keeps State.tickView s := by
  simp [State.axisWrite, State.noteCommand, State.axisKick]
@[simp] theorem groupGo_tickView (g : Nat) (b : Bool) : (s.groupGo g b).Keeps State.tickView s := by simp [State.groupGo]
@[simp] theorem segMemWrite_tickView (x : Nat) (d : Word) (b : Bool) : (s.segMemWrite x d b).Keeps State.tickView s := by
  simp [State.segMemWrite]
@[simp] theorem travWrite_tickView (b : Bool) (o : Nat) (d : Word) : (travWrite s b o d).Keeps State.tickView s := by
  simp [travWrite]

@[simp] theorem travStaged_tickView (o a : Nat) (d : Word) : (travStaged s o a d).tickView = s.tickView := by
  have h := (travWrite_tickView s true o d).orPlain setReg_tickView a d
  unfold travStaged
  split
  · next t ht => simpa using h t (.inl ht)
  · next t ht => simpa using h t (.inr ht)
  · rfl

/-! ### Pin channels -/

theorem clock_congr {s t : State} (htick : t.tick = s.tick) (htime : t.time = s.time) : t.clock = s.clock := by
  simp only [State.clock, htick, htime]

@[simp] theorem setReg_clock (a : Nat) (d : Word) : (s.setReg a d).clock = s.clock := clock_congr rfl rfl
@[simp] theorem setFld_clock (a lo len n : Nat) : (s.setFld a lo len n).clock = s.clock := clock_congr rfl rfl
@[simp] theorem setBit_clock (a i : Nat) (b : Bool) : (s.setBit a i b).clock = s.clock := clock_congr rfl rfl
@[simp] theorem bump_clock (a : Nat) : (s.bump a).clock = s.clock := clock_congr rfl rfl
@[simp] theorem plainWord_clock (a rw w1c : Nat) (d : Word) : (plainWord s a rw w1c d).clock = s.clock := by simp [plainWord]
@[simp] theorem setChan_clock (n : Nat) (c : Chan) : (s.setChan n c).clock = s.clock := clock_congr rfl rfl
@[simp] theorem onFlag_clock (k : Nat) (f : SharedFlag → SharedFlag) : (s.onFlag k f).clock = s.clock := clock_congr rfl rfl
@[simp] theorem plainWrite_clock (a : Nat) (d : Word) : (plainWrite s a d).Keeps State.clock s := plainWrite_keeps setReg_clock s a d

@[simp] theorem entryWritten_clock (n o : Nat) (d : Word) : (s.entryWritten n o d).clock = s.clock := clock_congr rfl rfl
@[simp] theorem chanCtl_clock (n : Nat) (d : Word) : (s.chanCtl n d).Keeps State.clock s := by
  unfold State.chanCtl
  dsimp only
  split
  · exact (plainWrite_clock (s.setChan n _) _ d).of_eq (setChan_clock s n _)
  · exact keeps_plain
@[simp] theorem diagCfg_clock (n : Nat) (d : Word) : (s.diagCfg n d).Keeps State.clock s := by simp [State.diagCfg, State.owFrom]
@[simp] theorem swapRequest_clock (n : Nat) : (s.swapRequest n).clock = s.clock := by simp [State.swapRequest]
@[simp] theorem swapForce_clock (n : Nat) : (s.swapForce n).clock = s.clock := by simp [State.swapForce]
@[simp] theorem taqPush_clock (n t : Nat) (w : Word) : (s.taqPush n t w).1.clock = s.clock :=
  State.clock_of_tickView (taqPush_tickView s n t w)
@[simp] theorem flagWrite_clock (k m : Nat) (d : Word) (b staged : Bool) : (s.flagWrite k m d b staged).clock = s.clock := by
  simp [State.flagWrite]
@[simp] theorem legWrite_clock (w : Who) (n p : Nat) (d : Word) : (s.legWrite w n p d).Keeps State.clock s := by simp [State.legWrite]
@[simp] theorem chanEvent_clock (n i o : Nat) : (s.chanEvent n i o).clock = s.clock := by simp [State.chanEvent, State.chanSticky]
@[simp] theorem pchApply_clock (w : Who) (n o : Nat) (d : Word) (b staged : Bool) : (s.pchApply w n o d b staged).Keeps State.clock s := by
  simp [State.pchApply]

@[simp] theorem pchStaged_clock (w : Who) (n o : Nat) (d : Word) : (s.pchStaged w n o d).clock = s.clock := by
  have h : ((if o = 0x1108 then WRes.err s else s.pchApply w n o d false true).orPlain s (pchReg n o) d).Keeps State.clock s :=
    WRes.Keeps.orPlain setReg_clock (by simp) _ d
  unfold State.pchStaged
  split
  · next t ht => exact h t (.inl ht)
  · exact chanEvent_clock s n 3 0x1318

/-- A write of TXD that waited for the boundary enters the transmit FIFO, where there is room. -/
theorem pchStaged_txd (w : Who) {c : Nat} (d : Word) (h : (s.chan c).tx.length < 16) :
    s.pchStaged w c 0x1120 d = s.setChan c { s.chan c with tx := (s.chan c).tx ++ [d] } := by
  have ha : s.pchApply w c 0x1120 d false true = .done (s.setChan c { s.chan c with tx := (s.chan c).tx ++ [d] }) := by
    simp [State.pchApply, pchInRange, h]
  simp [State.pchStaged, ha, WRes.orPlain]

@[simp] theorem applyAtBoundary_clock (x : Nat × Nat × Word) : (s.applyAtBoundary x).clock = s.clock := by
  obtain ⟨n, a, d⟩ := x
  unfold State.applyAtBoundary
  dsimp only
  split
  · exact pchStaged_clock s _ _ _ d
  · exact State.clock_of_tickView (travStaged_tickView s _ a d)
  · rfl

theorem applyAtBoundary_txd (n : Nat) {c : Nat} (d : Word) (hc : c < 256) (h : (s.chan c).tx.length < 16) :
    s.applyAtBoundary (n, pchReg c 0x1120, d) = s.setChan c { s.chan c with tx := (s.chan c).tx ++ [d] } := by
  have hb : blockOf (pchReg c 0x1120) = some (.pch, c * 0x4000 + 0x1120) := blockOf_pch hc (by decide)
  have hn : (c * 0x4000 + 0x1120) / 0x4000 = c := by omega
  have ho : (c * 0x4000 + 0x1120) % 0x4000 = 0x1120 := by omega
  simp only [State.applyAtBoundary, hb, hn, ho, pchStaged_txd s _ d h]

theorem applyBoundaryWrites_clock : s.applyBoundaryWrites.clock = s.clock := by
  have h := clock_foldl (f := fun (st : State) (x : Nat × Nat × Word) => st.applyAtBoundary x) (fun s x => applyAtBoundary_clock s x)
    s.pec.atBoundary { s with pec := { s.pec with atBoundary := [] } }
  exact h

end Sys2Proof.Machine
end

section
/-!
The start of a tick at a boundary (R33, R35 to R38): what it sets in the tick generator and the pec, and what it leaves of the outputs.
-/
namespace Sys2Proof.Machine

variable (s : State)

/-! ## The views of a tick (R38) -/

@[simp] theorem withPec_tickView (x : PecSt) (h : x.atBoundary = s.pec.atBoundary) : State.tickView { s with pec := x } = s.tickView := by
  simp only [State.tickView, State.clock, State.outputs, State.chan, h]

theorem owWatch_tickView (n p : Nat) (b : Bool) : (s.owWatch n p b).tickView = s.tickView := by
  simp [State.owWatch, setChan_tickView]
@[simp] theorem noteShown_tickView (n p : Nat) (b : Bool) : (s.noteShown n p b).tickView = s.tickView := by
  simp [State.noteShown, setChan_tickView]
@[simp] theorem revWatch_tickView (n : Nat) : (s.revWatch n).tickView = s.tickView := by
  simp [State.revWatch]
@[simp] theorem xfWatch_tickView (n : Nat) (b : Bool) : (s.xfWatch n b).tickView = s.tickView := by
  simp [State.xfWatch, setChan_tickView]
@[simp] theorem shortWatch_tickView (n p : Nat) (b : Bool) : (s.shortWatch n p b).tickView = s.tickView := by simp [State.shortWatch]
@[simp] theorem sampled_tickView : s.sampled.tickView = s.tickView := tickView_congr rfl rfl rfl rfl
@[simp] theorem sense_tickView (n : Nat) : (s.sense n).tickView = s.tickView := by
  simp [State.sense, owWatch_tickView]
@[simp] theorem chanView_tickView (n : Nat) : (s.chanView n).tickView = s.tickView := by
  simp [State.chanView, setChan_tickView]
@[simp] theorem captureViews_tickView : s.captureViews.tickView = s.tickView := by
  simp [State.captureViews]
@[simp] theorem releasesDue_tickView : s.releasesDue.tickView = s.tickView := by simp [State.releasesDue]

/-! ## Ropeline and the on-the-fly units -/

@[simp] theorem setCtx_tickView (r : Nat) (c : CtxSt) : (s.setCtx r c).tickView = s.tickView := tickView_congr rfl rfl rfl rfl
@[simp] theorem onCtx_tickView (r : Nat) (f : CtxSt → CtxSt) : (s.onCtx r f).tickView = s.tickView := by simp [State.onCtx]
@[simp] theorem endWin_tickView (r i : Nat) : (s.endWin r i).tickView = s.tickView := by
  unfold State.endWin
  split <;> simp [State.slotOpenAdd]
@[simp] theorem openWin_tickView (r i : Nat) : (s.openWin r i).tickView = s.tickView := by
  unfold State.openWin
  split <;> simp [State.slotOpenAdd]
@[simp] theorem bankSwitch_tickView (r c : Nat) : (s.bankSwitch r c).tickView = s.tickView := by
  unfold State.bankSwitch
  split <;> simp [State.ctxSticky]
@[simp] theorem windowsOver_tickView (r : Nat) : (s.windowsOver r).tickView = s.tickView := by simp [State.windowsOver]
@[simp] theorem ctxCycle_tickView (r c start : Nat) : (s.ctxCycle r c start).tickView = s.tickView := by simp [State.ctxCycle]
@[simp] theorem ropeTick_tickView : s.ropeTick.tickView = s.tickView := by simp [State.ropeTick]

@[simp] theorem setByte_tickView (a : Nat) (b : Byte) : (s.setByte a b).tickView = s.tickView := tickView_congr rfl rfl rfl rfl
@[simp] theorem setReservation_tickView (m : Nat) (g : Option Nat) : (s.setReservation m g).tickView = s.tickView := by
  simp [State.setReservation]
@[simp] theorem otfPut_tickView (j : Nat) (x : Nat × Byte) : (s.otfPut j x).tickView = s.tickView := by
  unfold State.otfPut
  split <;> simp [State.endReservations]
@[simp] theorem otfPresent_tickView : s.otfPresent.tickView = s.tickView := by simp [State.otfPresent]

/-! ## The logical engines at the boundary (R48, R49) -/

@[simp] theorem setTakeover_tickView (l : Nat) (t : Option Takeover) : (s.setTakeover l t).tickView = s.tickView := by
  simp [State.setTakeover]
@[simp] theorem missedCommit_tickView (l cause : Nat) (d : List Byte) : (s.missedCommit l cause d).tickView = s.tickView := by
  simp [State.missedCommit, State.setMissedIn, State.raiseLogical]
@[simp] theorem tickStarts_tickView (l : Nat) : (s.tickStarts l).tickView = s.tickView := by
  unfold State.tickStarts
  dsimp only
  split <;> simp [State.setStanding, State.setMissedIn, State.passHeld, State.giveBudget, State.setBindState, State.setPeState]
@[simp] theorem clearTick_tickView : s.clearTick.tickView = s.tickView := by simp [State.clearTick, State.eachEngine]

@[simp] theorem canCancel_clock (k j : Nat) : (s.canCancel k j).clock = s.clock := by
  unfold State.canCancel
  dsimp only
  repeat' split
  all_goals exact clock_congr rfl rfl
@[simp] theorem canDropStaged_clock (k : Nat) : (s.canDropStaged k).clock = s.clock := by simp [State.canDropStaged]
@[simp] theorem dropStanding_clock (l : Nat) : (s.dropStanding l).clock = s.clock := by
  unfold State.dropStanding
  dsimp only
  split
  · rw [clock_foldl (fun s k => by simp)]
    split <;> exact clock_congr rfl rfl
  · rfl
theorem dropStanding_none {s : State} {l : Nat} (h : s.standingOf l = false) : s.dropStanding l = s := by
  simp [State.dropStanding, h]

/-! ## The tick that starts at a boundary (R33, R35 to R37) -/

@[simp] theorem aliveCheck_tickView : s.aliveCheck.tickView = s.tickView := by simp [State.aliveCheck]
theorem aliveCheck_pec : s.aliveCheck.pec = s.pec := by
  unfold State.aliveCheck
  split <;> rfl

@[simp] theorem startMs_tickView : s.startMs.tickView = s.tickView := by simp [State.startMs]

/-- The writes take effect on a state that Traverse's evaluation has brought to the grid point; what follows keeps their outcome. -/
theorem boundaryPoint_writes :
    ∃ g : State, g.tickView = s.tickView ∧ s.boundaryPoint.tickView = g.applyBoundaryWrites.tickView :=
  ⟨if s.onGrid then s else s.gridEval s.gridTime, by simp, by simp [State.boundaryPoint]⟩

theorem boundaryPoint_clock : s.boundaryPoint.clock = s.clock := by
  obtain ⟨g, hg, hb⟩ := boundaryPoint_writes s
  rw [State.clock_of_tickView hb, applyBoundaryWrites_clock, State.clock_of_tickView hg]

/-- The requests that the boundary makes due have been taken up, and the tick owes its start, its deadline and its CAN view. -/
def State.tickOpened (s : State) (due : Tab Nat) : State :=
  { s with pec := { s.pec with due := due, goPend := [], haltPend := [], startDue := true, deadlineDue := true, canDue := true } }

@[simp] theorem tickOpened_tickView (due : Tab Nat) : (s.tickOpened due).tickView = s.tickView := withPec_tickView s _ rfl

/-- The state in which the new tick is opened. -/
def State.tickPoint (s : State) (e : Nat) : State := ((s.tickBegin e).startMs.eachLogical (fun st l => st.dropStanding l)).boundaryPoint

/-- A new tick is opened on a state that shows what the boundary's point left, and ALIVE is looked at. -/
theorem newTick_opens (e : Nat) : ∃ (s3 : State) (due : Tab Nat), s3.tickView = (s.tickPoint e).tickView ∧ s.newTick e = (s3.tickOpened due).aliveCheck := by
  refine ⟨_, _, ?_, by unfold State.newTick State.tickOpened; rfl⟩
  simp [State.eachLogical, State.tickPoint]

theorem newTick_tickView (e : Nat) : (s.newTick e).tickView = (s.tickPoint e).tickView := by
  obtain ⟨s3, due, h3, h⟩ := newTick_opens s e
  rw [h, aliveCheck_tickView, tickOpened_tickView, h3]

theorem newTick_clock (e : Nat) : (s.newTick e).clock = (s.tickBegin e).clock := by
  rw [State.clock_of_tickView (newTick_tickView s e), State.tickPoint, boundaryPoint_clock, State.eachLogical,
    clock_foldl (fun s l => dropStanding_clock s l)]
  exact State.clock_of_tickView (startMs_tickView _)

/-- A new tick owes its start and its deadline, and has taken the requests up. -/
theorem newTick_pec (e : Nat) : (s.newTick e).pec.startDue = true ∧ (s.newTick e).pec.deadlineDue = true ∧
    (s.newTick e).pec.goPend = [] ∧ (s.newTick e).pec.haltPend = [] := by
  obtain ⟨s3, due, -, h⟩ := newTick_opens s e
  rw [h, aliveCheck_pec]
  exact ⟨rfl, rfl, rfl, rfl⟩

/-! ## The registers of the new tick -/

theorem tickRegs_clock (a b : Nat) : (s.tickRegs a b).clock = ({ s.tick with start := a, next := some b }, s.time) := by
  unfold State.tickRegs
  dsimp only
  split <;> simp [State.clock]

theorem snapArm_clock : s.snapArm.clock =
    ({ s.tick with snapReq := false, snapDue := s.tick.snapReq || s.tick.snapDue }, s.time) := by
  unfold State.snapArm
  split
  · next h => simp [State.clock, h]
  · next h =>
    rw [Bool.not_eq_true] at h
    rw [h, Bool.false_or, ← h]
    rfl

theorem takePeriod_tick : s.takePeriod.tick = { s.tick with inForce := s.fld (tickReg 4) 0 20 } := by simp [State.takePeriod]

/-- A boundary at `e` without a step of the time: the tick starts at `e` under the period that PERIOD holds, and requests for a snapshot are
served in it (R14, R33, R35). -/
theorem tickBegin_clock (e : Nat) (h : s.tb.step = none) : (s.tickBegin e).clock =
    (⟨some (nextBoundary e (s.fld (tickReg 4) 0 20 * 1000)), s.tick.stopping, s.fld (tickReg 4) 0 20, e, false,
      s.tick.snapReq || s.tick.snapDue⟩, s.time) := by
  have htick : (s.setBit tickStatus 0 true).takePeriod.tick = { s.tick with inForce := s.fld (tickReg 4) 0 20 } := by
    rw [takePeriod_tick, State.setBit_tick, State.fld_setBit_other _ _ _ _ _ (by decide)]
  have htime : (s.setBit tickStatus 0 true).takePeriod.time = s.time := by simp [State.takePeriod]
  have hstep : (s.setBit tickStatus 0 true).takePeriod.stepTime = (s.setBit tickStatus 0 true).takePeriod := by
    have hs : (s.setBit tickStatus 0 true).takePeriod.tb.step = none := by simp [State.takePeriod, h]
    rw [State.stepTime, hs]
  have hstart (n : Nat) : (Int.ofNat e + (Int.ofNat n - Int.ofNat n)).toNat = e := by simp
  have hregs := tickRegs_clock (s.setBit tickStatus 0 true).takePeriod e (nextBoundary e (s.fld (tickReg 4) 0 20 * 1000))
  rw [htick, htime, State.clock, Prod.mk.injEq] at hregs
  obtain ⟨hregs, hregsTime⟩ := hregs
  simp only [State.tickBegin, hstep, hstart, State.periodNs, htick, snapArm_clock, hregs, hregsTime]

/-! ## A held step of the time (R36, R271) -/

theorem outputs_congr {s t : State} (hpec : t.pec = s.pec) (hpch : t.pch = s.pch) : t.outputs = s.outputs := by
  simp only [State.outputs, State.chan, hpec, hpch]

/-- Changing the entries of a table without a part of them leaves that part of every entry. -/
theorem get_map_eq {α β : Type} {d : Nat → α} (p : α → β) {g : Nat × α → Nat × α} (hg : ∀ x, (g x).1 = x.1 ∧ p (g x).2 = p x.2)
    (t : Tab α) (k : Nat) : p (Tab.get d (t.map g) k) = p (Tab.get d t k) := by
  induction t with
  | nil => rfl
  | cons x t ih =>
    obtain ⟨hk, hv⟩ := hg x
    simp only [List.map_cons, Tab.get, hk]
    split
    · exact hv
    · exact ih

/-- A step moves timed actions, and no words of the transmit FIFOs. -/
theorem actionsMoved_tx (off : Int) (n : Nat) :
    (Tab.get (fun _ => Chan.reset) (s.actionsMoved off) n).tx = (s.chan n).tx := by
  unfold State.actionsMoved State.chan
  apply get_map_eq Chan.tx
  rintro ⟨k, c⟩
  refine ⟨rfl, ?_⟩
  dsimp only
  split <;> rfl

theorem ppsPass_outputs (o : Nat) : (s.ppsPass o).outputs = s.outputs := by
  unfold State.ppsPass
  exact outputs_congr rfl rfl

/-- The channels whose actions a step has moved. -/
theorem withChans_outputs (x : Tab Chan) (h : ∀ n, (Tab.get (fun _ => Chan.reset) x n).tx = (s.chan n).tx) :
    State.outputs { s with pch := { s.pch with chans := x } } = s.outputs :=
  congrArg (fun x => (s.pec.atBoundary, x)) (funext h)

theorem stepTime_outputs : s.stepTime.outputs = s.outputs := by
  unfold State.stepTime
  split
  · rfl
  · next off _ =>
    dsimp only
    split
    · exact outputs_congr rfl rfl
    · rw [ppsPass_outputs, ppsPass_outputs]
      exact (outputs_congr rfl rfl).trans (withChans_outputs s _ (actionsMoved_tx _ off))

theorem tickRegs_outputs (a b : Nat) : (s.tickRegs a b).outputs = s.outputs := by
  unfold State.tickRegs
  dsimp only
  split <;> exact outputs_congr (by simp) (by simp)

theorem snapArm_outputs : s.snapArm.outputs = s.outputs := by
  unfold State.snapArm
  split <;> exact outputs_congr rfl rfl

theorem tickBegin_outputs (e : Nat) : (s.tickBegin e).outputs = s.outputs := by
  simp only [State.tickBegin, snapArm_outputs, tickRegs_outputs, stepTime_outputs]
  exact outputs_congr (by simp [State.takePeriod]) (by simp [State.takePeriod])

end Sys2Proof.Machine
end

section
/-!
A boundary of the grid (R33, R35 to R37, R147): what it comes to in each case, and the registers of the new tick.
-/
namespace Sys2Proof.Machine

variable {s : State} {e : Nat}

/-! ## What waits for the boundary takes effect there, in the order issued (R147) -/

theorem chan_setChan_same (s : State) (n : Nat) (c : Chan) : (s.setChan n c).chan n = c := Tab.get_set_same _ _

theorem applyAtBoundary_txds {c : Nat} (hc : c < 256) (xs : List (Nat × Word)) (s : State) (hl : (s.chan c).tx.length + xs.length ≤ 16) :
    let t := (xs.map (fun x => (x.1, pchReg c 0x1120, x.2))).foldl (fun (st : State) x => st.applyAtBoundary x) s
    (t.chan c).tx = (s.chan c).tx ++ xs.map Prod.snd ∧ t.pec = s.pec := by
  induction xs generalizing s with
  | nil => simp
  | cons x xs ih =>
    rw [List.length_cons] at hl
    have h := ih (s.setChan c { s.chan c with tx := (s.chan c).tx ++ [x.2] })
    rw [chan_setChan_same, List.length_append] at h
    obtain ⟨htx, hpec⟩ := h (by rw [List.length_singleton]; omega)
    simp only [List.map_cons, List.foldl_cons, applyAtBoundary_txd s x.1 x.2 hc (by omega)]
    exact ⟨by simpa using htx, hpec⟩

theorem applyBoundaryWrites_txds {c : Nat} (hc : c < 256) (xs : List (Nat × Word)) (hl : (s.chan c).tx.length + xs.length ≤ 16)
    (hb : s.pec.atBoundary = xs.map (fun x => (x.1, pchReg c 0x1120, x.2))) :
    (s.applyBoundaryWrites.chan c).tx = (s.chan c).tx ++ xs.map Prod.snd ∧ s.applyBoundaryWrites.pec.atBoundary = [] := by
  obtain ⟨htx, hpec⟩ := applyAtBoundary_txds hc xs { s with pec := { s.pec with atBoundary := [] } } hl
  rw [State.applyBoundaryWrites, hb]
  exact ⟨htx, by rw [hpec]⟩

/-! ## The pec at the start of a tick -/

theorem stepTime_pec (s : State) : s.stepTime.pec = s.pec := by
  unfold State.stepTime
  split
  · rfl
  · dsimp only
    split <;> simp [State.ppsPass]

theorem tickBegin_pec (s : State) (e : Nat) : (s.tickBegin e).pec = s.pec := by
  have harm (s : State) : s.snapArm.pec = s.pec := by
    unfold State.snapArm
    split <;> rfl
  have hregs (s : State) (a b : Nat) : (s.tickRegs a b).pec = s.pec := by
    unfold State.tickRegs
    dsimp only
    split <;> simp
  simp only [State.tickBegin, harm, hregs, stepTime_pec]
  simp [State.takePeriod]

theorem startMs_pec (s : State) : s.startMs.pec = s.pec := by
  unfold State.startMs
  split <;> rfl

/-! ## The boundary -/

theorem exec_tickBoundary (s : State) : exec .tickBoundary s = .next s.tickBoundary := rfl

theorem tickBoundary_unreached (h : s.tick.next = none ∨ ∃ e, s.tick.next = some e ∧ s.ns < e) : s.tickBoundary = s := by
  have hb : s.boundaryReached = none := by
    rcases h with h | ⟨e, h, hlt⟩
    · simp [State.boundaryReached, h]
    · simp [State.boundaryReached, h, hlt]
  rw [State.tickBoundary, hb]

theorem foldl_eq_of_forall_mem {α β : Type} {f : β → α → β} {b : β} {xs : List α} (h : ∀ x ∈ xs, f b x = b) : xs.foldl f b = b := by
  induction xs with
  | nil => rfl
  | cons x xs ih =>
    rw [List.foldl_cons, h x List.mem_cons_self]
    exact ih (fun y hy => h y (List.mem_cons_of_mem x hy))

theorem eachLogical_unchanged {f : State → Nat → State} (h : ∀ l, l < 32 → f s l = s) : s.eachLogical f = s :=
  foldl_eq_of_forall_mem (fun l hl => h l (List.mem_range.1 hl))

theorem transferOutputs_nothing (h : s.pec.released = []) (l : Nat) : s.transferOutputs l = s := by
  have hset : Tab.set (fun _ => ([] : List Staged)) [] l [] = [] := if_pos rfl
  simp only [State.transferOutputs, h, hset, Tab.get, List.foldl_nil]
  rw [← h]

theorem tickEnds_served {l : Nat} (h : s.bindState l = 2 → s.logicalOf (s.phys l) = some l) : s.tickEnds l = s :=
  if_neg (fun hc => hc.2.1 (h hc.1))

/-- A boundary is reached at which nothing is owed of the ended tick. -/
structure State.BoundaryAt (s : State) (e : Nat) : Prop where
  next : s.tick.next = some e
  reached : e ≤ s.ns
  released : s.pec.released = []
  deadline : s.pec.deadlineDue = false
  served : ∀ l, l < 32 → s.bindState l = 2 → s.logicalOf (s.phys l) = some l

theorem tickBoundary_at (h : s.BoundaryAt e) : s.tickBoundary = if s.tick.stopping then s.tickEnd.aliveCheck else s.newTick e := by
  have hb : s.boundaryReached = some e := by simp [State.boundaryReached, h.next, h.reached]
  have h1 : s.eachLogical (fun (st : State) (l : Nat) => st.transferOutputs l) = s :=
    eachLogical_unchanged (fun l _ => transferOutputs_nothing h.released l)
  have h2 : s.eachLogical (fun (st : State) (l : Nat) => st.tickEnds l) = s :=
    eachLogical_unchanged (fun l hl => tickEnds_served (h.served l hl))
  simp only [State.tickBoundary, hb, h1, h2, h.deadline, Bool.false_eq_true, if_false, ite_self]

theorem tickBoundary_starts (h : s.BoundaryAt e) (hs : s.tick.stopping = false) : exec .tickBoundary s = .next (s.newTick e) := by
  rw [exec_tickBoundary, tickBoundary_at h, if_neg (by simp [hs])]

theorem tickBoundary_stops (h : s.BoundaryAt e) (hs : s.tick.stopping = true) : exec .tickBoundary s = .next s.tickEnd.aliveCheck := by
  rw [exec_tickBoundary, tickBoundary_at h, if_pos hs]

/-- The FIFO of channel c takes the words that were written to its TXD, in the order issued. -/
theorem newTick_txds {c : Nat} (hc : c < 256) (xs : List (Nat × Word)) (hl : (s.chan c).tx.length + xs.length ≤ 16)
    (hb : s.pec.atBoundary = xs.map (fun x => (x.1, pchReg c 0x1120, x.2))) (hs : ∀ l, l < 32 → s.standingOf l = false) (e : Nat) :
    ((s.newTick e).chan c).tx = (s.chan c).tx ++ xs.map Prod.snd ∧ (s.newTick e).pec.atBoundary = [] := by
  have hpec : (s.tickBegin e).startMs.pec = s.pec := (startMs_pec _).trans (tickBegin_pec s e)
  have hdrop : (s.tickBegin e).startMs.eachLogical (fun st l => st.dropStanding l) = (s.tickBegin e).startMs :=
    eachLogical_unchanged (fun l hl => dropStanding_none (by rw [State.standingOf, hpec]; exact hs l hl))
  obtain ⟨g, hg, hout⟩ : ∃ g : State, g.outputs = s.outputs ∧ (s.newTick e).outputs = g.applyBoundaryWrites.outputs := by
    obtain ⟨g, hg, hb⟩ := boundaryPoint_writes (s.tickBegin e).startMs
    refine ⟨g, ?_, ?_⟩
    · rw [State.outputs_of_tickView hg, State.outputs_of_tickView (startMs_tickView _), tickBegin_outputs]
    · rw [State.outputs_of_tickView (newTick_tickView s e), State.tickPoint, hdrop, State.outputs_of_tickView hb]
  rw [State.outputs, State.outputs, Prod.mk.injEq] at hg hout
  obtain ⟨hgb, hgt⟩ := hg
  obtain ⟨hnb, hnt⟩ := hout
  have hgc : (g.chan c).tx = (s.chan c).tx := congrFun hgt c
  obtain ⟨htx, hab⟩ := applyBoundaryWrites_txds (s := g) hc xs (by rw [hgc]; exact hl) (hgb.trans hb)
  exact ⟨(congrFun hnt c).trans (htx.trans (by rw [hgc])), hnb.trans hab⟩

/-! ## The end of the ticks (R34, R35) -/

theorem aliveCheck_regs (s : State) : s.aliveCheck.regs = s.regs := by
  unfold State.aliveCheck
  split <;> rfl
theorem aliveCheck_mem (s : State) : s.aliveCheck.mem = s.mem := by
  unfold State.aliveCheck
  split <;> rfl
theorem aliveCheck_clock (s : State) : s.aliveCheck.clock = s.clock := State.clock_of_tickView (aliveCheck_tickView s)
theorem aliveCheck_reg (s : State) (a : Nat) : s.aliveCheck.reg a = s.reg a := by rw [State.reg, State.reg, aliveCheck_regs]

theorem tickEnd_tick (s : State) :
    s.tickEnd.tick = { s.tick with next := none, stopping := false, inForce := s.fld (tickReg 4) 0 20 } := by
  rw [State.tickEnd, takePeriod_tick, State.setBit_tick, State.fld_setBit_other _ _ _ _ _ (by decide)]

theorem tickEnd_reg (s : State) (a : Nat) :
    s.tickEnd.reg a = ((s.setBit tickStatus 0 false).setBit tickStatus 1 false).reg a := rfl

/-! ## The registers of TICK -/

theorem reg64_setReg64 (s : State) (a : Nat) {n : Nat} (h : n < 2 ^ 64) : (s.setReg64 a n).reg64 a = n := by
  rw [State.reg64, State.setReg64, State.reg_setReg_same, State.reg_setReg_other _ _ (by omega), State.reg_setReg_same]
  simp only [word, BitVec.toNat_ofNat]
  omega

theorem reg64_setReg64_other (s : State) {a b : Nat} (n : Nat) (h : b + 4 < a ∨ a + 4 < b) : (s.setReg64 a n).reg64 b = s.reg64 b := by
  rw [State.reg64, State.setReg64, State.reg_setReg_other _ _ (by omega), State.reg_setReg_other _ _ (by omega),
    State.reg_setReg_other _ _ (by omega), State.reg_setReg_other _ _ (by omega), State.reg64]

theorem reg64_setReg_other (s : State) {a b : Nat} (w : Word) (h : b + 4 < a ∨ a < b) : (s.setReg a w).reg64 b = s.reg64 b := by
  rw [State.reg64, State.reg_setReg_other _ _ (by omega), State.reg_setReg_other _ _ (by omega), State.reg64]

/-- The words of the registers that show a tick from `start` to `fin`. -/
def State.tickShown (s : State) (start fin : Nat) : State :=
  ((((s.setReg64 (tickReg 0x10) (fin / s.periodNs - 1)).setReg64 (tickReg 0x18) (start / 1000000000)).setReg (tickReg 0x20)
    (word (start % 1000000000))).setReg (tickReg 0x24) (word ((fin - start) / 1000))).setReg (tickReg 0x28) (word (fin - start))

theorem tickRegs_eq (s : State) (start fin : Nat) : s.tickRegs start fin =
    { (if fin - start = s.periodNs then (s.tickShown start fin).bump (tickReg 0x30)
        else (((s.tickShown start fin).bump (tickReg 0x30)).setBit tickStatus 3 true).bump (tickReg 0x38)) with
      tick := { s.tick with start := start, next := some fin } } := by
  have htick : (s.tickRegs start fin).tick = { s.tick with start := start, next := some fin } :=
    congrArg Prod.fst (tickRegs_clock s start fin)
  rw [← htick]
  simp only [State.tickRegs, State.tickShown]

theorem reg_withTick (s : State) (x : TickSt) (a : Nat) : State.reg { s with tick := x } a = s.reg a := rfl
theorem count_withTick (s : State) (x : TickSt) (a : Nat) : State.count { s with tick := x } a = s.count a := rfl

theorem tickRegs_reg (s : State) (start fin : Nat) {a : Nat} (h : a ≠ tickStatus) :
    (s.tickRegs start fin).reg a = (s.tickShown start fin).reg a := by
  rw [tickRegs_eq, reg_withTick]
  split
  · rw [State.reg_bump]
  · rw [State.reg_bump, State.reg_setBit_other _ _ _ h, State.reg_bump]

theorem tickRegs_reg64 (s : State) (start fin : Nat) {a : Nat} (h : a ≠ tickStatus) (h4 : a + 4 ≠ tickStatus) :
    (s.tickRegs start fin).reg64 a = (s.tickShown start fin).reg64 a := by
  rw [State.reg64, tickRegs_reg s start fin h, tickRegs_reg s start fin h4, State.reg64]

/-- A tick counts in TICK_CNT, and in its counter where it is not as long as the period (R35). -/
theorem tickRegs_count (s : State) (start fin : Nat) : (s.tickRegs start fin).count (tickReg 0x30) = s.count (tickReg 0x30) + 1 ∧
    (s.tickRegs start fin).count (tickReg 0x38) = s.count (tickReg 0x38) + (if fin - start = s.periodNs then 0 else 1) := by
  have hs (a : Nat) : (s.tickShown start fin).count a = s.count a := by
    simp only [State.tickShown, State.setReg64, State.count_setReg]
  have hcount (a : Nat) := congrArg (fun t => t.count a) (tickRegs_eq s start fin)
  simp only [count_withTick] at hcount
  rw [hcount, hcount]
  split
  · rw [State.count_bump_same, State.count_bump_other _ (by decide), hs, hs]
    exact ⟨rfl, (BitVec.add_zero _).symm⟩
  · rw [State.count_bump_same, State.count_bump_other _ (by decide)]
    simp only [State.setBit, State.setFld, State.count_setReg]
    rw [State.count_bump_same, State.count_bump_other _ (by decide), hs, hs]
    exact ⟨rfl, rfl⟩

theorem tickShown_index (s : State) (start : Nat) {fin : Nat} (h : fin < 2 ^ 64) :
    (s.tickShown start fin).reg64 (tickReg 0x10) = fin / s.periodNs - 1 := by
  have hn : fin / s.periodNs - 1 < 2 ^ 64 := lt_of_le_of_lt ((Nat.sub_le _ _).trans (Nat.div_le_self _ _)) h
  unfold State.tickShown
  rw [reg64_setReg_other _ _ (by decide), reg64_setReg_other _ _ (by decide), reg64_setReg_other _ _ (by decide),
    reg64_setReg64_other _ _ (by decide), reg64_setReg64 _ _ hn]

theorem tickShown_seconds (s : State) {start fin : Nat} (hle : start ≤ fin) (h : fin < 2 ^ 64) :
    (s.tickShown start fin).reg64 (tickReg 0x18) = start / 1000000000 := by
  unfold State.tickShown
  rw [reg64_setReg_other _ _ (by decide), reg64_setReg_other _ _ (by decide), reg64_setReg_other _ _ (by decide),
    reg64_setReg64 _ _ (by omega)]

theorem tickShown_words (s : State) (start fin : Nat) : (s.tickShown start fin).reg (tickReg 0x20) = word (start % 1000000000) ∧
    (s.tickShown start fin).reg (tickReg 0x24) = word ((fin - start) / 1000) ∧
    (s.tickShown start fin).reg (tickReg 0x28) = word (fin - start) := by
  unfold State.tickShown
  refine ⟨?_, ?_, State.reg_setReg_same _ _ _⟩
  · rw [State.reg_setReg_other _ _ (by decide), State.reg_setReg_other _ _ (by decide), State.reg_setReg_same]
  · rw [State.reg_setReg_other _ _ (by decide), State.reg_setReg_same]

end Sys2Proof.Machine

open Sys2Proof Sys2Proof.Machine

/-- Settles O6: a boundary that is reached either ends the ticks or starts one, and the writes that waited enter their FIFOs there. -/
theorem boundaryStartsTheNextTick : Obligations.BoundaryStartsTheNextTick := by
  refine ⟨?_, ?_, ?_, ?_, ?_⟩
  -- a boundary that is not reached
  · intro s h
    rw [exec_tickBoundary, tickBoundary_unreached h]
  -- the tick that starts
  · intro s e p hn he hstop hstep hrel hdl hserved hp
    have hclock := (newTick_clock s e).trans (tickBegin_clock s e hstep)
    rw [← hp, hstop, State.clock, Prod.mk.injEq] at hclock
    obtain ⟨htick, htime⟩ := hclock
    obtain ⟨hstart, hdeadline, hgo, hhalt⟩ := newTick_pec s e
    exact ⟨_, tickBoundary_starts ⟨hn, he, hrel, hdl, hserved⟩ hstop, htick, hstart, hdeadline, hgo, hhalt, htime⟩
  -- the end of the ticks
  · intro s e hn he hstop hrel hdl hserved
    refine ⟨_, tickBoundary_stops ⟨hn, he, hrel, hdl, hserved⟩ hstop, ?_⟩
    have htick : s.tickEnd.aliveCheck.tick = s.tickEnd.tick := congrArg Prod.fst (aliveCheck_clock s.tickEnd)
    rw [tickEnd_tick] at htick
    have hreg (a : Nat) : s.tickEnd.aliveCheck.reg a = ((s.setBit tickStatus 0 false).setBit tickStatus 1 false).reg a :=
      (aliveCheck_reg _ a).trans (tickEnd_reg s a)
    refine ⟨by rw [htick], by rw [htick], by rw [htick], ?_, ?_, fun a ha => ?_, aliveCheck_mem s.tickEnd⟩
    · rw [State.bit, hreg, ← State.bit, State.bit_setBit_apart _ _ _ _ _ (by decide) (by decide), State.bit_setBit_same _ _ _ _ (by decide)]
    · rw [State.bit, hreg, ← State.bit, State.bit_setBit_same _ _ _ _ (by decide)]
    · rw [hreg, State.reg_setBit_other _ _ _ ha, State.reg_setBit_other _ _ _ ha]
  -- the registers of the new tick
  · intro s start fin hle hfin
    obtain ⟨hcnt, hodd⟩ := tickRegs_count s start fin
    obtain ⟨hns, hlen, hlenNs⟩ := tickShown_words s start fin
    refine ⟨?_, ?_, ?_, ?_, ?_, hcnt, hodd⟩
    · rw [tickRegs_reg64 _ _ _ (by decide) (by decide), tickShown_index s start hfin]
    · rw [tickRegs_reg64 _ _ _ (by decide) (by decide), tickShown_seconds s hle hfin]
    · rw [tickRegs_reg _ _ _ (by decide), hns]
    · rw [tickRegs_reg _ _ _ (by decide), hlen]
    · rw [tickRegs_reg _ _ _ (by decide), hlenNs]
  -- the writes that waited
  · intro s e n m c d1 d2 hn he hstop hrel hdl hserved hstanding _ hc hlen hb
    obtain ⟨htx, hab⟩ := newTick_txds hc [(n, d1), (m, d2)] (by simp only [List.length_cons, List.length_nil]; omega) hb hstanding e
    exact ⟨_, tickBoundary_starts ⟨hn, he, hrel, hdl, hserved⟩ hstop, htx, hab⟩
end

section
/-!
What a slot of a frame unit leaves behind when it becomes free (R92, R238): the switch, its registers and counters and the event bus change, and
nothing else.
-/
namespace Sys2Proof.Machine

/-! ## Changes on the switch's side -/

/-- A state with the registers, counters, switch and event bus of another. -/
def State.withSwitch (s u : State) : State :=
  { s with regs := u.regs, cnts := u.cnts, sw := u.sw, flt := { s.flt with bus := u.flt.bus } }

/-- From `s` to `t` nothing has changed but the switch, the event bus, and registers and counters at addresses without `P`. -/
structure Aside (P : Nat → Prop) (s t : State) : Prop where
  same : ∀ u, t.withSwitch u = s.withSwitch u
  reg : ∀ a, P a → t.reg a = s.reg a
  count : ∀ a, P a → t.count a = s.count a

namespace Aside

variable {P : Nat → Prop} {s t u : State}

theorem refl (s : State) : Aside P s s := ⟨fun _ => rfl, fun _ _ => rfl, fun _ _ => rfl⟩
theorem trans (h : Aside P s t) (g : Aside P t u) : Aside P s u :=
  ⟨fun x => (g.same x).trans (h.same x), fun a ha => (g.reg a ha).trans (h.reg a ha), fun a ha => (g.count a ha).trans (h.count a ha)⟩

theorem eq (h : Aside P s t) : t = s.withSwitch t := h.same t

theorem foldl {α : Type} {f : State → α → State} {xs : List α} (h : ∀ x ∈ xs, ∀ s, Aside P s (f s x)) (s : State) :
    Aside P s (xs.foldl f s) := by
  induction xs generalizing s with
  | nil => exact refl s
  | cons x xs ih => exact (h x List.mem_cons_self s).trans (ih (fun y hy => h y (List.mem_cons_of_mem x hy)) _)

theorem setReg (s : State) {a : Nat} (d : Word) (h : ¬ P a) : Aside P s (s.setReg a d) :=
  ⟨fun _ => by simp [State.withSwitch], fun b hb => State.reg_setReg_other _ _ (by rintro rfl; exact h hb), fun _ _ => rfl⟩
theorem bump (s : State) {a : Nat} (h : ¬ P a) : Aside P s (s.bump a) :=
  ⟨fun _ => by simp [State.withSwitch], fun _ _ => rfl, fun b hb => State.count_bump_other _ (by rintro rfl; exact h hb)⟩
theorem setBit (s : State) {a : Nat} (i : Nat) (b : Bool) (h : ¬ P a) : Aside P s (s.setBit a i b) := setReg s _ h
theorem onBus (s : State) (e : Event) : Aside P s (s.onBus e) := ⟨fun _ => rfl, fun _ _ => rfl, fun _ _ => rfl⟩
theorem withSw (s : State) (x : SwSt) : Aside P s { s with sw := x } := ⟨fun _ => rfl, fun _ _ => rfl, fun _ _ => rfl⟩

theorem portsTake (s : State) : Aside P s s.portsTake := by
  refine foldl (fun p _ s => ?_) s
  split
  · exact refl s
  · exact withSw s _

theorem freeCells (s : State) (n : Nat) : Aside P s (s.freeCells n) := (withSw s _).trans (portsTake _)

theorem setFrame (s : State) (f : Nat) (x : Option Frame) : Aside P s (s.setFrame f x) := by
  unfold State.setFrame
  dsimp only
  repeat' split
  all_goals exact withSw s _

section
variable (hP : ∀ a, P a → a < portBase)
include hP

theorem setStop (s : State) (p i : Nat) (on : Bool) : Aside P s (s.setStop p i on) := by
  have hp : ¬ P (portReg p 0x0C) := fun h => absurd (hP _ h) (by unfold portReg portAddr; omega)
  unfold State.setStop
  dsimp only
  split
  · exact (withSw s _).trans ((setReg _ _ hp).trans (onBus _ _))
  · exact withSw s _

theorem watchShare (s : State) (p i share hi lo : Nat) : Aside P s (s.watchShare p i share hi lo) := by
  unfold State.watchShare
  split
  · split
    · exact setStop hP s p i false
    · exact refl s
  · split
    · exact setStop hP s p i true
    · exact refl s

theorem shareWatch (s : State) (p : Nat) : Aside P s (s.shareWatch p) := by
  unfold State.shareWatch
  split
  · exact refl s
  · split
    · exact watchShare hP ..
    · split
      · refine foldl (fun c _ s => ?_) s
        split
        · exact watchShare hP ..
        · exact refl s
      · exact refl s

/-- The verdict on a frame counts it in one counter of the switch (R238). -/
theorem verdict (s : State) (x : Frame) : Aside P s (if x.reason ≠ 0 then s.bump (dropCnt x.reason) else if x.left then s.bump forwardedCnt
    else if x.failed ≠ 0 then s.bump (dropCnt x.failed) else s.bump (dropCnt 6)) := by
  have hdrop (r : Nat) : ¬ P (dropCnt r) := fun h => absurd (hP _ h) (by unfold dropCnt swReg swBase portBase; omega)
  split
  · exact bump s (hdrop _)
  · split
    · exact bump s (fun h => absurd (hP _ h) (by decide))
    · split
      · exact bump s (hdrop _)
      · exact bump s (hdrop _)

theorem release (s : State) (f : Nat) : Aside P s (s.release f) := by
  unfold State.release
  split
  · exact refl s
  · next x _ =>
    split
    · exact refl s
    · have hfree : Aside P s ((s.setFrame f none).freeCells x.cells) := (setFrame s f none).trans (freeCells _ _)
      dsimp only
      refine (hfree.trans (Aside.trans ?_ (verdict hP _ x))).trans (shareWatch hP _ _)
      split
      · exact refl _
      · exact withSw _ _

theorem emptySlot (s : State) (l i : Nat) : Aside P s (s.emptySlot l i) := by
  unfold State.emptySlot
  dsimp only
  split
  · exact ((withSw s _).trans (withSw _ _)).trans (release hP _ _)
  · exact (withSw s _).trans (withSw _ _)
end

end Aside
end Sys2Proof.Machine
end

section
/-!
The halt of an engine (R117, R126, R368) that has no operation in flight: what its PE_STATE and its TICK_STAT hold afterwards, and what the halt
leaves as it was.
-/
namespace Sys2Proof.Machine

variable {s t : State} {n cause : Nat}

/-! ## Where a halt writes -/

/-- The blocks before MBX, and of PEC the bindings and the engines' groups: a halt writes there only in its own group. -/
def HaltKeeps (a : Nat) : Prop := a < mbxBase ∨ (pecBase ≤ a ∧ a < pecBase + 0x6000) ∨ (pecBase + 0x10000 ≤ a ∧ a < portBase)

theorem HaltKeeps.lt {a : Nat} (h : HaltKeeps a) : a < portBase := by
  unfold HaltKeeps mbxBase pecBase portBase at *
  omega

theorem haltKeeps_peGroup (n : Nat) (hn : n < 36) {o : Nat} (ho : o < 0x400) : HaltKeeps (peGroup n + o) := by
  unfold HaltKeeps peGroup mbxBase pecBase portBase
  omega

theorem haltKeeps_bindAddr {l : Nat} (hl : l < 32) : HaltKeeps (bindAddr l + 4) := by
  unfold HaltKeeps bindAddr mbxBase pecBase portBase
  omega

theorem haltKeeps_tickStatus : HaltKeeps tickStatus := .inl (by decide)

theorem Aside.forgetPreloads (s : State) (n : Nat) : Aside HaltKeeps s (s.forgetPreloads n) := by
  refine Aside.foldl (fun i hi s => ?_) s
  have hk : ¬ HaltKeeps (imgStat i) := by
    have := List.mem_range.1 hi
    unfold HaltKeeps imgStat imgAddr mbxBase pecBase portBase
    omega
  split
  · exact Aside.setBit s 14 false hk
  · exact Aside.refl s

theorem Aside.lockReclaim (s : State) (m : Nat) : Aside HaltKeeps s (s.lockReclaim m) := by
  refine Aside.foldl (fun i hi s => ?_) s
  have hk : ¬ HaltKeeps (lockView i) := by
    have := List.mem_range.1 hi
    unfold HaltKeeps lockView mbxBase pecBase portBase
    omega
  have hc : ¬ HaltKeeps (mbxBase + 0x10808) := by unfold HaltKeeps mbxBase pecBase portBase; omega
  split
  · exact (Aside.setBit s 0 false hk).trans (Aside.bump _ hc)
  · exact Aside.refl s

/-- Nothing that a core with no operation in flight has issued is still to take effect. -/
theorem landIssued_none (hp : (s.core n).posted = []) (hf : (s.core n).far = []) : s.landIssued n = s := by
  simp [State.landIssued, hp, hf]

/-- A core with no operation in flight stops: its slots return to the free set, and it is reset. -/
theorem stopCore_eq (hp : (s.core n).posted = []) (hf : (s.core n).far = []) :
    ∃ u, Aside HaltKeeps s u ∧ s.stopCore n = u.setCore n Core.reset := by
  unfold State.stopCore
  rw [landIssued_none hp hf]
  dsimp only
  split
  · next l _ => exact ⟨_, Aside.foldl (fun i _ s => Aside.emptySlot (fun _ h => h.lt) s l i) s, rfl⟩
  · exact ⟨s, Aside.refl s, rfl⟩

/-! ## The halt -/

/-- The core is reset, the state is HALTED, no re-execution runs and no logical engine is served. -/
def State.outOfService (s : State) (n : Nat) : State :=
  (((s.setCore n Core.reset).setPeState n 6).setBit (peGroup n + 0x4C) 1 false).setServes n none

/-- The reservation is gone, and the F2 is shown in CAUSE and counted. -/
def State.causeShown (s : State) (n cause : Nat) : State :=
  (((s.setReservation (0x10 + n) none).setFld (peStateAddr n) 16 4 (cause % 16)).setBit (peStateAddr n) 20 false).bump (peGroup n + 0x80)

/-- The power-on hour of the F2 is kept with those of the engine's other F2 faults (R438). -/
def State.hourKept (s : State) (n : Nat) : State :=
  { s with mgt := { s.mgt with
    engineF2 := Tab.set (fun _ => []) s.mgt.engineF2 n (s.powerOnHours :: Tab.get (fun _ => []) s.mgt.engineF2 n) } }

theorem haltEngine_eq (hc : cause ≠ 0) (hp : (s.core n).posted = []) (hf : (s.core n).far = []) :
    ∃ u v, Aside HaltKeeps s u ∧ Aside HaltKeeps (u.outOfService n) v ∧ s.haltEngine n cause = (v.causeShown n cause).hourKept n := by
  have h1 := Aside.forgetPreloads s n
  have hcore : (s.forgetPreloads n).core n = s.core n := by
    unfold State.core
    rw [h1.eq]
    rfl
  obtain ⟨u, h2, hstop⟩ := stopCore_eq (s := s.forgetPreloads n) (n := n) (by rw [hcore, hp]) (by rw [hcore, hf])
  refine ⟨u, _, h1.trans h2, Aside.lockReclaim _ (0x10 + n), ?_⟩
  unfold State.haltEngine
  dsimp only
  rw [if_neg hc, hstop]
  rfl

/-! ## What the halt leaves -/

/-- PE_STATE of a halted engine, from the word before. -/
def haltedWord (w : Word) (cause : Nat) : Word :=
  setBits (setBits (setBits (setBits (setBits w 0 4 6) 8 5 0) 13 1 (bit01 false)) 16 4 (cause % 16)) 20 1 (bit01 false)

/-- A state with another's registers, counters, cores, collector, management, engine controller and switch. -/
def State.withHalt (s u : State) : State :=
  { s with regs := u.regs, cnts := u.cnts, cores := u.cores, flt := u.flt, mgt := u.mgt, pec := u.pec, sw := u.sw }

/-- From `s` to `t` engine n has halted with a CAUSE. -/
structure Halted (n cause : Nat) (s t : State) : Prop where
  frame : ∀ x, t.withHalt x = s.withHalt x
  pe : t.reg (peStateAddr n) = haltedWord (s.reg (peStateAddr n)) cause
  stat : t.reg (peGroup n + 0x4C) = setBits (s.reg (peGroup n + 0x4C)) 1 1 (bit01 false)
  reg : ∀ a, HaltKeeps a → a ≠ peStateAddr n → a ≠ peGroup n + 0x4C → t.reg a = s.reg a
  counted : t.count (peGroup n + 0x80) = s.count (peGroup n + 0x80) + 1
  count : ∀ a, HaltKeeps a → a ≠ peGroup n + 0x80 → t.count a = s.count a
  core : t.core n = Core.reset
  flt : t.flt = { s.flt with bus := t.flt.bus }
  pec : t.pec = { s.pec with reserved := t.pec.reserved }
  reservation : t.reservation (0x10 + n) = none

theorem Aside.withHalt {P : Nat → Prop} (h : Aside P s t) (x : State) : t.withHalt x = s.withHalt x :=
  congrArg (fun u => u.withHalt x) (h.same x)
theorem setReg_withHalt (s : State) (a : Nat) (d : Word) (x : State) : (s.setReg a d).withHalt x = s.withHalt x := by simp [State.withHalt]
theorem setFld_withHalt (s : State) (a lo len k : Nat) (x : State) : (s.setFld a lo len k).withHalt x = s.withHalt x := setReg_withHalt s _ _ x
theorem setBit_withHalt (s : State) (a i : Nat) (b : Bool) (x : State) : (s.setBit a i b).withHalt x = s.withHalt x := setReg_withHalt s _ _ x
theorem bump_withHalt (s : State) (a : Nat) (x : State) : (s.bump a).withHalt x = s.withHalt x := by simp [State.withHalt]
theorem setCore_withHalt (s : State) (n : Nat) (c : Core) (x : State) : (s.setCore n c).withHalt x = s.withHalt x := rfl
theorem setReservation_withHalt (s : State) (m : Nat) (g : Option Nat) (x : State) : (s.setReservation m g).withHalt x = s.withHalt x := rfl
theorem hourKept_withHalt (s : State) (n : Nat) (x : State) : (s.hourKept n).withHalt x = s.withHalt x := rfl
theorem outOfService_withHalt (s : State) (n : Nat) (x : State) : (s.outOfService n).withHalt x = s.withHalt x := by
  simp only [State.outOfService, State.setServes, State.setPeState, setBit_withHalt, setFld_withHalt, setCore_withHalt]
theorem causeShown_withHalt (s : State) (n cause : Nat) (x : State) : (s.causeShown n cause).withHalt x = s.withHalt x := by
  simp only [State.causeShown, bump_withHalt, setBit_withHalt, setFld_withHalt, setReservation_withHalt]

theorem Aside.mem {P : Nat → Prop} (h : Aside P s t) : t.mem = s.mem := by
  rw [h.eq]
  rfl
theorem Aside.flt {P : Nat → Prop} (h : Aside P s t) : t.flt = { s.flt with bus := t.flt.bus } := congrArg State.flt h.eq
theorem Aside.pec {P : Nat → Prop} (h : Aside P s t) : t.pec = s.pec := by
  rw [h.eq]
  rfl
theorem Aside.cores {P : Nat → Prop} (h : Aside P s t) : t.cores = s.cores := by
  rw [h.eq]
  rfl

theorem outOfService_reg (s : State) (n a : Nat) : (s.outOfService n).reg a =
    if a = peStateAddr n then setBits (setBits (setBits (s.reg a) 0 4 6) 8 5 0) 13 1 (bit01 false)
    else if a = peGroup n + 0x4C then setBits (s.reg a) 1 1 (bit01 false) else s.reg a := by
  have hcore (a : Nat) : (s.setCore n Core.reset).reg a = s.reg a := rfl
  have hne : peStateAddr n ≠ peGroup n + 0x4C := by unfold peStateAddr; omega
  simp only [State.outOfService, State.setServes, State.setPeState, State.reg_setBit, State.reg_setFld, hcore]
  split
  · next h => subst h; simp
  · split
    · next h => subst h; simp [hne.symm]
    · rfl

theorem causeShown_reg (s : State) (n cause a : Nat) : (s.causeShown n cause).reg a =
    if a = peStateAddr n then setBits (setBits (s.reg a) 16 4 (cause % 16)) 20 1 (bit01 false) else s.reg a := by
  have hres (a : Nat) : (s.setReservation (0x10 + n) none).reg a = s.reg a := rfl
  simp only [State.causeShown, State.reg_bump, State.reg_setBit, State.reg_setFld, hres]
  split
  · next h => subst h; simp
  · rfl

theorem count_setBit (s : State) (a i : Nat) (b : Bool) (c : Nat) : (s.setBit a i b).count c = s.count c := State.count_setReg s a c _
theorem count_setFld (s : State) (a lo len k c : Nat) : (s.setFld a lo len k).count c = s.count c := State.count_setReg s a c _
theorem count_setReservation (s : State) (m : Nat) (g : Option Nat) (c : Nat) : (s.setReservation m g).count c = s.count c := rfl
theorem hourKept_reg (s : State) (n a : Nat) : (s.hourKept n).reg a = s.reg a := rfl
theorem hourKept_count (s : State) (n a : Nat) : (s.hourKept n).count a = s.count a := rfl

theorem causeShown_count (s : State) (n cause : Nat) : (s.causeShown n cause).count (peGroup n + 0x80) = s.count (peGroup n + 0x80) + 1 := by
  rw [State.causeShown, State.count_bump_same, count_setBit, count_setFld, count_setReservation]
theorem causeShown_count_other (s : State) (n cause : Nat) {a : Nat} (h : a ≠ peGroup n + 0x80) : (s.causeShown n cause).count a = s.count a := by
  rw [State.causeShown, State.count_bump_other _ h, count_setBit, count_setFld, count_setReservation]

section
variable (s : State) (n cause : Nat)

@[simp] theorem outOfService_flt : (s.outOfService n).flt = s.flt := by
  simp [State.outOfService, State.setServes, State.setPeState, State.setCore]
@[simp] theorem outOfService_pec : (s.outOfService n).pec = s.pec := by
  simp [State.outOfService, State.setServes, State.setPeState, State.setCore]
theorem outOfService_count (a : Nat) : (s.outOfService n).count a = s.count a := by
  have hcore : (s.setCore n Core.reset).count a = s.count a := rfl
  simp only [State.outOfService, State.setServes, State.setPeState, count_setBit, count_setFld, hcore]
theorem outOfService_core : (s.outOfService n).core n = Core.reset := by
  have hcores : (s.outOfService n).cores = (s.setCore n Core.reset).cores := by simp [State.outOfService, State.setServes, State.setPeState]
  have hset : (s.setCore n Core.reset).core n = Core.reset :=
    Tab.get_set_same (d := fun _ => Core.reset) s.cores Core.reset
  rw [State.core, hcores, ← State.core, hset]
@[simp] theorem causeShown_flt : ((s.causeShown n cause).hourKept n).flt = s.flt := by
  simp [State.hourKept, State.causeShown, State.setReservation]
@[simp] theorem causeShown_cores : ((s.causeShown n cause).hourKept n).cores = s.cores := by
  simp [State.hourKept, State.causeShown, State.setReservation]
theorem causeShown_pec : ((s.causeShown n cause).hourKept n).pec =
    { s.pec with reserved := Tab.set (fun _ => none) s.pec.reserved (0x10 + n) none } := by
  simp [State.hourKept, State.causeShown, State.setReservation]
end

theorem haltEngine_halted (hn : n < 36) (hc : cause ≠ 0) (hp : (s.core n).posted = []) (hf : (s.core n).far = []) :
    Halted n cause s (s.haltEngine n cause) := by
  obtain ⟨u, v, hu, hv, h⟩ := haltEngine_eq hc hp hf
  have hne : peGroup n + 0x4C ≠ peStateAddr n := by unfold peStateAddr; omega
  have hreg (a : Nat) (ha : HaltKeeps a) : (s.haltEngine n cause).reg a = if a = peStateAddr n then haltedWord (s.reg a) cause
      else if a = peGroup n + 0x4C then setBits (s.reg a) 1 1 (bit01 false) else s.reg a := by
    rw [h, hourKept_reg, causeShown_reg, hv.reg a ha, outOfService_reg, hu.reg a ha]
    split
    · rfl
    · rfl
  have hpe : HaltKeeps (peStateAddr n) := haltKeeps_peGroup n hn (by decide)
  have hcnt (a : Nat) (ha : HaltKeeps a) : v.count a = s.count a := by rw [hv.count a ha, outOfService_count, hu.count a ha]
  have hpec : (s.haltEngine n cause).pec = { s.pec with reserved := Tab.set (fun _ => none) s.pec.reserved (0x10 + n) none } := by
    rw [h, causeShown_pec, hv.pec, outOfService_pec, hu.pec]
  refine ⟨fun x => ?_, ?_, ?_, fun a ha h1 h2 => ?_, ?_, fun a ha h1 => ?_, ?_, ?_, ?_, ?_⟩
  · rw [h, hourKept_withHalt, causeShown_withHalt, hv.withHalt, outOfService_withHalt, hu.withHalt]
  · rw [hreg _ hpe, if_pos rfl]
  · rw [hreg _ (haltKeeps_peGroup n hn (by decide)), if_neg hne, if_pos rfl]
  · rw [hreg a ha, if_neg h1, if_neg h2]
  · rw [h, hourKept_count, causeShown_count, hcnt _ (haltKeeps_peGroup n hn (by decide))]
  · rw [h, hourKept_count, causeShown_count_other _ _ _ h1, hcnt a ha]
  · have hcores : (s.haltEngine n cause).cores = (u.outOfService n).cores := by rw [h, causeShown_cores, hv.cores]
    rw [State.core, hcores]
    exact outOfService_core u n
  · rw [h, causeShown_flt, hv.flt, outOfService_flt, hu.flt]
  · rw [hpec]
  · have hres : (s.setReservation (0x10 + n) none).reservation (0x10 + n) = none :=
      Tab.get_set_same (d := fun _ => none) s.pec.reserved none
    rw [State.reservation, hpec]
    exact hres
end Sys2Proof.Machine
end

section
/-!
Overruns (R47, R117): an engine that reaches its budget or misses the deadline is marked, halts with the CAUSE of its F2, and is reported.
-/
namespace Sys2Proof.Machine

variable {s t : State} {n l cause : Nat} {late : Bool}

/-! ## A halted engine -/

theorem Halted.peState (h : Halted n cause s t) : t.peState n = 6 := by
  rw [State.peState, State.fld, h.pe, haltedWord, fieldOf_setBits_other _ _ _ _ _ _ (by decide) (by decide),
    fieldOf_setBits_other _ _ _ _ _ _ (by decide) (by decide), fieldOf_setBits_other _ _ _ _ _ _ (by decide) (by decide),
    fieldOf_setBits_other _ _ _ _ _ _ (by decide) (by decide), fieldOf_setBits_same _ _ _ _ (by decide)]
  rfl

theorem Halted.peCause (h : Halted n cause s t) (hc : cause < 16) : t.peCause n = cause := by
  rw [State.peCause, State.fld, h.pe, haltedWord, fieldOf_setBits_other _ _ _ _ _ _ (by decide) (by decide),
    fieldOf_setBits_same _ _ _ _ (by decide)]
  omega

theorem Halted.logicalOf (h : Halted n cause s t) : t.logicalOf n = none := by
  have hb : t.bit (peStateAddr n) 13 = false := by
    rw [State.bit, h.pe, haltedWord, bitOf_setBits_other _ _ _ _ _ (by decide) (by decide),
      bitOf_setBits_other _ _ _ _ _ (by decide) (by decide), bitOf_setBits_same _ _ _ (by decide)]
  rw [State.logicalOf, hb]
  rfl

theorem Halted.bit_stat (h : Halted n cause s t) {i : Nat} (hi : i ≠ 1) : t.bit (peGroup n + 0x4C) i = s.bit (peGroup n + 0x4C) i := by
  rw [State.bit, h.stat, bitOf_setBits_other _ _ _ _ _ (by decide) (by omega), State.bit]

/-! ## The F2 of an engine that serves -/

theorem logicalOf_congr {s t : State} (h : t.reg (peStateAddr n) = s.reg (peStateAddr n)) : t.logicalOf n = s.logicalOf n := by
  unfold State.logicalOf State.bit State.fld
  rw [h]

/-- From `s` to `t` engine n, which served, has failed with a CAUSE: it is halted, and its event waits for the takeover. -/
structure Failed (n cause : Nat) (s t : State) : Prop where
  frame : ∀ x, t.withHalt x = s.withHalt x
  peState : t.peState n = 6
  peCause : t.peCause n = cause
  logicalOf : t.logicalOf n = none
  core : t.core n = Core.reset
  reservation : t.reservation (0x10 + n) = none
  stat : ∀ i, i ≠ 1 → t.bit (peGroup n + 0x4C) i = s.bit (peGroup n + 0x4C) i
  reg : ∀ a, HaltKeeps a → a ≠ peStateAddr n → a ≠ peGroup n + 0x4C → t.reg a = s.reg a
  faults : t.count (peGroup n + 0x80) = s.count (peGroup n + 0x80) + 1
  count : ∀ a, HaltKeeps a → a ≠ peGroup n + 0x80 → t.count a = s.count a
  flt : t.flt = { s.flt with bus := t.flt.bus, detected := s.flt.detected ++ [{ s.newEvent n 2 cause 0 [] with waits := true }] }
  pec : t.pec = { s.pec with reserved := t.pec.reserved, loads := t.pec.loads, loaded := t.pec.loaded }

theorem Halted.failed (h : Halted n cause s t) (hc : cause < 16) :
    Failed n cause s ((t.dropLoads n).detect { s.newEvent n 2 cause 0 [] with waits := true }) where
  frame := h.frame
  peState := h.peState
  peCause := h.peCause hc
  logicalOf := h.logicalOf
  core := h.core
  reservation := h.reservation
  stat _ hi := h.bit_stat hi
  reg := h.reg
  faults := h.counted
  count := h.count
  flt := by
    simp only [State.detect, State.dropLoads]
    rw [h.flt]
  pec := by
    simp only [State.detect, State.dropLoads]
    rw [h.pec]

/-- An F2 of an engine whose logical engine has no takeover. -/
theorem engineF2_failed (hn : n < 36) (hl : s.logicalOf n = some l) (ht : s.takeover l = none) (hc0 : cause ≠ 0) (hc : cause < 16)
    (hp : (s.core n).posted = []) (hf : (s.core n).far = []) : Failed n cause s (s.engineF2 n cause) := by
  have h : s.engineF2 n cause = ((s.haltEngine n cause).dropLoads n).detect { s.newEvent n 2 cause 0 [] with waits := true } := by
    simp only [State.engineF2, State.engineFails, hl, ht, State.reportF2, if_true, Nat.mod_eq_of_lt hc]
  rw [h]
  exact (haltEngine_halted hn hc0 hp hf).failed hc

/-! ## The marks of an overrun -/

theorem Aside.noteUsed {P : Nat → Prop} (s : State) {n : Nat} (h44 : ¬ P (peGroup n + 0x44)) (h48 : ¬ P (peGroup n + 0x48)) :
    Aside P s (s.noteUsed n) := by
  unfold State.noteUsed
  dsimp only
  split
  · exact (Aside.setReg s _ h44).trans (Aside.setReg _ _ h48)
  · exact Aside.setReg s _ h44

theorem noteUsed_used (s : State) (n : Nat) : (s.noteUsed n).reg (peGroup n + 0x44) = word (s.core n).cyc := by
  unfold State.noteUsed
  dsimp only
  split
  · rw [State.reg_setReg_other _ _ (by omega), State.reg_setReg_same]
  · rw [State.reg_setReg_same]

/-- What the marks of an overrun of engine n leave: all but USED, PEAK, TICK_STAT and OVERRUN_CNT of its group, and TICK.STATUS. -/
def NoteKeeps (n a : Nat) : Prop := a ≠ tickStatus ∧ (a < peGroup n + 0x44 ∨ peGroup n + 0x50 < a)

theorem Aside.noteOverrun (s : State) (n : Nat) (late : Bool) : Aside (NoteKeeps n) s (s.noteOverrun n late) := by
  have hk {o : Nat} (h1 : 0x44 ≤ o) (h2 : o ≤ 0x50) : ¬ NoteKeeps n (peGroup n + o) := by unfold NoteKeeps; omega
  have ht : ¬ NoteKeeps n tickStatus := fun h => h.1 rfl
  have h4c := hk (o := 0x4C) (by decide) (by decide)
  have h := ((Aside.noteUsed s (hk (by decide) (by decide)) (hk (by decide) (by decide))).trans (Aside.setBit _ 2 true h4c)).trans
    (Aside.setBit _ 4 true ht)
  unfold State.noteOverrun
  refine h.trans (Aside.trans ?_ (Aside.bump _ (hk (by decide) (by decide))))
  split
  · exact Aside.setBit _ 3 true h4c
  · exact Aside.refl _

theorem tickStatus_lt_peGroup (n : Nat) : tickStatus < peGroup n := by
  unfold tickStatus tickReg tickBase peGroup pecBase
  omega

theorem noteUsed_reg_other (s : State) (n : Nat) {a : Nat} (h44 : a ≠ peGroup n + 0x44) (h48 : a ≠ peGroup n + 0x48) :
    (s.noteUsed n).reg a = s.reg a :=
  (Aside.noteUsed (P := fun a => a ≠ peGroup n + 0x44 ∧ a ≠ peGroup n + 0x48) s (fun h => h.1 rfl) (fun h => h.2 rfl)).reg a ⟨h44, h48⟩
theorem count_bump (s : State) (a b : Nat) : (s.bump a).count b = if b = a then s.count b + 1 else s.count b := by
  split
  · next h => rw [h, State.count_bump_same]
  · next h => exact State.count_bump_other _ h
theorem noteUsed_count (s : State) (n a : Nat) : (s.noteUsed n).count a = s.count a := by
  unfold State.noteUsed
  dsimp only
  split <;> rfl

section
variable (s n late)

theorem noteOverrun_reg (a : Nat) : (s.noteOverrun n late).reg a =
    if a = peGroup n + 0x4C then
      (if late then setBits (setBits (s.reg a) 2 1 (bit01 true)) 3 1 (bit01 true) else setBits (s.reg a) 2 1 (bit01 true))
    else if a = tickStatus then setBits (s.reg a) 4 1 (bit01 true) else (s.noteUsed n).reg a := by
  have hlt := tickStatus_lt_peGroup n
  have h4c : (s.noteUsed n).reg (peGroup n + 0x4C) = s.reg (peGroup n + 0x4C) := noteUsed_reg_other s n (by omega) (by omega)
  have hts : (s.noteUsed n).reg tickStatus = s.reg tickStatus := noteUsed_reg_other s n (by omega) (by omega)
  have hne : peGroup n + 0x4C ≠ tickStatus := by omega
  unfold State.noteOverrun
  rcases eq_or_ne a (peGroup n + 0x4C) with rfl | h1
  · cases late <;> simp [State.reg_setBit, hne, h4c]
  · rcases eq_or_ne a tickStatus with rfl | h2
    · cases late <;> simp [State.reg_setBit, hne.symm, hts]
    · cases late <;> simp [State.reg_setBit, h1, h2]

theorem noteOverrun_used : (s.noteOverrun n late).reg (peGroup n + 0x44) = word (s.core n).cyc := by
  have hlt := tickStatus_lt_peGroup n
  rw [noteOverrun_reg, if_neg (by omega), if_neg (by omega), noteUsed_used]
theorem noteOverrun_overrun : (s.noteOverrun n late).bit (peGroup n + 0x4C) 2 = true := by
  rw [State.bit, noteOverrun_reg, if_pos rfl]
  split
  · rw [bitOf_setBits_other _ _ _ _ _ (by decide) (by decide), bitOf_setBits_same _ _ _ (by decide)]
  · rw [bitOf_setBits_same _ _ _ (by decide)]
theorem noteOverrun_late : (s.noteOverrun n late).bit (peGroup n + 0x4C) 3 = (late || s.bit (peGroup n + 0x4C) 3) := by
  rw [State.bit, noteOverrun_reg, if_pos rfl]
  cases late
  · exact bitOf_setBits_other _ _ _ _ _ (by decide) (by decide)
  · exact bitOf_setBits_same _ _ _ (by decide)
theorem noteOverrun_tick : (s.noteOverrun n late).bit tickStatus 4 = true := by
  have hlt := tickStatus_lt_peGroup n
  rw [State.bit, noteOverrun_reg, if_neg (by omega), if_pos rfl, bitOf_setBits_same _ _ _ (by decide)]
theorem noteOverrun_count (a : Nat) : (s.noteOverrun n late).count a = if a = peGroup n + 0x50 then s.count a + 1 else s.count a := by
  unfold State.noteOverrun
  cases late <;> simp [count_bump, count_setBit, noteUsed_count]
end

/-! ## An overrun halts its engine -/

/-- Engine n is marked as overrun, by the deadline where it is late, and fails. -/
theorem overrun_failed (late : Bool) (hn : n < 36) (hl : s.logicalOf n = some l) (ht : s.takeover l = none) (hc0 : cause ≠ 0) (hc : cause < 16)
    (hp : (s.core n).posted = []) (hf : (s.core n).far = []) :
    Failed n cause (s.noteOverrun n late) ((s.noteOverrun n late).engineF2 n cause) := by
  have ha := Aside.noteOverrun s n late
  have hcore : (s.noteOverrun n late).core n = s.core n := by rw [State.core, ha.cores, State.core]
  have hreg : (s.noteOverrun n late).reg (peStateAddr n) = s.reg (peStateAddr n) :=
    ha.reg _ ⟨by have := tickStatus_lt_peGroup n; unfold peStateAddr; omega, by unfold peStateAddr; omega⟩
  have hserves : (s.noteOverrun n late).logicalOf n = some l := by
    rw [logicalOf_congr hreg, hl]
  exact engineF2_failed hn hserves (by rw [State.takeover, ha.pec]; exact ht) hc0 hc (by rw [hcore, hp]) (by rw [hcore, hf])

theorem noteOverrun_event (s : State) (n : Nat) (late : Bool) (src cls c : Nat) (v : Word) (d : List Byte) :
    (s.noteOverrun n late).newEvent src cls c v d = s.newEvent src cls c v d := by
  have ha := Aside.noteOverrun s n late
  have hlt := tickStatus_lt_peGroup n
  have hreg {a : Nat} (h : tickStatus < a) (h2 : a < tickStatus + 0x100) : (s.noteOverrun n late).reg a = s.reg a :=
    ha.reg a ⟨by omega, .inl (by unfold peGroup pecBase; unfold tickStatus tickReg tickBase at h2; omega)⟩
  have htime : (s.noteOverrun n late).time = s.time := by
    rw [ha.eq]
    rfl
  have hidx : (s.noteOverrun n late).reg64 (tickBase + 0x10) = s.reg64 (tickBase + 0x10) := by
    rw [State.reg64, hreg (by decide) (by decide), hreg (by decide) (by decide), State.reg64]
  rw [State.newEvent, htime, hidx, State.newEvent]

end Sys2Proof.Machine
end

section
/-!
The budget and the deadline of the engines (R37, R47): where they find nothing, and where they find an engine that has not committed.
-/
namespace Sys2Proof.Machine

variable {s t : State} {n l m cause : Nat} {late : Bool}

/-! ## Budget and deadline (R37, R47) -/

theorem exec_budgetExhausted (hn : n < 36) (s : State) : exec (.budgetExhausted n) s = .next (s.budgetExhausted n) := by
  have h : isEngine n = true := decide_eq_true hn
  have he : exec (.budgetExhausted n) s = event (isEngine n) s (s.budgetExhausted n) := rfl
  rw [he, h, event_true]
theorem exec_commitDeadline (s : State) : exec .commitDeadline s = .next s.commitDeadline := rfl

theorem budgetExhausted_within (h : (s.core n).running = false ∨ (s.core n).cyc < (s.reg (peGroup n + 0x40)).toNat) : s.budgetExhausted n = s := by
  refine if_pos ?_
  rcases h with h | h <;> simp [h]

theorem budgetExhausted_serving (hr : (s.core n).running = true) (hb : (s.reg (peGroup n + 0x40)).toNat ≤ (s.core n).cyc)
    (hl : s.logicalOf n = some l) (ht : s.takeover l = none) : s.budgetExhausted n = (s.noteOverrun n false).engineF2 n 6 := by
  have hc : ¬ (!(s.core n).running || decide ((s.core n).cyc < (s.reg (peGroup n + 0x40)).toNat)) = true := by simpa [hr] using hb
  unfold State.budgetExhausted
  dsimp only
  rw [if_neg hc, hl]
  dsimp only
  rw [ht]

theorem deadlineOf_known (h : s.committedIn l = true ∨ s.missedIn l = true ∨ s.bindState l = 0) : s.deadlineOf l = s := by
  unfold State.deadlineOf
  rcases h with h | h | h <;> simp [h]

theorem deadlineOf_uncommitted (hc : s.committedIn l = false) (hm : s.missedIn l = false) (hb : s.barredIn l = false) (hs : s.bindState l = 2)
    (hl : s.logicalOf (s.phys l) = some l) (hp : s.peState (s.phys l) = 4) :
    s.deadlineOf l = (s.noteOverrun (s.phys l) true).engineF2 (s.phys l) 7 := by
  unfold State.deadlineOf
  rw [hc, hm, if_neg (by decide), if_pos ⟨hs, hb, hl, hp⟩]

/-- A loop over the logical engines that changes the state for one of them only. -/
theorem eachLogical_single {f : State → Nat → State} (hl : l < 32) (hb : ∀ m, m < 32 → m ≠ l → f s m = s)
    (ha : ∀ m, m < 32 → m ≠ l → f (f s l) m = f s l) : s.eachLogical f = f s l := by
  obtain ⟨xs, ys, h⟩ := List.append_of_mem (List.mem_range.2 hl)
  have hnd : (xs ++ l :: ys).Nodup := h ▸ List.nodup_range
  have hlt (m : Nat) (hm : m ∈ xs ++ l :: ys) : m < 32 := List.mem_range.1 (h ▸ hm)
  obtain ⟨-, hys, hxs⟩ := List.nodup_append.1 hnd
  have hx : xs.foldl f s = s := foldl_eq_of_forall_mem fun m hm =>
    hb m (hlt m (List.mem_append_left _ hm)) (hxs m hm l List.mem_cons_self)
  have hy : ys.foldl f (f s l) = f s l := foldl_eq_of_forall_mem fun m hm =>
    ha m (hlt m (List.mem_append_right _ (List.mem_cons_of_mem _ hm))) (fun e => (List.nodup_cons.1 hys).1 (e ▸ hm))
  rw [State.eachLogical, h, List.foldl_append, List.foldl_cons, hx, hy]

theorem Failed.mem (h : Failed n cause s t) : t.mem = s.mem := by
  have hf := congrArg State.mem (h.frame s)
  exact hf
theorem Failed.bindState (h : Failed n cause s t) (hn : n < 36) (hm : m < 32) : t.bindState m = s.bindState m := by
  have hne {o : Nat} : bindAddr m + 4 ≠ peGroup n + o := by unfold bindAddr peGroup; omega
  rw [State.bindState, State.fld, h.reg _ (haltKeeps_bindAddr hm) hne hne, State.bindState, State.fld]

theorem noteOverrun_bindState (s : State) (n : Nat) (late : Bool) (hm : m < 32) : (s.noteOverrun n late).bindState m = s.bindState m := by
  have hk : NoteKeeps n (bindAddr m + 4) := by
    unfold NoteKeeps bindAddr tickStatus tickReg tickBase peGroup pecBase
    omega
  rw [State.bindState, State.fld, (Aside.noteOverrun s n late).reg _ hk, State.bindState, State.fld]

theorem commitDeadline_early (h : s.pec.deadlineDue = false ∨ s.ns < s.deadline) : s.commitDeadline = s := by
  refine if_neg ?_
  rcases h with h | h <;> simp [h]

theorem commitDeadline_due (hd : s.pec.deadlineDue = true) (hn : s.deadline ≤ s.ns) : s.commitDeadline = s.deadlinePass :=
  if_pos (by simp [hd, hn])

theorem deadlinePass_of_eachLogical (h : s.eachLogical (fun (st : State) (l : Nat) => st.deadlineOf l) = t) :
    s.deadlinePass = { t with pec := { t.pec with deadlineDue := false } } := by
  rw [← h]
  rfl

/-- The marks of the overrun stand after the failure. -/
theorem Failed.marks (hn : n < 36) (h : Failed n cause (s.noteOverrun n late) t) :
    t.bit (peGroup n + 0x4C) 2 = true ∧ t.bit (peGroup n + 0x4C) 3 = (late || s.bit (peGroup n + 0x4C) 3) ∧
    t.count (peGroup n + 0x50) = s.count (peGroup n + 0x50) + 1 := by
  refine ⟨?_, ?_, ?_⟩
  · rw [h.stat _ (by decide), noteOverrun_overrun]
  · rw [h.stat _ (by decide), noteOverrun_late]
  · rw [h.count _ (haltKeeps_peGroup n hn (by decide)) (by omega), noteOverrun_count, if_pos rfl]

end Sys2Proof.Machine

open Sys2Proof Sys2Proof.Machine

/-- Settles O8: where the budget or the deadline finds an engine without a commit, it is marked, halts and is reported. -/
theorem overrunsHaltTheEngine : Obligations.OverrunsHaltTheEngine := by
  refine ⟨?_, ?_, ?_, ?_, ?_⟩
  -- the counter has not reached the budget
  · intro s n hn h
    rw [exec_budgetExhausted hn, budgetExhausted_within h]
  -- it has
  · intro s n l hn hr hb hl ht hp hf
    have hfl := overrun_failed (cause := 6) false hn hl ht (by decide) (by decide) hp hf
    have ha := Aside.noteOverrun s n false
    have hlt := tickStatus_lt_peGroup n
    obtain ⟨h2, h3, h50⟩ := hfl.marks hn
    rw [Leaves, exec_budgetExhausted hn, budgetExhausted_serving hr hb hl ht]
    refine ⟨_, rfl, hfl.peState, hfl.peCause, hfl.logicalOf, hfl.core, hfl.reservation, h2, h3, ?_, ?_, h50, ?_, ?_, ?_⟩
    · rw [State.bit, hfl.reg _ haltKeeps_tickStatus (by unfold peStateAddr; omega) (by omega), ← State.bit, noteOverrun_tick]
    · rw [hfl.reg _ (haltKeeps_peGroup n hn (by decide)) (by unfold peStateAddr; omega) (by omega), noteOverrun_used]
    · rw [hfl.faults, noteOverrun_count, if_neg (by omega)]
    · rw [hfl.flt, noteOverrun_event, ha.flt]
    · exact (hfl.frame _).trans (ha.withHalt _)
  -- the deadline has not come
  · intro s h
    rw [exec_commitDeadline, commitDeadline_early h]
  -- it finds nothing uncommitted
  · intro s hd hn h
    rw [exec_commitDeadline, commitDeadline_due hd hn,
      deadlinePass_of_eachLogical (eachLogical_unchanged fun l hl => deadlineOf_known (h l hl))]
  -- it finds one engine without its commit
  · intro s l n hd hns hl hn hphys hothers hc hm hb hs hlog hpe ht hp hf
    have hfl := overrun_failed (cause := 7) true hn hlog ht (by decide) (by decide) hp hf
    have hover := deadlineOf_uncommitted hc hm hb hs (hphys ▸ hlog) (hphys ▸ hpe)
    rw [← hphys] at hover
    obtain ⟨h2, h3, h50⟩ := hfl.marks hn
    have heach : s.eachLogical (fun (st : State) (l : Nat) => st.deadlineOf l) = (s.noteOverrun n true).engineF2 n 7 := by
      rw [← hover]
      refine eachLogical_single hl (fun m hm hml => deadlineOf_known (.inr (.inr (hothers m hm hml)))) (fun m hm hml => ?_)
      refine deadlineOf_known (.inr (.inr ?_))
      rw [hover, hfl.bindState hn hm, noteOverrun_bindState s n true hm, hothers m hm hml]
    rw [Leaves, exec_commitDeadline, commitDeadline_due hd hns, deadlinePass_of_eachLogical heach]
    exact ⟨_, rfl, hfl.peState, hfl.peCause, hfl.logicalOf, hfl.core, h2, h3, h50, rfl, hfl.mem.trans (Aside.noteOverrun s n true).mem⟩
end

section
/-!
A bundle with CTL.T.COMMIT alone (R98): it issues at once, its sockets and local units do nothing, and the core stays at it.
-/
namespace Sys2Proof.Machine

variable {s : State} {n j : Nat} {c : Core} {v : Word} {ws : Nat → Word}

/-! ## The bundle issues -/

/-- The move to CTL.T.COMMIT. -/
def commitTo (j : Nat) (v : Word) : Move := ⟨j, 0x1A8, v⟩

theorem deliver_idle (hm : c.mul = []) (hd : c.div = none) (hl : c.lsu = []) : c.deliver = c := by
  obtain ⟨⟩ := c
  simp only at hm hd hl
  subst hm hd hl
  rfl

theorem effective_commit : effective false [commitTo j v] = [commitTo j v] := by
  have hw : writable false 0x1A8 = true := rfl
  simp [effective, commitTo, hw]

theorem dueLines_commit : s.dueLines n c [commitTo j v] = [] := by
  unfold State.dueLines State.newLines
  cases s.logicalOf n <;> simp [commitTo]

theorem mustStall_commit (hl : c.late = []) (hs : c.lsu = []) (hf : 0x122 ∉ c.reads ws) : s.mustStall n c ws [commitTo j v] = false := by
  have hfq : (c.reads ws).contains 0x122 = false := by simpa using hf
  simp [State.mustStall, commitTo, isFarTrigger, hl, hs, hf]

theorem ownStall_commit : s.ownStall n c [commitTo j v] = 0 := by
  rw [State.ownStall, dueLines_commit]
  simp [farMoves, commitTo, isFarTrigger]

theorem moveFlags_commit (pc : Nat) (h : ∀ i, i < 4 → isLiteral ws i = true ∨ slotReserved i (ws i) = false) :
    moveFlags false pc ws [commitTo j v] = [] := by
  unfold moveFlags
  refine List.flatMap_eq_nil_iff.2 fun i hi => ?_
  have hill : (!isLiteral ws i && slotReserved i (ws i)) = false := by
    rcases h i (List.mem_range.1 hi) with h | h <;> simp [h]
  have hw : writable false 0x1A8 = true := rfl
  simp only [hill, commitTo]
  simp [hw]
  omega

theorem readFlags_idle (hm : c.mul = []) (hd : c.div = none) (hf : 0x122 ∉ c.reads ws) : s.readFlags n c ws = [] := by
  unfold State.readFlags
  refine List.flatMap_eq_nil_iff.2 fun i hi => ?_
  cases hr : slotReads (ws i) with
  | none => rfl
  | some a =>
    have ha : a ≠ 0x122 := by
      rintro rfl
      exact hf (List.mem_filterMap.2 ⟨i, hi, hr⟩)
    simp [hm, hd, ha]

/-! ## What the bundle does besides the commit -/

/-- The core after the bundle: SIG is rewritten with SIG_ADJ of 0, and no bundle follows. -/
def Core.atCommit (c : Core) : Core :=
  { c.put 0x011 (c.at 0x011) with cyc := c.cyc + 1, iss := c.iss + 1, stall := none, paid := (0, []) }

theorem bundleEffect_commit (hn : n < 36) (hlate : c.late = []) (hm : c.mul = []) (hd : c.div = none) (hj : c.jumps = [])
    (hf : 0x122 ∉ c.reads ws) (hlit : ∀ i, i < 4 → isLiteral ws i = true ∨ slotReserved i (ws i) = false) :
    s.bundleEffect n c ws [commitTo j v] = ⟨c.atCommit, none, [], none⟩ := by
  have hmcp : isMcpCore n = false := by simp [isMcpCore, mcpCore]; omega
  have hfq : (c.reads ws).contains 0x122 = false := by simpa using hf
  have hheld : [commitTo j v].filter (fun m => holds m.dst) = [] := rfl
  have hfar : [commitTo j v].filter (fun m => isFarTrigger m.dst) = [] := rfl
  have hc : { c with late := [] } = c := by rw [← hlate]
  have htrig (x : Effect) : s.trigger n x (commitTo j v) = x := rfl
  have hcontrol (x : Effect) : x.control n [commitTo j v] = { x with c := x.c.put 0x011 (x.c.at 0x011 ^^^ 0) } := rfl
  have hadvance (x : Effect) (h : x.c.jumps = []) : x.advance n [commitTo j v] =
      { x with c := { x.c with cyc := x.c.cyc + 1, iss := x.c.iss + 1, stall := none, paid := (0, []) } } := by
    obtain ⟨⟨⟩, _, _, _⟩ := x
    simp only at h
    subst h
    simp [Effect.advance, commitTo, isJump]
  have hxor (w : Word) : w ^^^ 0 = w := by simp
  have hput : (c.put 0x011 (c.at 0x011 ^^^ 0)).jumps = [] := hj
  simp only [State.bundleEffect, hmcp, effective_commit, moveFlags_commit _ hlit, readFlags_idle hm hd hf, hlate, List.foldl_nil, hc, hfq,
    Bool.false_eq_true, if_false, hheld, hfar, List.foldl_cons, htrig, hcontrol, List.append_nil]
  rw [hadvance _ hput, hxor]
  rfl

/-- A bundle that does nothing else leaves its core and then commits. -/
theorem runBundle_commit (hn : n < 36) (he : s.bundleEffect n c ws [commitTo j v] = ⟨c.atCommit, none, [], none⟩) :
    s.runBundle n c ws [commitTo j v] = (s.setCore n c.atCommit).commitMove n v := by
  have hmcp : isMcpCore n = false := by simp [isMcpCore, mcpCore]; omega
  have hflags (t : State) : t.noteFlags n (bySlot []) = (t, none) := rfl
  have hclr : [commitTo j v].find? (fun m => m.dst == 0x014) = none := rfl
  have hcommit : [commitTo j v].find? (fun m => m.dst == 0x1A8) = some (commitTo j v) := rfl
  simp only [State.runBundle, he, hmcp, effective_commit, hclr, hflags, hcommit]
  rfl

theorem bundleIssue_commit (hr : Ready s n c) (hn : n < 36) (hj : c.jumps = []) (hm : Moves s n c [commitTo j v]) :
    s.bundleIssue n .clean = (s.setCore n c.atCommit).commitMove n v := by
  obtain ⟨-, hc, hissue, hfetch, hmul, hdiv, hlsu, hlate, hstall, hwait⟩ := hr
  obtain ⟨hlit, hread, hmoves⟩ := hm
  have hmcp : isMcpCore n = false := by simp [isMcpCore, mcpCore]; omega
  have hwaits : s.entersWait n c [commitTo j v] = none := by
    have hw : waitMove n [commitTo j v] = none := by
      rw [waitMove, hmcp, effective_commit]
      rfl
    rw [State.entersWait, hw, ite_self]
  have hown : s.issueOwn n .clean c (s.codeWord n c.pc) = (s.setCore n c.atCommit).commitMove n v := by
    have hnow : s.issueNow n .clean c (s.codeWord n c.pc) = (s.setCore n c.atCommit).commitMove n v := by
      have hfind : findingCause n c (s.codeWord n c.pc) [commitTo j v] .clean = none := rfl
      have hfixed : s.findingFixed n c (s.codeWord n c.pc) [commitTo j v] .clean = s := rfl
      simp only [State.issueNow, hmoves, hfetch, hfind, hfixed]
      exact runBundle_commit hn (bundleEffect_commit hn hlate hmul hdiv hj hread hlit)
    simp only [State.issueOwn, hmoves, ownStall_commit, dueLines_commit, List.length_nil, Nat.add_zero]
    exact hnow
  have hdeliver : (s.core n).deliver = c := by rw [← hc, deliver_idle hmul hdiv hlsu]
  have hmust := mustStall_commit (s := s) (n := n) (j := j) (v := v) hlate hlsu hread
  unfold State.bundleIssue
  rw [hissue, hdeliver]
  simp only [hmoves, hwait, hmust, hwaits, hown]
  rcases hstall with h | h <;> simp [h]

end Sys2Proof.Machine
end

section
/-!
The commit of an engine (R39 to R43, R98, R116): what it sets in the controller of the engines, and what its removals and the release of the units
leave alone.
-/
namespace Sys2Proof.Machine

variable {s t u : State} {n l : Nat}

/-! ## Removals and releases leave the controller of the engines alone -/

/-- From `s` to `t` the controller of the engines, its registers, the cores, the memory, Ropeline and Traverse are as they were. -/
structure Beside (s t : State) : Prop where
  pec : t.pec = s.pec
  cores : t.cores = s.cores
  mem : t.mem = s.mem
  rope : t.rope = s.rope
  trav : t.trav = s.trav
  reg : ∀ a, pecBase ≤ a → a < pchBase → t.reg a = s.reg a

theorem Aside.rope {P : Nat → Prop} (h : Aside P s t) : t.rope = s.rope := by
  rw [h.eq]
  rfl
theorem Aside.trav {P : Nat → Prop} (h : Aside P s t) : t.trav = s.trav := by
  rw [h.eq]
  rfl

namespace Beside

theorem refl (s : State) : Beside s s := ⟨rfl, rfl, rfl, rfl, rfl, fun _ _ _ => rfl⟩
theorem trans (h : Beside s t) (g : Beside t u) : Beside s u :=
  ⟨g.pec.trans h.pec, g.cores.trans h.cores, g.mem.trans h.mem, g.rope.trans h.rope, g.trav.trans h.trav,
    fun a h1 h2 => (g.reg a h1 h2).trans (h.reg a h1 h2)⟩

theorem foldl {α : Type} {f : State → α → State} {xs : List α} (h : ∀ x ∈ xs, ∀ s, Beside s (f s x)) (s : State) : Beside s (xs.foldl f s) := by
  induction xs generalizing s with
  | nil => exact refl s
  | cons x xs ih => exact (h x List.mem_cons_self s).trans (ih (fun y hy => h y (List.mem_cons_of_mem x hy)) _)

theorem setBit (s : State) {a : Nat} (i : Nat) (b : Bool) (h : a < pecBase ∨ pchBase ≤ a) : Beside s (s.setBit a i b) :=
  ⟨by simp, by simp, by simp, by simp, by simp, fun b _ _ => State.reg_setBit_other _ _ _ (by omega)⟩

theorem of_aside {P : Nat → Prop} (h : Aside P s t) (hP : ∀ a, pecBase ≤ a → a < pchBase → P a) : Beside s t where
  pec := h.pec
  cores := h.cores
  mem := h.mem
  rope := h.rope
  trav := h.trav
  reg a h1 h2 := h.reg a (hP a h1 h2)

theorem chanPops (s : State) (c k : Nat) : Beside s (s.chanPops c k) := ⟨rfl, rfl, rfl, rfl, rfl, fun _ _ _ => rfl⟩
theorem canPops (s : State) (k m : Nat) : Beside s (s.canPops k m) := ⟨rfl, rfl, rfl, rfl, rfl, fun _ _ _ => rfl⟩

theorem canNewClr (s : State) (k : Nat) (d : Word) : Beside s (s.canNewClr k d) := by
  have hb : pchBase ≤ bufStat k (fieldOf d 0 6) := by
    unfold bufStat canReg canAddr canBase pchBase
    omega
  unfold State.canNewClr
  dsimp only
  split
  · exact (setBit s 0 false (.inr hb)).trans (setBit _ 2 false (.inr hb))
  · exact refl s

theorem emptySlot (s : State) (l i : Nat) : Beside s (s.emptySlot l i) :=
  of_aside (Aside.emptySlot (P := fun a => a < portBase) (fun _ h => h) s l i) fun a _ h => by
    unfold pchBase at h
    unfold portBase
    omega

theorem removals (s : State) (l : Nat) (c : Core) : Beside s (s.removals l c) := by
  unfold State.removals
  refine (((foldl (fun p _ s => ?_) s).trans (foldl (fun p _ s => ?_) _)).trans (foldl (fun p _ s => ?_) _)).trans (foldl (fun i _ s => ?_) _)
  · exact chanPops s _ _
  · exact canPops s _ _
  · exact canNewClr s _ _
  · exact emptySlot s l i

theorem clearReason (s : State) {o : Nat} (r : Nat) (ho : o < 288) : Beside s (s.clearReason o r) := by
  have hb : outSafe o < pecBase := by
    unfold outSafe fltReg fltBase pecBase
    omega
  unfold State.clearReason
  dsimp only
  split
  · split
    · exact (setBit s r false (.inl hb)).trans (setBit _ 6 true (.inl hb))
    · exact setBit s r false (.inl hb)
  · exact refl s

theorem clearReasons (s s' : State) (l r : Nat) : Beside s (s.clearReasons (s'.unitsOf l) r) :=
  foldl (fun o ho s => clearReason s r (by
    obtain ⟨h, -⟩ := List.mem_filter.1 ho
    exact List.mem_range.1 h)) s

theorem setLive (s : State) (src cls : Nat) (b : Bool) : Beside s (s.setLive src cls b) := ⟨rfl, rfl, rfl, rfl, rfl, fun _ _ _ => rfl⟩

theorem commitReasons (s : State) (l : Nat) : Beside s (s.commitReasons l) := by
  have h1 : Beside s (if s.mgt.phase = .bivouac then s else s.clearReasons (s.unitsOf l) 0) := by
    split
    · exact refl s
    · exact clearReasons s s l 0
  unfold State.commitReasons
  dsimp only
  generalize (if s.mgt.phase = .bivouac then s else s.clearReasons (s.unitsOf l) 0) = s1 at h1 ⊢
  refine h1.trans ?_
  split
  · exact refl _
  · exact (setLive _ _ _ _).trans (clearReasons _ s l 1)

end Beside

/-! ## The commit -/

/-- The core of an engine that has committed: its tick is over, and nothing is staged any more. -/
def Core.committed (c : Core) : Core :=
  { c with running := false, wait := none, staged := [], rxPops := [], rxfPops := [], newClrs := [], frees := [], allocs := [], rxPopped := 0 }

/-- USED is shown, and COMMITTED is set in TICK_STAT (R46, R47). -/
def State.usedShown (s : State) (n : Nat) : State := (s.noteUsed n).setBit (peGroup n + 0x4C) 0 true

theorem Aside.usedShown (s : State) (n : Nat) : Aside (NoteKeeps n) s (s.usedShown n) := by
  have hk {o : Nat} (h1 : 0x44 ≤ o) (h2 : o ≤ 0x50) : ¬ NoteKeeps n (peGroup n + o) := by unfold NoteKeeps; omega
  exact (Aside.noteUsed s (hk (by decide) (by decide)) (hk (by decide) (by decide))).trans (Aside.setBit _ 0 true (hk (by decide) (by decide)))

/-- What was staged is released, the selectors of the lines written are flipped, and the commit is noted. -/
def State.linesCommitted (s : State) (l : Nat) : State := (s.flipSelectors l).setCommittedIn l true

theorem commit_eq (ht : s.takeover l = none) : s.commit l n =
    (((((s.usedShown n).releaseStaged l n (s.core n).staged).removals l (s.core n)).linesCommitted l).commitReasons l).onCore n Core.committed := by
  unfold State.commit
  dsimp only
  rw [ht]
  rfl

/-- From `s` to `t` engine n has committed the tick of L. -/
structure Committed (n l : Nat) (s t : State) : Prop where
  committed : t.committedIn l = true
  core : t.core n = (s.core n).committed
  released : Tab.get (fun _ => []) t.pec.released l = Tab.get (fun _ => []) s.pec.released l ++ (s.core n).staged
  line : ∀ i, t.selector l i = (s.selector l i ^^ s.lineWritten l i) ∧ t.lineWritten l i = false
  stat : t.bit (peGroup n + 0x4C) 0 = true
  mem : t.mem = s.mem
  rope : t.rope = s.rope
  trav : t.trav = s.trav

/-- What L holds in the controller of the engines after a commit that engine n has staged `xs` for. -/
def PecSt.afterCommit (p : PecSt) (l : Nat) (xs : List Staged) (owner : Tab (Nat × Nat)) : PecSt :=
  { p with
    released := Tab.set (fun _ => []) p.released l (Tab.get (fun _ => []) p.released l ++ xs), releasedBy := owner
    selectors := Tab.set (fun _ => 0) p.selectors l (Tab.get (fun _ => 0) p.selectors l ^^^ Tab.get (fun _ => 0) p.written l)
    written := Tab.set (fun _ => 0) p.written l 0, committed := Tab.set (fun _ => false) p.committed l true }

/-- A commit changes the controller of the engines as `PecSt.afterCommit` says, shows USED and COMMITTED, and ends the core's tick. -/
theorem commit_parts (hn : n < 36) (ht : s.takeover l = none) : ∃ u : State, s.commit l n = u.onCore n Core.committed ∧
    (∃ owner, u.pec = s.pec.afterCommit l (s.core n).staged owner) ∧ u.cores = s.cores ∧
    u.reg (peGroup n + 0x4C) = (s.usedShown n).reg (peGroup n + 0x4C) ∧ u.mem = s.mem ∧ u.rope = s.rope ∧ u.trav = s.trav := by
  refine ⟨_, commit_eq ht, ?_⟩
  have h1 := Aside.usedShown s n
  have h2 := Beside.removals ((s.usedShown n).releaseStaged l n (s.core n).staged) l (s.core n)
  generalize ((s.usedShown n).releaseStaged l n (s.core n).staged).removals l (s.core n) = s2 at h2 ⊢
  have h3 := Beside.commitReasons (s2.linesCommitted l) l
  generalize (s2.linesCommitted l).commitReasons l = s3 at h3 ⊢
  have ha : pecBase ≤ peGroup n + 0x4C := by unfold peGroup; omega
  have hb : peGroup n + 0x4C < pchBase := by unfold peGroup pecBase pchBase; omega
  refine ⟨⟨s2.pec.releasedBy, ?_⟩, h3.cores.trans (h2.cores.trans h1.cores), (h3.reg _ ha hb).trans (h2.reg _ ha hb),
    h3.mem.trans (h2.mem.trans h1.mem), h3.rope.trans (h2.rope.trans h1.rope), h3.trav.trans (h2.trav.trans h1.trav)⟩
  rw [h3.pec]
  simp only [State.linesCommitted, State.flipSelectors, State.setCommittedIn, State.clearWritten]
  rw [h2.pec]
  simp only [State.releaseStaged]
  rw [h1.pec]
  rfl

theorem commit_committed (hn : n < 36) (ht : s.takeover l = none) : Committed n l s (s.commit l n) := by
  obtain ⟨u, h, ⟨owner, hp⟩, hcores, hstat, hmem, hrope, htrav⟩ := commit_parts hn ht
  have hpec : (s.commit l n).pec = s.pec.afterCommit l (s.core n).staged owner := by
    rw [h, ← hp]
    rfl
  have hcore : u.core n = s.core n := by rw [State.core, hcores, State.core]
  refine ⟨?_, ?_, ?_, fun i => ⟨?_, ?_⟩, ?_, ?_, ?_, ?_⟩
  · rw [State.committedIn, hpec]
    exact Tab.get_set_same (d := fun _ => false) s.pec.committed true
  · rw [h, State.onCore, hcore]
    exact Tab.get_set_same (d := fun _ => Core.reset) u.cores _
  · rw [hpec]
    exact Tab.get_set_same (d := fun _ => []) s.pec.released _
  · rw [State.selector, hpec, PecSt.afterCommit, Tab.get_set_same, Nat.testBit_xor, State.selector, State.lineWritten]
  · rw [State.lineWritten, hpec, PecSt.afterCommit, Tab.get_set_same, Nat.zero_testBit]
  · have hreg : (s.commit l n).reg (peGroup n + 0x4C) = (s.usedShown n).reg (peGroup n + 0x4C) := by
      rw [h, ← hstat]
      rfl
    rw [State.bit, hreg, ← State.bit, State.usedShown, State.bit_setBit_same _ _ _ _ (by decide)]
  · rw [h]
    exact hmem
  · rw [h]
    exact hrope
  · rw [h]
    exact htrav

end Sys2Proof.Machine
end

section
/-!
CTL.T.COMMIT with the right and with a wrong signature (R98, R117), where nothing that the core has issued is still on its way.
-/
namespace Sys2Proof.Machine

variable {s : State} {n l : Nat} {v : Word} {c : Core}

/-! ## The move to CTL.T.COMMIT -/

theorem settleFar_idle (hp : (s.core n).posted = []) (hf : (s.core n).far = []) (k : Nat) : s.settleFar n k = (s, []) := by
  cases k with
  | zero => rfl
  | succ k =>
    have hs : s.settleOne n = none := by
      simp [State.settleOne, State.farNext, hp, hf]
    simp [State.settleFar, hs]

theorem landRest_idle (hp : (s.core n).posted = []) (hf : (s.core n).far = []) : s.landRest n = s := by
  rw [State.landRest, settleFar_idle hp hf]
  rfl

theorem commitMove_wrong (hv : (s.core n).at 0x011 ≠ v) (hp : (s.core n).posted = []) (hf : (s.core n).far = []) (hl : s.logicalOf n = some l) :
    s.commitMove n v = s.engineF2 n 5 := by
  rw [State.commitMove, if_pos hv, landRest_idle hp hf, State.haltsWith, if_pos (.inr (by rw [hl]; rfl))]

theorem commitMove_right (hv : (s.core n).at 0x011 = v) (hp : (s.core n).posted = []) (hf : (s.core n).far = []) (hl : s.logicalOf n = some l)
    (hr : (s.core n).running = true) : s.commitMove n v = s.commit l n := by
  have hflags : (s.countRefused n []).flagsWithTrap n (refusals []) = s := rfl
  rw [State.commitMove, if_neg (by simpa using hv), settleFar_idle hp hf]
  simp only [hflags, hl, hr, if_true]

/-! ## The core that commits -/

theorem exec_bundleIssue_engine (hn : n < 36) (f : CoreFinding) (s : State) : exec (.bundleIssue n f) s = .next (s.bundleIssue n f) := by
  have hc : isCore n = true := decide_eq_true (Nat.lt_succ_of_lt hn)
  rw [exec_bundleIssue, hc, event_true]

theorem core_setCore_same (s : State) (n : Nat) (c : Core) : (s.setCore n c).core n = c := Tab.get_set_same (d := fun _ => Core.reset) s.cores c

theorem at_put_same (c : Core) (a : Nat) (v : Word) : (c.put a v).at a = v := Tab.get_set_same (d := fun _ => 0) c.sock v

theorem atCommit_sig (c : Core) : c.atCommit.at 0x011 = c.at 0x011 := at_put_same c 0x011 _

theorem Ready.running (h : Ready s n c) (hn : n < 36) : c.running = true := by
  obtain ⟨-, hc, hissue, -⟩ := h
  have hm : n ≠ mcpCore := by unfold mcpCore; omega
  rw [State.mayIssue, if_neg hm, Bool.and_eq_true] at hissue
  rw [hc]
  exact hissue.1

end Sys2Proof.Machine

open Sys2Proof Sys2Proof.Machine

/-- Settles O13: the bundle issues at once, and its COMMIT is a commit of the engine, or an F2 with CAUSE 5 where the signature differs. -/
theorem commitReleasesWhatIsStaged : Obligations.CommitReleasesWhatIsStaged := by
  refine ⟨?_, ?_⟩
  -- the signature fits
  · intro s n l j c hr hn hl hj hp hf hm hlog ht
    have hcore := core_setCore_same s n c.atCommit
    have h := commit_committed (s := s.setCore n c.atCommit) hn ht
    have hcommit : (s.setCore n c.atCommit).commitMove n (c.at 0x011) = (s.setCore n c.atCommit).commit l n :=
      commitMove_right (by rw [hcore, atCommit_sig]) (by rw [hcore]; exact hp) (by rw [hcore]; exact hf) hlog
        (by rw [hcore]; exact hr.running hn)
    rw [Leaves, exec_bundleIssue_engine hn, bundleIssue_commit hr hn hj hm, hcommit]
    refine ⟨_, rfl, h.committed, ?_, ?_, ?_, h.line, h.stat, h.mem, h.rope, h.trav⟩
    · rw [h.core]; rfl
    · rw [h.core]; rfl
    · rw [h.released, hcore]
      rfl
  -- it does not
  · intro s n l j v c hr hn hl hj hp hf hm hv hlog ht
    have hcore := core_setCore_same s n c.atCommit
    have h := engineF2_failed (s := s.setCore n c.atCommit) (cause := 5) hn hlog ht (by decide) (by decide) (by rw [hcore]; exact hp)
      (by rw [hcore]; exact hf)
    have hwrong : (s.setCore n c.atCommit).commitMove n v = (s.setCore n c.atCommit).engineF2 n 5 :=
      commitMove_wrong (by rw [hcore, atCommit_sig]; exact hv.symm) (by rw [hcore]; exact hp) (by rw [hcore]; exact hf) hlog
    rw [Leaves, exec_bundleIssue_engine hn, bundleIssue_commit hr hn hj hm, hwrong]
    refine ⟨_, rfl, h.peState, h.peCause, h.logicalOf, h.core, ?_, ?_, h.mem⟩
    · rw [h.pec]
      rfl
    · rw [State.committedIn, h.pec]
      rfl
end

section
/-!
Integer results of a core (R71 to R76): what the integer units, the multiplier and the divider return, in terms of the signed and unsigned numbers that
their words stand for.
-/
namespace Sys2Proof.Machine

variable {t o : Word} {c : Bool} {i : Int} {k : Nat}

/-! ## Words and the integers that they stand for -/

theorem toInt_wordOfInt_bmod (i : Int) : (wordOfInt i).toInt = i.bmod (2 ^ 32) := BitVec.toInt_ofInt i

/-- An integer overflows exactly where its word stands for another one. -/
theorem overflows_eq (i : Int) : overflows i = decide ((wordOfInt i).toInt ≠ i) := by
  rw [overflows, toInt_wordOfInt_bmod, ← Bool.decide_or, decide_eq_decide, Int.bmod_def]
  split <;> omega

theorem toInt_wordOfInt (h : overflows i = false) : (wordOfInt i).toInt = i := by
  simpa [overflows_eq] using h

theorem wordOfInt_add (t o : Word) : wordOfInt (t.toInt + o.toInt) = t + o := by
  rw [wordOfInt, BitVec.ofInt_add, BitVec.ofInt_toInt, BitVec.ofInt_toInt]

theorem wordOfInt_sub (t o : Word) : wordOfInt (t.toInt - o.toInt) = t - o := by
  apply BitVec.eq_of_toInt_eq
  rw [toInt_wordOfInt_bmod, BitVec.toInt_sub]

theorem toInt_bounds (t : Word) : -(2 ^ 31) ≤ t.toInt ∧ t.toInt < 2 ^ 31 := ⟨t.le_toInt, t.toInt_lt⟩

/-! ## Sums and differences (R72) -/

theorem addRes_q (t o : Word) (n : Nat) : (addRes t o n).q = t + o + word n := by
  simp [addRes, word, BitVec.ofNat_add]

theorem addRes_v (t o : Word) : (addRes t o 0).v = decide ((t + o).toInt ≠ t.toInt + o.toInt) := by
  have h : (addRes t o 0).v = overflows (t.toInt + o.toInt) := by simp [addRes]
  rw [h, overflows_eq, wordOfInt_add]

theorem subRes_q (t o : Word) (n : Nat) : (subRes t o n).q = t - o - word n := by
  apply BitVec.eq_of_toInt_eq
  have h : (word n).toInt = (n : Int).bmod (2 ^ 32) := by
    rw [← toInt_wordOfInt_bmod, wordOfInt, BitVec.ofInt_natCast, word]
  rw [subRes, toInt_wordOfInt_bmod, BitVec.toInt_sub, BitVec.toInt_sub, h]
  simp

theorem subRes_v (t o : Word) : (subRes t o 0).v = decide ((t - o).toInt ≠ t.toInt - o.toInt) := by
  have h : (subRes t o 0).v = overflows (t.toInt - o.toInt) := by simp [subRes]
  rw [h, overflows_eq, wordOfInt_sub]

/-! ## Shifts (R73) -/

/-- An arithmetic shift by 32 leaves the sign alone. -/
theorem sshiftRight_word (t : Word) : t.sshiftRight 32 = if t.msb then 0xFFFFFFFF else 0 := by
  apply BitVec.eq_of_getLsbD_eq
  intro j hj
  rw [BitVec.getLsbD_sshiftRight]
  have hones : (0xFFFFFFFF : Word).getLsbD j = true := (BitVec.getLsbD_allOnes (v := 32)).trans (decide_eq_true hj)
  cases t.msb
  · simp
  · rw [if_pos rfl, hones]
    simp [hj]

/-! ## Which operations write C (R71) -/

/-- Only the four sums and differences with a carry write C. -/
theorem aluOp_c (hk : 0x24 ≤ k) : (aluOp k t o c).c = none := by
  simp only [aluOp, apply_ite AluRes.c, boolRes, satRes, plainRes, ite_self]
  rw [if_neg (by omega), if_neg (by omega), if_neg (by omega), if_neg (by omega)]

/-! ## Products (R75) -/

theorem toInt_mulOp_signed (t o : Word) : (mulOp 0x108 t o).toInt = t.toInt * o.toInt := by
  obtain ⟨ht1, ht2⟩ := toInt_bounds t
  obtain ⟨ho1, ho2⟩ := toInt_bounds o
  have habs : (t.toInt * o.toInt).natAbs ≤ 2 ^ 31 * 2 ^ 31 := by
    rw [Int.natAbs_mul]
    exact Nat.mul_le_mul (by omega) (by omega)
  rw [mulOp, if_pos rfl, BitVec.toInt_ofInt, Int.bmod_eq_of_le] <;> omega

theorem toNat_mulOp_unsigned (t o : Word) : (mulOp 0x109 t o).toNat = t.toNat * o.toNat := by
  have h : t.toNat * o.toNat < 2 ^ 64 := by
    calc t.toNat * o.toNat < 2 ^ 32 * 2 ^ 32 := Nat.mul_lt_mul'' t.isLt o.isLt
      _ = 2 ^ 64 := by norm_num
  rw [mulOp, if_neg (by decide), if_pos rfl, BitVec.toNat_ofNat, Nat.mod_eq_of_lt h]

/-! ## Quotients (R76) -/

theorem divOp_zero (k : Nat) (t : Word) : divOp k t 0 = ⟨0xFFFFFFFF, t, false⟩ := if_pos rfl

theorem divOp_unsigned (h : o ≠ 0) : divOp 0x119 t o = ⟨word (t.toNat / o.toNat), word (t.toNat % o.toNat), false⟩ := by
  rw [divOp, if_neg h, if_neg (by decide)]

theorem divOp_signed (h : o ≠ 0) (hv : ¬ (t = 0x80000000 ∧ o = 0xFFFFFFFF)) :
    divOp 0x118 t o = ⟨wordOfInt (Int.tdiv t.toInt o.toInt), wordOfInt (Int.tmod t.toInt o.toInt), false⟩ := by
  rw [divOp, if_neg h, if_pos rfl, if_neg hv]

theorem toNat_word_of_le {n : Nat} (h : n ≤ t.toNat) : (word n).toNat = n := by
  rw [word, BitVec.toNat_ofNat, Nat.mod_eq_of_lt (lt_of_le_of_lt h t.isLt)]

/-- The one signed quotient that no word holds is that of the least number by -1. -/
theorem tdiv_fits (h : o ≠ 0) (hv : ¬ (t = 0x80000000 ∧ o = 0xFFFFFFFF)) : overflows (Int.tdiv t.toInt o.toInt) = false := by
  obtain ⟨ht1, ht2⟩ := toInt_bounds t
  have hq : (Int.tdiv t.toInt o.toInt).natAbs = t.toInt.natAbs / o.toInt.natAbs := Int.natAbs_tdiv _ _
  have hle : t.toInt.natAbs / o.toInt.natAbs ≤ t.toInt.natAbs := Nat.div_le_self _ _
  have hne : Int.tdiv t.toInt o.toInt ≠ 2 ^ 31 := by
    intro he
    have habs : t.toInt = -(2 ^ 31) := by omega
    have ho : o.toInt = -1 := by
      have h1 : o.toInt.natAbs = 1 := by
        by_contra hn
        have h0 : o.toInt ≠ 0 := fun h0 => h (BitVec.eq_of_toInt_eq (by simpa using h0))
        have : t.toInt.natAbs / o.toInt.natAbs ≤ t.toInt.natAbs / 2 := Nat.div_le_div_left (by omega) (by decide)
        omega
      rcases Int.natAbs_eq o.toInt with h2 | h2
      · rw [h1] at h2
        rw [h2, habs] at he
        norm_num at he
      · rw [h1] at h2
        simpa using h2
    exact hv ⟨BitVec.eq_of_toInt_eq habs, BitVec.eq_of_toInt_eq ho⟩
  simp only [overflows, Bool.or_eq_false_iff, decide_eq_false_iff_not]
  omega

theorem tmod_fits (h : o ≠ 0) : overflows (Int.tmod t.toInt o.toInt) = false := by
  obtain ⟨ho1, ho2⟩ := toInt_bounds o
  have h0 : o.toInt ≠ 0 := fun h0 => h (BitVec.eq_of_toInt_eq (by simpa using h0))
  have hm : (Int.tmod t.toInt o.toInt).natAbs < o.toInt.natAbs := by
    rw [Int.natAbs_tmod]
    exact Nat.mod_lt _ (by omega)
  simp only [overflows, Bool.or_eq_false_iff, decide_eq_false_iff_not]
  omega

end Sys2Proof.Machine

open Sys2Proof Sys2Proof.Machine

/-- Settles O16: each result by the integers that the operands' words stand for. -/
theorem arithmeticOfACore : Obligations.ArithmeticOfACore := by
  refine ⟨?_, ?_, ?_, ?_, ?_, ?_, ?_, ?_, ?_, ?_, ?_, ?_⟩
  · exact fun t o c => ⟨(addRes_q t o 0).trans (BitVec.add_zero _), rfl, addRes_v t o⟩
  · exact fun t o c => ⟨(subRes_q t o 0).trans (BitVec.sub_zero _), rfl, subRes_v t o⟩
  · exact fun t o c => ⟨addRes_q t o _, subRes_q t o _⟩
  · exact fun t o c => ⟨rfl, beq_iff_eq⟩
  -- shifts by 32 and more
  · intro t o c ho
    have hmin : min o.toNat 32 = 32 := by omega
    refine ⟨if_pos ho, if_pos ho, ?_⟩
    have h : (aluOp 0x2E t o c).q = t.sshiftRight (min o.toNat 32) := rfl
    rw [h, hmin, sshiftRight_word]
  -- comparisons
  · intro t o c
    have hs : (aluOp 0x32 t o c).q = word (bit01 (t.slt o)) := rfl
    have hu : (aluOp 0x33 t o c).q = word (bit01 (t.ult o)) := rfl
    rw [hs, hu, BitVec.slt, BitVec.ult]
    constructor
    · by_cases h : t.toInt < o.toInt <;> simp [h, bit01, word]
    · by_cases h : t.toNat < o.toNat <;> simp [h, bit01, word]
  · exact fun k t o c hk => aluOp_c hk
  · exact fun t o => ⟨toInt_mulOp_signed t o, toNat_mulOp_unsigned t o⟩
  · intro k t
    rw [divOp_zero]
    exact ⟨rfl, rfl, rfl⟩
  · intro t o ho
    rw [divOp_unsigned ho]
    exact ⟨toNat_word_of_le (Nat.div_le_self _ _), toNat_word_of_le (Nat.mod_le _ _)⟩
  · rfl
  · intro t o ho hv
    rw [divOp_signed ho hv]
    exact ⟨toInt_wordOfInt (tdiv_fits ho hv), toInt_wordOfInt (tmod_fits ho)⟩
end

section
/-!
Results of the local units that fall due (R66, R75, R76, R79): the oldest product, the quotient and the oldest local load reach their sockets, unless the
checker finds a wrong residue.
-/
namespace Sys2Proof.Machine

variable {s : State} {n : Nat}

theorem isCore_present (h : n < 37) : isCore n = true := decide_eq_true h

theorem exec_mulResult (h : n < 37) (ok : Bool) (s : State) : exec (.mulResult n ok) s = .next (s.mulResult n ok) := by
  have he : exec (.mulResult n ok) s = event (isCore n) s (s.mulResult n ok) := rfl
  rw [he, isCore_present h, event_true]
theorem exec_divResult (h : n < 37) (ok : Bool) (s : State) : exec (.divResult n ok) s = .next (s.divResult n ok) := by
  have he : exec (.divResult n ok) s = event (isCore n) s (s.divResult n ok) := rfl
  rw [he, isCore_present h, event_true]
theorem exec_lsuLoadResult (h : n < 37) (s : State) : exec (.lsuLoadResult n) s = .next (s.lsuResult n) := by
  have he : exec (.lsuLoadResult n) s = event (isCore n) s (s.lsuResult n) := rfl
  rw [he, isCore_present h, event_true]

section
variable {t : Nat} {p : DWord} {q m v : Word} {b : Bool} {ms : List (Nat × DWord)} {ls : List (Nat × Word)}

theorem mulResult_none (h : (s.core n).mul = []) (ok : Bool) : s.mulResult n ok = s := by simp [State.mulResult, h]
theorem divResult_none (h : (s.core n).div = none) (ok : Bool) : s.divResult n ok = s := by simp [State.divResult, h]
theorem lsuResult_none (h : (s.core n).lsu = []) : s.lsuResult n = s := by simp [State.lsuResult, h]

theorem mulResult_due (h : (s.core n).mul = (t, p) :: ms) (hd : t ≤ (s.core n).iss) : s.mulResult n true =
    s.setCore n { ((s.core n).put 0x101 (p.setWidth 32)).put 0x102 ((p >>> 32).setWidth 32) with mul := ms } := by
  simp [State.mulResult, h, Nat.not_lt.2 hd]
theorem divResult_due (h : (s.core n).div = some (t, q, m, b)) (hd : t ≤ (s.core n).iss) : s.divResult n true =
    s.setCore n { (((s.core n).put 0x111 q).put 0x112 m).put 0x113 (word (bit01 b)) with div := none } := by
  simp [State.divResult, h, Nat.not_lt.2 hd]
theorem lsuResult_due (h : (s.core n).lsu = (t, v) :: ls) (hd : t ≤ (s.core n).iss) :
    s.lsuResult n = s.setCore n { (s.core n).put 0x121 v with lsu := ls } := by
  simp [State.lsuResult, h, Nat.not_lt.2 hd]

theorem ne_mcpCore (h : n < 36) : n ≠ mcpCore := by
  unfold mcpCore
  omega

/-- A wrong residue is an F2 of the engine (R79). -/
theorem mulResult_residue (hn : n < 36) (h : (s.core n).mul = (t, p) :: ms) (hd : t ≤ (s.core n).iss) :
    s.mulResult n false = s.engineF2 n 4 := by
  simp [State.mulResult, h, Nat.not_lt.2 hd, ne_mcpCore hn]
theorem divResult_residue (hn : n < 36) (h : (s.core n).div = some (t, q, m, b)) (hd : t ≤ (s.core n).iss) :
    s.divResult n false = s.engineF2 n 4 := by
  simp [State.divResult, h, Nat.not_lt.2 hd, ne_mcpCore hn]
end

end Sys2Proof.Machine

open Sys2Proof Sys2Proof.Machine

/-- Settles O14: a due result reaches its sockets, and a wrong residue is an F2 with CAUSE 4. -/
theorem localResultsReachTheirSockets : Obligations.LocalResultsReachTheirSockets := by
  refine ⟨?_, ?_, ?_, ?_, ?_, ?_⟩
  · intro s n t p rest hn h hd
    rw [exec_mulResult hn, mulResult_due h hd]
  · intro s n t q m v hn h hd
    rw [exec_divResult hn, divResult_due h hd]
  · intro s n t v rest hn h hd
    rw [exec_lsuLoadResult hn, lsuResult_due h hd]
  -- nothing is under way
  · intro s n ok hn
    refine ⟨fun h => ?_, fun h => ?_, fun h => ?_⟩
    · rw [exec_mulResult hn, mulResult_none h]
    · rw [exec_divResult hn, divResult_none h]
    · rw [exec_lsuLoadResult hn, lsuResult_none h]
  -- wrong residues
  · intro s n l t p rest hn hl h hd hlog ht hp hf
    have hfl := engineF2_failed (cause := 4) hn hlog ht (by decide) (by decide) hp hf
    rw [Leaves, exec_mulResult (by omega), mulResult_residue hn h hd]
    exact ⟨_, rfl, hfl.peState, hfl.peCause, hfl.core, hfl.mem⟩
  · intro s n l t q m v hn hl h hd hlog ht hp hf
    have hfl := engineF2_failed (cause := 4) hn hlog ht (by decide) (by decide) hp hf
    rw [Leaves, exec_divResult (by omega), divResult_residue hn h hd]
    exact ⟨_, rfl, hfl.peState, hfl.peCause, hfl.core, hfl.mem⟩
end

section
/-!
Writes of the scratchpad (R89, R108, R115, R374): a write in pieces of one 8-byte word each, where no tick-state area, no image copy and no uncorrectable
word is touched, and where the first piece is refused.
-/
namespace Sys2Proof.Machine

variable {w : Who} {s t u : State} {a m g k : Nat} {bs xs ys : List Byte}

/-! ## Reservations (R89) -/

theorem reservation_setReservation (s : State) (m k : Nat) (r : Option Nat) :
    (s.setReservation m r).reservation k = if k = m then r else s.reservation k := by
  split
  · next h =>
    subst h
    exact Tab.get_set_same (d := fun _ => none) s.pec.reserved r
  · next h => exact Tab.get_set_other (d := fun _ => none) s.pec.reserved r h

theorem Tab.get_of_not_mem_keys {α : Type} {d : Nat → α} {t : Tab α} (h : k ∉ Tab.keys t) : Tab.get d t k = d k := by
  induction t with
  | nil => rfl
  | cons p t ih =>
    obtain ⟨k', v⟩ := p
    simp only [Tab.keys, List.map_cons, List.mem_cons, not_or] at h
    rw [Tab.get, if_neg (Ne.symm h.1), ih h.2]

/-- The turns of `endReservations` over some masters. -/
theorem endReservations_foldl (m g k : Nat) (ms : List Nat) (s : State) :
    (ms.foldl (fun (st : State) j => if j ≠ m ∧ st.reservation j = some g then st.setReservation j none else st) s).reservation k =
      if k ∈ ms ∧ k ≠ m ∧ s.reservation k = some g then none else s.reservation k := by
  induction ms generalizing s with
  | nil => simp
  | cons j ms ih =>
    rw [List.foldl_cons, ih]
    by_cases hj : j ≠ m ∧ s.reservation j = some g
    · rw [if_pos hj, reservation_setReservation]
      by_cases hk : k = j
      · subst hk
        simp [hj]
      · simp [hk]
    · rw [if_neg hj]
      by_cases hk : k = j
      · subst hk
        simp [hj]
      · simp [hk]

/-- A write of granule g ends the reservations that other masters hold of it, and no other. -/
theorem reservation_endReservations (s : State) (m g k : Nat) :
    (s.endReservations m g).reservation k = if k ≠ m ∧ s.reservation k = some g then none else s.reservation k := by
  rw [State.endReservations, endReservations_foldl]
  by_cases hk : k ∈ Tab.keys s.pec.reserved
  · simp [hk]
  · have hnone : s.reservation k = none := Tab.get_of_not_mem_keys hk
    simp [hnone]

/-! ## What a write leaves -/

/-- A state with another's memory, engine controller and memory controller. -/
def State.withStored (s u : State) : State := { s with mem := u.mem, pec := u.pec, mbx := u.mbx }

/-- From `s` to `t` master m has stored `bs` at `a`: these bytes and no others, and the other masters' reservations of the granules have ended. -/
structure Stored (m a : Nat) (bs : List Byte) (s t : State) : Prop where
  frame : ∀ x, t.withStored x = s.withStored x
  stored : ∀ i, (h : i < bs.length) → t.byte (a + i) = bs[i]
  other : ∀ b, b < a ∨ a + bs.length ≤ b → t.byte b = s.byte b
  ended : ∀ k i, k ≠ m → i < bs.length → t.reservation k ≠ some ((a + i) / 8)
  own : t.reservation m = s.reservation m
  apart : ∀ k g, s.reservation k = some g → (g < a / 8 ∨ (a + bs.length + 7) / 8 ≤ g) → t.reservation k = some g
  held : ∀ k g, t.reservation k = some g → s.reservation k = some g
  bad : ∀ b, s.isBad b = false → t.isBad b = false

theorem Stored.nil (m a : Nat) (s : State) : Stored m a [] s s where
  frame _ := rfl
  stored i h := absurd h (Nat.not_lt_zero i)
  other _ _ := rfl
  ended _ i _ h := absurd h (Nat.not_lt_zero i)
  own := rfl
  apart _ _ h _ := h
  held _ _ h := h
  bad _ h := h

/-- Two writes that follow each other are one of all their bytes. -/
theorem Stored.append (h : Stored m a xs s t) (g : Stored m (a + xs.length) ys t u) : Stored m a (xs ++ ys) s u where
  frame x := (g.frame x).trans (h.frame x)
  stored i hi := by
    rw [List.length_append] at hi
    rw [List.getElem_append]
    split
    · next hx => rw [g.other _ (.inl (by omega)), h.stored i hx]
    · next hx =>
      rw [← g.stored (i - xs.length) (by omega)]
      congr 1
      omega
  other b hb := by
    rw [List.length_append] at hb
    rw [g.other b (by omega), h.other b (by omega)]
  ended k i hk hi := by
    rw [List.length_append] at hi
    intro hr
    by_cases hx : i < xs.length
    · exact h.ended k i hk hx (g.held k _ hr)
    · refine g.ended k (i - xs.length) hk (by omega) ?_
      rw [hr]
      congr 2
      omega
  own := g.own.trans h.own
  apart k r hr hg := by
    rw [List.length_append] at hg
    exact g.apart k r (h.apart k r hr (by omega)) (by omega)
  held k r hr := h.held k r (g.held k r hr)
  bad b hb := g.bad b (h.bad b hb)

theorem Stored.eq (h : Stored m a bs s t) : t = s.withStored t := h.frame t

theorem bytes_eq_of_stored (h : ∀ i, (hi : i < bs.length) → t.byte (a + i) = bs[i]) : t.bytes a bs.length = bs := by
  induction bs generalizing a with
  | nil => rfl
  | cons b bs ih =>
    have h0 : t.byte a = b := h 0 (by simp)
    have hs : t.bytes (a + 1) bs.length = bs := ih fun i hi => by
      rw [Nat.add_assoc, Nat.add_comm 1 i]
      exact h (i + 1) (by simpa using hi)
    rw [List.length_cons, State.bytes, h0, hs]

/-! ## A piece of one word -/

theorem isBad_setBad (s : State) (b c : Nat) (v : Bool) : (s.setBad b v).isBad c = if c / 8 = b / 8 then v else s.isBad c := by
  split
  · next h =>
    rw [State.isBad, h]
    exact Tab.get_set_same (d := fun _ => false) s.mbx.bad v
  · next h => exact Tab.get_set_other (d := fun _ => false) s.mbx.bad v h

/-- Storing bytes ends the errors of the words that it covers. -/
theorem storeEnding_eq (s : State) (a : Nat) (bs : List Byte) : ∃ x : State, s.storeEnding a bs = { s.store a bs with mbx := x.mbx } ∧
    ∀ b, s.isBad b = false → x.isBad b = false := by
  have hfold (n : List Nat) (x : State) (hx : ∀ b, s.isBad b = false → x.isBad b = false) :
      ∃ y : State, n.foldl (fun (st : State) i => if a ≤ (a / 8 + i) * 8 ∧ (a / 8 + i) * 8 + 8 ≤ a + bs.length then st.setBad ((a / 8 + i) * 8) false
        else st) x = { x with mbx := y.mbx } ∧ ∀ b, s.isBad b = false → y.isBad b = false := by
    induction n generalizing x with
    | nil => exact ⟨x, rfl, hx⟩
    | cons i n ih =>
      rw [List.foldl_cons]
      split
      · obtain ⟨y, hy, hb⟩ := ih (x.setBad ((a / 8 + i) * 8) false) fun b hb => by
          rw [isBad_setBad]
          split
          · rfl
          · exact hx b hb
        exact ⟨y, hy, hb⟩
      · exact ih x hx
  obtain ⟨y, hy, hb⟩ := hfold (List.range ((bs.length + 14) / 8)) (s.store a bs) fun b hb => by rw [State.isBad, State.store_mbx]; exact hb
  exact ⟨y, hy, hb⟩

theorem store_withStored (s : State) (a : Nat) (bs : List Byte) (x : State) : (s.store a bs).withStored x = s.withStored x := by
  simp [State.withStored]

theorem endReservations_withStored (s : State) (m g : Nat) (x : State) : (s.endReservations m g).withStored x = s.withStored x :=
  foldl_keeps (k := fun u : State => u.withStored x) (fun s j => by split <;> rfl) _ s

theorem endReservations_mem (s : State) (m g : Nat) : (s.endReservations m g).mem = s.mem :=
  foldl_keeps (k := State.mem) (fun s j => by split <;> rfl) _ s
theorem endReservations_mbx (s : State) (m g : Nat) : (s.endReservations m g).mbx = s.mbx :=
  foldl_keeps (k := State.mbx) (fun s j => by split <;> rfl) _ s

/-- A piece that is stored, within one word. -/
theorem stored_piece (m : Nat) (hne : bs ≠ []) (hl : bs.length ≤ 8 - a % 8) :
    Stored m a bs s ((s.storeEnding a bs).endReservations m (a / 8)) := by
  obtain ⟨x, hx, hbad⟩ := storeEnding_eq s a bs
  have hres (k : Nat) : (s.storeEnding a bs).reservation k = s.reservation k := by
    rw [hx]
    simp [State.reservation]
  have hend := endReservations_withStored (s.storeEnding a bs) m (a / 8)
  have hmem : ((s.storeEnding a bs).endReservations m (a / 8)).mem = (s.store a bs).mem := by
    rw [endReservations_mem, hx]
  have hmbx : ((s.storeEnding a bs).endReservations m (a / 8)).mbx = x.mbx := by
    rw [endReservations_mbx, hx]
  have hpos : 0 < bs.length := List.length_pos_of_ne_nil hne
  refine ⟨fun y => ?_, fun i hi => ?_, fun b hb => ?_, fun k i hk hi => ?_, ?_, fun k g hk hg => ?_, fun k g hk => ?_, fun b hb => ?_⟩
  · rw [hend, hx]
    exact store_withStored s a bs y
  · rw [State.byte, hmem]
    exact State.byte_store_at s bs hi
  · rw [State.byte, hmem]
    exact State.byte_store_other s bs hb
  · have hg : (a + i) / 8 = a / 8 := by omega
    rw [reservation_endReservations, hres, hg]
    split
    · simp
    · next h => tauto
  · rw [reservation_endReservations, hres, if_neg (by simp)]
  · rw [reservation_endReservations, hres, if_neg ?_, hk]
    rw [hk]
    simp only [Option.some.injEq]
    omega
  · rw [reservation_endReservations, hres] at hk
    split at hk
    · simp at hk
    · exact hk
  · rw [State.isBad, hmbx]
    exact hbad b hb

/-! ## Places that are plain scratchpad -/

/-- Nothing protects the `n` bytes from `a`, and none of them lies in an uncorrectable word. -/
structure State.PlainAt (s : State) (a n : Nat) : Prop where
  inside : a + n ≤ 0x800000
  copies : s.copiesAt a n = []
  upper : ∀ i, i < n → s.tsUpper (a + i) = false
  area : ∀ i, i < n → s.tsAreaOf (a + i) = none
  good : ∀ i, i < n → s.isBad (a + i) = false

theorem copiesAt_sub {b n k : Nat} (h : s.copiesAt a n = []) (h1 : a ≤ b) (h2 : b + k ≤ a + n) : s.copiesAt b k = [] := by
  unfold State.copiesAt at *
  rw [List.filter_eq_nil_iff] at *
  intro i hi hc
  refine h i hi ?_
  simp only [Bool.and_eq_true, decide_eq_true_eq] at hc ⊢
  obtain ⟨⟨hv, hlo⟩, hhi⟩ := hc
  exact ⟨⟨hv, by omega⟩, by omega⟩

theorem State.PlainAt.take {n : Nat} (h : s.PlainAt a n) {k : Nat} (hk : k ≤ n) : s.PlainAt a k where
  inside := by have := h.inside; omega
  copies := copiesAt_sub h.copies (Nat.le_refl a) (by omega)
  upper i hi := h.upper i (by omega)
  area i hi := h.area i (by omega)
  good i hi := h.good i (by omega)

/-- What has been stored before protects nothing that follows. -/
theorem State.PlainAt.drop {n : Nat} (h : s.PlainAt a n) {k : Nat} (hk : k ≤ n) (hs : Stored m a bs s t) : t.PlainAt (a + k) (n - k) where
  inside := by have := h.inside; omega
  copies := by
    have hc : s.copiesAt (a + k) (n - k) = [] := copiesAt_sub h.copies (by omega) (by omega)
    rw [hs.eq]
    exact hc
  upper i hi := by
    have hu := h.upper (k + i) (by omega)
    rw [hs.eq, Nat.add_assoc]
    exact hu
  area i hi := by
    have ha := h.area (k + i) (by omega)
    rw [hs.eq, Nat.add_assoc]
    exact ha
  good i hi := by
    rw [Nat.add_assoc]
    exact hs.bad _ (h.good (k + i) (by omega))

/-- A write within one word is narrow only on that word. -/
theorem narrowOnBad_within {n : Nat} (h : s.isBad a = false) (hl : n ≤ 8 - a % 8) : s.narrowOnBad a n = false := by
  rw [State.narrowOnBad, List.any_eq_false]
  intro i _ hc
  simp only [Bool.and_eq_true, decide_eq_true_eq] at hc
  obtain ⟨⟨hi, hb⟩, -⟩ := hc
  have hw : (a / 8 + i) * 8 / 8 = a / 8 := by omega
  unfold State.isBad at h hb
  rw [hw, h] at hb
  exact absurd hb (by decide)

theorem spStorePiece_plain (hne : bs ≠ []) (hl : bs.length ≤ 8 - a % 8) (h : s.PlainAt a bs.length) :
    s.spStorePiece m a bs = .done ((s.storeEnding a bs).endReservations m (a / 8)) := by
  have hpos : 0 < bs.length := List.length_pos_of_ne_nil hne
  have hupper : s.tsUpper a = false := h.upper 0 hpos
  have harea : s.tsAreaOf a = none := h.area 0 hpos
  have haddr : s.spWriteAddr m a = some (s, a) := by
    simp [State.spWriteAddr, hupper, harea]
  have hguard : s.copyGuard m a bs.length = some s := by
    simp [State.copyGuard, h.copies]
  have hnarrow := narrowOnBad_within (h.good 0 hpos) hl
  have hin : ¬ 0x800000 < a + bs.length := by have := h.inside; omega
  simp only [Nat.add_zero] at hnarrow
  simp [State.spStorePiece, hin, haddr, hnarrow, hguard]

/-- A write of any length to plain scratchpad is stored to its end. -/
theorem spBurst_plain (m fuel : Nat) (hf : bs.length < fuel) (h : s.PlainAt a bs.length) :
    ∃ t, s.spBurst m fuel a bs = (t, true) ∧ Stored m a bs s t := by
  induction fuel generalizing s a bs with
  | zero => omega
  | succ fuel ih =>
    cases bs with
    | nil => exact ⟨s, rfl, Stored.nil m a s⟩
    | cons b rest =>
      have hn : 1 ≤ min (b :: rest).length (8 - a % 8) := by
        have := Nat.mod_lt a (show 0 < 8 by decide)
        simp only [List.length_cons]
        omega
      generalize hbs : b :: rest = bs at *
      have hlen : (bs.take (min bs.length (8 - a % 8))).length = min bs.length (8 - a % 8) := by simp
      have hpiece := stored_piece (s := s) m (bs := bs.take (min bs.length (8 - a % 8))) (a := a)
        (by rw [← List.length_pos_iff_ne_nil, hlen]; exact hn) (by omega)
      have hdone := spStorePiece_plain (s := s) (m := m) (bs := bs.take (min bs.length (8 - a % 8))) (a := a)
        (by rw [← List.length_pos_iff_ne_nil, hlen]; exact hn) (by omega) (by rw [hlen]; exact h.take (by omega))
      obtain ⟨t, ht, hst⟩ := ih (s := (s.storeEnding a (bs.take (min bs.length (8 - a % 8)))).endReservations m (a / 8))
        (a := a + min bs.length (8 - a % 8)) (bs := bs.drop (min bs.length (8 - a % 8))) (by rw [List.length_drop]; omega)
        (by rw [List.length_drop]; exact h.drop (by omega) hpiece)
      refine ⟨t, ?_, ?_⟩
      · rw [← hbs] at *
        simp only [State.spBurst, hdone]
        exact ht
      · have happ := hpiece.append (by rw [hlen]; exact hst)
        rwa [List.take_append_drop] at happ

/-! ## Writes that are refused -/

/-- A write within one word is one piece. -/
theorem spBurst_refused (m : Nat) (hne : bs ≠ []) (hl : bs.length ≤ 8 - a % 8) (he : s.spStorePiece m a bs = .err u) :
    s.spBurst m (bs.length + 1) a bs = (s, false) := by
  have hmin : min bs.length (8 - a % 8) = bs.length := by omega
  have hend (k : Nat) (s : State) (b : Nat) : s.spBurst m k b [] = (s, true) := by cases k <;> rfl
  cases bs with
  | nil => exact absurd rfl hne
  | cons b rest =>
    rw [State.spBurst]
    · simp only [hmin, List.take_length, List.drop_length, he, hend]
    · simp

theorem spStorePiece_upper (m : Nat) (hu : s.tsUpper a = true) : s.spStorePiece m a bs = .err s := by
  unfold State.spStorePiece
  split
  · rfl
  · simp [State.spWriteAddr, hu]

/-- An image copy that the MCP does not write itself is protected (R108). -/
theorem spStorePiece_copy (hm : m ≠ 0x01) (hc : s.copiesAt a bs.length ≠ []) (hu : s.tsUpper a = false) (ha : s.tsAreaOf a = none) :
    s.spStorePiece m a bs = .err s := by
  have haddr : s.spWriteAddr m a = some (s, a) := by
    simp [State.spWriteAddr, hu, ha]
  have hguard : s.copyGuard m a bs.length = none := by
    simp [State.copyGuard, hc, hm]
  unfold State.spStorePiece
  split
  · rfl
  · simp only [haddr, hguard, ite_self]

/-! ## The command -/

theorem exec_scratchpadWrite (h : Admitted w s) (hin : a + bs.length ≤ 0x800000) {ok : Bool}
    (hr : s.spBurst w.master (bs.length + 1) a bs = (u, ok)) :
    exec (.scratchpadWrite w a bs) s = .next (if ok then acked u else refusedWrite (u.masterError w a true)) := by
  have he : exec (.scratchpadWrite w a bs) s = access w (decide (a + bs.length ≤ 0x800000)) s (scratchWrite w a bs s) := rfl
  rw [he, decide_eq_true hin, access_true h, scratchWrite, if_pos (h.pathOpen (by decide) true), hr]
  cases ok <;> rfl

end Sys2Proof.Machine

open Sys2Proof Sys2Proof.Machine

/-- Settles O40: a write to plain scratchpad is stored piece by piece, and a protected word refuses its piece. -/
theorem scratchpadIsWritten : Obligations.ScratchpadIsWritten := by
  refine ⟨?_, ?_, ?_⟩
  -- nothing protects the bytes
  · intro w s a bs hw hin hcopies hplain
    have hat : s.PlainAt a bs.length :=
      ⟨hin, hcopies, fun i hi => (hplain i hi).1, fun i hi => (hplain i hi).2.1, fun i hi => (hplain i hi).2.2⟩
    obtain ⟨t, hburst, ht⟩ := spBurst_plain w.master (bs.length + 1) (Nat.lt_succ_self _) hat
    refine ⟨acked t, exec_scratchpadWrite hw hin hburst, bytes_eq_of_stored ht.stored, ht.other, ?_, ?_, ht.apart, ?_⟩
    · rintro m g i hm hi rfl
      exact ht.ended m i hm hi
    · rintro m rfl
      exact ht.own
    · exact congrArg acked ht.eq
  -- the upper copy of a tick-state area
  · intro w s a bs hw hin hne hl hu
    exact exec_scratchpadWrite hw hin (spBurst_refused w.master hne hl (spStorePiece_upper w.master hu))
  -- the host at an image copy
  · intro w s a bs hw hh hin hne hl hc hu ha
    have hm : w.master ≠ 0x01 := by
      have h0 : w.master = 0 := by simpa [isHost] using hh
      omega
    exact exec_scratchpadWrite hw hin (spBurst_refused w.master hne hl (spStorePiece_copy hm hc hu ha))
end

section
/-!
The far port of a core (R82 to R84, R88 to R90): the oldest operation that returns a value, and the oldest posted write, where nothing else has to come
first.
-/
namespace Sys2Proof.Machine

variable {s t : State} {n a o l : Nat} {b : Block} {op : FarOp} {rest : List FarOp} {v : Word}

theorem exec_farResult_core (h : n < 37) (e : EccFinding) (s : State) : exec (.farResult n e) s = .next (s.farResult n e) := by
  rw [exec_farResult, isCore_present h, event_true]
theorem exec_postedWriteComplete (h : n < 37) (s : State) : exec (.postedWriteComplete n) s = .next (s.postedComplete n) := by
  have he : exec (.postedWriteComplete n) s = event (isCore n) s (s.postedComplete n) := rfl
  rw [he, isCore_present h, event_true]

/-! ## Where far addresses stand (R81) -/

theorem frameWindow_below (h : a < 0x20000000) : frameWindow a = none := by
  rw [frameWindow, if_neg (by omega)]

/-- An address that a row of the map covers lies in that row. -/
theorem findBlock_row : ∀ {rows : List (Block × Nat × Nat)}, findBlock a rows = some (b, o) → ∃ r ∈ rows, r.1 = b ∧ r.2.1 ≤ a ∧ a < r.2.2
  | [], h => by simp [findBlock] at h
  | (c, lo, hi) :: rows, h => by
    unfold findBlock at h
    split at h
    · next hin =>
      have hc : c = b := by
        injection h with h
        exact congrArg Prod.fst h
      exact ⟨_, List.mem_cons_self, hc, hin⟩
    · obtain ⟨r, hr, h⟩ := findBlock_row h
      exact ⟨r, List.mem_cons_of_mem _ hr, h⟩

/-- The blocks other than the scratchpad, the secure memory and the engine windows stand in the register range. -/
theorem blockOf_register (h : blockOf a = some (b, o)) (hb : b ≠ .scratchpad ∧ b ≠ .secure ∧ b ≠ .pe) : 0x10000000 ≤ a ∧ a < 0x20000000 := by
  obtain ⟨r, hr, rfl, hlo, hhi⟩ := findBlock_row h
  have hall : ∀ r ∈ addressMap, r.1 ≠ .scratchpad ∧ r.1 ≠ .secure ∧ r.1 ≠ .pe → 0x10000000 ≤ r.2.1 ∧ r.2.2 ≤ 0x20000000 := by decide
  obtain ⟨h1, h2⟩ := hall r hr hb
  omega

/-! ## The oldest operation that returns a value (R82) -/

/-- `op` is the oldest operation of core n that returns a value, it has not completed, the later ones neither, and LSU.FQ has room. -/
structure Oldest (s : State) (n : Nat) (op : FarOp) (rest : List FarOp) : Prop where
  far : (s.core n).far = op :: rest
  waits : op.vals = none
  later : ∀ x, x ∈ rest → x.vals = none ∧ x.seq ≠ op.seq
  room : (s.core n).fq.length < 16

/-- The core with the word of its oldest operation in LSU.FQ. -/
def Core.gained (c : Core) (rest : List FarOp) (v : Word) : Core := { c with far := rest, fq := c.fq ++ [v] }

/-- No posted write has to reach the bank of an operation first (R370). -/
theorem postedBefore_apart (h : farBank op = none ∨ (s.core n).posted = []) (k : Nat) : s.postedBefore n op k = s := by
  have hany : (s.core n).posted.any (fun p => decide (p.seq < op.seq) && sameBank p op) = false := by
    rcases h with h | h
    · rw [List.any_eq_false]
      intro p _
      cases hp : farBank p <;> simp [sameBank, hp, h]
    · rw [h]
      rfl
  cases k with
  | zero => rfl
  | succ k => simp [State.postedBefore, hany]

theorem takeIn_waiting (c : Core) (h : ∀ x, x ∈ rest → x.vals = none) : c.takeIn rest = { c with far := rest } := by
  cases rest with
  | nil => rfl
  | cons x xs => simp [Core.takeIn, h x List.mem_cons_self]

section
variable (h : Oldest s n op rest)
include h

/-- The word that the oldest operation returns enters LSU.FQ at once. -/
theorem Oldest.takeIn : (s.core n).takeIn ((s.core n).far.map (fun x => if x.seq = op.seq then { x with vals := some [v] } else x)) =
    (s.core n).gained rest v := by
  have hrest : rest.map (fun x => if x.seq = op.seq then { x with vals := some [v] } else x) = rest :=
    (List.map_congr_left fun x hx => if_neg (h.later x hx).2).trans (List.map_id' rest)
  have hroom : (s.core n).fq.length + [v].length ≤ 16 := h.room
  rw [h.far, List.map_cons, hrest, if_pos rfl, Core.takeIn]
  simp only [hroom, if_true]
  exact takeIn_waiting _ fun x hx => (h.later x hx).1

theorem Oldest.next (hw : s.farWaits n op = false) : s.farNext n = some op := by
  simp [State.farNext, h.far, h.waits, hw]

/-- The oldest operation completes. -/
theorem Oldest.farResult (hw : s.farWaits n op = false) (hp : farBank op = none ∨ (s.core n).posted = []) (e : EccFinding) :
    s.farResult n e = if (s.farTake n op e).2 then (s.farTake n op e).1.farRefused n op else (s.farTake n op e).1 := by
  have hany : (s.core n).far.any (fun x => x.seq == op.seq && x.vals.isNone) = true := by simp [h.far, h.waits]
  simp only [State.farResult, h.next hw, postedBefore_apart hp, hany, if_true]
  obtain ⟨u, e⟩ := s.farTake n op e
  cases e <;> rfl

/-- It returns a word. -/
theorem Oldest.returned (hw : s.farWaits n op = false) (hp : farBank op = none ∨ (s.core n).posted = []) {e : EccFinding}
    (hd : s.farDone n op e = ⟨t, [v], false⟩) (hc : t.core n = s.core n) :
    s.farResult n e = t.setCore n ((s.core n).gained rest v) := by
  rw [h.farResult hw hp]
  simp only [State.farTake, hd, State.onCore, hc, h.takeIn]
  exact if_neg Bool.false_ne_true

/-- It is refused. -/
theorem Oldest.refused (hw : s.farWaits n op = false) (hp : farBank op = none ∨ (s.core n).posted = []) {e : EccFinding}
    (hd : s.farDone n op e = farError s) :
    s.farResult n e = (s.setCore n ((s.core n).gained rest 0xFFFFFFFF)).farRefused n op := by
  rw [h.farResult hw hp]
  simp only [State.farTake, hd, farError, State.onCore, h.takeIn]
  exact if_pos trivial
end

/-- An operation that a core's target refuses counts and sets BUS_ERR, without a trap where none is enabled (R84). -/
theorem farRefused_untrapped (hn : n ≠ mcpCore) (ht : s.bit (peGroup n + 0x64) 8 = false) :
    s.farRefused n op = (s.bump (peGroup n + 0x70)).setBit (peGroup n + 0x60) 8 true := by
  have hs : coreSticky n = peGroup n + 0x60 := if_neg hn
  have hb : s.coreBusError n = s.bump (peGroup n + 0x70) := if_neg hn
  have hflags : (s.bump (peGroup n + 0x70)).noteFlags n (refusals [op]) = ((s.bump (peGroup n + 0x70)).setBit (peGroup n + 0x60) 8 true, none) := by
    simp [State.noteFlags, refusals, hs, flagBusErr, ht]
  rw [State.farRefused, hb, hflags]

/-! ## What the targets return -/

theorem farWaits_of_trig (h : op.trig ≠ 0x130) : s.farWaits n op = false := by
  simp [State.farWaits, h]

theorem farWaits_below (h : op.arg.toNat < 0x20000000) : s.farWaits n op = false := by
  have hw : frameWindow (op.arg.toNat / 4 * 4) = none := frameWindow_below (by omega)
  simp [State.farWaits, hw]

/-- A load of the scratchpad, with no write of the core on its way (R83). -/
theorem farDone_scratch (ht : op.trig = 0x130) (ha : a = op.arg.toNat / 4 * 4) (hlt : a < 0x800000) (hu : s.tsUpper a = false)
    (harea : s.tsAreaOf a = none) (hbad : s.isBad a = false) (hp : (s.core n).posted = []) :
    s.farDone n op .clean = ⟨s, [s.loadWord a], false⟩ := by
  have hw : frameWindow a = none := frameWindow_below (by omega)
  have haddr : s.spReadAddr (coreMaster n) a = some a := by simp [State.spReadAddr, hu, harea]
  have hseen : s.seenBy n op.seq = s := by simp [State.seenBy, hp]
  have hload : s.scratchLoad n a op.seq .clean = ⟨s, [s.loadWord a], false⟩ := by
    simp [State.scratchLoad, haddr, hbad, hseen]
  simp [State.farDone, ht, State.farLoad, ← ha, hw, hlt, hload]

/-- An engine's load between the scratchpad and the registers is refused (R81). -/
theorem farDone_nowhere (hn : n ≠ mcpCore) (ht : op.trig = 0x130) (h1 : 0x800000 ≤ op.arg.toNat) (h2 : op.arg.toNat < 0x10000000)
    (e : EccFinding) : s.farDone n op e = farError s := by
  have hw : frameWindow (op.arg.toNat / 4 * 4) = none := frameWindow_below (by omega)
  have hs : ¬ op.arg.toNat / 4 * 4 < 0x800000 := by omega
  have hr : ¬ 0x10000000 ≤ op.arg.toNat / 4 * 4 := by omega
  simp [State.farDone, ht, State.farLoad, hw, hs, hr, hn]

theorem lockAt_lock {i : Nat} (hi : i < 256) : lockAt ((0x10510000 + 4 * i) / 4 * 4) = some i := by
  rw [lockAt, if_pos (by omega)]
  congr 1
  omega

/-- ATM.T.TAS of a lock word (R88). -/
theorem farDone_tas {i : Nat} (hi : i < 256) (ht : op.trig = 0x188) (ha : op.arg.toNat = 0x10510000 + 4 * i) (e : EccFinding) :
    s.farDone n op e = ⟨(s.lockTas (coreMaster n) i).1, [(s.lockTas (coreMaster n) i).2], false⟩ := by
  have hd : s.atomicDone n op = some ⟨(s.lockTas (coreMaster n) i).1, [(s.lockTas (coreMaster n) i).2], false⟩ := by
    simp [State.atomicDone, ht, ha, lockAt_lock hi]
  simp [State.farDone, ht, hd]

theorem farBank_of_trig (h : op.trig = 0x188 ∨ op.trig = 0x189) : farBank op = none := by
  rcases h with h | h <;> simp [farBank, h]
theorem farBank_beyond (h : 0x800000 ≤ op.arg.toNat) : farBank op = none := by
  rw [farBank, if_neg (by omega)]

theorem coreMaster_engine (hn : n < 36) : coreMaster n = 0x10 + n := if_neg (ne_mcpCore hn)

/-! ## Posted writes (R83, R88) -/

/-- Core n with its oldest posted write taken from the buffer. -/
def State.unposted (s : State) (n : Nat) (rest : List FarOp) : State := s.setCore n { s.core n with posted := rest }

/-- A posted write that waits for no bank reaches its destination. -/
theorem postedComplete_apart (hp : (s.core n).posted = op :: rest) (hb : farBank op = none) {e : Bool}
    (hd : (s.unposted n rest).postedDone n op = (t, e)) : s.postedComplete n = if e then t.farRefused n op else t := by
  have hany : (s.core n).far.any (fun f => f.vals.isNone && decide (f.seq < op.seq) && sameBank f op) = false := by
    rw [List.any_eq_false]
    intro f _
    cases hf : farBank f <;> simp [sameBank, hf, hb]
  have htake : s.postedTake n op rest = (t, e) := hd
  simp only [State.postedComplete, hp, hany, htake, Bool.false_eq_true, if_false]
  cases e <;> rfl

/-- An engine's store of a register word is staged, or refused. -/
theorem postedDone_register (hn : n ≠ mcpCore) (ht : op.trig = 0x131) (ha : a = op.arg.toNat) (h4 : a % 4 = 0)
    (hb : 0x10000000 ≤ a ∧ a < 0x20000000) : s.postedDone n op = s.stageWrite n a op.data := by
  have hstore : farStore op = (a, leBytes 4 op.data.toNat) := by
    have h4' : op.arg.toNat / 4 * 4 = a := by omega
    rw [farStore, if_pos ht, h4']
  have hw := frameWindow_below hb.2
  have hs : ¬ a < 0x800000 := by omega
  simp [State.postedDone, State.atomicPosted, ht, State.farStored, hstore, hw, hs, hn, hb]

/-- Writes of TICK from offset 8 on are left to the access codes. -/
theorem tickWrite_plain (h : 8 ≤ o) (s : State) (d : Word) : tickWrite s o d = .plain := by
  rw [tickWrite, if_neg (by omega), if_neg (by omega)]

/-- A write of TICK that the grants of L cover is staged (R23, R81). -/
theorem stageWrite_tick {d : Word} (hl : s.logicalOf n = some l) (hb : blockOf a = some (.tick, o)) (ho : 8 ≤ o)
    (hg : s.grantsPage l ((a - 0x10000000) / 0x1000) = true) (hc : (cellAt a).isSome = true) :
    s.stageWrite n a d = (s.onCore n (fun c => { c with staged := c.staged ++ [.write a d] }), false) := by
  have hr : s.stageRefused l n .tick o d = false := by
    simp [State.stageRefused, tickWrite_plain ho, WRes.refused]
  simp [State.stageWrite, hl, hb, State.engineReaches, hg, registerHere, hc, State.engineWrites, hr, State.stageOutput]

/-- The blocks that no engine writes, whatever its grants (R81, R220, R359). -/
theorem stageWrite_refused {d : Word} (hl : s.logicalOf n = some l) (hb : blockOf a = some (b, o))
    (hw : b = .mgt ∨ b = .flt ∨ b = .mem ∨ b = .mbx ∨ b = .host ∨ (b = .sw ∧ engineSwReg o = false)) : s.stageWrite n a d = (s, true) := by
  have he : s.engineWrites ⟨0x10 + n, .internal⟩ l b o d (s.core n) a = false := by
    rcases hw with rfl | rfl | rfl | rfl | rfl | ⟨rfl, h⟩
    exacts [rfl, rfl, rfl, rfl, rfl, h]
  simp [State.stageWrite, hl, hb, he]

/-- ATM.T.CLR by the owner (R88, R367). -/
theorem postedDone_clr {i : Nat} (hi : i < 256) (ht : op.trig = 0x189) (ha : op.arg.toNat = 0x10510000 + 4 * i)
    (hb : s.bit (lockView i) 0 = true) (ho : s.fld (lockView i) 8 8 = coreMaster n) :
    s.postedDone n op = (s.setBit (lockView i) 0 false, false) := by
  have hrel : s.lockRelease (coreMaster n) i = s.setBit (lockView i) 0 false := by
    simp [State.lockRelease, hb, ho]
  simp [State.postedDone, State.atomicPosted, ht, ha, lockAt_lock hi, hrel]

end Sys2Proof.Machine

open Sys2Proof Sys2Proof.Machine

/-- Settles O15: the oldest operation completes at its target, and what the target refuses is charged to the core. -/
theorem farAccessesReachTheirTargets : Obligations.FarAccessesReachTheirTargets := by
  refine ⟨?_, ?_, ?_, ?_, ?_, ?_, ?_, ?_⟩
  -- nothing is under way
  · intro s n ecc hn
    refine ⟨fun h => ?_, fun h => ?_⟩
    · rw [exec_farResult_core hn]
      simp [State.farResult, State.farNext, h]
    · rw [exec_postedWriteComplete hn]
      simp [State.postedComplete, h]
  -- a load of the scratchpad
  · intro s n a op rest hn hfar hv hlater hroom hp ht ha hlt hu harea hbad
    have h : Oldest s n op rest := ⟨hfar, hv, hlater, hroom⟩
    rw [exec_farResult_core (by omega), h.returned (farWaits_below (by omega)) (.inr hp) (farDone_scratch ht ha hlt hu harea hbad hp) rfl]
    rfl
  -- ATM.T.TAS of a free lock
  · intro s n i op rest hn hi hfar hv hlater hroom ht ha hfree
    have h : Oldest s n op rest := ⟨hfar, hv, hlater, hroom⟩
    have htas : s.lockTas (coreMaster n) i = (s.setReg (lockView i) (word (1 + (0x10 + n) * 256)), 0) := by
      simp [State.lockTas, hfree, coreMaster_engine hn]
    have hd := farDone_tas (s := s) (n := n) hi ht ha .clean
    rw [htas] at hd
    rw [exec_farResult_core (by omega), h.returned (farWaits_of_trig (by omega)) (.inl (farBank_of_trig (.inl ht))) hd rfl]
    rfl
  -- ATM.T.TAS of a lock that is held
  · intro s n i op rest hn hi hfar hv hlater hroom ht ha hheld
    have h : Oldest s n op rest := ⟨hfar, hv, hlater, hroom⟩
    have htas : s.lockTas (coreMaster n) i = (s, 1) := by simp [State.lockTas, hheld]
    have hd := farDone_tas (s := s) (n := n) hi ht ha .clean
    rw [htas] at hd
    rw [exec_farResult_core (by omega), h.returned (farWaits_of_trig (by omega)) (.inl (farBank_of_trig (.inl ht))) hd rfl]
    rfl
  -- a load that no target answers
  · intro s n op rest hn hfar hv hlater hroom ht h1 h2 htrap
    have h : Oldest s n op rest := ⟨hfar, hv, hlater, hroom⟩
    rw [exec_farResult_core (by omega), h.refused (farWaits_below (by omega)) (.inl (farBank_beyond h1))
      (farDone_nowhere (ne_mcpCore hn) ht h1 h2 .clean)]
    exact congrArg Host.Outcome.next (farRefused_untrapped (ne_mcpCore hn) htrap)
  -- a store that is staged
  · rintro s n l a o b op rest hn hl hp ht ha h4 hlog hb rfl ho hg hc
    have hr := blockOf_register hb (by decide)
    have hd := (postedDone_register (ne_mcpCore hn) ht ha h4 hr).trans (stageWrite_tick (s := s.unposted n rest) hlog hb ho hg hc)
    rw [exec_postedWriteComplete (by omega), postedComplete_apart hp (farBank_beyond (by omega)) hd, if_neg Bool.false_ne_true]
    simp only [State.onCore, State.unposted, core_setCore_same]
  -- a store that is refused
  · intro s n l a o b op rest hn hl hp ht ha h4 hlog hb hblock htrap
    have hr := blockOf_register hb (by rcases hblock with rfl | rfl | rfl | rfl | rfl | ⟨rfl, -⟩ <;> decide)
    have hd := (postedDone_register (ne_mcpCore hn) ht ha h4 hr).trans (stageWrite_refused (s := s.unposted n rest) hlog hb hblock)
    rw [exec_postedWriteComplete (by omega), postedComplete_apart hp (farBank_beyond (by omega)) hd, if_pos rfl]
    exact congrArg Host.Outcome.next (farRefused_untrapped (ne_mcpCore hn) htrap)
  -- ATM.T.CLR
  · intro s n i op rest hn hi hp ht ha hheld hown
    have hd := postedDone_clr (s := s.unposted n rest) hi ht ha hheld (hown.trans (coreMaster_engine hn).symm)
    rw [exec_postedWriteComplete (by omega), postedComplete_apart hp (farBank_of_trig (.inr ht)) hd, if_neg Bool.false_ne_true]
    rfl
end

section
/-!
A lockstep mismatch while the MCP has an ATM.T.SC under way (R89, R91, R415): the operation is not staged, so it takes effect although the core halts, and
the memory is not as it was.
-/
namespace Sys2Proof.Machine

/-- The MCP has issued an ATM.T.SC that stores 1 at address 0, and holds its reservation of the granule there. -/
def State.conditionalStoreIssued : State := { State.reset with
  cores := [(mcpCore, { Core.reset with far := [⟨0x18B, 0, 1, 0, 0, 0, none, 0⟩] })]
  pec := { PecSt.reset with reserved := [(coreMaster mcpCore, some 0)] } }

theorem exec_lockstepMismatch (s : State) : exec .lockstepMismatch s = .next s.lockstepMismatch := rfl

/-- The store lands as the MCP stops. -/
theorem conditionalStoreIssued_lands : State.conditionalStoreIssued.lockstepMismatch.mem = [(0, 1)] := by decide +kernel

end Sys2Proof.Machine

open Sys2Proof Sys2Proof.Machine

/-- Refutes O41: at a lockstep mismatch an ATM.T.SC that the MCP has issued still stores its word, so the memory changes. -/
theorem not_enginesAreTestedAndPreloaded : ¬ Obligations.EnginesAreTestedAndPreloaded := by
  rintro ⟨hmismatch, -⟩
  obtain ⟨t, ht, -, -, -, -, hmem⟩ := hmismatch State.conditionalStoreIssued rfl
  rw [exec_lockstepMismatch] at ht
  injection ht with ht
  rw [← ht, conditionalStoreIssued_lands] at hmem
  exact absurd hmem (by decide)
end

section
/-!
How a bundle issues (R56 to R68): a bundle whose moves neither clash nor are reserved, on a core with nothing under way in its local units, goes from its
moves to the effect that they have, and from the effect to the next state.
-/
namespace Sys2Proof.Machine

variable {s : State} {n j d : Nat} {c k : Core} {v : Word} {m : Move} {ms : List Move} {ws : Nat → Word}

/-! ## The moves of a bundle -/

theorem movesOf_slot_lt (h : m ∈ s.movesOf n c ws) : m.slot < 4 := by
  obtain ⟨i, hi, rfl⟩ := List.mem_map.1 h
  exact List.mem_range.1 (List.mem_filter.1 hi).1

theorem Moves.slot_lt (h : Moves s n c ms) (hm : m ∈ ms) : m.slot < 4 := by
  obtain ⟨-, -, h⟩ := h
  exact movesOf_slot_lt (h ▸ hm)

/-- Every destination can be written, and no two of them clash (R68, R99). -/
structure Apart (mcp : Bool) (ms : List Move) : Prop where
  writable : ∀ m ∈ ms, writable mcp m.dst = true
  apart : ∀ m ∈ ms, ∀ x ∈ ms, m.slot < x.slot → clashes m.dst x.dst = false

theorem Apart.nil (mcp : Bool) : Apart mcp [] where
  writable _ h := absurd h List.not_mem_nil
  apart _ h := absurd h List.not_mem_nil

theorem Apart.single {mcp : Bool} (h : Machine.writable mcp d = true) : Apart mcp [⟨j, d, v⟩] where
  writable m hm := by
    rw [List.mem_singleton.1 hm]
    exact h
  apart m hm x hx hlt := by
    rw [List.mem_singleton.1 hm, List.mem_singleton.1 hx] at hlt
    exact absurd hlt (lt_irrefl _)

theorem Apart.pair {mcp : Bool} {m1 m2 : Move} (h1 : Machine.writable mcp m1.dst = true) (h2 : Machine.writable mcp m2.dst = true)
    (h12 : clashes m1.dst m2.dst = false) (h21 : clashes m2.dst m1.dst = false) : Apart mcp [m1, m2] where
  writable m hm := by
    rcases List.mem_pair.1 hm with rfl | rfl
    · exact h1
    · exact h2
  apart m hm x hx hlt := by
    rcases List.mem_pair.1 hm with rfl | rfl <;> rcases List.mem_pair.1 hx with rfl | rfl
    · exact absurd hlt (lt_irrefl _)
    · exact h12
    · exact h21
    · exact absurd hlt (lt_irrefl _)

section
variable {mcp : Bool} (h : Apart mcp ms)
include h

theorem Apart.filter_writable : ms.filter (fun m => Machine.writable mcp m.dst) = ms := List.filter_eq_self.2 h.writable

theorem Apart.effective : effective mcp ms = ms := by
  unfold Machine.effective
  rw [h.filter_writable]
  dsimp only
  refine List.filter_eq_self.2 fun m hm => ?_
  rw [Bool.not_eq_true', List.any_eq_false]
  intro x hx
  simp only [Bool.and_eq_true, decide_eq_true_eq, not_and]
  intro hlt
  rw [h.apart m hm x hx hlt]
  decide

theorem Apart.moveFlags (pc : Nat) (hl : ∀ i, i < 4 → isLiteral ws i = true ∨ slotReserved i (ws i) = false) :
    moveFlags mcp pc ws ms = [] := by
  unfold Machine.moveFlags
  rw [h.filter_writable]
  refine List.flatMap_eq_nil_iff.2 fun i hi => ?_
  have hill : (!isLiteral ws i && slotReserved i (ws i)) = false := by
    rcases hl i (List.mem_range.1 hi) with h | h <;> simp [h]
  have hsock : ms.any (fun m => m.slot == i && !Machine.writable mcp m.dst) = false := by
    rw [List.any_eq_false]
    intro m hm
    simp [h.writable m hm]
  have hclash : ms.any (fun m => m.slot == i && ms.any (fun x => decide (x.slot < i) && clashes x.dst m.dst)) = false := by
    rw [List.any_eq_false]
    intro m hm
    simp only [Bool.and_eq_true, List.any_eq_true, decide_eq_true_eq, beq_iff_eq, not_and, not_exists]
    rintro rfl x hx hlt
    rw [h.apart x hx m hm hlt]
    decide
  simp [hill, hsock, hclash]
end

/-! ## No stall (R43, R65 to R67, R82, R83) -/

/-- The entries of LSU.FQ that a bundle's far triggers ask for, and the places of the posted-store buffer that they need (R25, R83). -/
def farWants (ms : List Move) : Nat := (((ms.filter (fun m => isFarTrigger m.dst)).map (fun m => m.dst)).map farEntries).sum
def farPosts (ms : List Move) : Nat := (((ms.filter (fun m => isFarTrigger m.dst)).map (fun m => m.dst)).filter (fun t => farEntries t == 0)).length

/-- With nothing under way in the local units only the far port can hold a bundle up. -/
theorem mustStall_far (hl : c.late = []) (hs : c.lsu = []) (hf : 0x122 ∉ c.reads ws) : s.mustStall n c ws ms =
    (decide (0 < farWants ms) && decide (16 < (c.far.map (fun op => farEntries op.trig)).sum + farWants ms) ||
      decide (0 < farPosts ms) && decide (16 < c.posted.length + farPosts ms)) := by
  have hlate : (c.reads ws).any (fun a => c.late.any (fun x => x.1 == a)) = false := by
    rw [hl, List.any_eq_false]
    exact fun a _ => Bool.false_ne_true
  have hfq : (c.reads ws).contains 0x122 = false := by simpa using hf
  simp only [State.mustStall, hlate, hs, hfq, List.isEmpty_nil, Bool.not_true, Bool.and_false, Bool.false_and, Bool.or_false, Bool.false_or]
  rfl

/-- The bundle has no far trigger. -/
def Near (ms : List Move) : Prop := ∀ m ∈ ms, isFarTrigger m.dst = false

theorem Near.filter (h : Near ms) : ms.filter (fun m => isFarTrigger m.dst) = [] :=
  List.filter_eq_nil_iff.2 fun m hm => by simp [h m hm]

/-- No far store goes to a line of a tick-state area. -/
def NoLines (s : State) (ms : List Move) : Prop := ∀ m ∈ ms, 0x131 ≤ m.dst → m.dst ≤ 0x133 → s.tsAreaOf m.val.toNat = none

theorem NoLines.single (h : d < 0x131 ∨ s.tsAreaOf v.toNat = none) : NoLines s [⟨j, d, v⟩] := by
  refine List.forall_mem_singleton.2 fun h1 _ => ?_
  rcases h with h | h
  · exact absurd h1 (Nat.not_le.2 h)
  · exact h

theorem NoLines.cons (h : m.dst < 0x131) (hms : NoLines s ms) : NoLines s (m :: ms) :=
  List.forall_mem_cons.2 ⟨fun h1 _ => absurd h1 (Nat.not_le.2 h), hms⟩

theorem Near.noLines (h : Near ms) (s : State) : NoLines s ms := by
  intro m hm h1 h2
  have hf := h m hm
  simp [isFarTrigger] at hf
  omega

theorem NoLines.dueLines (h : NoLines s ms) : s.dueLines n c ms = [] := by
  unfold State.dueLines State.newLines
  cases s.logicalOf n with
  | none => rfl
  | some l =>
    have hnone : (ms.filter (fun m => decide (0x131 ≤ m.dst) && decide (m.dst ≤ 0x133))).filterMap (fun m =>
        if s.tsAreaOf m.val.toNat = some l then
          (if s.lineWritten l ((m.val.toNat - s.tsBase l) / 64) then none else some ((m.val.toNat - s.tsBase l) / 64))
        else none) = [] := by
      rw [List.filterMap_eq_nil_iff]
      intro m hm
      obtain ⟨hm, hd⟩ := List.mem_filter.1 hm
      simp only [Bool.and_eq_true, decide_eq_true_eq] at hd
      rw [h m hm hd.1 hd.2, if_neg (by simp)]
    simp only [hnone]
    rfl

theorem NoLines.ownStall (h : NoLines s ms) : s.ownStall n c ms = farMoves ms - max 1 c.paid.1 := by
  rw [State.ownStall, h.dueLines]
  rfl

/-! ## The bundle issues -/

/-- Nothing is under way in the local units of a core that may issue. -/
theorem Ready.idle (hr : Ready s n c) : c.mul = [] ∧ c.div = none ∧ c.lsu = [] ∧ c.late = [] := by
  obtain ⟨-, -, -, -, hmul, hdiv, hlsu, hlate, -⟩ := hr
  exact ⟨hmul, hdiv, hlsu, hlate⟩

theorem exec_bundleIssue_core (hn : n ≤ 36) (f : CoreFinding) (s : State) : exec (.bundleIssue n f) s = .next (s.bundleIssue n f) := by
  rw [exec_bundleIssue, isCore_present (by omega), event_true]

section
variable (hr : Ready s n c) (hm : Moves s n c ms)
include hr

theorem Ready.deliver : (s.core n).deliver = c := by
  obtain ⟨-, hc, -, -, hmul, hdiv, hlsu, -⟩ := hr
  rw [← hc, deliver_idle hmul hdiv hlsu]

include hm

/-- What the core does in the cycle, once its bundle may issue. -/
theorem Ready.bundleIssue : s.bundleIssue n .clean =
    if s.mustStall n c (s.codeWord n c.pc) ms then s.stallCycle n c c.stall
    else match s.entersWait n c ms with
      | some m => s.setCore n { c with wait := some (if m.val = 0 then none else some (c.cyc + m.val.toNat)), cyc := c.cyc + 1 }
      | none => s.issueOwn n .clean c (s.codeWord n c.pc) := by
  have hdeliver := hr.deliver
  obtain ⟨-, hc, hissue, -, -, -, -, -, hstall, hwait⟩ := hr
  obtain ⟨-, -, hmoves⟩ := hm
  unfold State.bundleIssue
  rw [hissue, hdeliver]
  simp only [hmoves, hwait]
  rcases hstall with h | h <;> rw [h] <;> rfl

/-- A bundle that nothing holds up takes effect. -/
theorem Ready.runs (hmust : s.mustStall n c (s.codeWord n c.pc) ms = false) (hwait : s.entersWait n c ms = none) (hlines : NoLines s ms)
    (hfar : farMoves ms ≤ 1) : exec (.bundleIssue n .clean) s = .next (s.runBundle n c (s.codeWord n c.pc) ms) := by
  have hissue := hr.bundleIssue hm
  obtain ⟨hn, -, -, hfetch, -⟩ := hr
  obtain ⟨-, -, hmoves⟩ := hm
  have hown : s.ownStall n c ms = 0 := by
    rw [hlines.ownStall]
    omega
  have hnow : s.issueNow n .clean c (s.codeWord n c.pc) = s.runBundle n c (s.codeWord n c.pc) ms := by
    have hfind : findingCause n c (s.codeWord n c.pc) ms .clean = none := rfl
    have hfixed : s.findingFixed n c (s.codeWord n c.pc) ms .clean = s := rfl
    simp only [State.issueNow, hmoves, hfetch, hfind, hfixed]
  rw [exec_bundleIssue_core hn, hissue, hmust, hwait, if_neg Bool.false_ne_true]
  simp only [State.issueOwn, hmoves, hown, hlines.dueLines, List.length_nil, Nat.add_zero]
  rw [← hnow]

/-- A bundle without far triggers is held up by nothing but CTL.T.WAIT. -/
theorem Ready.runs_near (hnear : Near ms) (hwait : s.entersWait n c ms = none) :
    exec (.bundleIssue n .clean) s = .next (s.runBundle n c (s.codeWord n c.pc) ms) := by
  have h := hr
  obtain ⟨-, -, -, -, -, -, hlsu, hlate, -⟩ := h
  have hf := hm.2.1
  refine hr.runs hm ?_ hwait (hnear.noLines s) ?_
  · rw [mustStall_far hlate hlsu hf, farWants, farPosts, hnear.filter]
    rfl
  · rw [farMoves, hnear.filter]
    exact Nat.zero_le 1

/-! ## The effect of the moves -/

/-- Operands first, then the triggers of the local units, then the far triggers (R57). -/
def State.localEffect (s : State) (n : Nat) (c : Core) (ms : List Move) : Effect :=
  (ms.filter (fun m => isFarTrigger m.dst)).foldl Effect.issueFar
    (ms.foldl (s.trigger n) ⟨(ms.filter (fun m => holds m.dst)).foldl (fun (k : Core) m => k.hold m.dst m.val) c, none, [], none⟩)

theorem Ready.bundleEffect (ha : Apart (isMcpCore n) ms) :
    s.bundleEffect n c (s.codeWord n c.pc) ms = ((s.localEffect n c ms).control n ms).advance n ms := by
  obtain ⟨-, -, -, -, hmul, hdiv, -, hlate, -⟩ := hr
  obtain ⟨hlit, hread, -⟩ := hm
  have hfq : (c.reads (s.codeWord n c.pc)).contains 0x122 = false := by simpa using hread
  have hc : { c with late := [] } = c := by rw [← hlate]
  simp only [State.bundleEffect, ha.effective, ha.moveFlags _ hlit, readFlags_idle hmul hdiv hread, hlate, List.foldl_nil, hc, hfq,
    Bool.false_eq_true, if_false, List.append_nil]
  rfl
end

/-- The bytes that a bundle stores in local memory. -/
def State.stored (s : State) : Option (Nat × List Byte) → State
  | some (a, bs) => s.store a bs
  | none => s

/-- The bundle neither clears sticky flags nor commits. -/
def Ordinary (ms : List Move) : Prop := ∀ m ∈ ms, m.dst ≠ 0x014 ∧ m.dst ≠ 0x1A8

theorem Ordinary.nil : Ordinary [] := fun _ h => absurd h List.not_mem_nil
theorem Ordinary.single (h : d ≠ 0x014 ∧ d ≠ 0x1A8) : Ordinary [⟨j, d, v⟩] := List.forall_mem_singleton.2 h

/-- Flags are noted, and a trap halts the core. -/
def State.flagged (s : State) (n : Nat) (fs : List FlagEv) : State :=
  match s.noteFlags n (bySlot fs) with
  | (s1, some e) => (s1.landRest n).haltsWith n (fun st => st.trapTaken n e)
  | (s1, none) => s1

theorem runBundle_ordinary {x : Effect} (he : s.bundleEffect n c ws ms = x) (ha : Apart (isMcpCore n) ms) (ho : Ordinary ms) (hl : x.lost = none) :
    s.runBundle n c ws ms = ((s.stored x.store).setCore n x.c).flagged n x.flags := by
  have hclr : ms.find? (fun m => m.dst == 0x014) = none := List.find?_eq_none.2 fun m hm => by simp [(ho m hm).1]
  have hcommit : ms.find? (fun m => m.dst == 0x1A8) = none := List.find?_eq_none.2 fun m hm => by simp [(ho m hm).2]
  obtain ⟨k, st, fs, lost⟩ := x
  simp only at hl
  subst hl
  simp only [State.runBundle, he, ha.effective, hclr, hcommit]
  cases st <;> rfl

end Sys2Proof.Machine
end

section
/-!
What the moves of a bundle do to the sockets and the local units of its core (R57, R65, R66, R71, R76, R80, R85): a bundle of one move or of an operand and a
trigger, which goes on to the next bundle.
-/
namespace Sys2Proof.Machine

variable {s : State} {n i j d a b o : Nat} {c k : Core} {v w : Word} {ms : List Move} {st : Option (Nat × List Byte)} {fs : List FlagEv}

/-! ## Sockets after a write -/

theorem at_put (c : Core) (a b : Nat) (v : Word) : (c.put a v).at b = if b = a then v else c.at b := by
  split
  · next h =>
    subst h
    exact at_put_same c b v
  · next h => exact Tab.get_set_other (d := fun _ => 0) c.sock v h

theorem at_passed (c : Core) (a : Nat) : c.passed.at a = c.at a := by
  have h : c.passed.at a = (c.put 0x011 (c.at 0x011)).at a := rfl
  rw [h, at_put]
  split
  · next h => rw [h]
  · rfl

theorem flagged_nil (s : State) (n : Nat) : s.flagged n [] = s := rfl

/-! ## A bundle that goes on to the next -/

/-- No move adjusts SIG, clears sticky flags, jumps or commits. -/
def Onward (ms : List Move) : Prop := ∀ m ∈ ms, m.dst ≠ 0x012 ∧ m.dst ≠ 0x014 ∧ m.dst ≠ 0x1A8 ∧ isJump m.dst = false

theorem Onward.nil : Onward [] := fun _ h => absurd h List.not_mem_nil
theorem Onward.single (h : d ≠ 0x012 ∧ d ≠ 0x014 ∧ d ≠ 0x1A8 ∧ isJump d = false) : Onward [⟨j, d, v⟩] := List.forall_mem_singleton.2 h

section
variable (h : Onward ms)
include h

theorem Onward.no_adjust : ms.find? (fun m => m.dst == 0x012) = none := List.find?_eq_none.2 fun m hm => by simp [(h m hm).1]
theorem Onward.no_commit : ms.any (fun m => m.dst == 0x1A8) = false := List.any_eq_false.2 fun m hm => by simp [(h m hm).2.2.1]
theorem Onward.no_jump : ms.find? (fun m => isJump m.dst) = none := List.find?_eq_none.2 fun m hm => by simp [(h m hm).2.2.2]
theorem Onward.ordinary : Ordinary ms := fun m hm => ⟨(h m hm).2.1, (h m hm).2.2.1⟩
end

/-- No move writes a socket of CTL. -/
def OffControl (ms : List Move) : Prop := ∀ m ∈ ms, 0x040 ≤ m.dst ∧ m.dst < 0x1A0

theorem OffControl.single (h : 0x040 ≤ d ∧ d < 0x1A0) : OffControl [⟨j, d, v⟩] := List.forall_mem_singleton.2 h
theorem OffControl.pair (ho : 0x040 ≤ o ∧ o < 0x1A0) (hd : 0x040 ≤ d ∧ d < 0x1A0) : OffControl [⟨i, o, w⟩, ⟨j, d, v⟩] :=
  List.forall_mem_cons.2 ⟨ho, List.forall_mem_singleton.2 hd⟩

theorem OffControl.onward (h : OffControl ms) : Onward ms := by
  intro m hm
  have hd := h m hm
  simp [isJump]
  omega

theorem OffControl.entersWait (h : OffControl ms) (s : State) (ha : Apart (isMcpCore n) ms) : s.entersWait n c ms = none := by
  have hfind : ms.find? (fun m => m.dst == 0x1A9) = none := by
    refine List.find?_eq_none.2 fun m hm => ?_
    have hd := h m hm
    rw [beq_iff_eq]
    omega
  rw [State.entersWait, waitMove, ha.effective, hfind, ite_self]

theorem Straight.fallThrough (h : Straight n c) : fallThrough n c.pc = (c.pc + 1, false) := by
  unfold Machine.fallThrough mcpCore
  obtain ⟨-, ⟨h1, h2⟩ | ⟨h1, h2, h3⟩⟩ := h
  · rw [if_pos (by omega), if_neg (by omega)]
  · rw [if_neg (by omega), if_neg (by omega)]

/-- With nothing for CTL, SIG is rewritten and the next bundle follows. -/
theorem control_advance (hms : Onward ms) (hj : k.jumps = []) (hpc : Machine.fallThrough n k.pc = (k.pc + 1, false)) :
    ((⟨k, st, fs, none⟩ : Effect).control n ms).advance n ms = ⟨k.passed, st, fs, none⟩ := by
  have hxor : sigAfter (k.at 0x011) 0 none = k.at 0x011 := by simp [sigAfter]
  have hcontrol : (⟨k, st, fs, none⟩ : Effect).control n ms = ⟨k.put 0x011 (k.at 0x011), st, fs, none⟩ := by
    simp only [Effect.control, hms.no_adjust, hms.no_jump, hxor]
  have hjumps : (k.put 0x011 (k.at 0x011)).jumps = [] := hj
  have hfall : Machine.fallThrough n (k.put 0x011 (k.at 0x011)).pc = (k.pc + 1, false) := hpc
  rw [hcontrol]
  simp only [Effect.advance, hjumps, hms.no_jump, hms.no_commit, hfall, List.map_nil, List.find?_nil,
    List.filter_nil, List.append_nil, Bool.false_eq_true, if_false]
  rw [Core.passed, ← hj]
  rfl

section
variable (hr : Ready s n c) (hs : Straight n c) (hm : Moves s n c ms)
include hr hs hm

/-- What a bundle without moves for CTL leaves, once it runs. -/
theorem Ready.passes_of_runs (ha : Apart (isMcpCore n) ms) (hon : Onward ms)
    (hrun : exec (.bundleIssue n .clean) s = .next (s.runBundle n c (s.codeWord n c.pc) ms))
    (hx : s.localEffect n c ms = ⟨k, st, fs, none⟩) (hj : k.jumps = c.jumps) (hpc : k.pc = c.pc) :
    exec (.bundleIssue n .clean) s = .next (((s.stored st).setCore n k.passed).flagged n fs) := by
  have he : s.bundleEffect n c (s.codeWord n c.pc) ms = ⟨k.passed, st, fs, none⟩ := by
    rw [hr.bundleEffect hm ha, hx, control_advance hon (hj.trans hs.1) (hpc ▸ hs.fallThrough)]
  rw [hrun, runBundle_ordinary he ha hon.ordinary rfl]

theorem Ready.passes (ha : Apart (isMcpCore n) ms) (hoff : OffControl ms) (hnear : Near ms)
    (hx : s.localEffect n c ms = ⟨k, st, fs, none⟩) (hj : k.jumps = c.jumps) (hpc : k.pc = c.pc) :
    exec (.bundleIssue n .clean) s = .next (((s.stored st).setCore n k.passed).flagged n fs) :=
  hr.passes_of_runs hs hm ha hoff.onward (hr.runs_near hm hnear (hoff.entersWait s ha)) hx hj hpc
end

/-! ## One move, or an operand and a trigger -/

/-- A trigger of a local unit. -/
def LocalTrigger (d : Nat) : Prop :=
  (0x0A0 ≤ d ∧ d ≤ 0x0BB) ∨ (0x108 ≤ d ∧ d ≤ 0x10A) ∨ (d = 0x118 ∨ d = 0x119) ∨ (0x128 ≤ d ∧ d ≤ 0x12F) ∨ (0x150 ≤ d ∧ d ≤ 0x15B)

/-- An operand of a local unit. -/
def LocalOperand (d : Nat) : Prop := d = 0x080 ∨ d = 0x120

section
variable (h : LocalTrigger d)
include h

theorem LocalTrigger.writable (mcp : Bool) : writable mcp d = true := by
  unfold LocalTrigger at h
  simp [Machine.writable, isTrigger]
  omega
theorem LocalTrigger.holds : holds d = false := by
  unfold LocalTrigger at h
  simp [Machine.holds]
  omega
theorem LocalTrigger.near : isFarTrigger d = false := by
  unfold LocalTrigger at h
  simp [isFarTrigger]
  omega
theorem LocalTrigger.offControl : 0x040 ≤ d ∧ d < 0x1A0 := by
  unfold LocalTrigger at h
  omega
end

section
variable (h : LocalOperand d)
include h

theorem LocalOperand.writable (mcp : Bool) : writable mcp d = true := by
  rcases h with rfl | rfl <;> rfl
theorem LocalOperand.holds : holds d = true := by
  rcases h with rfl | rfl <;> rfl
theorem LocalOperand.near : isFarTrigger d = false := by
  rcases h with rfl | rfl <;> rfl
theorem LocalOperand.offControl : 0x040 ≤ d ∧ d < 0x1A0 := by
  rcases h with rfl | rfl <;> decide
theorem LocalOperand.hold (c : Core) (v : Word) : c.hold d v = c.put d v := by
  rcases h with rfl | rfl <;> rfl
theorem LocalOperand.trigger (s : State) (n : Nat) (x : Effect) (i : Nat) (w : Word) : s.trigger n x ⟨i, d, w⟩ = x := by
  rcases h with rfl | rfl <;> rfl

theorem LocalOperand.clashKey : clashKey d = some d := by
  rcases h with rfl | rfl <;> rfl
theorem LocalOperand.notCall : isCall d = false := by
  rcases h with rfl | rfl <;> rfl
end

/-- A trigger of a local unit counts as the first of its unit (R68). -/
theorem LocalTrigger.clashKey (h : LocalTrigger d) : ∃ k ∈ [0x0A0, 0x108, 0x118, 0x128, 0x150], clashKey d = some k := by
  have hfar := h.near
  unfold LocalTrigger at h
  unfold Machine.clashKey
  rw [hfar]
  rcases h with h | h | h | h | h
  · exact ⟨0x0A0, by decide, by rw [if_neg (by simp; omega), if_pos h]⟩
  · exact ⟨0x108, by decide, by rw [if_neg (by simp; omega), if_neg (by omega), if_neg (by omega), if_pos h]⟩
  · exact ⟨0x118, by decide, by rw [if_neg (by simp; omega), if_neg (by omega), if_neg (by omega), if_neg (by omega), if_pos h]⟩
  · exact ⟨0x128, by decide, by
      rw [if_neg (by simp; omega), if_neg (by omega), if_neg (by omega), if_neg (by omega), if_neg (by omega), if_pos h]⟩
  · exact ⟨0x150, by decide, by
      rw [if_neg (by simp; omega), if_neg (by omega), if_neg (by omega), if_neg (by omega), if_neg (by omega), if_neg (by omega), if_pos h]⟩

/-- Two destinations of different keys, neither of them a call, do not clash. -/
theorem clashes_of_keys {x y : Nat} (h : clashKey x ≠ clashKey y ∨ clashKey x = none) (hx : isCall x = false) (hy : isCall y = false) :
    clashes x y = false := by
  rcases h with h | h <;> simp [clashes, h, hx, hy]

theorem LocalTrigger.notCall (h : LocalTrigger d) : isCall d = false := by
  have := h.offControl
  simp [isCall]
  omega

/-- An operand and a trigger of a local unit do not clash. -/
theorem LocalOperand.apart (ho : LocalOperand o) (hd : LocalTrigger d) : clashes o d = false ∧ clashes d o = false := by
  have hne : Machine.clashKey o ≠ Machine.clashKey d := by
    obtain ⟨k, hk, hd⟩ := hd.clashKey
    rw [ho.clashKey, hd]
    rcases ho with rfl | rfl <;> fin_cases hk <;> decide
  exact ⟨clashes_of_keys (.inl hne) ho.notCall hd.notCall, clashes_of_keys (.inl hne.symm) hd.notCall ho.notCall⟩

theorem localEffect_trigger (hd : LocalTrigger d) : s.localEffect n c [⟨j, d, v⟩] = s.trigger n ⟨c, none, [], none⟩ ⟨j, d, v⟩ := by
  simp [State.localEffect, hd.holds, hd.near]

theorem localEffect_operand_trigger (ho : LocalOperand o) (hd : LocalTrigger d)
    (h : ms = [⟨i, o, w⟩, ⟨j, d, v⟩] ∨ ms = [⟨j, d, v⟩, ⟨i, o, w⟩]) :
    s.localEffect n c ms = s.trigger n ⟨c.put o w, none, [], none⟩ ⟨j, d, v⟩ := by
  rcases h with rfl | rfl <;>
  simp [State.localEffect, ho.holds, ho.near, hd.holds, hd.near, ho.hold, ho.trigger]

/-- The bundle has one move, to a trigger of a local unit, or with it a move to an operand. -/
structure Triggers (n : Nat) (ms : List Move) : Prop where
  apart : Apart (isMcpCore n) ms
  off : OffControl ms
  near : Near ms

theorem Triggers.single (hd : LocalTrigger d) : Triggers n [⟨j, d, v⟩] where
  apart := Apart.single (hd.writable _)
  off := .single hd.offControl
  near := List.forall_mem_singleton.2 hd.near

theorem Triggers.pair (ho : LocalOperand o) (hd : LocalTrigger d) (h : ms = [⟨i, o, w⟩, ⟨j, d, v⟩] ∨ ms = [⟨j, d, v⟩, ⟨i, o, w⟩]) :
    Triggers n ms := by
  have hmem (m : Move) (hm : m ∈ ms) : m = ⟨i, o, w⟩ ∨ m = ⟨j, d, v⟩ := by
    rcases h with rfl | rfl
    · exact List.mem_pair.1 hm
    · exact (List.mem_pair.1 hm).symm
  refine ⟨?_, fun m hm => ?_, fun m hm => ?_⟩
  · rcases h with rfl | rfl
    · exact Apart.pair (ho.writable _) (hd.writable _) (ho.apart hd).1 (ho.apart hd).2
    · exact Apart.pair (hd.writable _) (ho.writable _) (ho.apart hd).2 (ho.apart hd).1
  · rcases hmem m hm with rfl | rfl
    · exact ho.offControl
    · exact hd.offControl
  · rcases hmem m hm with rfl | rfl
    · exact ho.near
    · exact hd.near

section
variable (hr : Ready s n c) (hs : Straight n c)
include hr hs

/-- A trigger of a local unit alone. -/
theorem Ready.triggers (hm : Moves s n c [⟨j, d, v⟩]) (hd : LocalTrigger d)
    (hx : s.trigger n ⟨c, none, [], none⟩ ⟨j, d, v⟩ = ⟨k, st, fs, none⟩) (hj : k.jumps = c.jumps) (hpc : k.pc = c.pc) :
    exec (.bundleIssue n .clean) s = .next (((s.stored st).setCore n k.passed).flagged n fs) := by
  have ht : Triggers n [⟨j, d, v⟩] := .single hd
  exact hr.passes hs hm ht.apart ht.off ht.near ((localEffect_trigger hd).trans hx) hj hpc

theorem Ready.triggers_quietly (hm : Moves s n c [⟨j, d, v⟩]) (hd : LocalTrigger d)
    (hx : s.trigger n ⟨c, none, [], none⟩ ⟨j, d, v⟩ = ⟨k, none, [], none⟩) (hj : k.jumps = c.jumps) (hpc : k.pc = c.pc) :
    exec (.bundleIssue n .clean) s = .next (s.setCore n k.passed) :=
  hr.triggers hs hm hd hx hj hpc

/-- An operand is there before the trigger uses it, in whichever slot each of them stands (R57). -/
theorem Ready.operand_triggers {i' j' : Nat} (hm : Moves s n c [⟨i, o, w⟩, ⟨j, d, v⟩] ∨ Moves s n c [⟨i', d, v⟩, ⟨j', o, w⟩])
    (ho : LocalOperand o) (hd : LocalTrigger d) (hx : ∀ j, s.trigger n ⟨c.put o w, none, [], none⟩ ⟨j, d, v⟩ = ⟨k, st, fs, none⟩)
    (hj : k.jumps = c.jumps) (hpc : k.pc = c.pc) :
    exec (.bundleIssue n .clean) s = .next (((s.stored st).setCore n k.passed).flagged n fs) := by
  obtain ⟨i, j, ms, hms, hm⟩ : ∃ i j ms, (ms = [⟨i, o, w⟩, ⟨j, d, v⟩] ∨ ms = [⟨j, d, v⟩, ⟨i, o, w⟩]) ∧ Moves s n c ms := by
    rcases hm with hm | hm
    · exact ⟨i, j, _, .inl rfl, hm⟩
    · exact ⟨j', i', _, .inr rfl, hm⟩
  have ht : Triggers n ms := .pair ho hd hms
  exact hr.passes hs hm ht.apart ht.off ht.near ((localEffect_operand_trigger ho hd hms).trans (hx j)) hj hpc
end

/-- A write of a general register is readable one bundle later (R65). -/
theorem Ready.writes_register (hr : Ready s n c) (hs : Straight n c) (hm : Moves s n c [⟨j, d, v⟩]) (h1 : 0x040 ≤ d) (h2 : d ≤ 0x07F) :
    exec (.bundleIssue n .clean) s = .next (s.setCore n { c.passed with late := [(d, v)] }) := by
  obtain ⟨-, -, -, hlate⟩ := hr.idle
  have hholds : holds d = true := by
    simp [holds]
    omega
  have hfar : isFarTrigger d = false := by
    simp [isFarTrigger]
    omega
  have htrig (x : Effect) : s.trigger n x ⟨j, d, v⟩ = x := by
    unfold State.trigger
    rw [if_neg (by dsimp only; omega), if_neg (by dsimp only; omega), if_neg (by dsimp only; omega), if_neg (by dsimp only; omega),
      if_neg (by dsimp only; omega), if_neg (by dsimp only; omega), if_neg (by dsimp only; omega)]
  have hx : s.localEffect n c [⟨j, d, v⟩] = ⟨{ c with late := [(d, v)] }, none, [], none⟩ := by
    simp [State.localEffect, hholds, hfar, htrig, Core.hold, h1, h2, hlate]
  exact hr.passes hs hm (.single (by simp [writable, hholds])) (.single ⟨h1, by omega⟩) (List.forall_mem_singleton.2 hfar) hx rfl rfl

/-! ## The integer units (R71, R72) -/

theorem trigger_alu (h : 0x0A0 ≤ d ∧ d ≤ 0x0BB) : s.trigger n ⟨c, st, fs, none⟩ ⟨j, d, v⟩ = ⟨c.alu 0x080 (d - 0x080) v, st, fs, none⟩ := by
  rw [State.trigger, if_pos h]

theorem alu_frame (c : Core) (b k : Nat) (t : Word) : ∃ x, c.alu b k t = { c with sock := x } := by
  unfold Core.alu
  dsimp only
  split <;> exact ⟨_, rfl⟩

/-- The results of an operation whose operand socket stands at `b`: the result, V, and C where the operation sets it. -/
structure AluDone (c k : Core) (b : Nat) (r : AluRes) : Prop where
  operand : k.at b = c.at b
  result : k.at (b + 1) = r.q
  overflow : k.at (b + 2) = word (bit01 r.v)
  carry : ∀ x, r.c = some x → k.at (b + 3) = word (bit01 x)
  kept : r.c = none → k.at (b + 3) = c.at (b + 3)
  other : ∀ a, a < b ∨ b + 3 < a → k.at a = c.at a

theorem alu_done (c : Core) (b k : Nat) (t : Word) : AluDone c (c.alu b k t) b (aluOp k t (c.at b) (c.at (b + 3) != 0)) := by
  unfold Core.alu
  generalize aluOp k t (c.at b) (c.at (b + 3) != 0) = r
  obtain ⟨q, v, _ | x⟩ := r
  · refine ⟨by simp [at_put], by simp [at_put], by simp [at_put], by simp, by simp [at_put], fun a ha => ?_⟩
    dsimp only
    rw [at_put, if_neg (by omega), at_put, if_neg (by omega)]
  · refine ⟨by simp [at_put], by simp [at_put], by simp [at_put], by simp [at_put], by simp, fun a ha => ?_⟩
    dsimp only
    rw [at_put, if_neg (by omega), at_put, if_neg (by omega), at_put, if_neg (by omega)]

theorem Ready.calculates {i' j' : Nat} {r : AluRes} (hr : Ready s n c) (hs : Straight n c)
    (hm : Moves s n c [⟨i, 0x080, w⟩, ⟨j, d, v⟩] ∨ Moves s n c [⟨i', d, v⟩, ⟨j', 0x080, w⟩]) (hd : 0x0A0 ≤ d ∧ d ≤ 0x0BB)
    (hres : r = aluOp (d - 0x080) v w (c.at 0x083 != 0)) : ∃ k, exec (.bundleIssue n .clean) s = .next (s.setCore n k.passed) ∧
      AluDone (c.put 0x080 w) k 0x080 r ∧ ∃ x, k = { c with sock := x } := by
  obtain ⟨x, hx⟩ := alu_frame (c.put 0x080 w) 0x080 (d - 0x080) v
  have hdone := alu_done (c.put 0x080 w) 0x080 (d - 0x080) v
  rw [at_put_same, at_put, if_neg (by decide), ← hres] at hdone
  exact ⟨_, hr.operand_triggers hs hm (.inl rfl) (.inl hd) (fun _ => trigger_alu hd) (by rw [hx]; rfl) (by rw [hx]; rfl), hdone, x, hx⟩

/-! ## The BIT unit (R85, R86) -/

theorem trigger_bit (h : 0x150 ≤ d ∧ d ≤ 0x15B) : s.trigger n ⟨c, st, fs, none⟩ ⟨j, d, v⟩ = ⟨c.bitOp d v, st, fs, none⟩ := by
  unfold State.trigger
  rw [if_neg (by dsimp only; omega), if_neg (by dsimp only; omega), if_neg (by dsimp only; omega), if_neg (by dsimp only; omega),
    if_neg (by dsimp only; omega), if_pos h]

/-- All but CLMUL write BIT.R alone. -/
theorem bitOp_one (c : Core) (v : Word) (h1 : 0x150 ≤ d) (h2 : d < 0x158) : ∃ w, c.bitOp d v = c.put 0x141 w := by
  interval_cases d <;> exact ⟨_, rfl⟩

theorem bitOp_clmul (c : Core) (v : Word) :
    c.bitOp 0x158 v = (c.put 0x141 (word (clmulOp v (c.at 0x140)))).put 0x142 (word (clmulOp v (c.at 0x140) / 2 ^ 32)) := rfl

theorem bitOp_other (h1 : 0x150 ≤ d) (h2 : d ≤ 0x158) (h3 : a ≠ 0x141) (h4 : a ≠ 0x142) : (c.bitOp d v).at a = c.at a := by
  rcases Nat.lt_or_eq_of_le h2 with h2 | rfl
  · obtain ⟨w, hw⟩ := bitOp_one c v h1 h2
    rw [hw, at_put, if_neg h3]
  · rw [bitOp_clmul, at_put, if_neg h4, at_put, if_neg h3]

theorem bitOp_frame (c : Core) (v : Word) (h1 : 0x150 ≤ d) (h2 : d ≤ 0x158) : (c.bitOp d v).jumps = c.jumps ∧ (c.bitOp d v).pc = c.pc := by
  rcases Nat.lt_or_eq_of_le h2 with h2 | rfl
  · obtain ⟨w, hw⟩ := bitOp_one c v h1 h2
    rw [hw]
    exact ⟨rfl, rfl⟩
  · exact ⟨rfl, rfl⟩

/-! ## Products and quotients (R75, R76) -/

theorem trigger_mul (h : 0x108 ≤ d ∧ d ≤ 0x10A) : s.trigger n ⟨c, st, fs, none⟩ ⟨j, d, v⟩ =
    ⟨{ c with mul := c.mul ++ [(c.iss + 3, mulOp d v (c.at 0x100))] }, st, fs, none⟩ := by
  unfold State.trigger
  rw [if_neg (by dsimp only; omega), if_neg (by dsimp only; omega), if_pos h]

/-- The events of a division on an idle unit: a divisor of 0 (R76). -/
def divEvents (c : Core) (j : Nat) : List FlagEv := if c.at 0x110 = 0 then [⟨flagDz, j, c.pc⟩] else []

/-- The core with a division under way (R76). -/
def Core.dividing (c : Core) (d : Nat) (v : Word) : Core :=
  { c with div := some (c.iss + 18, (divOp d v (c.at 0x110)).q, (divOp d v (c.at 0x110)).m, (divOp d v (c.at 0x110)).v) }

theorem trigger_div (h : d = 0x118 ∨ d = 0x119) (hdiv : c.div = none) :
    s.trigger n ⟨c, none, [], none⟩ ⟨j, d, v⟩ = ⟨c.dividing d v, none, divEvents c j, none⟩ := by
  unfold State.trigger
  rw [if_neg (by dsimp only; omega), if_neg (by dsimp only; omega), if_neg (by dsimp only; omega), if_pos h]
  simp [Effect.divide, hdiv, divEvents, Core.dividing]

theorem Ready.divides (hr : Ready s n c) (hs : Straight n c) (hm : Moves s n c [⟨j, d, v⟩]) (hd : d = 0x118 ∨ d = 0x119) :
    exec (.bundleIssue n .clean) s = .next ((s.setCore n (c.dividing d v).passed).flagged n (divEvents c j)) := by
  obtain ⟨-, hdiv, -⟩ := hr.idle
  have h := hr.triggers hs hm (.inr (.inr (.inl hd))) (trigger_div hd hdiv) rfl rfl
  exact h

/-! ## Local memory (R80) -/

theorem trigger_localOp (h : 0x128 ≤ d ∧ d ≤ 0x12F) (x : Effect) : s.trigger n x ⟨j, d, v⟩ = s.localOp n x ⟨j, d, v⟩ := by
  unfold State.trigger
  rw [if_neg (by dsimp only; omega), if_neg (by dsimp only; omega), if_neg (by dsimp only; omega), if_neg (by dsimp only; omega), if_pos h]

theorem localOp_store (ha : v.toNat % 4 = 0) (hlt : v.toNat < ldmSize n) (hok : s.localRefused n 0x12D (localBase n + v.toNat) 4 = false) :
    s.localOp n ⟨c, none, [], none⟩ ⟨j, 0x12D, v⟩ = ⟨c, some (localBase n + v.toNat, leBytes 4 (c.at 0x120).toNat), [], none⟩ := by
  have hal : v.toNat / 4 * 4 = v.toNat := by omega
  simp [State.localOp, localSize, hal, hlt, hok]

theorem localOp_load (ha : v.toNat % 4 = 0) (hlt : v.toNat < ldmSize n) (hok : s.localRefused n 0x128 (localBase n + v.toNat) 4 = false) :
    s.localOp n ⟨c, none, [], none⟩ ⟨j, 0x128, v⟩ =
      ⟨{ c with lsu := c.lsu ++ [(c.iss + 2, s.loadWord (localBase n + v.toNat))] }, none, [], none⟩ := by
  have hal : v.toNat / 4 * 4 = v.toNat := by omega
  simp [State.localOp, localSize, hal, hlt, hok, loadValue, State.loadWord]

/-- A word stored in local memory. -/
theorem Ready.stores_local (hr : Ready s n c) (hs : Straight n c) (hm : Moves s n c [⟨i, 0x120, w⟩, ⟨j, 0x12D, v⟩]) (ha : v.toNat % 4 = 0)
    (hlt : v.toNat < ldmSize n) (hok : s.localRefused n 0x12D (localBase n + v.toNat) 4 = false) : exec (.bundleIssue n .clean) s =
      .next ((s.store (localBase n + v.toNat) (leBytes 4 w.toNat)).setCore n (c.put 0x120 w).passed) := by
  have hx (j : Nat) : s.trigger n ⟨c.put 0x120 w, none, [], none⟩ ⟨j, 0x12D, v⟩ =
      ⟨c.put 0x120 w, some (localBase n + v.toNat, leBytes 4 w.toNat), [], none⟩ := by
    rw [trigger_localOp (by decide), localOp_store ha hlt hok, at_put_same]
  have hms : Moves s n c [⟨i, 0x120, w⟩, ⟨j, 0x12D, v⟩] ∨ Moves s n c [⟨j, 0x12D, v⟩, ⟨i, 0x120, w⟩] := .inl hm
  exact hr.operand_triggers hs hms (.inr rfl) (.inr (.inr (.inr (.inl (by decide))))) hx rfl rfl

theorem store_mem_only (s : State) (a : Nat) (bs : List Byte) : s.store a bs = { s with mem := (s.store a bs).mem } := by
  induction bs generalizing s a with
  | nil => rfl
  | cons b bs ih => exact ih _ _

theorem store_setCore_eq (s : State) (a : Nat) (bs : List Byte) (n : Nat) (k : Core) :
    (s.store a bs).setCore n k = { s with mem := ((s.store a bs).setCore n k).mem, cores := ((s.store a bs).setCore n k).cores } := by
  obtain ⟨m, hm⟩ : ∃ m, s.store a bs = { s with mem := m } := ⟨_, store_mem_only s a bs⟩
  rw [hm]
  rfl

theorem bytes_setCore (s : State) (n : Nat) (k : Core) (a x : Nat) : (s.setCore n k).bytes a x = s.bytes a x := by
  induction x generalizing a with
  | zero => rfl
  | succ x ih => rw [State.bytes, ih, State.bytes]; rfl

theorem bytes_store (s : State) (a v : Nat) : (s.store a (leBytes 4 v)).bytes a 4 = leBytes 4 v :=
  bytes_eq_of_stored fun _ hi => s.byte_store_at (leBytes 4 v) hi

end Sys2Proof.Machine
end

section
/-!
How far triggers put transactions under way (R82, R83), and the cycles that a core passes without issuing (R25, R43, R67, R98).
-/
namespace Sys2Proof.Machine

variable {s : State} {n i j d a b : Nat} {c k : Core} {u v w : Word} {ms : List Move} {st : Option (Nat × List Byte)} {fs : List FlagEv}

/-! ## Far transactions -/

theorem findFrom_none {p : Nat → Bool} (h : ∀ i, p i = false) (n i : Nat) : findFrom p n i = none := by
  induction n generalizing i with
  | zero => rfl
  | succ n ih => simp [findFrom, h, ih]

/-- The tick-state areas stand in the scratchpad (R108). -/
theorem tsAreaOf_above (s : State) (h : 0x800000 ≤ a) : s.tsAreaOf a = none := by
  refine findFrom_none (fun l => ?_) 32 0
  have hbase : s.fld (bindAddr l + 8) 0 8 < 2 ^ 8 := Nat.mod_lt _ (by decide)
  have hlines : s.fld (bindAddr l + 8) 8 9 < 2 ^ 9 := Nat.mod_lt _ (by decide)
  have hbelow : ¬ a < s.tsBase l + 64 * s.tsLines l := by
    unfold State.tsBase State.tsLines
    omega
  simp [hbelow]

/-- A far load: the operation that goes under way. -/
theorem localEffect_load (ha : u.toNat % 4 = 0) (hf : c.far = []) : s.localEffect n c [⟨j, 0x130, u⟩] =
    ⟨{ c with far := [⟨0x130, u, c.at 0x120, c.seq, c.pc, j, none, c.popsIssued u.toNat⟩], seq := c.seq + 1 }, none, [], none⟩ := by
  have hal : u.toNat / 4 * 4 = u.toNat := by omega
  have hh : holds 0x130 = false := rfl
  have hfar : isFarTrigger 0x130 = true := rfl
  have htrig (x : Effect) : s.trigger n x ⟨j, 0x130, u⟩ = x := rfl
  have hent : farEntries 0x130 = 1 := rfl
  simp [State.localEffect, hh, hfar, htrig, Effect.issueFar, hent, farMisaligned, farOperand, ha, hal, hf]

/-- A far store with its operand: the write that enters the posted-store buffer. -/
theorem localEffect_store (ha : u.toNat % 4 = 0) : s.localEffect n c [⟨i, 0x120, v⟩, ⟨j, 0x131, u⟩] =
    ⟨{ c.put 0x120 v with posted := c.posted ++ [⟨0x131, u, v, c.seq, c.pc, j, none, 0⟩], seq := c.seq + 1 }, none, [], none⟩ := by
  have hh1 : holds 0x120 = true := rfl
  have hh2 : holds 0x131 = false := rfl
  have hf1 : isFarTrigger 0x120 = false := rfl
  have hf2 : isFarTrigger 0x131 = true := rfl
  have hhold : c.hold 0x120 v = c.put 0x120 v := rfl
  have ht1 (x : Effect) : s.trigger n x ⟨i, 0x120, v⟩ = x := rfl
  have ht2 (x : Effect) : s.trigger n x ⟨j, 0x131, u⟩ = x := rfl
  have hent : farEntries 0x131 = 0 := rfl
  simp [State.localEffect, hh1, hh2, hf1, hf2, ht1, ht2, hhold, Effect.issueFar, hent, farMisaligned, farOperand, ha, at_put_same]
  exact ⟨⟨rfl, rfl, rfl⟩, rfl⟩

theorem apart_load (mcp : Bool) : Apart mcp [⟨j, 0x130, u⟩] := .single rfl
theorem apart_store (mcp : Bool) : Apart mcp [⟨i, 0x120, v⟩, ⟨j, 0x131, u⟩] := .pair rfl rfl rfl rfl

/-- A far load issues at once where none is under way. -/
theorem Ready.loads (hr : Ready s n c) (hs : Straight n c) (hm : Moves s n c [⟨j, 0x130, u⟩]) (ha : u.toNat % 4 = 0) (hf : c.far = []) :
    exec (.bundleIssue n .clean) s = .next (s.setCore n { c.passed with
      far := [⟨0x130, u, c.at 0x120, c.seq, c.pc, j, none, c.popsIssued u.toNat⟩], seq := c.seq + 1 }) := by
  have hoff : OffControl [⟨j, 0x130, u⟩] := .single (by decide)
  have hlines : NoLines s [⟨j, 0x130, u⟩] := .single (.inl (by decide))
  have hmust : s.mustStall n c (s.codeWord n c.pc) [⟨j, 0x130, u⟩] = false := by
    obtain ⟨-, -, -, -, -, -, hlsu, hlate, -⟩ := hr
    have hwants : farWants [⟨j, 0x130, u⟩] = 1 := rfl
    have hposts : farPosts [⟨j, 0x130, u⟩] = 0 := rfl
    rw [mustStall_far hlate hlsu hm.2.1, hwants, hposts, hf]
    rfl
  have hrun := hr.runs hm hmust (hoff.entersWait s (apart_load _)) hlines (Nat.le_refl 1)
  exact hr.passes_of_runs hs hm (apart_load _) hoff.onward hrun (localEffect_load ha hf) rfl rfl

/-- A far store issues at once where the buffer has room. -/
theorem Ready.posts (hr : Ready s n c) (hs : Straight n c) (hm : Moves s n c [⟨i, 0x120, v⟩, ⟨j, 0x131, u⟩]) (ha : u.toNat % 4 = 0)
    (hu : 0x800000 ≤ u.toNat) (hp : c.posted.length < 16) : exec (.bundleIssue n .clean) s = .next (s.setCore n
      ({ c.put 0x120 v with posted := c.posted ++ [⟨0x131, u, v, c.seq, c.pc, j, none, 0⟩], seq := c.seq + 1 } : Core).passed) := by
  have hoff : OffControl [⟨i, 0x120, v⟩, ⟨j, 0x131, u⟩] := .pair (by decide) (by decide)
  have hlines : NoLines s [⟨i, 0x120, v⟩, ⟨j, 0x131, u⟩] := .cons (show 0x120 < 0x131 by decide) (.single (.inr (tsAreaOf_above s hu)))
  have hmust : s.mustStall n c (s.codeWord n c.pc) [⟨i, 0x120, v⟩, ⟨j, 0x131, u⟩] = false := by
    obtain ⟨-, -, -, -, -, -, hlsu, hlate, -⟩ := hr
    have hwants : farWants [⟨i, 0x120, v⟩, ⟨j, 0x131, u⟩] = 0 := rfl
    have hposts : farPosts [⟨i, 0x120, v⟩, ⟨j, 0x131, u⟩] = 1 := rfl
    rw [mustStall_far hlate hlsu hm.2.1, hwants, hposts]
    simp
    omega
  have hrun := hr.runs hm hmust (hoff.entersWait s (apart_store _)) hlines (Nat.le_refl 1)
  exact hr.passes_of_runs hs hm (apart_store _) hoff.onward hrun (localEffect_store ha) rfl rfl

/-! ## Cycles in which no bundle issues -/

/-- In a stall cycle nothing changes but the counts, where nothing is on its way to a register (R67). -/
theorem stallCycle_idle (hlate : c.late = []) (hlsu : c.lsu = []) (x : Option Nat) :
    s.stallCycle n c x = s.setCore n { c with cyc := c.cyc + 1, stall := x } := by
  obtain ⟨⟩ := c
  simp only at hlate hlsu
  subst hlate hlsu
  unfold State.stallCycle
  split <;> rfl

/-- A second far transaction of the bundle costs a stall cycle (R83). -/
theorem Ready.second_load_stalls (hr : Ready s n c) (hm : Moves s n c [⟨i, 0x130, u⟩, ⟨j, 0x130, v⟩]) (hf : c.far = []) (hp : c.paid = (0, [])) :
    exec (.bundleIssue n .clean) s = .next (s.setCore n { c with cyc := c.cyc + 1, stall := some 0, paid := (2, []) }) := by
  have hissue := hr.bundleIssue hm
  have hread := hm.2.1
  obtain ⟨-, -, hmoves⟩ := hm
  obtain ⟨hn, -, -, -, -, -, hlsu, hlate, -⟩ := hr
  have hoff : OffControl [⟨i, 0x130, u⟩, ⟨j, 0x130, v⟩] := .pair (by decide) (by decide)
  have hlines : NoLines s [⟨i, 0x130, u⟩, ⟨j, 0x130, v⟩] := .cons (Nat.le_refl _) (.single (.inl (by decide)))
  have hapart : Apart (isMcpCore n) [⟨i, 0x130, u⟩, ⟨j, 0x130, v⟩] := .pair rfl rfl rfl rfl
  have hmust : s.mustStall n c (s.codeWord n c.pc) [⟨i, 0x130, u⟩, ⟨j, 0x130, v⟩] = false := by
    have hwants : farWants [⟨i, 0x130, u⟩, ⟨j, 0x130, v⟩] = 2 := rfl
    have hposts : farPosts [⟨i, 0x130, u⟩, ⟨j, 0x130, v⟩] = 0 := rfl
    rw [mustStall_far hlate hlsu hread, hwants, hposts, hf]
    rfl
  have hfar : farMoves [⟨i, 0x130, u⟩, ⟨j, 0x130, v⟩] = 2 := rfl
  have hown : s.ownStall n c [⟨i, 0x130, u⟩, ⟨j, 0x130, v⟩] = 1 := by
    rw [hlines.ownStall, hfar, hp]
    rfl
  rw [exec_bundleIssue_core hn, hissue, hmust, if_neg Bool.false_ne_true, hoff.entersWait s hapart]
  simp only [State.issueOwn, hmoves, hown, hlines.dueLines, hfar, hp, List.length_nil, Nat.add_zero, List.append_nil]
  exact congrArg Host.Outcome.next (stallCycle_idle (c := { c with paid := (2, []) }) hlate hlsu (some 0))

/-- With the posted-store buffer full a store waits (R83). -/
theorem Ready.full_buffer_stalls (hr : Ready s n c) (hm : Moves s n c [⟨i, 0x120, v⟩, ⟨j, 0x131, u⟩]) (hp : c.posted.length = 16) :
    exec (.bundleIssue n .clean) s = .next (s.setCore n { c with cyc := c.cyc + 1 }) := by
  have hissue := hr.bundleIssue hm
  obtain ⟨hn, -, -, -, -, -, hlsu, hlate, -⟩ := hr
  have hmust : s.mustStall n c (s.codeWord n c.pc) [⟨i, 0x120, v⟩, ⟨j, 0x131, u⟩] = true := by
    have hwants : farWants [⟨i, 0x120, v⟩, ⟨j, 0x131, u⟩] = 0 := rfl
    have hposts : farPosts [⟨i, 0x120, v⟩, ⟨j, 0x131, u⟩] = 1 := rfl
    rw [mustStall_far hlate hlsu hm.2.1, hwants, hposts, hp]
    rfl
  rw [exec_bundleIssue_core hn, hissue, hmust, if_pos rfl, stallCycle_idle hlate hlsu]

/-! ## Cores that may not issue, stall or wait -/

theorem bundleIssue_barred (h : s.mayIssue n = false) (f : CoreFinding) : s.bundleIssue n f = s := by
  rw [State.bundleIssue, h]
  rfl

section
variable (hc : c = s.core n) (hissue : s.mayIssue n = true) (hmul : c.mul = []) (hdiv : c.div = none) (hlsu : c.lsu = []) (hlate : c.late = [])
include hc hissue hmul hdiv hlsu hlate

theorem bundleIssue_stalled {x : Nat} (hwait : c.wait = none) (hstall : c.stall = some (x + 1)) (f : CoreFinding) :
    s.bundleIssue n f = s.setCore n { c with cyc := c.cyc + 1, stall := some x } := by
  unfold State.bundleIssue
  rw [hissue, ← hc, deliver_idle hmul hdiv hlsu]
  simp [hwait, hstall, stallCycle_idle hlate hlsu (s := s) (n := n) (some x)]

theorem bundleIssue_waiting {x : Option Nat} (hwait : c.wait = some x) (f : CoreFinding) :
    s.bundleIssue n f = s.setCore n { c with cyc := c.cyc + 1, stall := none } := by
  unfold State.bundleIssue
  rw [hissue, ← hc, deliver_idle hmul hdiv hlsu]
  simp [hwait, stallCycle_idle hlate hlsu (s := s) (n := n) none]
end

/-! ## CTL.T.WAIT (R98) -/

theorem exec_ctlWaitEnd_core (hn : n ≤ 36) (s : State) : exec (.ctlWaitEnd n) s = .next (s.waitEnd n) := by
  rw [exec_ctlWaitEnd, isCore_present (by omega), event_true]

theorem waitEnd_none (h : (s.core n).wait = none) : s.waitEnd n = s := by
  rw [State.waitEnd, h]

/-- The timeout has passed. -/
def timeoutPassed (t : Option Nat) (cyc : Nat) : Bool :=
  match t with
  | some k => decide (k ≤ cyc)
  | none => false

theorem waitEnd_some {t : Option Nat} (h : (s.core n).wait = some t) : s.waitEnd n =
    if s.mayIssue n && (s.belled n || timeoutPassed t (s.core n).cyc) then s.setCore n { s.core n with wait := none, stall := some 0 } else s := by
  rw [State.waitEnd, h]
  rfl

theorem apart_wait (mcp : Bool) : Apart mcp [⟨j, 0x1A9, v⟩] := .single (by cases mcp <;> rfl)

theorem waitMove_wait : waitMove n [⟨j, 0x1A9, v⟩] = some ⟨j, 0x1A9, v⟩ := by
  rw [waitMove, (apart_wait _).effective]
  rfl

theorem near_wait : Near [⟨j, 0x1A9, v⟩] := List.forall_mem_singleton.2 rfl

section
variable (hr : Ready s n c) (hm : Moves s n c [⟨j, 0x1A9, v⟩])
include hr hm

/-- The core enters the wait. -/
theorem Ready.enters_wait (hstall : c.stall = none) (hbell : s.belled n = false) : exec (.bundleIssue n .clean) s = .next (s.setCore n { c with
    wait := some (if v = 0 then none else some (c.cyc + v.toNat)), cyc := c.cyc + 1 }) := by
  have hissue := hr.bundleIssue hm
  have hread := hm.2.1
  obtain ⟨hn, -, -, -, -, -, hlsu, hlate, -⟩ := hr
  have hmust : s.mustStall n c (s.codeWord n c.pc) [⟨j, 0x1A9, v⟩] = false := by
    rw [mustStall_far hlate hlsu hread]
    rfl
  have henters : s.entersWait n c [⟨j, 0x1A9, v⟩] = some ⟨j, 0x1A9, v⟩ := by
    rw [State.entersWait, hstall, hbell, waitMove_wait]
    rfl
  rw [exec_bundleIssue_core hn, hissue, hmust, if_neg Bool.false_ne_true, henters]

/-- A bell that rings, or a wait that has ended, lets the bundle issue. -/
theorem Ready.passes_wait (hs : Straight n c) (hpass : s.belled n = true ∨ c.stall = some 0) :
    exec (.bundleIssue n .clean) s = .next (s.setCore n c.passed) := by
  have henters : s.entersWait n c [⟨j, 0x1A9, v⟩] = none := by
    rw [State.entersWait, if_pos]
    rcases hpass with h | h <;> simp [h]
  have hlocal : s.localEffect n c [⟨j, 0x1A9, v⟩] = ⟨c, none, [], none⟩ := rfl
  exact hr.passes_of_runs hs hm (apart_wait _) (.single (by decide)) (hr.runs_near hm near_wait henters) hlocal rfl rfl
end

end Sys2Proof.Machine
end

section
/-!
Jumps with their two delay bundles (R94 to R97), and the sticky events of a bundle with and without a trap (R101).
-/
namespace Sys2Proof.Machine

variable {s : State} {n j d a : Nat} {c : Core} {v : Word} {ms : List Move} {e : FlagEv}

/-! ## Jumps (R94 to R97) -/

/-- SIG and LINK after a jump or call to `t` (R94, R97). -/
def Core.linked (c : Core) (d t : Nat) : Core :=
  if isCall d then (c.put 0x011 ((c.at 0x011).rotateLeft 1 ^^^ word t)).put 0x010 (word (c.pc + 3))
  else c.put 0x011 ((c.at 0x011).rotateLeft 1 ^^^ word t)

/-- The core one bundle later, which has taken a jump or call to `t` in that bundle. -/
def Core.jumped (c : Core) (d t : Nat) : Core :=
  { c.linked d t with pc := c.pc + 1, jumps := [(2, t)], cyc := c.cyc + 1, iss := c.iss + 1, stall := none, paid := (0, []) }

theorem at_jumped (c : Core) (d t a : Nat) : (c.jumped d t).at a = (c.linked d t).at a := rfl

theorem at_linked_sig (c : Core) (d t : Nat) : (c.linked d t).at 0x011 = (c.at 0x011).rotateLeft 1 ^^^ word t := by
  unfold Core.linked
  split
  · rw [at_put, if_neg (by decide), at_put_same]
  · rw [at_put_same]

theorem at_linked_link (c : Core) (t : Nat) (h : isCall d = true) : (c.linked d t).at 0x010 = word (c.pc + 3) := by
  rw [Core.linked, if_pos h, at_put_same]

theorem at_linked_other (c : Core) (d t : Nat) (h0 : a ≠ 0x010) (h1 : a ≠ 0x011) : (c.linked d t).at a = c.at a := by
  unfold Core.linked
  split
  · rw [at_put, if_neg h0, at_put, if_neg h1]
  · rw [at_put, if_neg h1]

/-- The events of a jump: an address beyond instruction memory (R96). -/
def jumpEvents (c : Core) (j : Nat) (v : Word) : List FlagEv := if 4096 ≤ v.toNat then [⟨flagRange, j, c.pc⟩] else []

theorem control_jump (hn : n ≠ mcpCore) (hd : d = 0x1A0 ∨ d = 0x1A2) : (⟨c, none, [], none⟩ : Effect).control n [⟨j, d, v⟩] =
    ⟨c.linked d (v.toNat % 4096), none, jumpEvents c j v, none⟩ := by
  have hadj : [(⟨j, d, v⟩ : Move)].find? (fun m => m.dst == 0x012) = none := by rcases hd with rfl | rfl <;> rfl
  have hjump : [(⟨j, d, v⟩ : Move)].find? (fun m => isJump m.dst) = some ⟨j, d, v⟩ := by rcases hd with rfl | rfl <;> rfl
  have hval : jumpValue c.pc ⟨j, d, v⟩ = v.toNat := if_pos hd
  have htarget : jumpTarget n v.toNat = (v.toNat % 4096, decide (4096 ≤ v.toNat)) := if_pos hn
  have hsig : sigAfter (c.at 0x011) 0 (some (v.toNat % 4096)) = (c.at 0x011).rotateLeft 1 ^^^ word (v.toNat % 4096) := by simp [sigAfter]
  simp only [Effect.control, hadj, hjump, hval, htarget, hsig, Core.linked, jumpEvents, List.nil_append, decide_eq_true_eq]

theorem advance_jump {k : Core} {es : List FlagEv} (hn : n ≠ mcpCore) (hd : d = 0x1A0 ∨ d = 0x1A2) (hj : k.jumps = [])
    (hfall : fallThrough n k.pc = (k.pc + 1, false)) : (⟨k, none, es, none⟩ : Effect).advance n [⟨j, d, v⟩] =
      ⟨{ k with pc := k.pc + 1, jumps := [(2, v.toNat % 4096)], cyc := k.cyc + 1, iss := k.iss + 1, stall := none, paid := (0, []) }, none, es,
        none⟩ := by
  have hjump : [(⟨j, d, v⟩ : Move)].find? (fun m => isJump m.dst) = some ⟨j, d, v⟩ := by rcases hd with rfl | rfl <;> rfl
  have hcommit : [(⟨j, d, v⟩ : Move)].any (fun m => m.dst == 0x1A8) = false := by rcases hd with rfl | rfl <;> rfl
  have hval : jumpValue k.pc ⟨j, d, v⟩ = v.toNat := if_pos hd
  have htarget : jumpTarget n v.toNat = (v.toNat % 4096, decide (4096 ≤ v.toNat)) := if_pos hn
  simp only [Effect.advance, hj, hjump, hcommit, hval, htarget, hfall, List.map_nil, List.find?_nil, List.filter_nil, List.nil_append,
    List.append_nil, Bool.false_eq_true, if_false]

theorem linked_counts (c : Core) (d t : Nat) :
    (c.linked d t).jumps = c.jumps ∧ (c.linked d t).pc = c.pc ∧ (c.linked d t).cyc = c.cyc ∧ (c.linked d t).iss = c.iss := by
  unfold Core.linked
  split <;> exact ⟨rfl, rfl, rfl, rfl⟩

/-- A jump of an engine: two delay bundles stand before its target. -/
theorem Ready.jumps (hr : Ready s n c) (hs : Straight n c) (hn : n < 36) (hm : Moves s n c [⟨j, d, v⟩]) (hd : d = 0x1A0 ∨ d = 0x1A2) :
    exec (.bundleIssue n .clean) s = .next ((s.setCore n (c.jumped d (v.toNat % 4096))).flagged n (jumpEvents c j v)) := by
  have hmcp : n ≠ mcpCore := ne_mcpCore hn
  have ha : Apart (isMcpCore n) [⟨j, d, v⟩] := .single (by rcases hd with rfl | rfl <;> rfl)
  have hnear : Near [⟨j, d, v⟩] := List.forall_mem_singleton.2 (by rcases hd with rfl | rfl <;> rfl)
  have hord : Ordinary [⟨j, d, v⟩] := .single (by omega)
  have henters : s.entersWait n c [⟨j, d, v⟩] = none := by
    have hfind : [(⟨j, d, v⟩ : Move)].find? (fun m => m.dst == 0x1A9) = none := by rcases hd with rfl | rfl <;> rfl
    rw [State.entersWait, waitMove, ha.effective, hfind, ite_self]
  have hlocal : s.localEffect n c [⟨j, d, v⟩] = ⟨c, none, [], none⟩ := by rcases hd with rfl | rfl <;> rfl
  have he : s.bundleEffect n c (s.codeWord n c.pc) [⟨j, d, v⟩] = ⟨c.jumped d (v.toNat % 4096), none, jumpEvents c j v, none⟩ := by
    rw [hr.bundleEffect hm ha, hlocal, control_jump hmcp hd, Core.jumped]
    obtain ⟨hjumps, hpc, hcyc, hiss⟩ := linked_counts c d (v.toNat % 4096)
    rw [advance_jump hmcp hd (hjumps.trans hs.1) (hpc ▸ hs.fallThrough), hpc, hcyc, hiss]
  rw [hr.runs_near hm hnear henters, runBundle_ordinary he ha hord rfl]
  rfl

theorem near_nil : Near [] := fun _ h => absurd h List.not_mem_nil

theorem entersWait_nil (s : State) (n : Nat) (c : Core) : s.entersWait n c [] = none := ite_self none

theorem Ready.runs_empty {k : Core} (hr : Ready s n c) (hm : Moves s n c [])
    (h : ((⟨c, none, [], none⟩ : Effect).control n []).advance n [] = ⟨k, none, [], none⟩) :
    exec (.bundleIssue n .clean) s = .next (s.setCore n k) := by
  have he : s.bundleEffect n c (s.codeWord n c.pc) [] = ⟨k, none, [], none⟩ := (hr.bundleEffect hm (.nil _)).trans h
  rw [hr.runs_near hm near_nil (entersWait_nil s n c), runBundle_ordinary he (.nil _) .nil rfl]
  rfl

theorem control_nil : (⟨c, none, [], none⟩ : Effect).control n [] = ⟨c.put 0x011 (c.at 0x011), none, [], none⟩ := by
  simp [Effect.control, sigAfter]

/-- A delay bundle without moves brings the jump one bundle nearer (R95). -/
theorem Ready.delays (hr : Ready s n c) (hm : Moves s n c []) (hfall : fallThrough n c.pc = (c.pc + 1, false)) (hj : c.jumps = [(2, a)]) :
    exec (.bundleIssue n .clean) s = .next (s.setCore n { c.passed with jumps := [(1, a)] }) := by
  refine hr.runs_empty hm ?_
  have hjumps : (c.put 0x011 (c.at 0x011)).jumps = [(2, a)] := hj
  have hpc : fallThrough n (c.put 0x011 (c.at 0x011)).pc = (c.pc + 1, false) := hfall
  rw [control_nil]
  simp only [Effect.advance, hjumps, hpc]
  rfl

/-- After the second the core is at the target. -/
theorem Ready.arrives (hr : Ready s n c) (hm : Moves s n c []) (hj : c.jumps = [(1, a)]) :
    exec (.bundleIssue n .clean) s = .next (s.setCore n { c.passed with pc := a, jumps := [] }) := by
  refine hr.runs_empty hm ?_
  have hjumps : (c.put 0x011 (c.at 0x011)).jumps = [(1, a)] := hj
  rw [control_nil]
  simp only [Effect.advance, hjumps]
  rfl

/-! ## Sticky events (R101) -/

theorem bySlot_single (h : e.slot < 4) : bySlot [e] = [e] := by
  obtain ⟨f, j, b⟩ := e
  simp only at h
  interval_cases j <;> rfl

theorem flagged_untrapped (h : e.slot < 4) (ht : s.bit (coreSticky n + 4) e.flag = false) :
    s.flagged n [e] = s.setBit (coreSticky n) e.flag true := by
  simp [State.flagged, bySlot_single h, State.noteFlags, ht]

/-- Without a trap the flag is set, and nothing else. -/
theorem flagged_marks {k : Core} (h : e.slot < 4) (hf : e.flag < 32) (ht : s.bit (coreSticky n + 4) e.flag = false) :
    ((s.setCore n k).flagged n [e]).core n = k ∧ ((s.setCore n k).flagged n [e]).bit (coreSticky n) e.flag = true ∧
      OtherRegs s ((s.setCore n k).flagged n [e]) [coreSticky n] := by
  rw [flagged_untrapped (s := s.setCore n k) h ht]
  refine ⟨?_, State.bit_setBit_same _ _ _ _ hf, fun a ha => ?_⟩
  · rw [State.core, State.setBit_cores]
    exact core_setCore_same s n k
  · rw [State.reg_setBit_other _ _ _ (by simpa using ha)]
    rfl

theorem flagged_trapped (h : e.slot < 4) (ht : s.bit (coreSticky n + 4) e.flag = true) : s.flagged n [e] =
    (((s.setBit (coreSticky n) e.flag true).trapCause n e).landRest n).haltsWith n (fun st => st.trapTaken n e) := by
  simp [State.flagged, bySlot_single h, State.noteFlags, ht]

/-- An engine that serves fails by a trap with CAUSE 8, and TRAP_CAUSE names the event (R101, R117). -/
theorem flagged_failed {l : Nat} (hn : n < 36) (hl : s.logicalOf n = some l) (hto : s.takeover l = none) (hp : (s.core n).posted = [])
    (hf : (s.core n).far = []) (hst : s.peState n = 4) (hfree : s.bit (coreSticky n + 8) 31 = false) (h : e.slot < 4)
    (ht : s.bit (coreSticky n + 4) e.flag = true) : Failed n 8
      ((s.setBit (coreSticky n) e.flag true).setReg (coreSticky n + 8) (word (e.flag + e.slot * 2 ^ 4 + e.bundle * 2 ^ 8 + 2 ^ 31)))
      (s.flagged n [e]) := by
  have hmcp := ne_mcpCore hn
  have hsticky : coreSticky n = peGroup n + 0x60 := if_neg hmcp
  have hstate : peStateAddr n = peGroup n + 0x04 := rfl
  have hne1 : peStateAddr n ≠ coreSticky n := by omega
  have hne2 : peStateAddr n ≠ coreSticky n + 8 := by omega
  have hpe : (s.setBit (coreSticky n) e.flag true).peState n = 4 := by
    rw [State.peState, s.fld_setBit_other _ _ _ _ hne1]
    exact hst
  have hfree' : (s.setBit (coreSticky n) e.flag true).bit (coreSticky n + 8) 31 = false := by
    rw [s.bit_setBit_other _ _ _ (show coreSticky n + 8 ≠ coreSticky n by omega)]
    exact hfree
  have hcause : (s.setBit (coreSticky n) e.flag true).trapCause n e = (s.setBit (coreSticky n) e.flag true).setReg (coreSticky n + 8)
      (word (e.flag + e.slot * 2 ^ 4 + e.bundle * 2 ^ 8 + 2 ^ 31)) := by
    simp [State.trapCause, hfree', hpe, bit01]
  rw [flagged_trapped h ht, hcause]
  generalize hu : (s.setBit (coreSticky n) e.flag true).setReg (coreSticky n + 8)
    (word (e.flag + e.slot * 2 ^ 4 + e.bundle * 2 ^ 8 + 2 ^ 31)) = u
  have hcore : u.core n = s.core n := by rw [← hu, State.core, State.setReg_cores, State.setBit_cores, State.core]
  have hlog : u.logicalOf n = some l := by
    rw [logicalOf_congr (s := s), hl]
    rw [← hu, State.reg_setReg_other _ _ hne2, s.reg_setBit_other _ _ hne1]
  have htake : u.takeover l = none := by
    rw [← hto, ← hu, State.takeover, State.setReg_pec, State.setBit_pec, State.takeover]
  have hland : u.landRest n = u := landRest_idle (hcore ▸ hp) (hcore ▸ hf)
  have hhalt : u.haltsWith n (fun st => st.trapTaken n e) = u.engineF2 n 8 := by
    simp only [State.haltsWith, State.trapTaken, hlog, htake, hmcp, Option.isSome_some, or_true, if_true, if_false]
  rw [hland, hhalt]
  exact engineF2_failed hn hlog htake (by decide) (by decide) (hcore ▸ hp) (hcore ▸ hf)

/-- What a trap of an idle engine leaves (R101, R117). -/
theorem flagged_halts {l : Nat} {k : Core} (hn : n < 36) (hl : s.logicalOf n = some l) (hto : s.takeover l = none) (hp : k.posted = [])
    (hf : k.far = []) (hst : s.peState n = 4) (hfree : s.bit (coreSticky n + 8) 31 = false) (h : e.slot < 4) (hflag : e.flag < 32)
    (ht : s.bit (coreSticky n + 4) e.flag = true) {t : State} (heq : t = (s.setCore n k).flagged n [e]) :
    t.peState n = 6 ∧ t.peCause n = 8 ∧ t.logicalOf n = none ∧ t.core n = Core.reset ∧ t.bit (coreSticky n) e.flag = true ∧
      t.reg (coreSticky n + 8) = word (e.flag + e.slot * 2 ^ 4 + e.bundle * 2 ^ 8 + 2 ^ 31) ∧ t.pec.released = s.pec.released ∧ t.mem = s.mem := by
  have hfail := flagged_failed (s := s.setCore n k) hn hl hto (by rw [core_setCore_same]; exact hp) (by rw [core_setCore_same]; exact hf) hst
    hfree h ht
  rw [← heq] at hfail
  have hsticky : coreSticky n = peGroup n + 0x60 := if_neg (ne_mcpCore hn)
  have hstate : peStateAddr n = peGroup n + 0x04 := rfl
  have hkeeps (o : Nat) (ho : o < 0x400) : HaltKeeps (peGroup n + o) := haltKeeps_peGroup n hn ho
  have hflags := hfail.reg (coreSticky n) (hsticky ▸ hkeeps 0x60 (by decide)) (by omega) (by omega)
  have hcause := hfail.reg (coreSticky n + 8) (hsticky ▸ hkeeps 0x68 (by decide)) (by omega) (by omega)
  refine ⟨hfail.peState, hfail.peCause, hfail.logicalOf, hfail.core, ?_, ?_, ?_, ?_⟩
  · rw [State.bit, hflags, ← State.bit, State.bit_setReg_other _ _ _ (show coreSticky n ≠ coreSticky n + 8 by omega),
      State.bit_setBit_same _ _ _ _ hflag]
  · rw [hcause, State.reg_setReg_same]
  · rw [hfail.pec, State.setReg_pec, State.setBit_pec, State.setCore_pec]
  · rw [hfail.mem, State.setReg_mem, State.setBit_mem, State.setCore_mem]

/-! ## Guards and literals (R60 to R62) -/

theorem mem_movesOf {m : Move} {ws : Nat → Word} : m ∈ s.movesOf n c ws ↔
    m.slot < 4 ∧ c.runs ws m.slot = true ∧ m = ⟨m.slot, slotDst (ws m.slot), s.slotValue n c ws m.slot⟩ := by
  constructor
  · intro h
    obtain ⟨i, hi, rfl⟩ := List.mem_map.1 h
    obtain ⟨hi, hr⟩ := List.mem_filter.1 hi
    exact ⟨List.mem_range.1 hi, hr, rfl⟩
  · rintro ⟨hi, hr, hm⟩
    exact List.mem_map.2 ⟨m.slot, List.mem_filter.2 ⟨List.mem_range.2 hi, hr⟩, hm.symm⟩

theorem runs_iff {ws : Nat → Word} : c.runs ws j = true ↔
    isLiteral ws j = false ∧ slotReserved j (ws j) = false ∧ guardHolds (slotGuard (ws j)) c.guards c.frdy = true := by
  simp [Core.runs, and_assoc]

/-- A guard that is not reserved holds always, by FRDY, or by a guard bit (R60, R61). -/
theorem guardHolds_iff {g : Nat} (hg : g < 32) (h : guardReserved g = false) : guardHolds g c.guards c.frdy = true ↔
    g = 0 ∨ (g = 2 ∧ c.fq ≠ []) ∨ (g = 3 ∧ c.fq = []) ∨ (16 ≤ g ∧ g < 24 ∧ c.at (0x008 + (g - 16)) ≠ 0) ∨
      (24 ≤ g ∧ c.at (0x008 + (g - 24)) = 0) := by
  have hgap : g < 4 ∨ 16 ≤ g := by
    simp [guardReserved] at h
    omega
  have hfrdy : c.frdy = true ↔ c.fq ≠ [] := by simp [Core.frdy]
  rcases hgap with hlow | hhigh
  · interval_cases g <;> simp [guardHolds, Core.frdy]
  · by_cases hlt : g < 24
    · have hmod : g % 8 = g - 16 := by omega
      have h24 : ¬ 24 ≤ g := by omega
      have hne : g ≠ 0 ∧ g ≠ 1 ∧ g ≠ 2 ∧ g ≠ 3 := by omega
      simp [guardHolds, hne, hlt, hhigh, h24, hmod, Core.guards]
    · have hmod : g % 8 = g - 24 := by omega
      have h24 : 24 ≤ g := by omega
      have hne : g ≠ 0 ∧ g ≠ 1 ∧ g ≠ 2 ∧ g ≠ 3 := by omega
      simp [guardHolds, hne, hlt, h24, hmod, Core.guards]

theorem slotReserved_guard {w : Word} (h : slotReserved j w = false) : guardReserved (slotGuard w) = false := by
  rw [slotReserved, Bool.or_eq_false_iff, Bool.or_eq_false_iff] at h
  exact h.1.1

theorem slotGuard_lt (w : Word) : slotGuard w < 32 := Nat.mod_lt _ (by decide)

/-- A literal is no move (R62). -/
theorem literal_not_mem {ws : Nat → Word} {m : Move} (h : isLiteral ws j = true) (hm : m ∈ s.movesOf n c ws) : m.slot ≠ j := by
  rintro rfl
  obtain ⟨-, hr, -⟩ := mem_movesOf.1 hm
  rw [(runs_iff.1 hr).1] at h
  exact Bool.false_ne_true h

end Sys2Proof.Machine
end

section
open Sys2Proof Sys2Proof.Machine

/-- Settles O12: a bundle of one move, or of an operand and a trigger, has one effect on the core; jumps, traps, guards, stall cycles and waits follow. -/
theorem bundlesIssueTheirMoves : Obligations.BundlesIssueTheirMoves := by
  refine ⟨?_, ?_, ?_, ?_, ?_, ?_, ?_, ?_, ?_, ?_, ?_, ?_, ?_, ?_, ?_, ?_, ?_, ?_, ?_, ?_, ?_, ?_, ?_, ?_, ?_, ?_, ?_⟩
  -- a general register
  · intro s n j d v c hr hs hm h1 h2
    exact hr.writes_register hs hm h1 h2
  -- a product
  · intro s n j d v c hr hs hm h1 h2
    obtain ⟨hmul, -⟩ := hr.idle
    rw [hr.triggers_quietly hs hm (.inr (.inl ⟨h1, h2⟩)) (trigger_mul ⟨h1, h2⟩) rfl rfl, hmul]
    rfl
  -- a quotient
  · intro s n j d v c hr hs hm hd ho
    rw [hr.divides hs hm hd, divEvents, if_neg ho]
    rfl
  -- an operation of the first integer unit
  · intro s n i j d o v c r hr hs hm h1 h2 hres
    obtain ⟨k, hexec, hdone, x, hk⟩ := hr.calculates hs hm ⟨h1, h2⟩ hres
    refine ⟨_, hexec, ?_⟩
    simp only [core_setCore_same, at_passed]
    refine ⟨hdone.operand.trans (at_put_same c 0x080 o), hdone.result, hdone.overflow, hdone.carry, fun h => ?_, fun a ha => ?_, ?_, trivial⟩
    · exact (hdone.kept h).trans ((at_put c _ _ o).trans (if_neg (by decide)))
    · exact (hdone.other a ha).trans ((at_put c _ _ o).trans (if_neg (by omega)))
    · rw [hk]
      rfl
  -- an operation of the BIT unit
  · intro s n j d v c hr hs hm h1 h2
    obtain ⟨hj, hpc⟩ := bitOp_frame c v h1 h2
    refine ⟨_, hr.triggers_quietly hs hm (.inr (.inr (.inr (.inr ⟨h1, by omega⟩)))) (trigger_bit ⟨h1, by omega⟩) hj hpc, ?_⟩
    simp only [core_setCore_same, at_passed]
    refine ⟨?_, ?_, ?_, ?_, ?_, ?_, ?_, ?_, ?_, fun a h3 h4 => bitOp_other h1 h2 h3 h4, trivial⟩
    case refine_9 =>
      rintro rfl
      rw [bitOp_clmul, at_put_same, at_put, if_neg (by decide), at_put_same]
      exact ⟨rfl, rfl⟩
    all_goals
      rintro rfl
      exact at_put_same _ _ _
  -- a local store
  · intro s n i j d a c hr hs hm ha hlt hok
    refine ⟨_, hr.stores_local hs hm ha hlt hok, ?_, fun b hb => s.byte_store_other (leBytes 4 d.toNat) hb, ?_, store_setCore_eq _ _ _ _ _⟩
    · rw [bytes_setCore, bytes_store]
    · rw [core_setCore_same]
      rfl
  -- a local load
  · intro s n j a c hr hs hm ha hlt hok
    obtain ⟨-, -, hlsu, -⟩ := hr.idle
    have hx : s.trigger n ⟨c, none, [], none⟩ ⟨j, 0x128, a⟩ = _ := (trigger_localOp (by decide) _).trans (localOp_load ha hlt hok)
    rw [hr.triggers_quietly hs hm (.inr (.inr (.inr (.inl (by decide))))) hx rfl rfl, hlsu]
    rfl
  -- far transactions
  · intro s n j a c hr hs hm ha hf
    exact hr.loads hs hm ha hf
  · intro s n i j d a c hr hs hm ha hu hp _
    refine ⟨_, hr.posts hs hm ha hu hp, ?_, ?_, ?_⟩
    · rw [core_setCore_same]
      rfl
    · rw [core_setCore_same, at_passed]
      exact at_put_same c 0x120 d
    · rw [core_setCore_same]
  · intro s n i j a b c hr hm hf hp
    exact hr.second_load_stalls hm hf hp
  · intro s n i j d a c hr hm hp
    exact hr.full_buffer_stalls hm hp
  -- jumps
  · intro s n j d v c hr hs hn hm hd hv
    have hword : word (v.toNat % 4096) = v := by simp [word, Nat.mod_eq_of_lt hv]
    have hevents : jumpEvents c j v = [] := if_neg (Nat.not_le.2 hv)
    rw [Leaves, hr.jumps hs hn hm hd, hevents]
    refine ⟨_, rfl, ?_⟩
    simp only [flagged_nil, core_setCore_same, at_jumped]
    refine ⟨?_, rfl, ?_, fun h => at_linked_link c _ (by rw [h]; rfl), fun a h0 h1 => at_linked_other c d _ h0 h1, trivial⟩
    · rw [Core.jumped, Nat.mod_eq_of_lt hv]
    · rw [at_linked_sig, hword]
  · intro s n j v c hr hs hn hm hv ht
    have hevents : jumpEvents c j v = [⟨flagRange, j, c.pc⟩] := if_pos hv
    have hslot : j < 4 := hm.slot_lt List.mem_cons_self
    obtain ⟨hcore, hbit, hregs⟩ := flagged_marks (e := ⟨flagRange, j, c.pc⟩) (k := c.jumped 0x1A0 (v.toNat % 4096)) hslot (show flagRange < 32 by decide) ht
    rw [Leaves, hr.jumps hs hn hm (.inl rfl), hevents]
    refine ⟨_, rfl, ?_, hbit, hregs⟩
    rw [hcore]
    rfl
  · intro s n a c hr hn hpc hm hj
    exact hr.delays hm (by rw [fallThrough, if_pos (ne_mcpCore hn), if_neg (by omega)]) hj
  · intro s n a c hr hm hj
    exact hr.arrives hm hj
  -- a division by 0, without and with a trap
  · intro s n j d v c hr hs hm hd ho ht
    have hslot : j < 4 := hm.slot_lt List.mem_cons_self
    obtain ⟨hcore, hbit, hregs⟩ := flagged_marks (e := ⟨flagDz, j, c.pc⟩) (k := (c.dividing d v).passed) hslot (show flagDz < 32 by decide) ht
    rw [Leaves, hr.divides hs hm hd, divEvents, if_pos ho]
    refine ⟨_, rfl, hbit, hcore.trans ?_, hregs⟩
    rw [Core.dividing, divOp, if_pos ho]
    rfl
  · intro s n l j d v c hr hs hn hl hm hd ho ht hlog hto hp hf hst hfree
    have hslot : j < 4 := hm.slot_lt List.mem_cons_self
    rw [Leaves, hr.divides hs hm hd, divEvents, if_pos ho]
    exact ⟨_, rfl, flagged_halts (k := (c.dividing d v).passed) (e := ⟨flagDz, j, c.pc⟩) hn hlog hto hp hf hst hfree hslot
      (show flagDz < 32 by decide) ht rfl⟩
  -- guards and literals
  · intro s n c ws j hj
    have hmem : (∃ v, (⟨j, slotDst (ws j), v⟩ : Move) ∈ s.movesOf n c ws) ↔ c.runs ws j = true :=
      ⟨fun ⟨v, hv⟩ => (mem_movesOf.1 hv).2.1, fun hr => ⟨s.slotValue n c ws j, mem_movesOf.2 ⟨hj, hr, rfl⟩⟩⟩
    rw [hmem, runs_iff]
    refine and_congr_right fun _ => and_congr_right fun hres => ?_
    exact guardHolds_iff (slotGuard_lt _) (slotReserved_guard hres)
  · rintro s n c ws j m hm rfl
    obtain ⟨-, hrun, hval⟩ := mem_movesOf.1 hm
    obtain ⟨hlit, -⟩ := runs_iff.1 hrun
    have hv : m.val = s.slotValue n c ws m.slot := congrArg Move.val hval
    refine ⟨congrArg Move.dst hval, hlit, fun himm => ?_, fun himm hsrc => ⟨?_, fun x hx => ?_⟩, fun himm hsrc => ?_⟩
    · rw [hv, State.slotValue, if_pos himm, slotImmediate]
    · rw [hv, State.slotValue, himm, namesLiteral, himm, hsrc]
      rfl
    · refine literal_not_mem ?_ hx
      rw [isLiteral, hlit, namesLiteral, himm, hsrc]
      rfl
    · have hname : namesLiteral (ws m.slot) = false := by simp [namesLiteral, immL, hsrc]
      rw [hv, State.slotValue, himm, hname]
      rfl
  -- cycles without an issue
  · intro s n f hn h
    rw [exec_bundleIssue_core hn, bundleIssue_barred h]
  · intro s n k f c hn hc hissue hmul hdiv hlsu hlate hwait hstall
    rw [exec_bundleIssue_core hn, bundleIssue_stalled hc hissue hmul hdiv hlsu hlate hwait hstall]
  · intro s n f t c hn hc hissue hmul hdiv hlsu hlate hwait
    rw [exec_bundleIssue_core hn, bundleIssue_waiting hc hissue hmul hdiv hlsu hlate hwait]
  -- CTL.T.WAIT
  · intro s n j v c hr hstall hm hbell
    exact hr.enters_wait hm hstall hbell
  · intro s n j v c hr hs hm hpass
    exact hr.passes_wait hm hs hpass
  · intro s n hn h
    rw [exec_ctlWaitEnd_core hn, waitEnd_none h]
  · intro s n t hn h hissue hend
    rw [exec_ctlWaitEnd_core hn, waitEnd_some h, if_pos]
    rw [hissue, Bool.true_and, Bool.or_eq_true]
    rcases hend with hbell | ⟨k, rfl, hk⟩
    · exact .inl hbell
    · exact .inr (decide_eq_true hk)
  · intro s n t hn h hbell hlate
    rw [exec_ctlWaitEnd_core hn, waitEnd_some h, if_neg]
    have hpassed : timeoutPassed t (s.core n).cyc = false := by
      cases t with
      | none => rfl
      | some k => exact decide_eq_false (Nat.not_le.2 (hlate k rfl))
    simp [hbell, hpassed]
end

section
/-!
An engine sends a slot that still holds a received frame while the switch has no cell left (R238, R263): the frame that was to enter is dropped for want of a
cell, and with the slot the received frame is released, which the ledger counts by its own reason.
-/
namespace Sys2Proof.Machine

/-- A frame that a cut-through copy has brought into a slot, and that ended for want of a cell itself (reason 12). -/
def starvedFrame : Frame :=
  { bytes := [], ingress := 0, sender := none, stamp := 0, arriving := false, bad := false, classed := true, tc := 0, granule := 0, kind := 0,
    entry := 0, cells := 1, hit := none, act := 0, reason := 12, failed := 0, left := false, debits := [], waits := false, limit := none,
    late := false, tag := 0 }

/-- Logical engine 0 has released a send of its slot 0, which holds that frame; the switch is enabled and has no free cell. -/
def State.starvedSend : State := { State.reset with
  regs := [(swReg 0, 1)]
  sw := { State.reset.sw with pre := 0, free := 0, frames := [(0, some starvedFrame)], slots := [(0, ⟨some 0, false, none, false, []⟩)] }
  pec := { PecSt.reset with released := [(0, [.send 0 64])] } }

theorem exec_stagedOutputTransfer_zero (s : State) : exec (.stagedOutputTransfer 0) s = .next (s.transferOutputs 0) := rfl

theorem starvedSend_enabled : State.starvedSend.bit (swReg 0) 0 = true := by decide +kernel

/-- The reason counts twice: for the frame sent, and for the frame released. -/
theorem starvedSend_counts : (State.starvedSend.transferOutputs 0).count (dropCnt 12) = 2 ∧ State.starvedSend.count (dropCnt 12) = 0 := by decide +kernel

end Sys2Proof.Machine

open Sys2Proof Sys2Proof.Machine

/-- Refutes O7: a send that finds no cell adds 2 to DROP_CNT[12] where its slot holds a received frame that took reason 12 itself; the statement does not
ask that the slot is a transmit slot. -/
theorem not_enginesBeginAndOutputsTransfer : ¬ Obligations.EnginesBeginAndOutputsTransfer := by
  rintro ⟨-, -, -, -, -, -, -, -, hdropped, -⟩
  obtain ⟨t, ht, hcount, -⟩ := hdropped State.starvedSend 0 0 64 (by decide) rfl starvedSend_enabled rfl
  rw [exec_stagedOutputTransfer_zero] at ht
  injection ht with ht
  obtain ⟨htwice, hzero⟩ := starvedSend_counts
  rw [← ht, htwice, hzero] at hcount
  exact absurd hcount (by decide)
end

section
/-!
A load meets an uncorrectable word in the copy that it reads (R121, R374): that is a fault of the memory, not of the engine. L, whose run list names the
copy, is halted with its engine, and the engine's CAUSE stays as it was.
-/
namespace Sys2Proof.Machine

variable {s : State} {l n : Nat}

/-! ## A halt without a CAUSE of the engine's own -/

/-- PE_STATE of an engine that is halted without a CAUSE, from the word before. -/
def stoppedWord (w : Word) : Word := setBits (setBits (setBits w 0 4 6) 8 5 0) 13 1 (bit01 false)

theorem reg_setReservation (s : State) (m : Nat) (g : Option Nat) (a : Nat) : (s.setReservation m g).reg a = s.reg a := by rfl
theorem reg_dropLoads (s : State) (n a : Nat) : (s.dropLoads n).reg a = s.reg a := by rfl
theorem reg_detect (s : State) (e : Event) (a : Nat) : (s.detect e).reg a = s.reg a := by rfl
theorem reg_passHeld (s : State) (m : Nat) (d : List Byte) (a : Nat) : (s.passHeld m d).reg a = s.reg a := by rfl
theorem reg_setTakeover (s : State) (l : Nat) (t : Option Takeover) (a : Nat) : (s.setTakeover l t).reg a = s.reg a := by rfl
theorem reg_setMissedIn (s : State) (l : Nat) (b : Bool) (a : Nat) : (s.setMissedIn l b).reg a = s.reg a := by rfl
theorem reg_raiseVector (s : State) (v a : Nat) : (s.raiseVector v).reg a = s.reg a := by
  unfold State.raiseVector
  dsimp only
  split <;> rfl

theorem haltEngine_zero_peState (hn : n < 36) (hp : (s.core n).posted = []) (hf : (s.core n).far = []) :
    (s.haltEngine n 0).reg (peStateAddr n) = stoppedWord (s.reg (peStateAddr n)) := by
  have h1 := Aside.forgetPreloads s n
  have hcore : (s.forgetPreloads n).core n = s.core n := by rw [State.core, h1.cores, State.core]
  obtain ⟨u, h2, hstop⟩ := stopCore_eq (s := s.forgetPreloads n) (n := n) (by rw [hcore, hp]) (by rw [hcore, hf])
  have hhalt : s.haltEngine n 0 = ((u.outOfService n).lockReclaim (0x10 + n)).setReservation (0x10 + n) none := by
    unfold State.haltEngine
    dsimp only
    rw [if_pos rfl, hstop]
    rfl
  have hkeep : HaltKeeps (peStateAddr n) := haltKeeps_peGroup n hn (by decide)
  rw [hhalt, reg_setReservation, (Aside.lockReclaim _ _).reg _ hkeep, outOfService_reg, if_pos rfl, (h1.trans h2).reg _ hkeep, stoppedWord]

/-- What the halt of L does after that of its engine leaves the other registers (R374). -/
theorem haltLogical_reg (s : State) (l : Nat) {a : Nat} (hbind : a ≠ bindAddr l + 4) (htick : a ≠ tickStatus) :
    (s.haltLogical l).reg a = if s.logicalOf (s.phys l) = some l then (s.haltEngine (s.phys l) 0).reg a else s.reg a := by
  unfold State.haltLogical
  dsimp only
  generalize s.haltEngine (s.phys l) 0 = u
  rw [State.raiseLogical, State.raise, if_neg (by decide), reg_detect, State.setBindState, State.reg_setFld_other _ _ _ _ hbind]
  simp only [beq_iff_eq]
  repeat' split
  all_goals simp only [reg_raiseVector, State.reg_bump, State.reg_setBit_other _ _ _ htick, reg_setMissedIn, reg_setTakeover, reg_passHeld, reg_dropLoads]

theorem haltLogical_peState (hl : l < 32) (hn : n < 36) (hphys : s.phys l = n) (hserves : s.logicalOf n = some l)
    (hp : (s.core n).posted = []) (hf : (s.core n).far = []) :
    (s.haltLogical l).reg (peStateAddr n) = stoppedWord (s.reg (peStateAddr n)) := by
  have hbind : peStateAddr n ≠ bindAddr l + 4 := by unfold peStateAddr peGroup bindAddr; omega
  have htick : peStateAddr n ≠ tickStatus := by unfold peStateAddr peGroup pecBase tickStatus tickReg tickBase; omega
  rw [haltLogical_reg s l hbind htick, hphys, if_pos hserves, haltEngine_zero_peState hn hp hf]

/-! ## A load that meets an uncorrectable word -/

theorem exec_loaderLoadComplete (ok : Bool) (s : State) : exec (.loaderLoadComplete ok) s = .next (s.loadComplete ok) := rfl

/-- The load at the head of the loader meets the word at `a`. -/
theorem loadComplete_meets {k : Bool} {rest : List Load} {a : Nat} (ok : Bool) (hloads : s.pec.loads = ⟨n, l, k⟩ :: rest)
    (hserves : s.logicalOf n = some l) (hbad : s.loadBad l n = some a) :
    s.loadComplete ok = ({ s with pec := { s.pec with loads := rest } } : State).loadFault l n a := by
  unfold State.loadComplete
  rw [hloads]
  dsimp only
  rw [if_neg (not_not.2 hserves), hbad]

/-- A word of the scratchpad that belongs to L alone halts L (R374). -/
theorem memoryFault_victim {a : Nat} (m : Nat) (ha : (arrayOf a).1 = 1)
    (hl : (List.range 32).filter (fun l => s.memoryVictim a l && s.bindState l != 5) = [l]) :
    s.memoryFault a m = (s.ueNoted a m).haltLogical l := by
  unfold State.memoryFault
  dsimp only
  rw [if_neg (not_not.2 ha), hl]
  rfl

/-- Where the fault of the memory has freed the engine, the load ends with it. -/
theorem loadFault_freed {a : Nat} (h : (s.memoryFault a (0x10 + n)).logicalOf n = none) : s.loadFault l n a = s.memoryFault a (0x10 + n) := by
  unfold State.loadFault
  dsimp only
  rw [h, if_neg (Option.some_ne_none l).symm]

/-- Engine 35 loads for logical engine 31, which a GO has bound: its run list names entry 0, whose verified copy of 240 bytes stands at 0 and has one
bundle of code, at 128. The first word of that code holds an uncorrectable error. -/
def State.loadsBadCopy : State := { State.reset with
  regs := [(bindAddr 31 + 4, word (1 + 35 * 2 ^ 8)), (bindAddr 31 + 0x20, 0x80), (imgAddr 0 + 4, 240), (imgStat 0, 1),
    (peStateAddr 35, word (3 + 31 * 2 ^ 8 + 2 ^ 13))]
  mem := [(0x16, 1)]
  mbx := { MbxSt.reset with bad := [(128 / 8, true)] }
  pec := { PecSt.reset with loads := [⟨35, 31, false⟩] } }

/-- The load is no longer the loader's. -/
def State.loadTaken : State := { State.loadsBadCopy with pec := { State.loadsBadCopy.pec with loads := [] } }

/-- The error of the word is captured and counted. -/
def State.badNoted : State := State.loadTaken.ueNoted 128 (0x10 + 35)

theorem loadsBadCopy_meets : State.loadsBadCopy.logicalOf 35 = some 31 ∧ State.loadsBadCopy.loadBad 31 35 = some 128 := by decide +kernel
theorem loadTaken_victims :
    (List.range 32).filter (fun l => State.loadTaken.memoryVictim 128 l && State.loadTaken.bindState l != 5) = [31] := by decide +kernel
theorem badNoted_serves : State.badNoted.phys 31 = 35 ∧ State.badNoted.logicalOf 35 = some 31 ∧ State.badNoted.core 35 = Core.reset := by
  decide +kernel
theorem badNoted_stopped : stoppedWord (State.badNoted.reg (peStateAddr 35)) = 6 := by decide +kernel

/-- L and its engine are halted, and PE_STATE shows no CAUSE. -/
theorem loadsBadCopy_peState : (State.loadsBadCopy.loadComplete false).reg (peStateAddr 35) = 6 := by
  obtain ⟨hloading, hbad⟩ := loadsBadCopy_meets
  obtain ⟨hphys, hserves, hidle⟩ := badNoted_serves
  have hfault : State.loadTaken.memoryFault 128 (0x10 + 35) = State.badNoted.haltLogical 31 :=
    memoryFault_victim _ (by decide) loadTaken_victims
  have hhalted : (State.badNoted.haltLogical 31).reg (peStateAddr 35) = 6 := by
    rw [haltLogical_peState (by decide) (by decide) hphys hserves (by rw [hidle]; rfl) (by rw [hidle]; rfl), badNoted_stopped]
  have hfreed : (State.badNoted.haltLogical 31).logicalOf 35 = none := by
    rw [State.logicalOf, State.bit, hhalted]
    rfl
  have hload : State.loadsBadCopy.loadComplete false = State.loadTaken.loadFault 31 35 128 := loadComplete_meets false rfl hloading hbad
  rw [hload, loadFault_freed (by rw [hfault, hfreed]), hfault, hhalted]

end Sys2Proof.Machine

open Sys2Proof Sys2Proof.Machine

/-- Refutes O9: a load that fails leaves CAUSE as it was, where the loader has met an uncorrectable word in a copy of L's run list and R374 halts L; the last
clause does not ask that the copies can be read. -/
theorem not_takeoversBringInASpare : ¬ Obligations.TakeoversBringInASpare := by
  rintro ⟨-, -, -, -, -, -, -, -, hfailed⟩
  obtain ⟨hserves, -⟩ := loadsBadCopy_meets
  obtain ⟨t, ht, -, hcause, -⟩ := hfailed State.loadsBadCopy 35 31 [] (by decide) (by decide) rfl hserves rfl
  rw [exec_loaderLoadComplete] at ht
  injection ht with ht
  rw [← ht, State.peCause, State.fld, loadsBadCopy_peState] at hcause
  exact absurd hcause (by decide)
end

section
/-!
A HALT comes while a store-conditional of the engine is on its way (R88, R91, R112): what the engine has issued to its ATM unit takes effect although the
engine stops, and the word is written.
-/
namespace Sys2Proof.Machine

/-- Logical engine 31 runs on engine 35, with the page at 0x1000 as its shared atomic area, and its HALT is due. Engine 35 holds the granule at 0x1000
reserved, and its ATM.T.SC of 1 to 0x1000 is on its way. -/
def State.haltsDuringStore : State := { State.reset with
  regs := [(bindAddr 31 + 4, word (2 + 35 * 2 ^ 8)), (bindAddr 31 + 0x0C, word (1 + 1 * 2 ^ 16)), (peStateAddr 35, word (4 + 31 * 2 ^ 8 + 2 ^ 13))]
  cores := [(35, { Core.reset with running := true, far := [⟨0x18B, 0x1000, 1, 0, 0, 0, none, 0⟩] })]
  pec := { PecSt.reset with due := [(31, 2)], reserved := [(coreMaster 35, some (0x1000 / 8))] } }

theorem exec_unbind {l : Nat} (hl : l < 32) (s : State) : exec (.unbind l) s = .next (s.unbind l) := by
  have he : exec (.unbind l) s = event (isLogical l) s (s.unbind l) := rfl
  rw [he, isLogical, decide_eq_true hl, event_true]

theorem haltsDuringStore_due : State.haltsDuringStore.isDue 31 1 = true ∧ State.haltsDuringStore.bindState 31 = 2 ∧
    State.haltsDuringStore.phys 31 = 35 ∧ State.haltsDuringStore.logicalOf 35 = some 31 ∧ State.haltsDuringStore.takeover 31 = none ∧
    State.haltsDuringStore.peState 35 = 4 := by decide +kernel

/-- The store lands. -/
theorem haltsDuringStore_lands : (State.haltsDuringStore.unbind 31).byte 0x1000 = 1 ∧ State.haltsDuringStore.byte 0x1000 = 0 := by decide +kernel

end Sys2Proof.Machine

open Sys2Proof Sys2Proof.Machine

/-- Refutes O10: a HALT of a running engine changes memory where a store-conditional of the engine is on its way; the clause does not ask that none is. -/
theorem not_bindingsAreMadeAndUndone : ¬ Obligations.BindingsAreMadeAndUndone := by
  rintro ⟨-, -, -, -, -, -, -, -, -, hhalt, -⟩
  obtain ⟨hdue, hstate, hphys, hserves, hnone, hactive⟩ := haltsDuringStore_due
  obtain ⟨t, ht, -, -, -, -, hmem⟩ :=
    hhalt State.haltsDuringStore 31 35 (by decide) (by decide) hdue hstate hphys.symm hserves hnone hactive
  rw [exec_unbind (by decide)] at ht
  injection ht with ht
  obtain ⟨hone, hzero⟩ := haltsDuringStore_lands
  have hbyte : t.byte 0x1000 = State.haltsDuringStore.byte 0x1000 := congrArg (fun m => Memory.read m 0x1000) hmem
  rw [← ht, hone, hzero] at hbyte
  exact absurd hbyte (by decide)
end

section
/-!
The image directory (R108): the writes of VERIFIED, ADDR and LEN, and the end of the check of an entry.
-/
namespace Sys2Proof.Machine

variable {w : Who} {s t : State} {i o : Nat} {d : Word}

/-! ## What the unit answers -/

/-- A write of 1 to VERIFIED starts the check of an entry that is neither verified nor under check. -/
theorem imgStatWrite_starts (hd : bitOf d 0 = true) (hv : s.imgVerified i = false) (hc : s.imgChecking i = false) :
    s.imgStatWrite i d = .done (((s.imgDrop i).setBit (imgStat i) 1 false).setChecking i true) := by
  simp [State.imgStatWrite, hd, hv, hc]

theorem imgStatWrite_again (hd : bitOf d 0 = true) (h : s.imgVerified i = true ∨ s.imgChecking i = true) : s.imgStatWrite i d = .done s := by
  rcases h with h | h <;> simp [State.imgStatWrite, hd, h]

theorem imgStatWrite_withdraws (hd : bitOf d 0 = false) (h : (s.imgVerified i && s.imgNamed i) = false) :
    s.imgStatWrite i d = .done ((s.imgDrop i).setChecking i false) := by
  simp [State.imgStatWrite, hd, h]

theorem imgStatWrite_named (hd : bitOf d 0 = false) (h : (s.imgVerified i && s.imgNamed i) = true) : s.imgStatWrite i d = .err s := by
  simp [State.imgStatWrite, hd, h]

theorem imgPlaceWrite_stores (h : (s.imgVerified i && s.imgNamed i) = false) :
    s.imgPlaceWrite i o d = .done ((s.imgDrop i).setReg (imgAddr i + o) (d &&& word (if o = 0 then bits 22 0 else bits 16 0))) := by
  simp [State.imgPlaceWrite, h]

theorem imgPlaceWrite_named (h : (s.imgVerified i && s.imgNamed i) = true) : s.imgPlaceWrite i o d = .err s := by
  simp [State.imgPlaceWrite, h]

/-! ## The registers of an entry -/

/-- The MCP's write in the group of entry i is the directory's. -/
theorem pecWrite_img (hw : isMcp w = true) (ho : o < 0x20) (hi : i < 128) :
    pecWrite s w (0x6000 + i * 0x20 + o) d =
      if o = 0x0C then s.imgStatWrite i d else if o = 0 ∨ o = 4 then s.imgPlaceWrite i o d else .plain := by
  have hindex : (0x6000 + i * 0x20 + o - 0x6000) / 0x20 = i := by omega
  have hoff : (0x6000 + i * 0x20 + o - 0x6000) % 0x20 = o := by omega
  unfold pecWrite
  rw [if_neg (by omega), if_pos (by omega)]
  simp [hindex, hoff, hw]

/-- Every other master is refused there (R109). -/
theorem pecWrite_img_refused (hw : isMcp w = false) (ho : o < 0x20) (hi : i < 128) : pecWrite s w (0x6000 + i * 0x20 + o) d = .err s := by
  unfold pecWrite
  rw [if_neg (by omega), if_pos (by omega)]
  simp [hw]

theorem imgAddr_aligned (h : o % 4 = 0) : (imgAddr i + o) % 4 = 0 := by
  unfold imgAddr pecBase
  omega

/-- A write in the group of an entry is what PEC answers. -/
theorem imgWrite_done (h : Admitted w s) (hi : i < 128) (ho : o < 0x20) (h4 : o % 4 = 0) (hr : pecWrite s w (0x6000 + i * 0x20 + o) d = .done t) :
    regWrite w (imgAddr i + o) d s = acked t :=
  regWrite_admitted h d (imgAddr_aligned h4) (blockOf_img hi ho) (by decide) (by rw [State.blockWrite, hr]; rfl)

theorem imgWrite_refused (h : Admitted w s) (hi : i < 128) (ho : o < 0x20) (h4 : o % 4 = 0)
    (hr : pecWrite s w (0x6000 + i * 0x20 + o) d = .err s) :
    regWrite w (imgAddr i + o) d s = refusedWrite (s.masterError w (imgAddr i + o) true) :=
  regWrite_refused h d (imgAddr_aligned h4) (blockOf_img hi ho) (by decide) (by rw [State.blockWrite, hr]; rfl)

/-! ## The commands -/

theorem exec_imgVerifyStart (h : Admitted w s) (hi : i < 128) : exec (.imgVerifyStart w i) s = .next (regWrite w (imgStat i) 1 s) := by
  have he : exec (.imgVerifyStart w i) s = access w (isImage i) s (regWrite w (imgStat i) 1 s) := rfl
  rw [he, isImage, decide_eq_true hi, access_true h]

theorem exec_imgWithdraw (h : Admitted w s) (hi : i < 128) : exec (.imgWithdraw w i) s = .next (regWrite w (imgStat i) 0 s) := by
  have he : exec (.imgWithdraw w i) s = access w (isImage i) s (regWrite w (imgStat i) 0 s) := rfl
  rw [he, isImage, decide_eq_true hi, access_true h]

theorem exec_imgAddrLenWrite (h : Admitted w s) (hi : i < 128) (isLen : Bool) (d : Word) :
    exec (.imgAddrLenWrite w i isLen d) s = .next (regWrite w (imgAddr i + 4 * bit01 isLen) d s) := by
  have he : exec (.imgAddrLenWrite w i isLen d) s = access w (isImage i) s (regWrite w (imgAddr i + 4 * bit01 isLen) d s) := rfl
  rw [he, isImage, decide_eq_true hi, access_true h]

theorem exec_imgCheckComplete (hi : i < 128) (s : State) : exec (.imgCheckComplete i) s = .next (s.imgCheckEnd i) := by
  have he : exec (.imgCheckComplete i) s = event (isImage i) s (s.imgCheckEnd i) := rfl
  rw [he, isImage, decide_eq_true hi, event_true]

section
variable (hw : ByMcp w) (hi : i < 128)
include hw hi

/-- The MCP's write of VERIFIED is answered by the directory. -/
theorem statWrite_done (hr : s.imgStatWrite i d = .done t) : regWrite w (imgStat i) d s = acked t :=
  imgWrite_done hw.admitted hi (by decide) rfl ((pecWrite_img hw.isMcp (by decide) hi).trans hr)

theorem statWrite_refused (hr : s.imgStatWrite i d = .err s) : regWrite w (imgStat i) d s = refusedWrite (s.masterError w (imgStat i) true) :=
  imgWrite_refused hw.admitted hi (by decide) rfl ((pecWrite_img hw.isMcp (by decide) hi).trans hr)

/-- ADDR stands at offset 0 and LEN at 4. -/
theorem placeWrite (isLen : Bool) : pecWrite s w (0x6000 + i * 0x20 + 4 * bit01 isLen) d = s.imgPlaceWrite i (4 * bit01 isLen) d := by
  cases isLen <;> exact pecWrite_img hw.isMcp (by decide) hi

theorem placeWrite_done (isLen : Bool) (h : (s.imgVerified i && s.imgNamed i) = false) :
    regWrite w (imgAddr i + 4 * bit01 isLen) d s =
      acked ((s.imgDrop i).setReg (imgAddr i + 4 * bit01 isLen) (d &&& word (if isLen then 2 ^ 17 - 1 else 2 ^ 23 - 1))) := by
  rw [imgWrite_done hw.admitted hi (by cases isLen <;> decide) (by cases isLen <;> rfl) ((placeWrite hw hi isLen).trans (imgPlaceWrite_stores h))]
  cases isLen <;> rfl

theorem placeWrite_refused (isLen : Bool) (h : (s.imgVerified i && s.imgNamed i) = true) :
    regWrite w (imgAddr i + 4 * bit01 isLen) d s = refusedWrite (s.masterError w (imgAddr i + 4 * bit01 isLen) true) :=
  imgWrite_refused hw.admitted hi (by cases isLen <;> decide) (by cases isLen <;> rfl) ((placeWrite hw hi isLen).trans (imgPlaceWrite_named h))
end

/-! ## The check -/

theorem imgCheckEnd_passed (hc : s.imgChecking i = true) (h : s.imgCheck i = true) :
    s.imgCheckEnd i = (((s.setChecking i false).setBit (imgStat i) 0 true).setReg (imgAddr i + 8)
      (word (s.img (s.fld (imgAddr i) 0 23) 8 4))).setFld (imgStat i) 16 4 (s.img (s.fld (imgAddr i) 0 23) 0x1F 1) := by
  simp [State.imgCheckEnd, hc, h]

theorem imgCheckEnd_failed (hc : s.imgChecking i = true) (h : s.imgCheck i = false) :
    s.imgCheckEnd i = (s.setChecking i false).setBit (imgStat i) 1 true := by
  simp [State.imgCheckEnd, hc, h]

theorem imgCheckEnd_idle (hc : s.imgChecking i = false) : s.imgCheckEnd i = s := by simp [State.imgCheckEnd, hc]

/-- A copy that is not placed at a multiple of 64, or that does not begin with MAGIC, fails the check (R105). -/
theorem imgCheck_misplaced (h : s.fld (imgAddr i) 0 23 % 64 ≠ 0 ∨ s.img (s.fld (imgAddr i) 0 23) 0 4 ≠ 0x4E4D5049) : s.imgCheck i = false := by
  rcases h with h | h
  · simp [State.imgCheck, h]
  · have hheader : s.headerOk (s.fld (imgAddr i) 0 23) = false := by simp [State.headerOk, h]
    simp [State.imgCheck, hheader]

end Sys2Proof.Machine

open Sys2Proof Sys2Proof.Machine

/-- Settles O11: an access to an entry is the directory's answer, and the end of a check shows its result. -/
theorem imagesAreVerifiedByTheirCheck : Obligations.ImagesAreVerifiedByTheirCheck := by
  refine ⟨?_, ?_, ?_, ?_, ?_, ?_, ?_, ?_, ?_, ?_⟩
  -- the check starts
  · intro w s i hw hi hv hc
    rw [exec_imgVerifyStart hw.admitted hi, statWrite_done hw hi (imgStatWrite_starts rfl hv hc), State.imgDrop]
  -- an entry that is verified or under check
  · intro w s i hw hi h
    rw [exec_imgVerifyStart hw.admitted hi, statWrite_done hw hi (imgStatWrite_again rfl h)]
  -- the check ends
  · exact fun s i hi hc h => by rw [exec_imgCheckComplete hi, imgCheckEnd_passed hc h]
  · exact fun s i hi hc h => by rw [exec_imgCheckComplete hi, imgCheckEnd_failed hc h]
  · exact fun s i hi hc => by rw [exec_imgCheckComplete hi, imgCheckEnd_idle hc]
  · exact fun s i h => imgCheck_misplaced h
  -- an entry that no run list holds fast
  · intro w s i hw hi h
    rw [exec_imgWithdraw hw.admitted hi, statWrite_done hw hi (imgStatWrite_withdraws rfl h), State.imgDrop]
  · intro w s i isLen d hw hi h
    rw [exec_imgAddrLenWrite hw.admitted hi, placeWrite_done hw hi isLen h, State.imgDrop]
  -- an entry that a bound run list names
  · intro w s i isLen d hw hi hv hn
    have h : (s.imgVerified i && s.imgNamed i) = true := by rw [hv, hn, Bool.and_self]
    rw [exec_imgWithdraw hw.admitted hi, exec_imgAddrLenWrite hw.admitted hi, statWrite_refused hw hi (imgStatWrite_named rfl h),
      placeWrite_refused hw hi isLen h]
    exact ⟨rfl, rfl⟩
  -- another master (R109)
  · intro w s i hw ha hi
    have hnot : isMcp w = false := by rw [isMcp, hw]; rfl
    rw [exec_imgVerifyStart ha hi]
    exact congrArg _ (imgWrite_refused ha hi (by decide) rfl (pecWrite_img_refused hnot (by decide) hi))
end

section
/-!
A port of a pair is put in 1000BASE-X with AN_EN = 1 (R199): it advertises on its line at once, so such a write of PCS changes what stands there.
-/
namespace Sys2Proof.Machine

/-- PCS with MODE = 2, 1000BASE-X, and AN_EN and SPEED at their reset values, 1 and 0b10; OTF and AN_RESTART are 0. -/
def pcsBaseX : Word := 0x2A

theorem exec_otfModeWrite {w : Who} {s : State} {p : Nat} (h : Admitted w s) (hp : p < 40) (d : Word) :
    exec (.otfModeWrite w p d) s = .next (regWrite w (portReg p 0) d s) := by
  have he : exec (.otfModeWrite w p d) s = access w (isPort p) s (regWrite w (portReg p 0) d s) := rfl
  rw [he, access_ok h.ok, isPort, decide_eq_true hp, if_pos rfl]

/-- The write asks for nothing that R138, R199 and R200 refuse, and sets neither OTF nor AN_RESTART. -/
theorem pcsBaseX_meets : fieldOf pcsBaseX 0 3 = 2 ∧ fieldOf pcsBaseX 4 2 = 2 ∧ bitOf pcsBaseX 6 = false ∧ bitOf pcsBaseX 7 = false := by decide

/-- After reset no port of the pair is bound or up, and port 38 has put nothing on its line. -/
theorem reset_port38 : State.reset.portHolder 38 = none ∧ State.reset.linkUp 38 = false ∧ State.reset.sw.wire = [] := by decide +kernel

/-- The MCP's write puts the configuration ordered sets on the line of port 38, each with the base page that advertises full duplex alone. -/
theorem reset_pcsBaseX_wire : (regWrite ⟨0x01, .internal⟩ (portReg 38 0) pcsBaseX State.reset).sw.wire =
    [(38, [0xBC, 0xB5, 0x20, 0x00, 0xBC, 0x42, 0x20, 0x00])] := by decide +kernel

end Sys2Proof.Machine

open Sys2Proof Sys2Proof.Machine

/-- Refutes O37: a write that puts the lower port of a pair in 1000BASE-X with AN_EN = 1 changes the port's line, which then carries its
advertisement; the clause on a write of PCS asks for no change of the line, and does not ask that MODE is not 2 or AN_EN is 0. -/
theorem not_framesPassOnTheFly : ¬ Obligations.FramesPassOnTheFly := by
  rintro ⟨hwrite, -⟩
  have hmcp : Admitted ⟨0x01, .internal⟩ State.reset := .inl ⟨rfl, rfl⟩
  obtain ⟨hmode, hspeed, hrestart, hotf⟩ := pcsBaseX_meets
  obtain ⟨hfree, hdown, hsilent⟩ := reset_port38
  obtain ⟨t, ht, -, -, -, hframe⟩ := hwrite _ State.reset 38 pcsBaseX hmcp (by decide) (by decide) rfl hfree hdown
    (by omega) (by omega) (by omega) hrestart (by simp [hotf])
  rw [exec_otfModeWrite hmcp (by decide)] at ht
  injection ht with ht
  have hwire : t.sw.wire = State.reset.sw.wire := (congrArg (fun u : State => u.sw.wire) hframe).trans rfl
  rw [← ht, reset_pcsBaseX_wire, hsilent] at hwire
  exact absurd hwire (by decide)
end

section
/-!
SUPPORT. CAN controllers (chapter 07): what is read of a controller and of its window after each update, and where its registers stand.
-/
namespace Sys2Proof.Machine

variable {s t u : State} {k m o : Nat} {c d : CanSt}

/-! ## Reads after an update -/

@[simp] theorem canc_setCanc_same (s : State) (k : Nat) (c : CanSt) : (s.setCanc k c).canc k = c := Tab.get_set_same _ _
theorem canc_setCanc_other (s : State) (c : CanSt) (h : m ≠ k) : (s.setCanc k c).canc m = s.canc m := Tab.get_set_other _ _ h
@[simp] theorem canc_bump (s : State) (a : Nat) : (s.bump a).canc k = s.canc k := by rfl
@[simp] theorem reg_setCanc (s : State) (k : Nat) (c : CanSt) (a : Nat) : (s.setCanc k c).reg a = s.reg a := by rfl
@[simp] theorem count_setCanc (s : State) (k : Nat) (c : CanSt) (a : Nat) : (s.setCanc k c).count a = s.count a := by rfl

theorem onlyCanc_setCanc (s : State) (k : Nat) (c : CanSt) : OnlyCanc s (s.setCanc k c) k c :=
  ⟨canc_setCanc_same s k c, fun _ h => canc_setCanc_other s c h⟩

theorem OnlyCanc.trans (h : OnlyCanc s t k c) (g : OnlyCanc t u k d) : OnlyCanc s u k d :=
  ⟨g.1, fun m hm => (g.2 m hm).trans (h.2 m hm)⟩

/-- An update that leaves the controllers alone. -/
theorem OnlyCanc.congr (h : OnlyCanc s t k c) (hc : u.can = t.can) : OnlyCanc s u k c := by
  unfold OnlyCanc State.canc at *
  rwa [hc]

/-! ## Where the registers stand (R176) -/

theorem canReg_ne {o' : Nat} (h : o ≠ o') : canReg k o ≠ canReg k o' := by
  unfold canReg
  omega

/-- Windows of two controllers are apart. -/
theorem canReg_ne_window {o' : Nat} (hkm : k ≠ m) (ho : o < 0x8000) (ho' : o' < 0x8000) : canReg k o ≠ canReg m o' := by
  unfold canReg canAddr
  omega

theorem canReg_aligned (h : o % 4 = 0) : canReg k o % 4 = 0 := by
  unfold canReg canAddr canBase
  omega

theorem txStat_ne (j : Nat) (h : o < 0xD00 ∨ 0xD80 ≤ o) : txStat k j ≠ canReg k o := canReg_ne (by omega)

theorem slotAddr_ne_txStat (i j : Nat) {x : Nat} : slotAddr k i + x ≠ txStat k j := by
  unfold slotAddr txStat canReg
  omega

theorem slotAddr_ne (j : Nat) {x : Nat} (h : o < 0x1000) : slotAddr k j + x ≠ canReg k o := by
  unfold slotAddr canReg
  omega

/-- The STRENGTH words of the pin channels stand apart from the windows of the controllers. -/
theorem legReg_ne_canReg {n : Nat} (hn : n < 256) : legReg n 0 ≠ canReg k o := by
  unfold legReg pchReg pchAddr canReg canAddr pchBase canBase
  omega

/-! ## Writes in the window (R176) -/

theorem blockWrite_can {w : Who} {d : Word} (ho : o < 0x8000) (a : Nat) (x : Signed) :
    s.blockWrite w .can (k * 0x8000 + o) a d x = s.canWrite w k o d := by
  rw [State.blockWrite, show (k * 0x8000 + o) / 0x8000 = k by omega, show (k * 0x8000 + o) % 0x8000 = o by omega]

section
variable {w : Who} {a : Word} (h : Admitted w s) (hk : k < 32)
include h hk

/-- The host or the MCP writes a register of a controller that no engine holds. -/
theorem canRegWrite_done (hh : s.holderOf (256 + k) = none) (ho : o < 0x8000) (h4 : o % 4 = 0) (hr : s.canApply k o a true = .done t) :
    regWrite w (canReg k o) a s = acked t := by
  have hw : s.canWrite w k o a = .done t := by simp [State.canWrite, State.canHeld, hh, h.hostOrMcp, hr]
  exact regWrite_admitted h a (canReg_aligned h4) (blockOf_can hk ho) (by decide) (by rw [blockWrite_can ho, hw]; rfl)

/-- An engine holds the controller. -/
theorem canRegWrite_held (hh : s.holderOf (256 + k) ≠ none) (ho : o < 0x8000) (h4 : o % 4 = 0) :
    regWrite w (canReg k o) a s = refusedWrite (s.masterError w (canReg k o) true) := by
  have hw : s.canWrite w k o a = .err s := by simp [State.canWrite, State.canHeld, Option.isSome_iff_ne_none.2 hh]
  exact regWrite_refused h a (canReg_aligned h4) (blockOf_can hk ho) (by decide) (by rw [blockWrite_can ho, hw]; rfl)

/-- An access to a controller that the part has. -/
theorem access_can (s1 : State) : access w (isCan k) s s1 = .next s1 := by rw [isCan, decide_eq_true hk, access_true h]

theorem exec_canModeWrite : exec (.canModeWrite w k a) s = .next (regWrite w (canReg k 0) a s) := access_can h hk _
theorem exec_boRec : exec (.boRec w k a) s = .next (regWrite w (canReg k 0) a s) := access_can h hk _
theorem exec_canTxReq : exec (.canTxReq w k a) s = .next (regWrite w (canReg k 0x24) a s) := access_can h hk _
theorem exec_canTxCxl : exec (.canTxCxl w k a) s = .next (regWrite w (canReg k 0x28) a s) := access_can h hk _
theorem exec_canNewClr : exec (.canNewClr w k a) s = .next (regWrite w (canReg k 0x48) a s) := access_can h hk _
theorem exec_canRxfPop : exec (.canRxfPop w k a) s = .next (regWrite w (canReg k 0x44) a s) := access_can h hk _
end

/-! ## Events of a controller -/

section
variable (hk : k < 32) (s : State)
include hk

/-- An event of a controller that the part has. -/
theorem event_can (s1 : State) : event (isCan k) s s1 = .next s1 := by rw [isCan, decide_eq_true hk, event_true]

theorem exec_canModeChange : exec (.canModeChange k) s = .next (s.canModeChange k) := event_can hk s _
theorem exec_canIntegrationComplete : exec (.canIntegrationComplete k) s = .next (s.canIntegrated k) := event_can hk s _
theorem exec_busOffRecoveryComplete : exec (.busOffRecoveryComplete k) s = .next (s.canRecovered k) := event_can hk s _
theorem exec_canAttemptStart : exec (.canAttemptStart k) s = .next (s.canStart k) := event_can hk s _
theorem exec_canAttemptEnd (how : CanEnd) : exec (.canAttemptEnd k how) s = .next (s.canEnd k how) := event_can hk s _
end

end Sys2Proof.Machine
end

section
/-!
Modes and bus-off recovery of a CAN controller (R178, R179, R189): what a write of CTL stores, what it makes of the mode, and the events that follow.
-/
namespace Sys2Proof.Machine

variable {s t : State} {k m : Nat} {d : Word}

/-! ## The parts of a CTL write -/

/-- A write of CTL changes FDOE or BRSE while the mode in force is not CONFIG (R178). -/
def State.ctlKeeps (s : State) (k : Nat) (d : Word) : Bool := (s.canc k).mode != 0 && (fieldOf d 2 2 != s.fld (canReg k 0) 2 2)

/-- What a write of CTL stores: the word as far as the mode lets it, and CFG_DROP where it does not. -/
def State.ctlStored (s : State) (k : Nat) (d : Word) : State :=
  let s1 := plainWord s (canReg k 0) (bits 5 0 + bits 8 7 - (if (s.canc k).mode != 0 then bits 3 2 else 0)) 0 d
  if s.ctlKeeps k d then s1.canSticky k 7 else s1

theorem canc_ctlStored (s : State) (k : Nat) (d : Word) (m : Nat) : (s.ctlStored k d).canc m = s.canc m := by
  simp only [State.ctlStored]
  split <;> rfl

theorem ctlKeeps_config (h : (s.canc k).mode = 0) : s.ctlKeeps k d = false := by simp [State.ctlKeeps, h]
theorem ctlKeeps_same (h : fieldOf d 2 2 = s.fld (canReg k 0) 2 2) : s.ctlKeeps k d = false := by simp [State.ctlKeeps, h]

/-- A write that keeps FDOE and BRSE changes no word but CTL. -/
theorem ctlStored_setReg (h : s.ctlKeeps k d = false) : ∃ v, s.ctlStored k d = s.setReg (canReg k 0) v :=
  ⟨_, by rw [State.ctlStored, h]; rfl⟩

/-- The mask of CTL's RW bits in CONFIG covers MODE, which then reads as it was written. -/
theorem fld_ctlStored_mode (h : (s.canc k).mode = 0) : (s.ctlStored k d).fld (canReg k 0) 0 2 = fieldOf d 0 2 := by
  have hmask (j : Nat) (hj : j < 2) : (word (bits 5 0 + bits 8 7)).getLsbD j = true := by
    interval_cases j <;> decide
  rw [State.ctlStored, ctlKeeps_config h, h]
  simp only [bne_self_eq_false, Bool.false_eq_true, if_false, Nat.sub_zero, plainWord_no_w1c, State.fld, State.reg_setReg_same]
  apply Nat.eq_of_testBit_eq
  intro j
  simp only [fieldOf, bitsOf, Nat.testBit_mod_two_pow, Nat.testBit_div_two_pow, BitVec.testBit_toNat, Nat.add_zero]
  by_cases hj : j < 2
  · simp only [BitVec.getLsbD_or, BitVec.getLsbD_and, BitVec.getLsbD_not, hmask j hj]
    simp
  · simp [hj]

/-- Without BO_REC a write of CTL stores the word and takes up MODE. -/
theorem canCtlWrite_mode (h : bitOf d 6 = false) : s.canCtlWrite k d = (s.ctlStored k d).canModeWrite k (fieldOf d 0 2) := by
  simp only [State.canCtlWrite, h, Bool.false_and, Bool.false_eq_true, if_false]
  rfl

/-- BO_REC notes the request of a controller that is bus-off. -/
theorem canCtlWrite_recover (h : bitOf d 6 = true) (hb : (s.canc k).busOff = true) :
    s.canCtlWrite k d = ((s.ctlStored k d).setCanc k { s.canc k with boGo := true }).canModeWrite k (fieldOf d 0 2) := by
  rw [← canc_ctlStored s k d k]
  simp only [State.canCtlWrite, h, hb, Bool.and_true, if_true]
  rfl

/-! ## MODE -/

theorem canModeWrite_same (h : m = (s.canc k).mode) : s.canModeWrite k m = s.setCanc k { s.canc k with pend := none } := by
  rw [State.canModeWrite, if_pos h]

theorem canModeWrite_now (h : m ≠ (s.canc k).mode) (hp : (s.canc k).pend = none) (hs : (s.canc k).sync = false) :
    s.canModeWrite k m = (s.canSetMode k m).free := by
  simp [State.canModeWrite, h, hp, State.canFrameOnBus, State.canReceiving, hs]

theorem canModeWrite_waits (h : m ≠ (s.canc k).mode) (hs : (s.canc k).sync = true) (ha : (s.canc k).attempt = true) :
    s.canModeWrite k m = (s.setCanc k { s.canc k with pend := some m }).free := by
  simp [State.canModeWrite, h, State.canFrameOnBus, hs, ha]

/-- A change takes effect, and integration follows. -/
theorem canSetMode_changes (h : m ≠ (s.canc k).mode) (ht : (s.canc k).mode ≠ 0 ∨ s.canTimingOk k = true) :
    s.canSetMode k m = s.setCanc k { s.canc k with pend := none, mode := m, sync := false } := by
  rw [State.canSetMode, if_neg (by rintro ⟨h0, -, hf⟩; simp_all), if_neg h]

theorem canSetMode_refused (h0 : (s.canc k).mode = 0) (hm : m ≠ 0) (ht : s.canTimingOk k = false) :
    s.canSetMode k m = ((s.setCanc k { s.canc k with pend := none }).setFld (canReg k 0) 0 2 0).canSticky k 7 := by
  rw [State.canSetMode, if_pos ⟨h0, hm, ht⟩]

/-- The timing words stand apart from CTL and STICKY. -/
theorem canTimingOk_ctlStored (h : s.ctlKeeps k d = false) : (s.ctlStored k d).canTimingOk k = s.canTimingOk k := by
  obtain ⟨v, hv⟩ := ctlStored_setReg h
  rw [hv, State.canTimingOk, State.canTimingOk, s.reg_setReg_other v (canReg_ne (by decide)), s.reg_setReg_other v (canReg_ne (by decide))]

theorem mode_word (h : m < 4) : fieldOf (word m) 0 2 = m := fieldOf_word_low h (by decide)
theorem mode_word_no_recover (h : m < 4) : bitOf (word m) 6 = false := by
  interval_cases m <;> decide

/-- A write of BO_REC with a mode beside it, and with FDOE and BRSE at 0. -/
theorem recover_word (h : m < 4) : bitOf (word (64 + m)) 6 = true ∧ fieldOf (word (64 + m)) 0 2 = m ∧ fieldOf (word (64 + m)) 2 2 = 0 := by
  interval_cases m <;> decide

/-! ## The write by a master -/

section
variable {w : Who} (h : Admitted w s) (hk : k < 32)
include h hk

theorem ctlWrite_held (hh : s.holderOf (256 + k) ≠ none) : regWrite w (canReg k 0) d s = refusedWrite (s.masterError w (canReg k 0) true) :=
  canRegWrite_held h hk hh (by decide) rfl

variable (hh : s.holderOf (256 + k) = none)
include hh

theorem ctlWrite_done : regWrite w (canReg k 0) d s = acked (s.canCtlWrite k d) :=
  canRegWrite_done h hk hh (by decide) rfl (by rw [State.canApply, if_pos rfl])

/-- A write of MODE alone. -/
theorem exec_canModeWrite_mode (hm : m < 4) : exec (.canModeWrite w k (word m)) s = .next (acked ((s.ctlStored k (word m)).canModeWrite k m)) := by
  rw [exec_canModeWrite h hk, ctlWrite_done h hk hh, canCtlWrite_mode (mode_word_no_recover hm), mode_word hm]

variable (h0 : (s.canc k).mode = 0) (hm0 : 0 < m) (hm : m < 4) (hp : (s.canc k).pend = none) (hs : (s.canc k).sync = false)
include h0 hm0 hm hp hs

/-- A controller that is not integrated takes a mode up at once. -/
theorem exec_canModeWrite_leave : exec (.canModeWrite w k (word m)) s = .next (acked ((s.ctlStored k (word m)).canSetMode k m).free) := by
  rw [exec_canModeWrite_mode h hk hh hm, canModeWrite_now (by rw [canc_ctlStored, h0]; exact hm0.ne') (by rw [canc_ctlStored, hp])
    (by rw [canc_ctlStored, hs])]

/-- CONFIG is left with timing that holds. -/
theorem canModeWrite_leaves_config (ht : s.canTimingOk k = true) :
    Leaves (.canModeWrite w k (word m)) s (fun t => OnlyCanc s t k { s.canc k with mode := m, sync := false } ∧
      t.fld (canReg k 0) 0 2 = m ∧ OtherRegs s t [canReg k 0] ∧ t = { acked s with regs := t.regs, can := t.can, freeCtr := t.freeCtr }) := by
  have hkeep : s.ctlKeeps k (word m) = false := ctlKeeps_config h0
  have hmode := fld_ctlStored_mode (d := word m) h0
  have he := exec_canModeWrite_leave h hk hh h0 hm0 hm hp hs
  rw [canSetMode_changes (by rw [canc_ctlStored, h0]; exact hm0.ne') (.inr (by rw [canTimingOk_ctlStored hkeep, ht])), canc_ctlStored,
    ← hp] at he
  rw [mode_word hm] at hmode
  obtain ⟨v, hv⟩ := ctlStored_setReg hkeep
  rw [hv] at he hmode
  exact ⟨_, he, onlyCanc_setCanc s k _, hmode, fun a ha => s.reg_setReg_other v (by simpa using ha), rfl⟩

/-- CONFIG is kept with timing that does not hold: MODE shows 0, and CFG_DROP is set. -/
theorem canModeWrite_stays_config (ht : s.canTimingOk k = false) :
    Leaves (.canModeWrite w k (word m)) s (fun t => OnlyCanc s t k (s.canc k) ∧ t.fld (canReg k 0) 0 2 = 0 ∧
      t.bit (canReg k 0x18) 7 = true ∧ OtherRegs s t [canReg k 0, canReg k 0x18]) := by
  have hkeep : s.ctlKeeps k (word m) = false := ctlKeeps_config h0
  have hself : { s.canc k with pend := none } = s.canc k := by rw [← hp]
  have he := exec_canModeWrite_leave h hk hh h0 hm0 hm hp hs
  rw [canSetMode_refused (by rw [canc_ctlStored, h0]) hm0.ne' (by rw [canTimingOk_ctlStored hkeep, ht]), canc_ctlStored, hself] at he
  obtain ⟨v, hv⟩ := ctlStored_setReg hkeep
  rw [hv] at he
  refine ⟨_, he, (onlyCanc_setCanc s k (s.canc k)).congr rfl, ?_, State.bit_setBit_same _ _ _ _ (by decide), fun a ha => ?_⟩
  · exact (State.fld_setBit_other _ _ _ _ _ (canReg_ne (by decide))).trans (State.fld_setFld_same _ _ _ _ _ (by decide))
  · obtain ⟨hctl, hsticky⟩ : a ≠ canReg k 0 ∧ a ≠ canReg k 0x18 := by simpa using ha
    exact (State.reg_setBit_other _ _ _ hsticky).trans ((State.reg_setFld_other _ _ _ _ hctl).trans (s.reg_setReg_other v hctl))
end

/-! ## The events that follow -/

theorem canModeChange_takes (hp : (s.canc k).pend = some m) (ha : (s.canc k).attempt = false) : s.canModeChange k = s.canSetMode k m := by
  simp [State.canModeChange, hp, ha]

theorem canModeChange_idle (h : (s.canc k).pend = none ∨ (s.canc k).attempt = true) : s.canModeChange k = s := by
  rcases h with hp | ha
  · simp [State.canModeChange, hp]
  · cases hp : (s.canc k).pend <;> simp [State.canModeChange, hp, ha]

theorem canIntegrated_takes (hm : (s.canc k).mode ≠ 0) (hs : (s.canc k).sync = false) (hb : (s.canc k).busOff = false) :
    s.canIntegrated k = s.setCanc k { s.canc k with sync := true } := by
  rw [State.canIntegrated, if_pos ⟨hm, hs, hb⟩]

theorem canIntegrated_idle (h : (s.canc k).mode = 0 ∨ (s.canc k).sync = true ∨ (s.canc k).busOff = true) : s.canIntegrated k = s := by
  rw [State.canIntegrated, if_neg]
  rintro ⟨hm, hs, hb⟩
  simp [hm, hs, hb] at h

theorem canRecovered_takes (hb : (s.canc k).busOff = true) (hm : (s.canc k).mode ≠ 0) (hc : s.canCounts k = true) (ho : s.canOnBus k = true)
    (hg : (s.canc k).boGo = true ∨ s.bit (canReg k 0) 5 = true) :
    s.canRecovered k = s.setCanc k { s.canc k with busOff := false, boGo := false, tec := 0, rec' := 0, sync := true } := by
  rw [State.canRecovered, if_pos (by simp [hb, hm, hc, ho, hg])]

theorem canRecovered_idle (h : s.canOnBus k = false ∨ (s.canc k).busOff = false ∨ ((s.canc k).boGo = false ∧ s.bit (canReg k 0) 5 = false)) :
    s.canRecovered k = s := by
  rw [State.canRecovered, if_neg]
  rcases h with h | h | ⟨h, h5⟩
  · simp [h]
  · simp [h]
  · simp [h, h5]

end Sys2Proof.Machine

open Sys2Proof Sys2Proof.Machine

/-- Settles O30: what a write of MODE comes to in CONFIG and during an attempt, and the events that end a frame and an integration. -/
theorem canModes : Obligations.CanModes := by
  unfold Obligations.CanModes
  refine ⟨?_, ?_, ?_, ?_, ?_, ?_, ?_, ?_⟩
  -- a write of MODE in CONFIG (R178)
  · intro w s k m ha hk hh h0 hm0 hm hp hs ht
    exact canModeWrite_leaves_config ha hk hh h0 hm0 hm hp hs ht
  · intro w s k m ha hk hh h0 hm0 hm hp hs ht
    exact canModeWrite_stays_config ha hk hh h0 hm0 hm hp hs ht
  -- during an attempt (R179)
  · intro w s k m ha hk hh hm hne hs hat
    have he := exec_canModeWrite_mode ha hk hh hm
    rw [canModeWrite_waits (by rwa [canc_ctlStored]) (by rwa [canc_ctlStored]) (by rwa [canc_ctlStored]), canc_ctlStored] at he
    refine ⟨_, he, canc_setCanc_same _ _ _, fun n hn => ?_⟩
    exact (canc_setCanc_other _ _ hn).trans (canc_ctlStored s k _ n)
  -- in a controller that an engine holds (R176)
  · intro w s k d ha hk hh
    rw [exec_canModeWrite ha hk, exec_boRec ha hk, ctlWrite_held ha hk hh]
    exact ⟨rfl, rfl⟩
  -- the end of the frame (R179)
  · intro s k m hk hp ha h0 hm
    rw [exec_canModeChange hk, canModeChange_takes hp ha, canSetMode_changes hm (.inl h0)]
  · intro s k hk h
    rw [exec_canModeChange hk, canModeChange_idle h]
  -- integration (R178)
  · intro s k hk hm hs hb
    rw [exec_canIntegrationComplete hk, canIntegrated_takes hm hs hb]
  · intro s k hk h
    rw [exec_canIntegrationComplete hk, canIntegrated_idle h]

/-- Settles O31: BO_REC notes the request, and the recovery ends with both error counters at zero. -/
theorem canBusOffRecovery : Obligations.CanBusOffRecovery := by
  unfold Obligations.CanBusOffRecovery
  refine ⟨?_, ?_, ?_⟩
  · intro w s k m ha hk hh hb hm hm4 h0
    obtain ⟨hrec, hmode, hkept⟩ := recover_word hm4
    have he := exec_boRec (a := word (64 + m)) ha hk
    rw [ctlWrite_done ha hk hh, canCtlWrite_recover hrec hb, hmode, canModeWrite_same (by rw [canc_setCanc_same, hm]), canc_setCanc_same] at he
    obtain ⟨v, hv⟩ := ctlStored_setReg (s := s) (k := k) (ctlKeeps_same (hkept.trans h0.symm))
    rw [hv] at he
    exact ⟨_, he, (onlyCanc_setCanc s k _).trans (onlyCanc_setCanc _ k _), fun a h => s.reg_setReg_other v (by simpa using h), rfl⟩
  · intro s k hk hb hm hc ho hg
    rw [exec_busOffRecoveryComplete hk, canRecovered_takes hb hm hc ho hg]
  · intro s k hk h
    rw [exec_busOffRecoveryComplete hk, canRecovered_idle h]
end

section
/-!
Requests, cancels, NEW bits and FIFO pops of a CAN controller (R182, R188, R194, R196), and the capture of the view (R38).
-/
namespace Sys2Proof.Machine

variable {s t : State} {k m j o : Nat} {d : Word}

/-! ## The word of one slot -/

/-- A word with one bit set names its slot alone. -/
theorem slotsOf_single (h : j < 32) : slotsOf (word (2 ^ j)) = [j] := by
  interval_cases j <;> decide

/-! ## Requests (R182) -/

/-- The frame of a slot is an FD frame that the controller does not send: FDOE is 0, or RTR is set. -/
def State.fdRefused (s : State) (k j : Nat) : Prop :=
  s.bit (slotAddr k j + 4) 4 = true ∧ (s.bit (canReg k 0) 2 = false ∨ s.bit (slotAddr k j) 30 = true)

theorem canRequest_dropped (h : s.slotState k j = 1 ∨ s.slotState k j = 2 ∨ s.fdRefused k j) (direct : Bool) :
    s.canRequest k direct j = s.setBit (canReg k 0x18) 8 true := by
  rw [State.canRequest, if_pos (by simpa [State.fdRefused] using h), State.canSticky]

theorem canRequest_queued (h1 : s.slotState k j ≠ 1) (h2 : s.slotState k j ≠ 2) (h : ¬ s.fdRefused k j) (direct : Bool) :
    s.canRequest k direct j =
      (s.setCanc k { s.canc k with queue := (s.canc k).queue ++ [⟨j, direct, false⟩] }).setReg (txStat k j) 1 := by
  rw [State.canRequest, if_neg (by simpa [State.fdRefused, h1, h2] using h)]

/-! ## Cancels (R188) -/

theorem canCancel_queued (h : s.slotState k j = 1) : s.canCancel k j =
    (s.setCanc k { s.canc k with queue := (s.canc k).queue.filter (fun e => e.slot != j) }).setReg (txStat k j) 4 := by
  rw [State.canCancel, if_pos h]

theorem canCancel_sending (h : s.slotState k j = 2) : s.canCancel k j = s.setCanc k { s.canc k with cancelled := true } := by
  rw [State.canCancel, if_neg (by omega), if_pos h]

theorem canCancel_other (h1 : s.slotState k j ≠ 1) (h2 : s.slotState k j ≠ 2) : s.canCancel k j = s := by
  rw [State.canCancel, if_neg h1, if_neg h2]

/-! ## The writes by a master -/

section
variable {w : Who} (h : Admitted w s) (hk : k < 32)
include h hk

theorem exec_requests_held (hh : s.holderOf (256 + k) ≠ none) :
    exec (.canTxReq w k d) s = .next (refusedWrite (s.masterError w (canReg k 0x24) true)) ∧
    exec (.canTxCxl w k d) s = .next (refusedWrite (s.masterError w (canReg k 0x28) true)) ∧
    exec (.canNewClr w k d) s = .next (refusedWrite (s.masterError w (canReg k 0x48) true)) ∧
    exec (.canRxfPop w k d) s = .next (refusedWrite (s.masterError w (canReg k 0x44) true)) := by
  rw [exec_canTxReq h hk, exec_canTxCxl h hk, exec_canNewClr h hk, exec_canRxfPop h hk, canRegWrite_held h hk hh (by decide) rfl,
    canRegWrite_held h hk hh (by decide) rfl, canRegWrite_held h hk hh (by decide) rfl, canRegWrite_held h hk hh (by decide) rfl]
  exact ⟨rfl, rfl, rfl, rfl⟩

variable (hh : s.holderOf (256 + k) = none)
include hh

theorem exec_canTxReq_slot (hj : j < 32) : exec (.canTxReq w k (word (2 ^ j))) s = .next (acked (s.canRequest k true j)) := by
  have hr : s.canApply k 0x24 (word (2 ^ j)) true = .done (s.canRequest k true j) := by simp [State.canApply, slotsOf_single hj]
  rw [exec_canTxReq h hk, canRegWrite_done h hk hh (by decide) rfl hr]

theorem exec_canTxCxl_slot (hj : j < 32) : exec (.canTxCxl w k (word (2 ^ j))) s = .next (acked (s.canCancel k j)) := by
  have hr : s.canApply k 0x28 (word (2 ^ j)) true = .done (s.canCancel k j) := by simp [State.canApply, slotsOf_single hj]
  rw [exec_canTxCxl h hk, canRegWrite_done h hk hh (by decide) rfl hr]

theorem exec_canNewClr_done : exec (.canNewClr w k d) s = .next (acked (s.canNewClr k d)) := by
  have hr : s.canApply k 0x48 d true = .done (s.canNewClr k d) := by simp [State.canApply]
  rw [exec_canNewClr h hk, canRegWrite_done h hk hh (by decide) rfl hr]

theorem exec_canRxfPop_done : exec (.canRxfPop w k d) s = .next (acked (if bitOf d 0 then
    s.setCanc k { s.canc k with rxf := (s.canc k).rxf.drop 1, viewLeft := (s.canc k).viewLeft - 1 } else s)) := by
  have hr : s.canApply k 0x44 d true = .done (if bitOf d 0 then
      s.setCanc k { s.canc k with rxf := (s.canc k).rxf.drop 1, viewLeft := (s.canc k).viewLeft - 1 } else s) := by simp [State.canApply]
  rw [exec_canRxfPop h hk, canRegWrite_done h hk hh (by decide) rfl hr]
end

/-! ## The view (R38) -/

/-- Controller k with its window is the same in two states. -/
def SameWindow (k : Nat) (s t : State) : Prop := t.canc k = s.canc k ∧ ∀ o, o < 0x8000 → t.reg (canReg k o) = s.reg (canReg k o)

theorem SameWindow.refl (k : Nat) (s : State) : SameWindow k s s := ⟨rfl, fun _ _ => rfl⟩
theorem SameWindow.trans {u : State} (h : SameWindow k s t) (g : SameWindow k t u) : SameWindow k s u :=
  ⟨g.1.trans h.1, fun o ho => (g.2 o ho).trans (h.2 o ho)⟩

/-- A controller after the capture of its view. -/
def CanSt.viewed (c : CanSt) : CanSt :=
  { c with viewRxf := c.rxf.length, viewLeft := c.rxf.length, queue := c.queue.map (fun e => { e with eligible := true }) }

/-- The capture of controller k, which shows the words v and x as its NEW bits. -/
def State.viewShown (s : State) (k : Nat) (v x : Word) : State :=
  ((s.setReg (canReg k 0x38) v).setReg (canReg k 0x3C) x).setCanc k (s.canc k).viewed

theorem canView_eq (s : State) (k : Nat) : s.canView k = s.viewShown k (s.newBits k 0) (s.newBits k 32) := rfl

theorem viewShown_reg (s : State) (k : Nat) (v x : Word) {a : Nat} (h1 : a ≠ canReg k 0x38) (h2 : a ≠ canReg k 0x3C) :
    (s.viewShown k v x).reg a = s.reg a := (State.reg_setReg_other _ _ h2).trans (s.reg_setReg_other _ h1)

theorem viewShown_low (s : State) (k : Nat) (v x : Word) : (s.viewShown k v x).reg (canReg k 0x38) = v :=
  (State.reg_setReg_other _ _ (canReg_ne (by decide))).trans (State.reg_setReg_same _ _ _)

theorem viewShown_high (s : State) (k : Nat) (v x : Word) : (s.viewShown k v x).reg (canReg k 0x3C) = x := State.reg_setReg_same _ _ _

theorem viewShown_canc (s : State) (k : Nat) (v x : Word) : OnlyCanc s (s.viewShown k v x) k (s.canc k).viewed :=
  onlyCanc_setCanc ((s.setReg (canReg k 0x38) v).setReg (canReg k 0x3C) x) k _

theorem viewShown_apart (s : State) (v x : Word) (h : m ≠ k) : SameWindow m s (s.viewShown k v x) :=
  ⟨(viewShown_canc s k v x).2 m h, fun _ ho => viewShown_reg s k v x (canReg_ne_window h ho (by decide)) (canReg_ne_window h ho (by decide))⟩

theorem canView_apart (s : State) (h : m ≠ k) : SameWindow m s (s.canView k) := by
  rw [canView_eq]
  exact viewShown_apart s _ _ h

/-- The NEW bits of a controller depend on its window alone. -/
theorem newBits_congr (h : SameWindow k s t) {b : Nat} (hb : b ≤ 32) : t.newBits k b = s.newBits k b := by
  unfold State.newBits
  congr 1
  refine List.foldl_ext _ _ _ fun v i hi => ?_
  have hi : i < 32 := List.mem_range.1 hi
  rw [State.bit, State.bit, bufStat, h.2 _ (by omega)]

/-- What a capture leaves of a controller: its view, and the NEW bits in the registers that show them. -/
structure Captured (k : Nat) (s t : State) : Prop where
  canc : t.canc k = (s.canc k).viewed
  low : t.reg (canReg k 0x38) = s.newBits k 0
  high : t.reg (canReg k 0x3C) = s.newBits k 32

theorem canView_captured (s : State) (k : Nat) : Captured k s (s.canView k) := by
  rw [canView_eq]
  exact ⟨(viewShown_canc s k _ _).1, viewShown_low s k _ _, viewShown_high s k _ _⟩

theorem Captured.after {u : State} (h : SameWindow k s t) (g : Captured k t u) : Captured k s u where
  canc := by rw [g.canc, h.1]
  low := by rw [g.low, newBits_congr h (by decide)]
  high := by rw [g.high, newBits_congr h (by decide)]

theorem Captured.before {u : State} (g : Captured k s t) (h : SameWindow k t u) : Captured k s u where
  canc := h.1.trans g.canc
  low := (h.2 _ (by decide)).trans g.low
  high := (h.2 _ (by decide)).trans g.high

/-- Every controller captures its view. -/
def State.canViews (s : State) (ks : List Nat) : State := ks.foldl (fun (st : State) (k : Nat) => st.canView k) s

theorem canViews_cons (s : State) (k : Nat) (ks : List Nat) : s.canViews (k :: ks) = (s.canView k).canViews ks := by
  rw [State.canViews, List.foldl_cons, State.canViews]

/-- A state without its controllers and register words. -/
def State.besideWindows (s : State) : State := { s with can := [], regs := [] }

/-- States that differ in no more than these. -/
theorem eq_of_besideWindows (h : t.besideWindows = s.besideWindows) : t = { s with can := t.can, regs := t.regs } :=
  congrArg (fun u : State => { u with can := t.can, regs := t.regs }) h

theorem setReg_besideWindows (s : State) (a : Nat) (v : Word) : (s.setReg a v).besideWindows = s.besideWindows := by
  simp [State.besideWindows, State.setReg]

theorem setCanc_besideWindows (s : State) (k : Nat) (c : CanSt) : (s.setCanc k c).besideWindows = s.besideWindows := by
  simp [State.besideWindows, State.setCanc]

theorem viewShown_besideWindows (s : State) (k : Nat) (v x : Word) : (s.viewShown k v x).besideWindows = s.besideWindows := by
  rw [State.viewShown, setCanc_besideWindows, setReg_besideWindows, setReg_besideWindows]

theorem canViews_besideWindows (ks : List Nat) (s : State) : (s.canViews ks).besideWindows = s.besideWindows :=
  foldl_keeps (k := State.besideWindows) (fun u k => by rw [canView_eq, viewShown_besideWindows]) ks s

theorem canViews_apart (ks : List Nat) (s : State) (h : k ∉ ks) : SameWindow k s (s.canViews ks) := by
  induction ks generalizing s with
  | nil => exact .refl k s
  | cons m ks ih =>
    obtain ⟨hm, hks⟩ := not_or.1 (mt List.mem_cons.2 h)
    rw [canViews_cons]
    exact (canView_apart s hm).trans (ih _ hks)

theorem canViews_captured (ks : List Nat) (s : State) (hn : ks.Nodup) (h : k ∈ ks) : Captured k s (s.canViews ks) := by
  induction ks generalizing s with
  | nil => exact absurd h List.not_mem_nil
  | cons m ks ih =>
    obtain ⟨hm, hn⟩ := List.nodup_cons.1 hn
    rw [canViews_cons]
    rcases List.mem_cons.1 h with rfl | hk
    · exact (canView_captured s k).before (canViews_apart ks _ hm)
    · exact .after (canView_apart s (ne_of_mem_of_not_mem hk hm)) (ih _ hn hk)

theorem exec_canViewCapture (s : State) : exec .canViewCapture s = .next s.canCapture := rfl

theorem canCapture_idle (h : s.pec.canDue = false) : s.canCapture = s := by simp [State.canCapture, h]

theorem canCapture_due (h : s.pec.canDue = true) :
    s.canCapture = State.canViews { s with pec := { s.pec with canDue := false } } (List.range 32) := by
  rw [State.canCapture, if_pos h]
  rfl

end Sys2Proof.Machine

open Sys2Proof Sys2Proof.Machine

/-- Settles O32: a write of TX_REQ, TX_CXL, NEW_CLR and RXF_POP is the controller's own effect, and the view is captured window by window. -/
theorem canRequests : Obligations.CanRequests := by
  unfold Obligations.CanRequests
  refine ⟨?_, ?_, ?_, ?_, ?_, ?_, ?_, ?_, ?_, ?_⟩
  -- a request (R182)
  · intro w s k j ha hk hj hh h1 h2 hfd
    rw [exec_canTxReq_slot ha hk hh hj, canRequest_queued h1 h2 _ true]
    rintro ⟨h4, hno⟩
    rcases hfd with hfd | ⟨hfdoe, hrtr⟩
    · exact absurd (h4.symm.trans hfd) (by decide)
    · simp [hfdoe, hrtr] at hno
  · intro w s k j ha hk hj hh h
    rw [exec_canTxReq_slot ha hk hh hj, canRequest_dropped h true]
  -- a cancel (R188)
  · intro w s k j ha hk hj hh h
    rw [exec_canTxCxl_slot ha hk hh hj, canCancel_queued h]
  · intro w s k j ha hk hj hh h
    rw [exec_canTxCxl_slot ha hk hh hj, canCancel_sending h]
  · intro w s k j ha hk hj hh h1 h2
    rw [exec_canTxCxl_slot ha hk hh hj, canCancel_other h1 h2]
  -- NEW bits and the receive FIFO (R194, R196)
  · intro w s k d ha hk hh
    rw [exec_canNewClr_done ha hk hh, State.canNewClr]
  · intro w s k d ha hk hh
    exact exec_canRxfPop_done ha hk hh
  -- a controller that an engine holds (R176)
  · intro w s k d ha hk hh
    exact exec_requests_held ha hk hh
  -- the view (R38)
  · intro s h
    rw [exec_canViewCapture, canCapture_idle h]
  · intro s h
    rw [Leaves, exec_canViewCapture, canCapture_due h]
    refine ⟨_, rfl, eq_of_besideWindows ((canViews_besideWindows _ _).trans rfl), fun k hk => ?_⟩
    have hc := canViews_captured (List.range 32) { s with pec := { s.pec with canDue := false } } List.nodup_range (List.mem_range.2 hk)
    exact ⟨hc.canc, hc.low, hc.high⟩
end

section
/-!
Transmission attempts of a CAN controller (R183, R187 to R191): the start, the steps of TEC, and the three ways in which an attempt ends.
-/
namespace Sys2Proof.Machine

variable {s t u : State} {k n more : Nat} {c : CanSt} {e : CanEntry} {q : List CanEntry}

/-! ## The start (R187) -/

/-- SOF of the head entry; the ESI bit of its record is `esi`. -/
def State.sofSent (s : State) (k : Nat) (e : CanEntry) (q : List CanEntry) (esi : Bool) : State :=
  ((s.setCanc k { s.canc k with
    queue := { e with tried := true } :: q, attempt := true, cancelled := false, sofAt := s.ns, sofCyc := s.cyc, filterLog := [] }).setReg
    (txStat k e.slot) 2).setBit (slotAddr k e.slot + 4) 6 esi

theorem canStart_first (h : s.canMayStart k = true) (hq : (s.canc k).queue = e :: q) (ht : e.tried = false) :
    ∃ esi, s.canStart k = s.sofSent k e q esi := ⟨_, by simp only [State.canStart, h, hq, ht, if_true]; rfl⟩

theorem canStart_again (h : s.canMayStart k = true) (hq : (s.canc k).queue = e :: q) (ht : e.tried = true) :
    ∃ esi, s.canStart k = (s.sofSent k e q esi).canRetry k := ⟨_, by simp only [State.canStart, h, hq, ht, if_true]; rfl⟩

theorem canStart_idle (h : s.canMayStart k = false) : s.canStart k = s := by simp [State.canStart, h]

theorem sofSent_canc (s : State) (k : Nat) (e : CanEntry) (q : List CanEntry) (esi : Bool) : OnlyCanc s (s.sofSent k e q esi) k { s.canc k with
    queue := { e with tried := true } :: q, attempt := true, cancelled := false, sofAt := s.ns, sofCyc := s.cyc, filterLog := [] } :=
  (onlyCanc_setCanc s k _).congr rfl

theorem sofSent_besideWindows (s : State) (k : Nat) (e : CanEntry) (q : List CanEntry) (esi : Bool) :
    (s.sofSent k e q esi).besideWindows = s.besideWindows := by
  rw [State.sofSent, State.setBit, State.setFld, setReg_besideWindows, setReg_besideWindows, setCanc_besideWindows]

theorem sofSent_stat (s : State) (k : Nat) (e : CanEntry) (q : List CanEntry) (esi : Bool) : (s.sofSent k e q esi).reg (txStat k e.slot) = 2 :=
  (State.reg_setBit_other _ _ _ (slotAddr_ne_txStat _ _).symm).trans (State.reg_setReg_same _ _ _)

theorem sofSent_reg (s : State) (k : Nat) (e : CanEntry) (q : List CanEntry) (esi : Bool) {a : Nat} (h1 : a ≠ txStat k e.slot)
    (h2 : a ≠ slotAddr k e.slot + 4) : (s.sofSent k e q esi).reg a = s.reg a :=
  (State.reg_setBit_other _ _ _ h2).trans (State.reg_setReg_other _ _ h1)

/-- RETRY_CNT counts, below its maximum. -/
theorem canRetry_counts (h : (s.reg (canReg k 0x1C)).toNat < 0xFFFFFFFE) :
    s.canRetry k = s.setReg (canReg k 0x1C) (s.reg (canReg k 0x1C) + 1) := by
  have hw : word ((s.reg (canReg k 0x1C)).toNat + 1) = s.reg (canReg k 0x1C) + 1 := by
    rw [word, BitVec.ofNat_add, BitVec.ofNat_toNat, BitVec.setWidth_eq]
    rfl
  simp only [State.canRetry]
  rw [if_neg (by omega), if_neg (by omega), hw]

/-! ## The steps of TEC (R189) -/

/-- From s to t controller k becomes c; of the registers STICKY alone may differ, and no counter does. -/
structure Recounted (k : Nat) (c : CanSt) (s t : State) : Prop where
  canc : OnlyCanc s t k c
  reg : ∀ a, a ≠ canReg k 0x18 → t.reg a = s.reg a
  count : ∀ a, t.count a = s.count a

theorem Recounted.trans {d : CanSt} (h : Recounted k c s t) (g : Recounted k d t u) : Recounted k d s u where
  canc := h.canc.trans g.canc
  reg := fun a ha => (g.reg a ha).trans (h.reg a ha)
  count := fun a => (g.count a).trans (h.count a)

theorem canEvent_can (s : State) (k i : Nat) : (s.canEvent k i).can = s.can := State.raise_can _ _ _ _ _ _
theorem canEvent_reg (s : State) (k i a : Nat) : (s.canEvent k i).reg a = (s.setBit (canReg k 0x18) i true).reg a := by
  rw [State.reg, State.canEvent, State.raise_regs, State.canSticky, State.reg]
theorem canEvent_count (s : State) (k i a : Nat) : (s.canEvent k i).count a = s.count a := by
  rw [State.count, State.canEvent, State.raise_cnts, State.canSticky, State.setBit_cnts, State.count]

theorem canEvent_shown (s : State) (k : Nat) {i : Nat} (h : i < 32) : (s.canEvent k i).bit (canReg k 0x18) i = true := by
  rw [State.bit, canEvent_reg]
  exact State.bit_setBit_same s _ i true h

theorem canErrors_recounted (s : State) (k : Nat) (c : CanSt) : Recounted k c s (s.canErrors k c) := by
  simp only [State.canErrors]
  split
  · exact ⟨(onlyCanc_setCanc s k c).congr (canEvent_can _ k 1),
      fun a ha => (canEvent_reg _ k 1 a).trans (State.reg_setBit_other _ _ _ ha), canEvent_count _ k 1⟩
  · exact ⟨onlyCanc_setCanc s k c, fun _ _ => rfl, fun _ => rfl⟩

/-- From s to t controller k goes bus-off: STICKY shows it, and BUS_OFF_CNT counts it. -/
structure EntersBusOff (k : Nat) (s t : State) : Prop where
  canc : OnlyCanc s t k { s.canc k with tec := 256, busOff := true, sync := false, boGo := false }
  reg : ∀ a, a ≠ canReg k 0x18 → t.reg a = s.reg a
  shown : t.bit (canReg k 0x18) 0 = true
  count : t.count (canReg k 0x130) = s.count (canReg k 0x130) + 1

theorem tecUp_recounted (h : (s.canc k).tec + 8 ≤ 255) : Recounted k { s.canc k with tec := (s.canc k).tec + 8 } s (s.tecUp k) := by
  rw [State.tecUp, if_neg (by omega)]
  exact canErrors_recounted s k _

theorem tecUp_busOff (h : 255 < (s.canc k).tec + 8) : EntersBusOff k s (s.tecUp k) := by
  rw [State.tecUp, if_pos h]
  have hcanc := onlyCanc_setCanc s k { s.canc k with tec := 256, busOff := true, sync := false, boGo := false }
  refine ⟨hcanc.congr (by rw [State.bump_can, canEvent_can]), fun a ha => ?_, ?_, ?_⟩
  · rw [State.reg_bump, canEvent_reg, State.reg_setBit_other _ _ _ ha, reg_setCanc]
  · rw [State.bit_bump, canEvent_shown _ k (by decide)]
  · rw [State.count_bump_same, canEvent_count, count_setCanc]

theorem tecMore_succ (h : (s.canc k).busOff = false) : s.tecMore k (n + 1) = (s.tecUp k).tecMore k n := by
  rw [State.tecMore, if_neg (by rw [h]; decide)]

/-- A controller that is bus-off sends no more of its flag. -/
theorem tecMore_stops (h : (s.canc k).busOff = true) : s.tecMore k n = s := by
  cases n with
  | zero => rfl
  | succ n => rw [State.tecMore, if_pos h]

/-- Steps that stay within 255. -/
theorem tecMore_recounted (hb : (s.canc k).busOff = false) (h : (s.canc k).tec + 8 * n ≤ 255) :
    Recounted k { s.canc k with tec := (s.canc k).tec + 8 * n } s (s.tecMore k n) := by
  induction n generalizing s with
  | zero => exact ⟨⟨rfl, fun _ _ => rfl⟩, fun _ _ => rfl, fun _ => rfl⟩
  | succ n ih =>
    have h1 := tecUp_recounted (s := s) (k := k) (by omega)
    have h2 := ih (s := s.tecUp k) (by rw [h1.canc.1, hb]) (by rw [h1.canc.1]; simp only; omega)
    rw [h1.canc.1] at h2
    rw [tecMore_succ hb, show (s.canc k).tec + 8 * (n + 1) = (s.canc k).tec + 8 + 8 * n by omega]
    exact h1.trans h2

/-- Steps that pass 255: those before the one that does keep within it, and none follows. -/
theorem tecMore_busOff (hb : (s.canc k).busOff = false) (h1 : (s.canc k).tec ≤ 255 ∨ n ≠ 0) (h : 255 < (s.canc k).tec + 8 * n) :
    EntersBusOff k s (s.tecMore k n) := by
  induction n generalizing s with
  | zero => omega
  | succ n ih =>
    rw [tecMore_succ hb]
    by_cases hpass : 255 < (s.canc k).tec + 8
    · have hstep := tecUp_busOff hpass
      rwa [tecMore_stops (by rw [hstep.canc.1])]
    · have hstep := tecUp_recounted (s := s) (k := k) (by omega)
      have hrest := ih (s := s.tecUp k) (by rw [hstep.canc.1, hb]) (by rw [hstep.canc.1]; simp only; omega)
        (by rw [hstep.canc.1]; simp only; omega)
      have hcanc := hstep.canc.trans hrest.canc
      rw [hstep.canc.1] at hcanc
      exact ⟨hcanc, fun a ha => (hrest.reg a ha).trans (hstep.reg a ha), hrest.shown, by rw [hrest.count, hstep.count]⟩

/-! ## The edges of the frame on the pins (R165, R170) -/

/-- The STRENGTH words of the channels of controller k. -/
def strengthRegs (k : Nat) : List Nat := (List.range 8).map (fun i => legReg (8 * k + i) 0)

/-- A state without its register words and free values. -/
def State.besideRegs (s : State) : State := { s with regs := [], freeCtr := 0 }

theorem setFld_besideRegs (s : State) (a lo len x : Nat) : (s.free.setFld a lo len x).besideRegs = s.besideRegs := by
  simp [State.besideRegs, State.setFld, State.setReg, State.free]

/-- The average that STRENGTH of channel i of controller k shows after an attempt. -/
def State.edgesNoted (s : State) (k i : Nat) : State :=
  if s.canAB (8 * k + i) && !s.padsFloat && (s.canc k).mode == 1 then
    s.free.setFld (legReg (8 * k + i) 0) 0 8 (freeValue 8 s.freeCtr).toNat
  else s

theorem canEdges_eq (s : State) (k : Nat) : s.canEdges k = (List.range 8).foldl (fun (st : State) i => st.edgesNoted k i) s := by rfl

theorem edgesNoted_besideRegs (s : State) (k i : Nat) : (s.edgesNoted k i).besideRegs = s.besideRegs := by
  rw [State.edgesNoted]
  split
  · exact setFld_besideRegs s _ _ _ _
  · rfl

theorem edgesNoted_reg (s : State) {i a : Nat} (h : a ≠ legReg (8 * k + i) 0) : (s.edgesNoted k i).reg a = s.reg a := by
  rw [State.edgesNoted]
  split
  · exact State.reg_setFld_other _ _ _ _ h
  · rfl

theorem canEdges_besideRegs (s : State) (k : Nat) : (s.canEdges k).besideRegs = s.besideRegs := by
  rw [canEdges_eq]
  exact foldl_keeps (k := State.besideRegs) (fun u i => edgesNoted_besideRegs u k i) _ s

theorem canEdges_can (s : State) (k : Nat) : (s.canEdges k).can = s.can := by
  have h := congrArg State.can (canEdges_besideRegs s k)
  exact h

theorem canEdges_count (s : State) (k a : Nat) : (s.canEdges k).count a = s.count a := by
  have h := congrArg (fun u => State.count u a) (canEdges_besideRegs s k)
  exact h

theorem canEdges_reg (s : State) {a : Nat} (h : a ∉ strengthRegs k) : (s.canEdges k).reg a = s.reg a := by
  rw [canEdges_eq]
  have hleg (i : Nat) (hi : i ∈ List.range 8) : a ≠ legReg (8 * k + i) 0 := fun he => h (List.mem_map.2 ⟨i, hi, he.symm⟩)
  generalize List.range 8 = is at hleg
  induction is generalizing s with
  | nil => rfl
  | cons i is ih =>
    rw [List.foldl_cons, ih _ (fun j hj => hleg j (List.mem_cons_of_mem i hj))]
    exact edgesNoted_reg s (hleg i List.mem_cons_self)

theorem canReg_not_strength (hk : k < 32) {m o : Nat} : canReg m o ∉ strengthRegs k := by
  intro h
  obtain ⟨i, hi, he⟩ := List.mem_map.1 h
  have hi : i < 8 := List.mem_range.1 hi
  exact legReg_ne_canReg (by omega) he

/-! ## The end without success (R188) -/

theorem canFailed_requeues (hq : (s.canc k).queue = e :: q) (hc : (s.canc k).cancelled = false) :
    s.canFailed k = (s.setCanc k { s.canc k with attempt := false }).setReg (txStat k e.slot) 1 := by
  simp [State.canFailed, hq, hc]

/-- From s to t the attempt of controller k ends, and its slot, which has not been cancelled, is queued again. -/
structure Requeued (k : Nat) (e : CanEntry) (s t : State) : Prop where
  canc : OnlyCanc s t k { s.canc k with attempt := false }
  stat : t.reg (txStat k e.slot) = 1
  reg : ∀ a, a ≠ txStat k e.slot → a ∉ strengthRegs k → t.reg a = s.reg a
  count : ∀ a, t.count a = s.count a

theorem canFailed_requeued (hk : k < 32) (hu : s.canc k = c) (hq : c.queue = e :: q) (hc : c.cancelled = false) :
    Requeued k e s ((s.canFailed k).canEdges k) := by
  subst hu
  rw [canFailed_requeues hq hc]
  refine ⟨(onlyCanc_setCanc s k _).congr (canEdges_can _ k), ?_, fun a ha hleg => ?_, fun a => canEdges_count _ k a⟩
  · exact (canEdges_reg _ (canReg_not_strength hk)).trans (State.reg_setReg_same _ _ _)
  · exact (canEdges_reg _ hleg).trans (State.reg_setReg_other _ _ ha)

theorem Requeued.onlyCanc (h : Requeued k e t u) (g : OnlyCanc s t k c) : OnlyCanc s u k { c with attempt := false } := by
  have hc := h.canc
  rw [g.1] at hc
  exact g.trans hc

/-- A register of the window apart from the slot's TXSTAT. -/
theorem Requeued.reg_window (h : Requeued k e s t) (hk : k < 32) {o : Nat} (ho : o < 0xD00 ∨ 0xD80 ≤ o) : t.reg (canReg k o) = s.reg (canReg k o) :=
  h.reg _ (txStat_ne _ ho).symm (canReg_not_strength hk)

/-- A state without its controllers, register words, counters and free values. -/
def State.besideAttempt (s : State) : State := { s with can := [], regs := [], cnts := [], freeCtr := 0 }

theorem eq_of_besideAttempt (h : t.besideAttempt = s.besideAttempt) :
    t = { s with can := t.can, regs := t.regs, cnts := t.cnts, freeCtr := t.freeCtr } :=
  congrArg (fun u : State => { u with can := t.can, regs := t.regs, cnts := t.cnts, freeCtr := t.freeCtr }) h

theorem canEdges_besideAttempt (s : State) (k : Nat) : (s.canEdges k).besideAttempt = s.besideAttempt :=
  congrArg (fun u : State => { u with can := [], cnts := [] }) (canEdges_besideRegs s k)

theorem setCanc_besideAttempt (s : State) (k : Nat) (c : CanSt) : (s.setCanc k c).besideAttempt = s.besideAttempt := by
  simp [State.besideAttempt, State.setCanc]

theorem setReg_besideAttempt (s : State) (a : Nat) (v : Word) : (s.setReg a v).besideAttempt = s.besideAttempt := by
  simp [State.besideAttempt, State.setReg]

theorem bump_besideAttempt (s : State) (a : Nat) : (s.bump a).besideAttempt = s.besideAttempt := by
  simp [State.besideAttempt, State.bump, State.bumpBy]

theorem canFailed_besideAttempt (s : State) (k : Nat) : (s.canFailed k).besideAttempt = s.besideAttempt := by
  simp only [State.canFailed]
  split
  · split
    · rw [setReg_besideAttempt, setCanc_besideAttempt]
    · rw [setReg_besideAttempt, setCanc_besideAttempt]
  · rfl

/-! ## How an attempt ends -/

theorem canEnd_idle (h : (s.canc k).attempt = false ∨ (s.canc k).queue = []) (how : CanEnd) : s.canEnd k how = s := by
  rcases h with h | h
  · simp [State.canEnd, h]
  · cases ha : (s.canc k).attempt <;> simp [State.canEnd, h, ha]

/-- No loop delay is measured where TDCE is 0 (R180). -/
theorem tdcMeasure_off (h : s.bit (canReg k 0) 8 = false) (j : Nat) : s.tdcMeasure k j = s := by simp [State.tdcMeasure, h]

/-- A lost arbitration on the bus as ACK_RUN and its counter show it. -/
def State.lostShown (s : State) (k : Nat) : State := (s.setCanc k { s.canc k with ackRun := 0 }).bump (canReg k 0x110)

theorem lostShown_canc (s : State) (k : Nat) : OnlyCanc s (s.lostShown k) k { s.canc k with ackRun := 0 } := (onlyCanc_setCanc s k _).congr rfl

theorem lostShown_besideAttempt (s : State) (k : Nat) : (s.lostShown k).besideAttempt = s.besideAttempt := by
  rw [State.lostShown, bump_besideAttempt, setCanc_besideAttempt]

section
variable (ha : (s.canc k).attempt = true) (hq : (s.canc k).queue = e :: q)
include ha hq

theorem canEnd_lost (hb : s.canOnBus k = true) : s.canEnd k .arbitrationLost = ((s.lostShown k).canFailed k).canEdges k := by
  simp [State.canEnd, ha, hq, hb, State.lostShown]

variable (ht : s.bit (canReg k 0) 8 = false)
include ht

theorem canEnd_success : s.canEnd k (.success more) = (s.canTxOk k more).canEdges k := by
  simp [State.canEnd, ha, hq, tdcMeasure_off ht]

theorem canEnd_error (kind : CanErr) (exempt : Bool) :
    s.canEnd k (.error kind exempt more) = (s.canTxError k kind exempt more).canEdges k := by
  simp [State.canEnd, ha, hq, tdcMeasure_off ht]
end

/-! ## Success (R187, R188) -/

/-- The controller after a success: the head has left its queue, and TEC is one less. -/
def CanSt.sent (c : CanSt) (q : List CanEntry) : CanSt :=
  { c with queue := q, attempt := false, cancelled := false, ackRun := 0, tec := c.tec - 1 }

/-- A success as its slot and TX_OK_CNT show it. -/
def State.txShown (s : State) (k : Nat) (e : CanEntry) (q : List CanEntry) : State :=
  ((((s.setReg (txStat k e.slot) (word (3 + bit01 (s.canc k).cancelled * 8))).setReg (slotAddr k e.slot + 8) (s.sofStamp k)).setCanc k
    { (s.canc k).sent q with tec := (s.canc k).tec }).bump (canReg k 0x100)).free

theorem canTxOk_onBus (hq : (s.canc k).queue = e :: q) (hm : (s.canc k).mode = 1) (hb : s.canOnBus k = true) :
    s.canTxOk k more = ((s.txShown k e q).canErrors k ((s.canc k).sent q)).tecMore k more := by
  simp [State.canTxOk, hq, hm, hb, State.txShown, CanSt.sent]

/-- From s to t the attempt of controller k succeeds: controller k becomes c. -/
structure Sent (k : Nat) (e : CanEntry) (c : CanSt) (s t : State) : Prop where
  canc : OnlyCanc s t k c
  stat : t.reg (txStat k e.slot) = word (3 + bit01 (s.canc k).cancelled * 8)
  stamp : t.reg (slotAddr k e.slot + 8) = s.sofStamp k
  count : t.count (canReg k 0x100) = s.count (canReg k 0x100) + 1
  others : OtherCounts s t [canReg k 0x100]

theorem Sent.recounted {d : CanSt} (h : Sent k e c s t) (g : Recounted k d t u) : Sent k e d s u where
  canc := h.canc.trans g.canc
  stat := (g.reg _ (txStat_ne _ (by decide))).trans h.stat
  stamp := (g.reg _ (slotAddr_ne _ (by decide))).trans h.stamp
  count := (g.count _).trans h.count
  others := fun a ha => (g.count a).trans (h.others a ha)

theorem Sent.edges (h : Sent k e c s t) (hk : k < 32) : Sent k e c s (t.canEdges k) where
  canc := h.canc.congr (canEdges_can t k)
  stat := (canEdges_reg t (canReg_not_strength hk)).trans h.stat
  stamp := (canEdges_reg t (a := slotAddr k e.slot + 8) (by
    rw [slotAddr, canReg, Nat.add_assoc, Nat.add_assoc]; exact canReg_not_strength hk)).trans h.stamp
  count := (canEdges_count t k _).trans h.count
  others := fun a ha => (canEdges_count t k a).trans (h.others a ha)

theorem txShown_sent (s : State) (k : Nat) (e : CanEntry) (q : List CanEntry) :
    Sent k e { (s.canc k).sent q with tec := (s.canc k).tec } s (s.txShown k e q) where
  canc := (onlyCanc_setCanc s k _).congr rfl
  stat := (State.reg_setReg_other _ _ (slotAddr_ne_txStat _ _).symm).trans (State.reg_setReg_same _ _ _)
  stamp := State.reg_setReg_same _ _ _
  count := State.count_bump_same _ _
  others := fun _ ha => State.count_bump_other _ (by simpa using ha)

theorem txCounted_sent (s : State) (k : Nat) (e : CanEntry) (q : List CanEntry) :
    Sent k e ((s.canc k).sent q) s ((s.txShown k e q).canErrors k ((s.canc k).sent q)) :=
  (txShown_sent s k e q).recounted (canErrors_recounted _ k _)

section
variable (hk : k < 32) (ha : (s.canc k).attempt = true) (hq : (s.canc k).queue = e :: q) (hm : (s.canc k).mode = 1)
  (hb : s.canOnBus k = true) (ht : s.bit (canReg k 0) 8 = false)
include hk ha hq hm hb ht

theorem canEnd_sent : Sent k e ((s.canc k).sent q) s (s.canEnd k (.success 0)) := by
  rw [canEnd_success ha hq ht, canTxOk_onBus hq hm hb, State.tecMore]
  exact (txCounted_sent s k e q).edges hk

/-- A success with `more` steps of TEC after it. -/
theorem canEnd_sent_more (hoff : (s.canc k).busOff = false) (htec : (s.canc k).tec - 1 + 8 * more ≤ 255) :
    Sent k e { (s.canc k).sent q with tec := (s.canc k).tec - 1 + 8 * more } s (s.canEnd k (.success more)) := by
  rw [canEnd_success ha hq ht, canTxOk_onBus hq hm hb]
  have hsent := txCounted_sent s k e q
  have hsteps := tecMore_recounted (n := more) (by rw [hsent.canc.1]; exact hoff) (by rw [hsent.canc.1]; exact htec)
  rw [hsent.canc.1] at hsteps
  exact (hsent.recounted hsteps).edges hk
end

/-! ## Errors (R189) -/

/-- The error as LEC and the error counter show it. -/
def State.errorSeen (s : State) (k : Nat) (kind : CanErr) : State := (s.setCanc k { s.canc k with lec := lecOf kind }).bump (canReg k 0x118)

theorem errorSeen_canc (s : State) (k : Nat) (kind : CanErr) : OnlyCanc s (s.errorSeen k kind) k { s.canc k with lec := lecOf kind } :=
  (onlyCanc_setCanc s k _).congr rfl

theorem errorSeen_count (s : State) (k : Nat) (kind : CanErr) : (s.errorSeen k kind).count (canReg k 0x118) = s.count (canReg k 0x118) + 1 :=
  State.count_bump_same _ _

/-- The error of a controller on the bus ends the run of missing acknowledgements as well. -/
def State.errorOnBus (s : State) (k : Nat) : State :=
  (s.errorSeen k .bit0).setCanc k { s.canc k with lec := 5, ackRun := 0 }

theorem errorOnBus_canc (s : State) (k : Nat) : OnlyCanc s (s.errorOnBus k) k { s.canc k with lec := 5, ackRun := 0 } :=
  (errorSeen_canc s k .bit0).trans (onlyCanc_setCanc _ k _)

theorem errorOnBus_count (s : State) (k : Nat) : (s.errorOnBus k).count (canReg k 0x118) = s.count (canReg k 0x118) + 1 :=
  errorSeen_count s k .bit0

theorem errorOnBus_count_other (s : State) (k : Nat) {a : Nat} (h : a ≠ canReg k 0x118) : (s.errorOnBus k).count a = s.count a :=
  State.count_bump_other _ h

theorem canTxError_offBus (hb : s.canOnBus k = false) : s.canTxError k .bit0 false more = (s.errorSeen k .bit0).canFailed k := by
  simp [State.canTxError, hb, State.errorSeen]

theorem canTxError_onBus (hb : s.canOnBus k = true) (hoff : (s.canc k).busOff = false) :
    s.canTxError k .bit0 false more = ((s.errorOnBus k).tecMore k (more + 1)).canFailed k := by
  rw [tecMore_succ (by rw [(errorOnBus_canc s k).1]; exact hoff)]
  simp [State.canTxError, hb, State.errorOnBus, State.errorSeen, lecOf]

section
variable (hk : k < 32) (ha : (s.canc k).attempt = true) (hq : (s.canc k).queue = e :: q) (hc : (s.canc k).cancelled = false)
  (ht : s.bit (canReg k 0) 8 = false)
include hk ha hq hc ht

/-- A controller that has lost its pins keeps its counters (R175). -/
theorem canEnd_error_offBus (hb : s.canOnBus k = false) :
    Requeued k e (s.errorSeen k .bit0) (s.canEnd k (.error .bit0 false more)) := by
  rw [canEnd_error ha hq ht, canTxError_offBus hb]
  exact canFailed_requeued hk (errorSeen_canc s k .bit0).1 hq hc

variable (hb : s.canOnBus k = true) (hoff : (s.canc k).busOff = false)
include hb hoff

theorem canEnd_error_onBus {c : CanSt} (hu : ((s.errorOnBus k).tecMore k (more + 1)).canc k = c) (hcq : c.queue = (s.canc k).queue)
    (hcc : c.cancelled = (s.canc k).cancelled) :
    Requeued k e ((s.errorOnBus k).tecMore k (more + 1)) (s.canEnd k (.error .bit0 false more)) := by
  rw [canEnd_error ha hq ht, canTxError_onBus hb hoff]
  exact canFailed_requeued hk hu (hcq.trans hq) (hcc.trans hc)
end

end Sys2Proof.Machine

open Sys2Proof Sys2Proof.Machine

/-- Settles O33: the start of an attempt, and its end by success, by a lost arbitration and by an error that does or does not put the controller bus-off. -/
theorem canAttempts : Obligations.CanAttempts := by
  unfold Obligations.CanAttempts
  refine ⟨?_, ?_, ?_, ?_, ?_, ?_, ?_, ?_, ?_, ?_⟩
  -- the start (R187)
  · intro s k e q hk h hq ht
    obtain ⟨esi, he⟩ := canStart_first h hq ht
    rw [Leaves, exec_canAttemptStart hk, he]
    refine ⟨_, rfl, sofSent_canc s k e q esi, sofSent_stat s k e q esi, fun a ha => ?_, eq_of_besideWindows (sofSent_besideWindows s k e q esi)⟩
    obtain ⟨h1, h2⟩ : a ≠ txStat k e.slot ∧ a ≠ slotAddr k e.slot + 4 := by simpa using ha
    exact sofSent_reg s k e q esi h1 h2
  · intro s k e q hk h hq ht hslot hcnt
    obtain ⟨esi, he⟩ := canStart_again h hq ht
    have hreg : (s.sofSent k e q esi).reg (canReg k 0x1C) = s.reg (canReg k 0x1C) :=
      sofSent_reg s k e q esi (txStat_ne _ (by decide)).symm (slotAddr_ne _ (by decide)).symm
    rw [Leaves, exec_canAttemptStart hk, he, canRetry_counts (by rw [hreg]; exact hcnt), hreg]
    refine ⟨_, rfl, ?_, State.reg_setReg_same _ _ _, ?_, eq_of_besideWindows ((setReg_besideWindows _ _ _).trans ?_)⟩
    · exact congrArg CanSt.attempt (sofSent_canc s k e q esi).1
    · exact (State.reg_setReg_other _ _ (txStat_ne _ (by decide))).trans (sofSent_stat s k e q esi)
    · exact sofSent_besideWindows s k e q esi
  · intro s k hk h
    rw [exec_canAttemptStart hk, canStart_idle h]
  -- success (R187, R188)
  · intro s k e q hk ha hq hslot hm hb ht
    have h := canEnd_sent hk ha hq hm hb ht
    exact ⟨_, exec_canAttemptEnd hk s _, h.canc, h.stat, h.stamp, h.count, h.others⟩
  -- a lost arbitration
  · intro s k e q hk ha hq hc hb
    have h := canFailed_requeued hk (lostShown_canc s k).1 hq hc
    rw [← canEnd_lost ha hq hb] at h
    refine ⟨_, exec_canAttemptEnd hk s _, h.onlyCanc (lostShown_canc s k), h.stat, fun a ha => ?_,
      (h.count _).trans (State.count_bump_same _ _), eq_of_besideAttempt ?_⟩
    · obtain ⟨h1, h2⟩ := not_or.1 (mt List.mem_cons.2 ha)
      exact h.reg a h1 h2
    · rw [canEnd_lost ha hq hb, canEdges_besideAttempt, canFailed_besideAttempt, lostShown_besideAttempt]
  -- success with errors in an overload flag (R189)
  · intro s k more e q hk ha hq hslot hm hb ht hoff htec
    have h := canEnd_sent_more hk ha hq hm hb ht hoff htec
    exact ⟨_, exec_canAttemptEnd hk s _, h.canc, h.stat, h.count⟩
  -- an error within the bounds of TEC (R189)
  · intro s k more e q hk ha hq hc hoff hb htec ht hslot
    have hseen := errorOnBus_canc s k
    have hsteps := tecMore_recounted (s := s.errorOnBus k) (n := more + 1) (by rw [hseen.1]; exact hoff) (by rw [hseen.1]; exact htec)
    rw [hseen.1] at hsteps
    have h := canEnd_error_onBus hk ha hq hc ht hb hoff hsteps.canc.1 rfl rfl
    exact ⟨_, exec_canAttemptEnd hk s _, h.onlyCanc (hseen.trans hsteps.canc), h.stat,
      (h.count _).trans ((hsteps.count _).trans (errorOnBus_count s k))⟩
  -- an error of a controller that has lost its pins (R175)
  · intro s k more e q hk ha hq hc hb ht hslot
    have h := canEnd_error_offBus (more := more) hk ha hq hc ht hb
    exact ⟨_, exec_canAttemptEnd hk s _, h.onlyCanc (errorSeen_canc s k .bit0), h.stat, (h.count _).trans (errorSeen_count s k .bit0)⟩
  -- an error that puts the controller bus-off
  · intro s k more e q hk ha hq hc hb hoff htec ht hslot
    have hseen := errorOnBus_canc s k
    have hsteps := tecMore_busOff (s := s.errorOnBus k) (n := more + 1) (by rw [hseen.1]; exact hoff) (.inr (by omega)) (by rw [hseen.1]; exact htec)
    have hoffNow := hsteps.canc
    rw [hseen.1] at hoffNow
    have h := canEnd_error_onBus hk ha hq hc ht hb hoff hoffNow.1 rfl rfl
    have hcanc := (h.onlyCanc (hseen.trans hoffNow)).1
    refine ⟨_, exec_canAttemptEnd hk s _, ?_, ?_, ?_, ?_, ?_, ?_, h.stat⟩
    · rw [hcanc]
    · rw [hcanc]
    · rw [hcanc]
    · rw [hcanc]
    · rw [State.bit, h.reg_window hk (.inl (by decide))]
      exact hsteps.shown
    · rw [h.count, hsteps.count, errorOnBus_count_other s k (canReg_ne (by decide))]
  -- no attempt is under way
  · intro s k how hk h
    rw [exec_canAttemptEnd hk, canEnd_idle h]
end

section
/-!
The ports' events reach their units (chapter 08), and what refutes two statements of family 08: a table of registers that is not in canonical form,
and a queued copy of a frame that has not begun. No step leads to either state from reset, but the statements are about every state.
-/
namespace Sys2Proof.Machine

theorem event_port {p : Nat} (hp : p < 40) (s t : State) : event (isPort p) s t = .next t := by
  rw [show isPort p = true from decide_eq_true hp, event_true]

theorem exec_linkUp {p : Nat} (hp : p < 40) (x : LinkFacts) (s : State) : exec (.linkUp p x) s = .next (s.linkRise p x) := event_port hp s _

theorem exec_segJobStart {p : Nat} (hp : p < 40) (s : State) : exec (.segJobStart p) s = .next (s.segStart p) := event_port hp s _

/-! ## Two writes of LINK are not one where the table is out of order (R199, R200) -/

/-- Port 0 in 10GBASE-R shows a local fault, and its LINK stands in the table behind a register of a higher address. -/
def State.linkOutOfOrder : State := { State.reset with regs := [(portReg 0 0, 1), (portReg 0 8, 1), (portReg 0 4, 0x40)] }

/-- A partner at 10 Gb/s, without a fault. -/
def partner10g : LinkFacts := ⟨.g10, 0, false, false, false, false⟩

/-- The write that clears LOCAL_FAULT takes LINK out of the table, where the one write of the statement finds the place before it. -/
theorem linkRise_outOfOrder : State.linkOutOfOrder.linkRise 0 partner10g ≠ State.linkOutOfOrder.setReg (portReg 0 4) (word 7) := by
  intro h
  have hlen := congrArg (fun s : State => s.regs.length) h
  revert hlen
  decide +kernel

/-! ## A copy of a frame that has not begun (R236, R248) -/

/-- A descriptor: 256 bytes of header from 0x100 and 64 bytes of payload from 0x200, in one segment. -/
def oneSegment : List Byte := leBytes 4 (256 + 64 * 65536) ++ leBytes 4 64 ++ leBytes 4 0x100 ++ leBytes 4 0x200 ++ List.replicate 112 0

/-- A job of the MCP on class 0, with its descriptor at 0. -/
def mcpJob : SegJob := ⟨0, 0, 41, 1, none, none, false, 0, 0, 0⟩

/-- Queue 0 holds a copy of frame 0, which is the next to begin, and one cell is free. -/
def State.strayQueued : State :=
  (({ State.reset with sw := { State.reset.sw with free := 1, queues := [(0, [plainCopy 0 0 0 none])], segs := [(0, [mcpJob])] } }).setReg
    (swReg 0) 1).store 0 oneSegment

/-- The segment finds no second cell, and with its frame the copy that was queued before goes. -/
theorem segStart_strayQueued : (State.strayQueued.segStart 0).queue 0 = [] := by decide +kernel

end Sys2Proof.Machine

open Sys2Proof Sys2Proof.Machine

/-- Refutes O35, in its first clause: the port's fault bits are cleared before LINK is written, and in a table of registers that is not in canonical
form the two writes leave another table than the one write of the clause does (every register reads alike). -/
theorem not_linksAndTheirLanes : ¬ Obligations.LinksAndTheirLanes := by
  unfold Obligations.LinksAndTheirLanes
  rintro ⟨h, -⟩
  have hup := h State.linkOutOfOrder 0 partner10g (by decide) (by decide +kernel) (by decide +kernel) (by decide +kernel) rfl rfl rfl
  rw [exec_linkUp (by decide)] at hup
  exact linkRise_outOfOrder (Host.Outcome.next.inj hup)

/-- Refutes O39, in its clause of the segments: where a queue already holds a copy that names the next frame to begin, a segment that finds no cell
takes that copy out of its queue with its own. -/
theorem not_segmentationAndMdio : ¬ Obligations.SegmentationAndMdio := by
  unfold Obligations.SegmentationAndMdio
  rintro ⟨-, -, -, -, -, h, -⟩
  obtain ⟨t, ht, hqueue, -⟩ := h State.strayQueued 0 1 mcpJob [] oneSegment (List.replicate 256 0) (List.replicate 64 0) (by decide)
    (by decide +kernel) rfl (by decide) (by decide +kernel) (by decide +kernel) (by decide +kernel) (by decide +kernel) (by decide +kernel)
  rw [exec_segJobStart (by decide)] at ht
  obtain rfl := Host.Outcome.next.inj ht
  rw [show 8 * 0 + mcpJob.queue = 0 from rfl, segStart_strayQueued] at hqueue
  exact absurd hqueue (by decide +kernel)
end

section
/-!
What refutes the start of a copy as family 08 states it: a reference of Ropeline that leaves its port is noted in the port's context (R300, R302).
-/
namespace Sys2Proof.Machine

theorem event_egress {p : Nat} (hp : p < 48) (s t : State) : event (isEgress p) s t = .next t := by
  rw [show isEgress p = true from decide_eq_true hp, event_true]

theorem exec_frameTxStart {p : Nat} (hp : p < 48) (found : EccFinding) (s : State) :
    exec (.frameTxStart p found) s = .next (s.txStart p found) := event_egress hp s _

/-- A complete frame of class 7 that logical engine 0 has sent, as a reference is. -/
def referenceFrame : Frame :=
  { bytes := List.replicate 60 0, ingress := 42, sender := some 0, stamp := 0, arriving := false, bad := false, classed := true, tc := 7,
    granule := 0, kind := 0, entry := 0, cells := 1, hit := none, act := 0, reason := 0, failed := 0, left := false, debits := [], waits := false,
    limit := none, late := false, tag := 0 }

/-- Port 0 is up and transmits; it is a station port of context 0, whose RQ, LQ and FQ are 6, 7 and 5; the reference of the context is due and waits
at the head of the port's LQ. -/
def State.referenceDue : State :=
  (({ State.reset with
      regs := [(portReg 0 4, 5), (portReg 0 8, 0x05F20002), (ctxReg 0 0, 3), (ctxReg 0 8, 1), (ctxReg 0 0x20, 0x576)]
      rope := [(0, { CtxSt.reset with running := true, buildX := some 0 })] } : State).setFrame 0 (some referenceFrame)).setQueue 7
    [plainCopy 0 0 0 none]

theorem referenceDue_unsent : (State.referenceDue.ctx 0).sent = false := by decide +kernel

/-- The reference leaves, and its context notes it. -/
theorem txStart_referenceDue : ((State.referenceDue.txStart 0 .clean).ctx 0).sent = true := by decide +kernel

end Sys2Proof.Machine

open Sys2Proof Sys2Proof.Machine

/-- Refutes O38, in its first clause: the head that starts may be the reference of a Ropeline context at a station port, and its start is noted in
the context (SENT and the port's last reference), where the clause leaves everything outside the switch as it was. -/
theorem not_copiesAndPauseFramesAreSent : ¬ Obligations.CopiesAndPauseFramesAreSent := by
  unfold Obligations.CopiesAndPauseFramesAreSent
  rintro ⟨h, -⟩
  obtain ⟨t, ht, -, -, -, -, hframe⟩ := h State.referenceDue 0 7 1 (plainCopy 0 0 0 none) [] referenceFrame (by decide) (by decide +kernel)
    (by decide +kernel) (by decide +kernel) (by decide +kernel) (by decide +kernel) (by decide +kernel) rfl (by decide +kernel)
    (by decide +kernel) (by decide +kernel) (by decide +kernel) rfl (by decide +kernel) rfl (by decide +kernel)
  have hrope : t.rope = State.referenceDue.rope := (congrArg State.rope hframe).trans rfl
  have hsent : (t.ctx 0).sent = (State.referenceDue.ctx 0).sent := by simp only [State.ctx, hrope]
  rw [exec_frameTxStart (by decide)] at ht
  obtain rfl := Host.Outcome.next.inj ht
  rw [txStart_referenceDue, referenceDue_unsent] at hsent
  exact Bool.noConfusion hsent
end

section
/-!
Rules of the switch's operations (chapters 09 and 10): what each writes of the switch's state, and which of them read registers alone.
-/
namespace Sys2Proof.Machine

variable {s t : State}

/-! ## Frames and queues (R221, R262) -/

/-- Setting a frame writes its entry and terms of the ledger. -/
theorem setFrame_shape (s : State) (f : Nat) (x : Option Frame) : ∃ a b c d, s.setFrame f x = { s with sw := { s.sw with
    frames := Tab.set (fun _ => none) s.sw.frames f x, queuedCells := a, inflightCells := b, openFrames := c, foldedFrames := d } } := by
  unfold State.setFrame
  dsimp only
  repeat' split
  all_goals exact ⟨_, _, _, _, rfl⟩

/-- Setting a queue writes its entry and terms of the ledger. -/
theorem setQueue_shape (s : State) (q : Nat) (cs : List Copy) : ∃ a b, s.setQueue q cs = { s with sw := { s.sw with
    queues := Tab.set (fun _ => []) s.sw.queues q cs, queuedCells := a, inflightCells := b } } := by
  unfold State.setQueue
  dsimp only
  split
  all_goals exact ⟨_, _, rfl⟩

theorem frame_setFrame_same (s : State) (f : Nat) (x : Option Frame) : (s.setFrame f x).frame f = x := by
  obtain ⟨a, b, c, d, h⟩ := setFrame_shape s f x
  rw [h]
  exact Tab.get_set_same _ _

theorem frame_setFrame_other (s : State) {f g : Nat} (x : Option Frame) (hg : g ≠ f) : (s.setFrame f x).frame g = s.frame g := by
  obtain ⟨a, b, c, d, h⟩ := setFrame_shape s f x
  rw [h]
  exact Tab.get_set_other _ _ hg

theorem onFrame_some {f : Nat} {x : Frame} (h : s.frame f = some x) (g : Frame → Frame) : s.onFrame f g = s.setFrame f (some (g x)) := by
  rw [State.onFrame, h]

/-- What a frame's entry and the ledger's terms leave as it was. -/
def State.besideFrames (s : State) : State :=
  { s with sw := { s.sw with frames := [], queuedCells := 0, inflightCells := 0, openFrames := 0, foldedFrames := 0 } }

theorem setFrame_besideFrames (s : State) (f : Nat) (x : Option Frame) : (s.setFrame f x).besideFrames = s.besideFrames := by
  obtain ⟨a, b, c, d, h⟩ := setFrame_shape s f x
  rw [h]
  rfl

/-! ## Cells and credits (R208, R248, R255) -/

theorem shareWatch_off {p : Nat} (h : s.fld (portReg p 0x100) 0 2 = 0) : s.shareWatch p = s := by simp [State.shareWatch, h]

/-- Credits are counted at the transmissions and at their ports. -/
def State.besideCredits (s : State) : State := { s with sw := { s.sw with txs := [], creditsOut := [] } }

theorem takeCredits_besideCredits (s : State) (f : Nat) : (s.takeCredits f).besideCredits = s.besideCredits := by
  refine foldl_keeps (k := State.besideCredits) (fun st x => ?_) _ s
  dsimp only
  split
  · split <;> rfl
  · rfl

/-- Ports take their cells from the free list. -/
def State.besideCells (s : State) : State := { s with sw := { s.sw with pre := 0, free := 0, inflightCells := 0 } }

theorem portsTake_besideCells (s : State) : s.portsTake.besideCells = s.besideCells :=
  foldl_keeps (k := State.besideCells) (fun s p => by split <;> rfl) _ s

theorem free_le_foldl {α : Type} {f : State → α → State} (h : ∀ s x, s.sw.free ≤ (f s x).sw.free + 1) (xs : List α) (s : State) :
    s.sw.free ≤ (xs.foldl f s).sw.free + xs.length := by
  induction xs generalizing s with
  | nil => exact Nat.le_refl _
  | cons x xs ih =>
    have hx := h s x
    have hxs := ih (f s x)
    rw [List.foldl_cons, List.length_cons]
    omega

/-- No port takes more than one cell. -/
theorem free_le_portsTake (s : State) : s.sw.free ≤ s.portsTake.sw.free + 48 := by
  refine free_le_foldl (fun s p => ?_) (List.range 48) s
  split
  · exact Nat.le_succ _
  · exact Nat.le_of_pred_lt (Nat.lt_succ_self _)

theorem cellsFor_mono {m n : Nat} (k : Nat) (h : m ≤ n) : cellsFor m k ≤ cellsFor n k := by
  unfold cellsFor
  have : (m - foldSaving k + 255) / 256 ≤ (n - foldSaving k + 255) / 256 := Nat.div_le_div_right (by omega)
  omega

/-! ## Queued copies (R253, R254) -/

theorem isQueued_of_mem {q : Nat} {c : Copy} (h : c ∈ s.queue q) : s.isQueued c.frame = true := by
  have hmem : ∀ t : Tab (List Copy), c ∈ Tab.get (fun _ => []) t q → t.any (fun x => x.2.any (fun d => d.frame == c.frame)) = true := by
    intro t ht
    induction t with
    | nil => cases ht
    | cons x t ih =>
      obtain ⟨k, cs⟩ := x
      rw [List.any_cons, Bool.or_eq_true]
      rw [Tab.get] at ht
      split at ht
      · exact .inl (List.any_eq_true.2 ⟨c, ht, beq_self_eq_true _⟩)
      · exact .inr (ih ht)
  exact hmem _ h

/-- A frame that no queue names has no copy to drop. -/
theorem dropQueued_unqueued {f : Nat} (h : s.isQueued f = false) (r : Nat) : s.dropQueued (fun c => c.frame == f) r = s := by
  refine foldl_eq_of_forall_mem fun x hx => ?_
  have hnone : x.2.any (fun c => c.frame == f) = false := by
    cases hany : x.2.any (fun c => c.frame == f) with
    | false => rfl
    | true =>
      have : s.isQueued f = true := List.any_eq_true.2 ⟨x, hx, hany⟩
      rw [h] at this
      cases this
  obtain ⟨q, cs⟩ := x
  exact if_neg (by rw [hnone]; exact Bool.false_ne_true)

/-! ## What registers alone decide (R222 to R225, R239) -/

/-- The registers of a state. -/
def State.registers (s : State) : State := { State.reset with regs := s.regs }

/-- States with the same registers agree in what registers alone decide. -/
theorem of_registers {β : Type} {φ : State → β} (hφ : ∀ u : State, φ u.registers = φ u) (h : t.regs = s.regs) : φ t = φ s := by
  have heq : t.registers = s.registers := by rw [State.registers, h, State.registers]
  exact (hφ t).symm.trans ((congrArg φ heq).trans (hφ s))

section
variable (h : t.regs = s.regs)
include h

theorem fld_congr (a lo len : Nat) : t.fld a lo len = s.fld a lo len := of_registers (φ := fun u => u.fld a lo len) (fun _ => rfl) h
theorem bit_congr (a i : Nat) : t.bit a i = s.bit a i := of_registers (φ := fun u => u.bit a i) (fun _ => rfl) h
theorem pairOf_congr (p : Nat) : t.pairOf p = s.pairOf p := of_registers (φ := fun u => u.pairOf p) (fun _ => rfl) h
theorem pairMode_congr (p : Nat) : t.pairMode p = s.pairMode p := of_registers (φ := fun u => u.pairMode p) (fun _ => rfl) h
theorem pairA_congr (i : Nat) : t.pairA i = s.pairA i := fld_congr h _ _ _
theorem pairB_congr (i : Nat) : t.pairB i = s.pairB i := fld_congr h _ _ _
theorem ctxOf_congr (p : Nat) : t.ctxOf p = s.ctxOf p := of_registers (φ := fun u => u.ctxOf p) (fun _ => rfl) h
theorem anchorOf_congr (p : Nat) : t.anchorOf p = s.anchorOf p := of_registers (φ := fun u => u.anchorOf p) (fun _ => rfl) h
theorem otfPort_congr (p : Nat) : t.otfPort p = s.otfPort p := of_registers (φ := fun u => u.otfPort p) (fun _ => rfl) h
theorem vlanMember_congr (v p : Nat) : t.vlanMember v p = s.vlanMember v p := of_registers (φ := fun u => u.vlanMember v p) (fun _ => rfl) h
theorem frameVid_congr (p : Nat) (bs : List Byte) : t.frameVid p bs = s.frameVid p bs :=
  of_registers (φ := fun u => u.frameVid p bs) (fun _ => rfl) h
theorem vlanInDrops_congr (p v : Nat) : t.vlanInDrops p v = s.vlanInDrops p v := of_registers (φ := fun u => u.vlanInDrops p v) (fun _ => rfl) h
theorem chooseAction_congr (p : Nat) (bs : List Byte) : t.chooseAction p bs = s.chooseAction p bs :=
  of_registers (φ := fun u => u.chooseAction p bs) (fun _ => rfl) h
theorem frameClass_congr (p : Nat) (bs : List Byte) (a : Action) : t.frameClass p bs a = s.frameClass p bs a :=
  of_registers (φ := fun u => u.frameClass p bs a) (fun _ => rfl) h

/-- The copies for a port follow from the registers, and change them alone. -/
theorem portCopies_shape (f p e : Nat) (tagged : Bool) (inPair after : Option Nat) : ∃ rs cs,
    s.portCopies f p e tagged inPair after = ({ s with regs := rs }, cs) ∧ t.portCopies f p e tagged inPair after = ({ t with regs := rs }, cs) := by
  have hkept (cs : List Copy) : (t, cs) = (({ t with regs := s.regs } : State), cs) := by rw [← h]
  by_cases hself : e = p ∨ s.otfPort e = true
  · refine ⟨s.regs, [], ?_, ?_⟩
    · exact if_pos hself
    · rw [← hkept]
      exact if_pos (by rwa [otfPort_congr h])
  · cases hpair : (if e < 40 then s.pairOf e else none) with
    | none =>
      refine ⟨s.regs, _, by simp only [State.portCopies, if_neg hself, hpair]; rfl, ?_⟩
      simp only [State.portCopies, otfPort_congr h, if_neg hself, pairOf_congr h, hpair]
      exact hkept _
    | some i =>
      by_cases hout : s.pairA i ≠ e ∨ inPair = some i
      · refine ⟨s.regs, [], by simp only [State.portCopies, if_neg hself, hpair, if_pos hout], ?_⟩
        simp only [State.portCopies, otfPort_congr h, if_neg hself, pairOf_congr h, hpair, pairA_congr h, if_pos hout]
        exact hkept _
      · by_cases hring : s.fld (pairReg i 0) 16 2 = 2 ∧ p < 40 ∧ s.bit (pairReg i 0) 18 = false
        · refine ⟨s.regs, [], by simp only [State.portCopies, if_neg hself, hpair, if_neg hout, if_pos hring], ?_⟩
          simp only [State.portCopies, otfPort_congr h, if_neg hself, pairOf_congr h, hpair, pairA_congr h, fld_congr h, bit_congr h, if_neg hout,
            if_pos hring]
          exact hkept _
        · refine ⟨(s.pairSeq i).1.regs, _, by simp only [State.portCopies, if_neg hself, hpair, if_neg hout, if_neg hring]; rfl, ?_⟩
          simp only [State.portCopies, otfPort_congr h, if_neg hself, pairOf_congr h, hpair, pairA_congr h, pairB_congr h, fld_congr h, bit_congr h,
            if_neg hout, if_neg hring, State.pairSeq, State.setReg, h]
end

/-- The state that forms the copies for some ports, and the copies. -/
def State.portsCopies (s : State) (f p : Nat) (tagged : Bool) (inPair after : Option Nat) (ports : List Nat) (cs : List Copy) : State × List Copy :=
  ports.foldl (fun (st, cs) e => let (st1, n) := st.portCopies f p e tagged inPair after; (st1, cs ++ n)) (s, cs)

theorem portsCopies_shape (h : t.regs = s.regs) (f p : Nat) (tagged : Bool) (inPair after : Option Nat) (ports : List Nat) (cs : List Copy) :
    ∃ rs ds, s.portsCopies f p tagged inPair after ports cs = ({ s with regs := rs }, ds) ∧
      t.portsCopies f p tagged inPair after ports cs = ({ t with regs := rs }, ds) := by
  induction ports generalizing s t cs with
  | nil => exact ⟨s.regs, cs, rfl, congrArg (fun r => (({ t with regs := r } : State), cs)) h⟩
  | cons e es ih =>
    obtain ⟨rs, n, hs, ht⟩ := portCopies_shape h f p e tagged inPair after
    have hcons (u : State) : u.portsCopies f p tagged inPair after (e :: es) cs = (u.portCopies f p e tagged inPair after).1.portsCopies f p
        tagged inPair after es (cs ++ (u.portCopies f p e tagged inPair after).2) := rfl
    rw [hcons s, hcons t, hs, ht]
    exact ih (s := { s with regs := rs }) (t := { t with regs := rs }) rfl (cs ++ n)

/-- A destination set that takes no sequence number is the same in every state with the same registers. -/
theorem destCopies_congr (h : t.regs = s.regs) {f p : Nat} {sender after : Option Nat} {bs : List Byte} {tagged : Bool} {a : Action}
    {cs : List Copy} (hs : s.destCopies f p sender bs tagged a after = (s, cs)) : t.destCopies f p sender bs tagged a after = (t, cs) := by
  have hports (u : State) : u.destCopies f p sender bs tagged a after =
      (let r := u.portsCopies f p tagged (if p < 40 then u.pairOf p else none) after
        ((List.range 42).filter (fun e => a.dest.testBit e && (decide (40 ≤ e) || u.vlanMember (u.frameVid p bs) e))) []
       (r.1, r.2 ++ ((List.range 32).filter (fun l => a.eng.testBit l && sender != some l)).map (fun l =>
         { plainCopy f (enginePort l) l after with strip := tagged }))) := rfl
  obtain ⟨rs, ds, hs', ht'⟩ := portsCopies_shape h f p tagged (if p < 40 then s.pairOf p else none) after
    ((List.range 42).filter (fun e => a.dest.testBit e && (decide (40 ≤ e) || s.vlanMember (s.frameVid p bs) e))) []
  rw [hports] at hs ⊢
  simp only [pairOf_congr h, vlanMember_congr h, frameVid_congr h] at hs ⊢
  rw [hs'] at hs
  rw [ht']
  obtain ⟨hstate, hcopies⟩ := Prod.mk.inj hs
  have hregs : rs = s.regs := congrArg State.regs hstate
  rw [Prod.mk.injEq, hregs, ← h]
  exact ⟨rfl, hcopies⟩

end Sys2Proof.Machine
end

section
/-!
Rules of reception (R203, R243, R247, R248): what the bytes of a frame change on their way into its cells, and its capture.
-/
namespace Sys2Proof.Machine

variable {s t : State} {p f : Nat} {x y : Frame} {r : Rx}

/-! ## The bytes of a frame in its cells (R247, R248) -/

/-- Frame x with the stored bytes `bs`, and the cells that they need. -/
def Frame.grown (x : Frame) (bs : List Byte) : Frame := { x with bytes := bs, cells := max x.cells (cellsFor bs.length x.kind) }

/-- Of two growths the longer one counts. -/
theorem grown_grown (x : Frame) {as bs : List Byte} (h : as.length ≤ bs.length) : (x.grown as).grown bs = x.grown bs := by
  have hcells := cellsFor_mono x.kind h
  simp only [Frame.grown, Frame.mk.injEq, true_and, and_true]
  omega

theorem length_stored (bs : List Byte) : (stored bs).length = bs.length - 4 := by
  rw [stored, List.length_take]
  omega

/-- What the bytes of arriving frames leave as it was. -/
def State.besideArrival (s : State) : State :=
  { s with sw := { s.sw with frames := [], free := 0, queuedCells := 0, inflightCells := 0, openFrames := 0, foldedFrames := 0, txs := [],
                             creditsOut := [], rxs := [] } }

/-- t comes from s by bytes that arrive on port p for its frame f, which was x: by now the reception is r and the frame y, and the cells that the
frame has taken have left the free list. -/
structure Receives (s t : State) (p f : Nat) (x : Frame) (r : Rx) (y : Frame) : Prop where
  beside : t.besideArrival = s.besideArrival
  rx : t.rx p = some r
  frame : t.frame f = some y
  others : ∀ g, g ≠ f → t.frame g = s.frame g
  free : t.sw.free + y.cells = s.sw.free + x.cells

theorem Receives.refl (hr : s.rx p = some r) (hx : s.frame f = some x) : Receives s s p f x r x :=
  ⟨rfl, hr, hx, fun _ _ => rfl, rfl⟩

theorem rx_setRx_same (s : State) (p : Nat) (r : Option Rx) : (s.setRx p r).rx p = r := Tab.get_set_same s.sw.rxs r

theorem Receives.setRx (h : Receives s t p f x r y) (r' : Rx) : Receives s (t.setRx p (some r')) p f x r' y :=
  ⟨h.beside, rx_setRx_same t p _, h.frame, h.others, h.free⟩

theorem Receives.regs (h : Receives s t p f x r y) : t.regs = s.regs := congrArg (fun u => u.regs) h.beside
theorem Receives.queues (h : Receives s t p f x r y) : t.sw.queues = s.sw.queues := congrArg (fun u => u.sw.queues) h.beside
theorem Receives.onlySw (h : Receives s t p f x r y) : t = { s with sw := t.sw } := congrArg (fun u : State => { u with sw := t.sw }) h.beside

theorem setFrame_besideArrival (s : State) (f : Nat) (x : Option Frame) : (s.setFrame f x).besideArrival = s.besideArrival :=
  congrArg (fun u => u.besideArrival) (setFrame_besideFrames s f x)

theorem takeCredits_besideArrival (s : State) (f : Nat) : (s.takeCredits f).besideArrival = s.besideArrival :=
  congrArg (fun u => u.besideArrival) (takeCredits_besideCredits s f)

theorem rx_setFrame (s : State) (f : Nat) (x : Option Frame) (p : Nat) : (s.setFrame f x).rx p = s.rx p :=
  congrArg (fun u => u.rx p) (setFrame_besideFrames s f x)
theorem rx_takeCredits (s : State) (f p : Nat) : (s.takeCredits f).rx p = s.rx p := congrArg (fun u => u.rx p) (takeCredits_besideCredits s f)
theorem frame_takeCredits (s : State) (f g : Nat) : (s.takeCredits f).frame g = s.frame g :=
  congrArg (fun u => u.frame g) (takeCredits_besideCredits s f)
theorem free_setFrame (s : State) (f : Nat) (x : Option Frame) : (s.setFrame f x).sw.free = s.sw.free :=
  congrArg (fun u => u.sw.free) (setFrame_besideFrames s f x)
theorem free_takeCredits (s : State) (f : Nat) : (s.takeCredits f).sw.free = s.sw.free :=
  congrArg (fun u => u.sw.free) (takeCredits_besideCredits s f)
theorem regs_setFrame (s : State) (f : Nat) (x : Option Frame) : (s.setFrame f x).regs = s.regs :=
  congrArg (fun u => u.regs) (setFrame_besideFrames s f x)
theorem queues_setFrame (s : State) (f : Nat) (x : Option Frame) : (s.setFrame f x).sw.queues = s.sw.queues :=
  congrArg (fun u => u.sw.queues) (setFrame_besideFrames s f x)

theorem shareWatch_setFrame_off (hwatch : s.fld (portReg p 0x100) 0 2 = 0) (f : Nat) (x : Option Frame) :
    (s.setFrame f x).shareWatch p = s.setFrame f x := shareWatch_off ((fld_congr (regs_setFrame s f x) _ _ _).trans hwatch)

/-- A state with n cells on its free list. -/
def State.withFree (s : State) (n : Nat) : State := { s with sw := { s.sw with free := n } }

/-- A frame whose cells the free list covers takes them. -/
theorem growCells_fits {n : Nat} (hx : s.frame f = some x) (hwatch : s.fld (portReg x.ingress 0x100) 0 2 = 0)
    (hfit : cellsFor n x.kind ≤ x.cells + s.sw.free) : s.growCells f n =
      ((s.withFree (s.sw.free - (cellsFor n x.kind - x.cells))).setFrame f
        (some { x with cells := x.cells + (cellsFor n x.kind - x.cells) }), true) := by
  have hneed : cellsFor n x.kind - x.cells ≤ s.sw.free := by omega
  simp only [State.growCells, hx, if_pos hneed]
  exact congrArg (·, true) (shareWatch_setFrame_off (s := s.withFree (s.sw.free - (cellsFor n x.kind - x.cells))) hwatch f _)

/-- A frame whose cells the free list does not cover takes what is there. -/
theorem growCells_short {n : Nat} (hx : s.frame f = some x) (hwatch : s.fld (portReg x.ingress 0x100) 0 2 = 0)
    (hshort : x.cells + s.sw.free < cellsFor n x.kind) : s.growCells f n =
      ((s.withFree 0).setFrame f (some { x with cells := x.cells + s.sw.free }), false) := by
  have hneed : ¬ cellsFor n x.kind - x.cells ≤ s.sw.free := by omega
  simp only [State.growCells, hx, if_neg hneed]
  exact congrArg (·, false) (shareWatch_setFrame_off (s := s.withFree 0) hwatch f _)

/-- Bytes that fit the cells of their frame and the free list are stored. -/
theorem Receives.arrive (h : Receives s t p f x r y) {bs : List Byte} (hbad : y.bad = false) (hlate : y.late = false)
    (hwatch : s.fld (portReg y.ingress 0x100) 0 2 = 0) (hfit : cellsFor bs.length y.kind ≤ x.cells + s.sw.free) :
    Receives s (t.arrive f bs) p f x r (y.grown bs) := by
  obtain ⟨hbeside, hrx, hframe, hothers, hfree⟩ := h
  have hregs : t.regs = s.regs := congrArg (fun u => u.regs) hbeside
  have harrive : t.arrive f bs = (((t.withFree (t.sw.free - (cellsFor bs.length y.kind - y.cells))).setFrame f
      (some { y with cells := y.cells + (cellsFor bs.length y.kind - y.cells) })).setFrame f (some (y.grown bs))).takeCredits f := by
    have hgrown : y.grown bs = { y with cells := y.cells + (cellsFor bs.length y.kind - y.cells), bytes := bs } := by
      simp only [Frame.grown, Frame.mk.injEq, true_and, and_true]
      omega
    have hopen : ¬ (y.bad || y.late) = true := by simp [hbad, hlate]
    rw [State.arrive, hframe, hgrown]
    dsimp only
    rw [if_neg hopen, growCells_fits hframe ((fld_congr hregs _ _ _).trans hwatch) (by omega)]
    dsimp only
    rw [if_pos rfl]
    rw [onFrame_some (frame_setFrame_same _ _ _)]
  rw [harrive]
  refine ⟨?_, ?_, ?_, fun g hg => ?_, ?_⟩
  · rw [takeCredits_besideArrival, setFrame_besideArrival, setFrame_besideArrival]
    exact hbeside
  · rw [rx_takeCredits, rx_setFrame, rx_setFrame]
    exact hrx
  · rw [frame_takeCredits, frame_setFrame_same]
  · rw [frame_takeCredits, frame_setFrame_other _ _ hg, frame_setFrame_other _ _ hg]
    exact hothers g hg
  · rw [free_takeCredits, free_setFrame, free_setFrame]
    simp only [Frame.grown, State.withFree]
    omega

/-! ## Bytes received (R203, R243) -/

theorem rxPoint_idle {bs : List Byte} (hr : s.rx p = some r) (h : 128 ≤ r.bytes.length ∨ bs.length < 128) : s.rxPoint p bs = s := by
  rw [State.rxPoint, hr]
  dsimp only
  cases hf : r.frame with
  | none => rfl
  | some f => exact if_neg (by omega)

theorem rxPoint_passed {bs : List Byte} (hr : s.rx p = some r) (hf : r.frame = some f) (hlo : r.bytes.length < 128) (hhi : 128 ≤ bs.length) :
    s.rxPoint p bs = ((s.setRx p (some { r with bytes := bs.take 128 })).arrive f (stored (bs.take 128))).rxCapture p false := by
  rw [State.rxPoint, hr]
  dsimp only
  rw [hf]
  exact if_pos ⟨hlo, hhi⟩

/-- No capture is outstanding. -/
theorem rxCapture_taken (hr : s.rx p = some r) (h : r.capture = false) (whole : Bool) : s.rxCapture p whole = s := by
  rw [State.rxCapture, hr]
  dsimp only
  cases hf : r.frame with
  | none => rfl
  | some f => exact if_neg (by rw [h]; simp)

/-- Further bytes of a frame up to MAX_LEN, once the 128th byte is dealt with. -/
theorem rxMore_within {bytes : List Byte} (hr : s.rx p = some r) (hf : r.frame = some f) (hlen : (r.bytes ++ bytes).length ≤ s.maxLen p)
    {r' : Rx} (hpoint : (s.rxPoint p (r.bytes ++ bytes)).rx p = some r') : s.rxMore p bytes =
      ((s.rxPoint p (r.bytes ++ bytes)).setRx p (some { r' with bytes := r.bytes ++ bytes })).arrive f (stored (r.bytes ++ bytes)) := by
  rw [State.rxMore, hr]
  dsimp only
  rw [hf, hpoint]
  exact if_neg (Nat.not_lt.2 hlen)

/-- Further bytes of a frame without a capture outstanding that stay within MAX_LEN and the free list. -/
theorem Receives.rxMore {bytes : List Byte} (hr : s.rx p = some r) (hf : r.frame = some f) (hx : s.frame f = some x) (hcapture : r.capture = false)
    (hbad : x.bad = false) (hlate : x.late = false) (hwatch : s.fld (portReg x.ingress 0x100) 0 2 = 0)
    (hlen : (r.bytes ++ bytes).length ≤ s.maxLen p) (hfit : cellsFor ((r.bytes ++ bytes).length - 4) x.kind ≤ x.cells + s.sw.free) :
    Receives s (s.rxMore p bytes) p f x { r with bytes := r.bytes ++ bytes } (x.grown (stored (r.bytes ++ bytes))) := by
  have hstart := Receives.refl hr hx
  by_cases hpoint : 128 ≤ r.bytes.length ∨ (r.bytes ++ bytes).length < 128
  · have hidle := rxPoint_idle hr hpoint
    rw [rxMore_within hr hf hlen (by rw [hidle]; exact hr), hidle]
    exact (hstart.setRx _).arrive hbad hlate hwatch (by rw [length_stored]; exact hfit)
  · have hshort : (stored ((r.bytes ++ bytes).take 128)).length ≤ (stored (r.bytes ++ bytes)).length := by
      rw [length_stored, length_stored, List.length_take]
      omega
    have hfitPoint : cellsFor (stored ((r.bytes ++ bytes).take 128)).length x.kind ≤ x.cells + s.sw.free :=
      (cellsFor_mono _ hshort).trans (by rw [length_stored]; exact hfit)
    have hgrown := (hstart.setRx { r with bytes := (r.bytes ++ bytes).take 128 }).arrive hbad hlate hwatch hfitPoint
    have hpassed := rxPoint_passed hr hf (by omega : r.bytes.length < 128) (by omega : 128 ≤ (r.bytes ++ bytes).length)
    rw [rxCapture_taken hgrown.rx hcapture] at hpassed
    rw [rxMore_within hr hf hlen (by rw [hpassed]; exact hgrown.rx), hpassed, ← grown_grown x hshort]
    exact (hgrown.setRx _).arrive hbad hlate hwatch (by rw [length_stored]; exact hfit)

end Sys2Proof.Machine
end

section
/-!
The events of reception (R203, R223, R243, R248): heads, further cells, frames past MAX_LEN, the capture point, and ends without a frame.
-/
namespace Sys2Proof.Machine

variable {s t : State} {p f : Nat} {x y : Frame} {r : Rx} {bytes bs : List Byte}

theorem exec_frameHeadClassified (hp : p < 40) (bs : List Byte) (s : State) : exec (.frameHeadClassified p bs) s = .next (s.rxHead p bs) :=
  event_port hp s _
theorem exec_ingressCellTaken (hp : p < 40) (bs : List Byte) (s : State) : exec (.ingressCellTaken p bs) s = .next (s.rxMore p bs) :=
  event_port hp s _
theorem exec_ingressOversizeByte (hp : p < 40) (bs : List Byte) (s : State) : exec (.ingressOversizeByte p bs) s = .next (s.rxMore p bs) :=
  event_port hp s _
theorem exec_ingressCapturePoint (hp : p < 40) (bs : List Byte) (s : State) : exec (.ingressCapturePoint p bs) s = .next (s.rxMore p bs) :=
  event_port hp s _
theorem exec_macFrameEnd (hp : p < 40) (bs : List Byte) (ce : Bool) (s : State) : exec (.macFrameEnd p bs ce) s = .next (s.macEnd p bs ce) :=
  event_port hp s _

/-! ## Heads (R223) -/

/-- A head is taken where the port receives into the switch and no frame is in reception. -/
theorem rxHead_taken (hup : s.linkUp p = true) (hotf : s.otfPort p = false) (hrx : s.rx p = none) (hlo : 64 ≤ bs.length)
    (hhi : bs.length ≤ s.maxLen p) : s.rxHead p bs = (s.rxBegin p bs 64 50).rxCapture p false := by
  have hopen : (!s.linkUp p || s.otfPort p || (s.rx p).isSome || decide (bs.length < 64)) = false := by
    rw [hup, hotf, hrx, decide_eq_false (Nat.not_lt.2 hlo)]
    rfl
  rw [State.rxHead, hopen, if_neg Bool.false_ne_true, if_neg (Nat.not_lt.2 hhi)]

theorem rxHead_passed (h : s.linkUp p = false ∨ s.otfPort p = true ∨ s.rx p ≠ none ∨ bs.length < 64) : s.rxHead p bs = s := by
  refine if_pos ?_
  rw [Bool.or_eq_true, Bool.or_eq_true, Bool.or_eq_true, decide_eq_true_iff, ← Option.ne_none_iff_isSome]
  rcases h with h | h | h | h
  · exact .inl (.inl (.inl (by rw [h]; rfl)))
  · exact .inl (.inl (.inr h))
  · exact .inl (.inr h)
  · exact .inr h

/-- A reception outside the switch has no capture. -/
theorem rxCapture_unswitched (s : State) (p : Nat) (r : Rx) (h : r.frame = none) (whole : Bool) :
    (s.setRx p (some r)).rxCapture p whole = s.setRx p (some r) := by
  rw [State.rxCapture, rx_setRx_same]
  dsimp only
  rw [h]

theorem rxBegin_unswitched (h : s.entersSwitch p bs = false) (n lag : Nat) : s.rxBegin p bs n lag = s.setRx p (some ⟨bs, none, false⟩) := by
  rw [State.rxBegin, h]
  rfl

/-- A head that finds no first cell is accepted and counts under BUF_FULL at once. -/
theorem rxBegin_full (h : s.entersSwitch p bs = true) (hpre : s.sw.pre.testBit p = false) (hfree : s.sw.free = 0) (n lag : Nat) :
    s.rxBegin p bs n lag = ((s.free.bump acceptedCnt).bump (dropCnt 12)).setRx p (some ⟨bs, none, false⟩) := by
  have hfirst : s.free.firstCell p = none := by
    rw [State.firstCell, if_neg (by rw [show s.free.sw.pre = s.sw.pre from rfl, hpre]; exact Bool.false_ne_true)]
    exact if_pos hfree
  rw [State.rxBegin, h, State.beginFrame, hfirst]
  rfl

/-! ## Further bytes (R203, R243, R248) -/

theorem rxMore_none (h : s.rx p = none) (bytes : List Byte) : s.rxMore p bytes = s := by rw [State.rxMore, h]

/-- A frame that no queue names and that has met no reason yet goes bad for reason c; its cut copies in transmission count. -/
theorem frameBad_unqueued {c : Nat} (hx : s.frame f = some x) (hreason : x.reason = 0) (hq : s.isQueued f = false) :
    ∃ n, s.frameBad f c = ((s.setFrame f (some { x with reason := c })).setFrame f (some { x with reason := c, bad := true })).bumpBy
      (swReg 0x8040) n := by
  have hfail : s.failFrame f c = s.setFrame f (some { x with reason := c }) := by
    rw [State.failFrame, onFrame_some hx, if_pos hreason]
  rw [State.frameBad, hfail, onFrame_some (frame_setFrame_same _ _ _), State.stompCopies]
  refine ⟨_, dropQueued_unqueued ?_ _⟩
  rw [State.isQueued, State.bumpBy_sw, queues_setFrame, queues_setFrame]
  exact hq

/-- What a frame that goes bad leaves, where no queue names it: the frame is bad for its reason, and the reception and the free list are as before. -/
theorem frameBad_outcome {c : Nat} (hx : s.frame f = some x) (hreason : x.reason = 0) (hq : s.isQueued f = false) :
    (s.frameBad f c).frame f = some { x with reason := c, bad := true } ∧ (s.frameBad f c).rx p = s.rx p ∧
      (s.frameBad f c).sw.free = s.sw.free := by
  obtain ⟨n, hbad⟩ := frameBad_unqueued (c := c) hx hreason hq
  rw [hbad]
  refine ⟨frame_setFrame_same _ _ _, ?_, ?_⟩
  · exact (rx_setFrame _ _ _ _).trans (rx_setFrame _ _ _ _)
  · exact (free_setFrame _ _ _).trans (free_setFrame _ _ _)

/-- Bytes for which the free list is too short: the frame takes what is there, keeps what its cells hold, and goes bad under BUF_FULL. -/
theorem arrive_short (hx : s.frame f = some x) (hbad : x.bad = false) (hlate : x.late = false) (hreason : x.reason = 0)
    (hwatch : s.fld (portReg x.ingress 0x100) 0 2 = 0) (hq : s.isQueued f = false) (hshort : x.cells + s.sw.free < cellsFor bs.length x.kind) :
    (s.arrive f bs).sw.free = 0 ∧ (s.arrive f bs).frame f = some { x with
      cells := x.cells + s.sw.free, bytes := bs.take (cellRoom (x.cells + s.sw.free) x.kind), reason := 12, bad := true } := by
  have hopen : ¬ (x.bad || x.late) = true := by simp [hbad, hlate]
  have harrive : s.arrive f bs = (((s.withFree 0).setFrame f (some { x with cells := x.cells + s.sw.free })).setFrame f (some { x with
      cells := x.cells + s.sw.free, bytes := bs.take (cellRoom (x.cells + s.sw.free) x.kind) })).frameBad f 12 := by
    rw [State.arrive, hx]
    dsimp only
    rw [if_neg hopen, growCells_short hx hwatch hshort]
    dsimp only
    rw [if_neg Bool.false_ne_true, onFrame_some (frame_setFrame_same _ _ _)]
  obtain ⟨hframe, -, hfree⟩ := frameBad_outcome (p := 0) (c := 12) (frame_setFrame_same
    ((s.withFree 0).setFrame f (some { x with cells := x.cells + s.sw.free })) f (some { x with
      cells := x.cells + s.sw.free, bytes := bs.take (cellRoom (x.cells + s.sw.free) x.kind) })) hreason
    (by rw [State.isQueued, queues_setFrame, queues_setFrame]; exact hq)
  rw [harrive, hframe, hfree, free_setFrame, free_setFrame]
  exact ⟨rfl, rfl⟩

/-- Further bytes past MAX_LEN: the bytes up to MAX_LEN + 1 are stored, and the frame goes bad under OVERSIZE. -/
theorem rxMore_past (hr : s.rx p = some r) (hf : r.frame = some f) (hpoint : s.rxPoint p (r.bytes ++ bytes) = s)
    (hlen : s.maxLen p < (r.bytes ++ bytes).length)
    (hy : ((s.setRx p (some { r with bytes := r.bytes ++ bytes })).arrive f (stored ((r.bytes ++ bytes).take (s.maxLen p + 1)))).frame f = some y)
    (hbad : y.bad = false) : s.rxMore p bytes =
      ((s.setRx p (some { r with bytes := r.bytes ++ bytes })).arrive f (stored ((r.bytes ++ bytes).take (s.maxLen p + 1)))).frameBad f 3 := by
  rw [State.rxMore, hr]
  dsimp only
  rw [hf] at hy
  rw [hpoint, hr, hf]
  refine (if_pos hlen).trans ?_
  dsimp only [Option.map_some]
  rw [hf, hy]
  exact if_neg (show ¬ y.bad = true by rw [hbad]; exact Bool.false_ne_true)

/-! ## The capture (R243) -/

/-- The capture of a frame in its ingress port's ring alone. -/
theorem ingressCapture_portRing (hx : s.frame f = some x) (hport : s.bit (pcfg x.ingress) 22 = true) (hact : bitOf x.act 19 = false) :
    s.ingressCapture f = s.capture243 f (s.fld (pcfg x.ingress) 23 2) 0x3F := by
  rw [State.ingressCapture, hx]
  dsimp only
  rw [hport, hact]
  rfl

/-- A state with one more capture for the mirror writer. -/
def State.withCapture (s : State) (c : Capture) : State := { s with sw := { s.sw with captures := s.sw.captures ++ [c] } }

/-- A ring takes a frame that arrives with the bytes received so far. -/
theorem capture243_arriving {ring : Nat} (hx : s.frame f = some x) (hr : s.rx x.ingress = some r) (hf : r.frame = some f)
    (harriving : x.arriving = true) (hbad : x.bad = false) (hroom : s.sw.captures.length < 64) (egress : Nat) :
    s.capture243 f ring egress = s.withCapture ⟨f, ring, r.bytes.length, false, false, egress, r.bytes.take 128⟩ := by
  have hreceived : s.received f x = r.bytes := by
    rw [State.received, hr]
    exact if_pos (by rw [harriving, hbad, hf, beq_self_eq_true]; rfl)
  rw [State.capture243, hx]
  dsimp only
  rw [if_neg (Nat.not_le.2 hroom), hreceived, harriving]
  rfl

/-- The capture of a classified frame is taken at its 128th byte. -/
theorem rxCapture_due (hr : s.rx p = some r) (hf : r.frame = some f) (hx : s.frame f = some x) (hcapture : r.capture = true)
    (hclassed : x.classed = true) (hlen : 128 ≤ r.bytes.length) :
    s.rxCapture p false = (s.setRx p (some { r with capture := false })).ingressCapture f := by
  rw [State.rxCapture, hr]
  dsimp only
  rw [hf]
  dsimp only
  rw [hx]
  exact if_pos (by rw [hcapture, decide_eq_true hlen]; simp [hclassed])

/-- The capture of a classified frame that arrives, in its ingress port's ring alone. -/
theorem rxCapture_portRing (hr : s.rx p = some r) (hf : r.frame = some f) (hx : s.frame f = some x) (hcapture : r.capture = true)
    (hclassed : x.classed = true) (harriving : x.arriving = true) (hbad : x.bad = false) (hp : x.ingress = p) (hport : s.bit (pcfg p) 22 = true)
    (hact : bitOf x.act 19 = false) (hroom : s.sw.captures.length < 64) (hlen : 128 ≤ r.bytes.length) :
    s.rxCapture p false = (s.setRx p (some { r with capture := false })).withCapture
      ⟨f, s.fld (pcfg p) 23 2, r.bytes.length, false, false, 0x3F, r.bytes.take 128⟩ := by
  have hrx : (s.setRx p (some { r with capture := false })).rx x.ingress = some { r with capture := false } := by
    rw [hp]
    exact rx_setRx_same _ _ _
  rw [rxCapture_due hr hf hx hcapture hclassed hlen, ingressCapture_portRing (s := s.setRx p _) hx (by rw [hp]; exact hport) hact,
    capture243_arriving (s := s.setRx p _) hx hrx hf harriving hbad hroom, hp]
  rfl

/-! ## Ends without a frame in the switch (R203) -/

theorem drop_drop {α : Type} (t : Tab α) (k : Nat) : Tab.drop (Tab.drop t k) k = Tab.drop t k := by
  induction t with
  | nil => rfl
  | cons a t ih =>
    obtain ⟨j, v⟩ := a
    by_cases hj : j = k
    · rw [Tab.drop, if_pos hj, ih]
    · rw [Tab.drop, if_neg hj, Tab.drop, if_neg hj, ih]

theorem drop_put {α : Type} (t : Tab α) (k : Nat) (v : α) : Tab.drop (Tab.put t k v) k = Tab.drop t k := by
  induction t with
  | nil => simp [Tab.put, Tab.drop]
  | cons a t ih =>
    obtain ⟨j, w⟩ := a
    by_cases hj : j = k
    · simp [Tab.put, Tab.drop, hj]
    · by_cases hlt : k < j
      · simp [Tab.put, Tab.drop, hj, hlt]
      · simp [Tab.put, Tab.drop, hj, hlt, ih]

/-- A reception that has ended leaves nothing of what it was. -/
theorem setRx_setRx_none (s : State) (p : Nat) (r : Option Rx) : (s.setRx p r).setRx p none = s.setRx p none := by
  have htab : Tab.set (fun _ => none) (Tab.set (fun _ => none) s.sw.rxs p r) p none = Tab.set (fun _ => none) s.sw.rxs p none := by
    cases r with
    | none => exact drop_drop _ _
    | some r => exact drop_put _ _ _
  exact congrArg (fun rxs => { s with sw := { s.sw with rxs := rxs } }) htab

end Sys2Proof.Machine
end

section
/-!
The ends of received frames (R203, R231, R237, R240): frames that did not enter the switch, and a good frame that waits in a queue.
-/
namespace Sys2Proof.Machine

variable {s t : State} {p f : Nat} {x y : Frame} {r : Rx} {bytes bs : List Byte}

theorem macJudge_congr (h : t.regs = s.regs) (p : Nat) (bs : List Byte) (ce : Bool) : t.macJudge p bs ce = s.macJudge p bs ce :=
  of_registers (φ := fun u => u.macJudge p bs ce) (fun _ => rfl) h

theorem count_bumpBy_other {a b : Nat} (n : Nat) (h : b ≠ a) : (s.bumpBy a n).count b = s.count b := Tab.get_set_other _ _ h

/-- A frame without an end limit does not end after it (R310). -/
theorem pastLimit_unlimited (hr : s.rx p = some r) (h : ∀ f x, r.frame = some f → s.frame f = some x → x.limit = none) : s.pastLimit p = s := by
  rw [State.pastLimit, hr]
  dsimp only
  cases hf : r.frame with
  | none => rfl
  | some f =>
    dsimp only
    cases hx : s.frame f with
    | none => rfl
    | some x =>
      dsimp only
      rw [h f x hf hx]

/-- No oversize has been declared on a frame that has met no reason. -/
theorem rxOversize_unmet (hr : s.rx p = some r) (h : ∀ f x, r.frame = some f → s.frame f = some x → x.reason = 0 ∧ x.late = false) :
    s.rxOversize p = false := by
  rw [State.rxOversize, hr]
  dsimp only
  cases hf : r.frame with
  | none => rfl
  | some f =>
    dsimp only
    cases hx : s.frame f with
    | none => rfl
    | some x =>
      obtain ⟨hreason, hlate⟩ := h f x hf hx
      dsimp only
      rw [hreason, hlate]
      rfl

theorem macEnd_ignored (h : s.linkUp p = false ∨ s.otfPort p = true) (bytes : List Byte) (ce : Bool) : s.macEnd p bytes ce = s := by
  refine if_pos ?_
  rw [Bool.or_eq_true, Bool.or_eq_true]
  rcases h with h | h
  · exact .inl (.inl (by rw [h]; rfl))
  · exact .inl (.inr h)

/-- What is common to the ends of a reception in progress: the port receives into the switch, the frame has kept its end limit, no oversize has been
declared, and j is the MAC's verdict. -/
structure Ends (s u : State) (p : Nat) (r r' : Rx) (bytes : List Byte) (ce : Bool) (j : Nat) : Prop where
  up : s.linkUp p = true
  switched : s.otfPort p = false
  rx : s.rx p = some r
  nonempty : r.bytes ++ bytes ≠ []
  limit : s.pastLimit p = s
  more : s.rxMore p bytes = u
  received : u.rx p = some r'
  oversize : u.rxOversize p = false
  verdict : u.macJudge p (r.bytes ++ bytes) ce = j
  counts : u.bit (portReg p 8) 0 = true

section
variable {u : State} {r' : Rx} {ce : Bool} {j : Nat}

/-- The MAC's own part of the end is passed. -/
theorem Ends.isOpen (h : Ends s u p r r' bytes ce j) : ¬ (!s.linkUp p || s.otfPort p || (r.bytes ++ bytes).isEmpty) = true := by
  rw [h.up, h.switched, Bool.not_eq_true]
  simp [h.nonempty]

/-- A good frame that is not in the switch counts, and its reception is over. -/
theorem Ends.good_outside (h : Ends s u p r r' bytes ce 0) (hcontrol : isControl (r.bytes ++ bytes) = false) (hf : r'.frame = none) :
    s.macEnd p bytes ce = ((u.bump (portReg p 0x1000)).bumpBy (portReg p 0x1008) ((r.bytes ++ bytes).length - 4)).setRx p none := by
  rw [State.macEnd, h.rx]
  dsimp only
  rw [if_neg h.isOpen, h.limit, h.more, h.oversize]
  simp [h.verdict, h.received, h.counts, hf, hcontrol]

/-- A bad frame that is not in the switch counts by its verdict, and its reception is over. -/
theorem Ends.bad_outside (h : Ends s u p r r' bytes ce j) (hj : j ≠ 0) (hf : r'.frame = none) :
    s.macEnd p bytes ce = (u.bump (portReg p (0x1008 + 8 * j))).setRx p none := by
  rw [State.macEnd, h.rx]
  dsimp only
  rw [if_neg h.isOpen, h.limit, h.more, h.oversize]
  simp [h.verdict, h.received, h.counts, hf, hj, State.macBad]

/-- A good frame in the switch counts, and ends there. -/
theorem Ends.good_inside (h : Ends s u p r r' bytes ce 0) (hcontrol : isControl (r.bytes ++ bytes) = false) (hf : r'.frame = some f) :
    s.macEnd p bytes ce =
      ((((u.bump (portReg p 0x1000)).bumpBy (portReg p 0x1008) ((r.bytes ++ bytes).length - 4)).inLimit f p).macGood p f (r.bytes ++ bytes)) := by
  rw [State.macEnd, h.rx]
  dsimp only
  rw [if_neg h.isOpen, h.limit, h.more, h.oversize]
  simp [h.verdict, h.received, h.counts, hf, hcontrol]
end

theorem rxMore_unswitched (hr : s.rx p = some r) (hf : r.frame = none) (bytes : List Byte) :
    s.rxMore p bytes = s.setRx p (some { r with bytes := r.bytes ++ bytes }) := by
  have hpoint : s.rxPoint p (r.bytes ++ bytes) = s := by
    rw [State.rxPoint, hr]
    dsimp only
    rw [hf]
  rw [State.rxMore, hr]
  dsimp only
  rw [hpoint, hr]
  simp [hf]

/-- A frame that did not enter the switch comes to its end. -/
theorem Ends.outside {ce : Bool} (hup : s.linkUp p = true) (hotf : s.otfPort p = false) (hr : s.rx p = some r) (hf : r.frame = none)
    (hne : r.bytes ++ bytes ≠ []) (hcounts : s.bit (portReg p 8) 0 = true) :
    Ends s (s.setRx p (some { r with bytes := r.bytes ++ bytes })) p r { r with bytes := r.bytes ++ bytes } bytes ce
      (s.macJudge p (r.bytes ++ bytes) ce) where
  up := hup
  switched := hotf
  rx := hr
  nonempty := hne
  limit := pastLimit_unlimited hr fun f x hframe => by rw [hf] at hframe; cases hframe
  more := rxMore_unswitched hr hf bytes
  received := rx_setRx_same _ _ _
  oversize := rxOversize_unmet (rx_setRx_same _ _ _) fun f x hframe => by rw [hf] at hframe; cases hframe
  verdict := macJudge_congr rfl _ _ _
  counts := hcounts

/-! ## The good end of a frame in the switch (R231, R240, R257) -/

/-- What the end of a frame that stays in its queue leaves as it was. -/
def State.besideEnd (s : State) : State := { s.besideArrival with sw := { s.besideArrival.sw with captures := [], learns := [] } }

theorem setFrame_besideEnd (s : State) (f : Nat) (x : Option Frame) : (s.setFrame f x).besideEnd = s.besideEnd :=
  congrArg (fun u => u.besideEnd) (setFrame_besideFrames s f x)

theorem noteLearn_besideEnd (s : State) (x : Frame) : (s.noteLearn x).besideEnd = s.besideEnd := by
  rw [State.noteLearn]
  dsimp only
  split
  · rfl
  · rfl

theorem noteLearn_frame (s : State) (x : Frame) (f : Nat) : (s.noteLearn x).frame f = s.frame f := by
  rw [State.noteLearn]
  dsimp only
  split
  · rfl
  · rfl

theorem noteLearn_rx (s : State) (x : Frame) (p : Nat) : (s.noteLearn x).rx p = s.rx p := by
  rw [State.noteLearn]
  dsimp only
  split
  · rfl
  · rfl

theorem pairEnd_unpaired (hx : s.frame f = some x) (h : s.pairOf x.ingress = none) : s.pairEnd f = (s, true) := by
  rw [State.pairEnd, hx]
  dsimp only
  rw [h, ite_self]

theorem stationDiscards_unroped (h : s.ctxOf p = none) (bs : List Byte) : s.stationDiscards p bs = false := by rw [State.stationDiscards, h]
theorem ropeEnd_unroped (h : s.ctxOf p = none) (f : Nat) (bs : List Byte) : s.ropeEnd f p bs = s := by rw [State.ropeEnd, h]

/-- A frame that a queue names is held. -/
theorem release_queued (hx : s.frame f = some x) (h : s.isQueued f = true) : s.release f = s := by
  rw [State.release, hx]
  refine if_pos ?_
  simp [State.isHeld, h]

/-- The end of a good frame without coloured copies. -/
theorem endsGood_undebited (hx : s.frame f = some x) (h : x.debits = []) :
    s.endsGood f = (s.setFrame f (some { x with debits := [], arriving := false })).noteLearn x := by
  rw [State.endsGood, hx]
  dsimp only
  rw [h, List.foldl_nil, onFrame_some hx]

/-- A frame of a port without a pair is complete: its bytes are stored, and it goes on to its end. -/
theorem rxGood_unpaired (hr : s.rx p = some r) (hcapture : r.capture = false) (hx : s.frame f = some x) (hbad : x.bad = false) (hlate : x.late = false)
    (hp : x.ingress = p) (hwatch : s.fld (portReg p 0x100) 0 2 = 0) (hpair : s.pairOf p = none)
    (hfit : cellsFor (bs.length - 4) x.kind ≤ x.cells + s.sw.free) : ∃ w, s.rxGood p f bs = (w, true) ∧ w.besideEnd = s.besideEnd ∧
      w.frame f = some { x.grown (stored bs) with arriving := true } := by
  have harrived := (Receives.refl hr hx).arrive (bs := stored bs) hbad hlate (by rw [hp]; exact hwatch) (by rw [length_stored]; exact hfit)
  have hbeside : (s.arrive f (stored bs)).besideEnd = s.besideEnd := congrArg (fun u => u.besideEnd) harrived.beside
  obtain ⟨u, hu⟩ : ∃ u, u = (s.arrive f (stored bs)).trimCaptures f (bs.length - 4) := ⟨_, rfl⟩
  have hur : u.rx p = some r := by rw [hu]; exact harrived.rx
  have huf : u.frame f = some (x.grown (stored bs)) := by rw [hu]; exact harrived.frame
  have hub : u.besideEnd = s.besideEnd := by rw [hu]; exact hbeside
  have hregs : u.regs = s.regs := congrArg (fun v => v.regs) hub
  obtain ⟨w, hw⟩ : ∃ w, w = (u.setFrame f (some { x.grown (stored bs) with arriving := false })).setFrame f
      (some { x.grown (stored bs) with arriving := true }) := ⟨_, rfl⟩
  have hwf : w.frame f = some { x.grown (stored bs) with arriving := true } := by rw [hw, frame_setFrame_same]
  have hwregs : w.regs = s.regs := by rw [hw, regs_setFrame, regs_setFrame, hregs]
  have hwhole : ((u.onFrame f (fun x => { x with arriving := false })).rxCapture p true).onFrame f (fun x => { x with arriving := true }) = w := by
    rw [onFrame_some huf, rxCapture_taken ((rx_setFrame _ _ _ _).trans hur) hcapture, onFrame_some (frame_setFrame_same _ _ _), hw]
  have hend : w.pairEnd f = (w, true) := pairEnd_unpaired hwf (((pairOf_congr hwregs _).trans (congrArg s.pairOf hp)).trans hpair)
  have hmode : w.pairMode p ≠ 1 := by rw [pairMode_congr hwregs, State.pairMode, hpair]; exact Nat.zero_ne_one
  refine ⟨w, ?_, ?_, hwf⟩
  · rw [State.rxGood]
    dsimp only
    rw [← hu, huf]
    dsimp only
    rw [if_neg (show ¬ (x.grown (stored bs)).bad = true by rw [Frame.grown, hbad]; exact Bool.false_ne_true), hwhole, hend]
    exact if_neg hmode
  · rw [hw, setFrame_besideEnd, setFrame_besideEnd, hub]

/-- A good frame that a queue names ends in the switch: its bytes are stored, it no longer arrives, and its reception is over. -/
theorem macGood_queued (hr : s.rx p = some r) (hcapture : r.capture = false) (hx : s.frame f = some x) (hbad : x.bad = false) (hlate : x.late = false)
    (hwaits : x.waits = false) (hdebits : x.debits = []) (hp : x.ingress = p) (hwatch : s.fld (portReg p 0x100) 0 2 = 0) (hpair : s.pairOf p = none)
    (hctx : s.ctxOf p = none) (hq : s.isQueued f = true) (hfit : cellsFor (bs.length - 4) x.kind ≤ x.cells + s.sw.free) :
    (s.macGood p f bs).besideEnd = s.besideEnd ∧ (s.macGood p f bs).rx p = none ∧
      (s.macGood p f bs).frame f = some { x.grown (stored bs) with debits := [], arriving := false } := by
  obtain ⟨w, hgood, hbeside, hw⟩ := rxGood_unpaired hr hcapture hx hbad hlate hp hwatch hpair hfit
  have hz : (w.setRx p none).frame f = some { x.grown (stored bs) with arriving := true } := hw
  have hzctx : (w.setRx p none).ctxOf p = none := (ctxOf_congr (congrArg (fun u => u.regs) hbeside) p).trans hctx
  obtain ⟨z, hzt⟩ : ∃ z, z = ((w.setRx p none).setFrame f (some { x.grown (stored bs) with debits := [], arriving := false })).noteLearn
      { x.grown (stored bs) with arriving := true } := ⟨_, rfl⟩
  have hzb : z.besideEnd = s.besideEnd := by
    rw [hzt, noteLearn_besideEnd, setFrame_besideEnd]
    exact hbeside
  have hzf : z.frame f = some { x.grown (stored bs) with debits := [], arriving := false } := by
    rw [hzt, noteLearn_frame, frame_setFrame_same]
  have hzq : z.isQueued f = true := (congrArg (fun u => u.isQueued f) hzb).trans hq
  have hmac : s.macGood p f bs = z := by
    rw [State.macGood, hgood]
    dsimp only
    rw [hz]
    dsimp only
    rw [stationDiscards_unroped hzctx, if_neg Bool.false_ne_true,
      if_neg (show ¬ (x.grown (stored bs)).waits = true by rw [Frame.grown, hwaits]; exact Bool.false_ne_true), ropeEnd_unroped hzctx,
      State.frameGood, endsGood_undebited hz (by rw [Frame.grown, hdebits]), ← release_queued hzf hzq, hzt]
  rw [hmac]
  refine ⟨hzb, ?_, hzf⟩
  rw [hzt, noteLearn_rx, rx_setFrame, rx_setRx_same]

end Sys2Proof.Machine
end

section
/-!
Frames in reception, event by event (R203, R243, R248).
-/
namespace Sys2Proof.Machine

variable {s t : State} {p f : Nat} {x y : Frame} {r : Rx} {bytes bs : List Byte}

/-- The bytes that a growth stores, and the cells it takes. -/
theorem grown_stored (x : Frame) (bs : List Byte) :
    x.grown (stored bs) = { x with bytes := bs.take (bs.length - 4), cells := max x.cells (cellsFor (bs.length - 4) x.kind) } := by
  rw [Frame.grown, length_stored, stored]

theorem onlySw_trans {u : State} (h : t = { u with sw := t.sw }) (h' : u = { s with sw := u.sw }) : t = { s with sw := t.sw } :=
  h.trans (congrArg (fun v : State => { v with sw := t.sw }) h')

theorem cellTaken_within (hr : s.rx p = some r) (hf : r.frame = some f) (hx : s.frame f = some x) (hcapture : r.capture = false)
    (hbad : x.bad = false) (hlate : x.late = false) (hp : x.ingress = p) (hwatch : s.fld (portReg p 0x100) 0 2 = 0)
    (hlen : (r.bytes ++ bytes).length ≤ s.maxLen p) (hfit : cellsFor ((r.bytes ++ bytes).length - 4) x.kind - x.cells ≤ s.sw.free) :
    (s.rxMore p bytes).rx p = some { r with bytes := r.bytes ++ bytes } ∧
      (s.rxMore p bytes).frame f = some { x with bytes := (r.bytes ++ bytes).take ((r.bytes ++ bytes).length - 4),
                                                 cells := max x.cells (cellsFor ((r.bytes ++ bytes).length - 4) x.kind) } ∧
      (s.rxMore p bytes).sw.free + (cellsFor ((r.bytes ++ bytes).length - 4) x.kind - x.cells) = s.sw.free ∧
      (s.rxMore p bytes).sw.queues = s.sw.queues ∧ s.rxMore p bytes = { s with sw := (s.rxMore p bytes).sw } := by
  have hmore := Receives.rxMore hr hf hx hcapture hbad hlate (by rw [hp]; exact hwatch) hlen (by omega)
  have hfree := hmore.free
  rw [grown_stored] at hfree
  dsimp only at hfree
  exact ⟨hmore.rx, by rw [hmore.frame, grown_stored], by omega, hmore.queues, hmore.onlySw⟩

theorem cellTaken_short (hr : s.rx p = some r) (hf : r.frame = some f) (hx : s.frame f = some x) (hbad : x.bad = false) (hlate : x.late = false)
    (hreason : x.reason = 0) (hp : x.ingress = p) (hwatch : s.fld (portReg p 0x100) 0 2 = 0) (hq : s.isQueued f = false)
    (hpoint : 128 ≤ r.bytes.length ∨ (r.bytes ++ bytes).length < 128) (hlen : (r.bytes ++ bytes).length ≤ s.maxLen p)
    (hshort : s.sw.free < cellsFor ((r.bytes ++ bytes).length - 4) x.kind - x.cells) : (s.rxMore p bytes).sw.free = 0 ∧
      (s.rxMore p bytes).frame f = some { x with
        cells := x.cells + s.sw.free, bytes := (stored (r.bytes ++ bytes)).take (cellRoom (x.cells + s.sw.free) x.kind),
        reason := 12, bad := true } := by
  have hidle := rxPoint_idle hr hpoint
  rw [rxMore_within hr hf hlen (by rw [hidle]; exact hr), hidle]
  exact arrive_short hx hbad hlate hreason (by rw [hp]; exact hwatch) hq
    (show x.cells + s.sw.free < cellsFor (stored (r.bytes ++ bytes)).length x.kind by rw [length_stored]; omega)

theorem oversizeByte_past (hr : s.rx p = some r) (hf : r.frame = some f) (hx : s.frame f = some x) (hbad : x.bad = false) (hlate : x.late = false)
    (hreason : x.reason = 0) (hp : x.ingress = p) (hwatch : s.fld (portReg p 0x100) 0 2 = 0) (hq : s.isQueued f = false)
    (hpoint : 128 ≤ r.bytes.length ∨ (r.bytes ++ bytes).length < 128) (hlen : s.maxLen p < (r.bytes ++ bytes).length)
    (hfit : cellsFor (s.maxLen p - 3) x.kind - x.cells ≤ s.sw.free) :
    (s.rxMore p bytes).rx p = some { r with bytes := r.bytes ++ bytes } ∧
      (s.rxMore p bytes).frame f = some { x.grown ((r.bytes ++ bytes).take (s.maxLen p - 3)) with reason := 3, bad := true } := by
  have hcut : stored ((r.bytes ++ bytes).take (s.maxLen p + 1)) = (r.bytes ++ bytes).take (s.maxLen p - 3) := by
    rw [stored, List.length_take, List.take_take]
    congr 1
    omega
  have harrived := ((Receives.refl hr hx).setRx { r with bytes := r.bytes ++ bytes }).arrive
    (bs := stored ((r.bytes ++ bytes).take (s.maxLen p + 1))) hbad hlate (by rw [hp]; exact hwatch)
    (by rw [hcut, List.length_take, Nat.min_eq_left (by omega)]; omega)
  rw [rxMore_past hr hf (rxPoint_idle hr hpoint) hlen harrived.frame hbad]
  obtain ⟨hframe, hrx, -⟩ := frameBad_outcome (p := p) (c := 3) harrived.frame hreason
    ((congrArg (fun u => u.isQueued f) harrived.beside).trans hq)
  exact ⟨hrx.trans harrived.rx, by rw [hframe, hcut]⟩

theorem capturePoint_within (hr : s.rx p = some r) (hf : r.frame = some f) (hx : s.frame f = some x) (hcapture : r.capture = true)
    (hlo : r.bytes.length < 128) (hclassed : x.classed = true) (hbad : x.bad = false) (hlate : x.late = false) (harriving : x.arriving = true)
    (hp : x.ingress = p) (hwatch : s.fld (portReg p 0x100) 0 2 = 0) (hlen : (r.bytes ++ bytes).length ≤ s.maxLen p)
    (hhi : 128 ≤ (r.bytes ++ bytes).length) (hfit : cellsFor ((r.bytes ++ bytes).length - 4) x.kind ≤ x.cells) (hport : s.bit (pcfg p) 22 = true)
    (hact : bitOf x.act 19 = false) (hroom : s.sw.captures.length < 64) :
    (s.rxMore p bytes).rx p = some { r with bytes := r.bytes ++ bytes, capture := false } ∧
      (s.rxMore p bytes).sw.captures =
        s.sw.captures ++ [⟨f, s.fld (pcfg p) 23 2, 128, false, false, 0x3F, (r.bytes ++ bytes).take 128⟩] ∧
      s.rxMore p bytes = { s with sw := (s.rxMore p bytes).sw } := by
  have hwatch' : s.fld (portReg x.ingress 0x100) 0 2 = 0 := by rw [hp]; exact hwatch
  have hhead : ((r.bytes ++ bytes).take 128).length = 128 := by rw [List.length_take]; omega
  have hfitHead : cellsFor (stored ((r.bytes ++ bytes).take 128)).length x.kind ≤ x.cells + s.sw.free := by
    have := cellsFor_mono x.kind (show (stored ((r.bytes ++ bytes).take 128)).length ≤ (r.bytes ++ bytes).length - 4 by
      rw [length_stored, hhead]; omega)
    omega
  have hgrown := ((Receives.refl hr hx).setRx { r with bytes := (r.bytes ++ bytes).take 128 }).arrive hbad hlate hwatch' hfitHead
  have hpassed := rxPoint_passed hr hf hlo hhi
  obtain ⟨u, hu⟩ : ∃ u, u = (s.setRx p (some { r with bytes := (r.bytes ++ bytes).take 128 })).arrive f (stored ((r.bytes ++ bytes).take 128)) :=
    ⟨_, rfl⟩
  rw [← hu] at hpassed hgrown
  have hcaptures : u.sw.captures = s.sw.captures := congrArg (fun v => v.sw.captures) hgrown.beside
  have hcaptured := rxCapture_portRing hgrown.rx hf hgrown.frame hcapture hclassed harriving hbad hp ((bit_congr hgrown.regs _ _).trans hport) hact
    (hcaptures ▸ hroom) hhead.ge
  rw [fld_congr hgrown.regs, hhead, List.take_take, Nat.min_self] at hcaptured
  rw [hcaptured] at hpassed
  obtain ⟨v, hv⟩ : ∃ v, v = s.rxPoint p (r.bytes ++ bytes) := ⟨_, rfl⟩
  have hvr : v.rx p = some ⟨(r.bytes ++ bytes).take 128, r.frame, false⟩ := by
    rw [hv, hpassed]
    exact rx_setRx_same u p (some ⟨(r.bytes ++ bytes).take 128, r.frame, false⟩)
  have hvx : v.frame f = some (x.grown (stored ((r.bytes ++ bytes).take 128))) := by rw [hv, hpassed]; exact hgrown.frame
  have hvs : v = { s with sw := v.sw } := by rw [hv, hpassed, hgrown.onlySw]; rfl
  have hvc : v.sw.captures = s.sw.captures ++ [⟨f, s.fld (pcfg p) 23 2, 128, false, false, 0x3F, (r.bytes ++ bytes).take 128⟩] := by
    rw [hv, hpassed, ← hcaptures]
    rfl
  have hfitAll : cellsFor (stored (r.bytes ++ bytes)).length x.kind ≤ (x.grown (stored ((r.bytes ++ bytes).take 128))).cells + v.sw.free := by
    rw [length_stored, Frame.grown]
    dsimp only
    omega
  have hmore := ((Receives.refl hvr hvx).setRx ⟨r.bytes ++ bytes, r.frame, false⟩).arrive (bs := stored (r.bytes ++ bytes)) hbad hlate
    ((fld_congr (congrArg (fun w => w.regs) hvs) _ _ _).trans hwatch') hfitAll
  rw [rxMore_within hr hf hlen (by rw [← hv]; exact hvr), ← hv]
  exact ⟨hmore.rx, (congrArg (fun w => w.sw.captures) hmore.beside).trans hvc,
    onlySw_trans hmore.onlySw hvs⟩

theorem macJudge_good {ce : Bool} (h : s.macJudge p bs ce = 0) : ce = false ∧ 64 ≤ bs.length ∧ bs.length ≤ s.maxLen p := by
  rw [State.macJudge] at h
  split at h
  · cases h
  · next hce =>
    split at h
    · cases h
    · split at h
      · cases h
      · exact ⟨Bool.eq_false_iff.2 hce, by omega, by omega⟩

/-- An end limit is met by a frame that has none (R310). -/
theorem inLimit_unlimited (hx : s.frame f = some x) (h : x.limit = none) (p : Nat) : s.inLimit f p = s := by
  rw [State.inLimit, hx]
  dsimp only
  rw [h]

theorem macEnd_queued (hup : s.linkUp p = true) (hotf : s.otfPort p = false) (hr : s.rx p = some r) (hf : r.frame = some f)
    (hx : s.frame f = some x) (hjudge : s.macJudge p (r.bytes ++ bytes) false = 0) (hcontrol : isControl (r.bytes ++ bytes) = false)
    (hcapture : r.capture = false) (hcounts : s.bit (portReg p 8) 0 = true) (hbad : x.bad = false) (hwaits : x.waits = false)
    (hlate : x.late = false) (hreason : x.reason = 0) (hp : x.ingress = p) (hlimit : x.limit = none) (hdebits : x.debits = [])
    (hwatch : s.fld (portReg p 0x100) 0 2 = 0) (hpair : s.pairOf p = none) (hctx : s.ctxOf p = none) (hq : s.isQueued f = true)
    (hfit : cellsFor ((r.bytes ++ bytes).length - 4) x.kind ≤ x.cells) : (s.macEnd p bytes false).rx p = none ∧
      (s.macEnd p bytes false).frame f = some { x with bytes := (r.bytes ++ bytes).take ((r.bytes ++ bytes).length - 4), arriving := false } ∧
      (s.macEnd p bytes false).cnts = ((s.bump (portReg p 0x1000)).bumpBy (portReg p 0x1008) ((r.bytes ++ bytes).length - 4)).cnts ∧
      s.macEnd p bytes false = { s with sw := (s.macEnd p bytes false).sw, cnts := (s.macEnd p bytes false).cnts } := by
  obtain ⟨-, hlo, hhi⟩ := macJudge_good hjudge
  have hgrown : x.grown (stored (r.bytes ++ bytes)) = { x with bytes := (r.bytes ++ bytes).take ((r.bytes ++ bytes).length - 4) } := by
    rw [grown_stored, Nat.max_eq_left hfit]
  have hmore := Receives.rxMore hr hf hx hcapture hbad hlate (by rw [hp]; exact hwatch) hhi (by omega)
  rw [hgrown] at hmore
  have hends : Ends s (s.rxMore p bytes) p r { r with bytes := r.bytes ++ bytes } bytes false 0 :=
    { up := hup
      switched := hotf
      rx := hr
      nonempty := fun h => by rw [h] at hlo; exact absurd hlo (by decide)
      limit := pastLimit_unlimited hr fun g z hg hz => by
        obtain rfl := Option.some.inj (hf.symm.trans hg)
        obtain rfl := Option.some.inj (hx.symm.trans hz)
        exact hlimit
      more := rfl
      received := hmore.rx
      oversize := rxOversize_unmet hmore.rx fun g z hg hz => by
        obtain rfl := Option.some.inj (hf.symm.trans hg)
        obtain rfl := Option.some.inj (hmore.frame.symm.trans hz)
        exact ⟨hreason, hlate⟩
      verdict := (macJudge_congr hmore.regs _ _ _).trans hjudge
      counts := (bit_congr hmore.regs _ _).trans hcounts }
  obtain ⟨v, hv⟩ : ∃ v, v = ((s.rxMore p bytes).bump (portReg p 0x1000)).bumpBy (portReg p 0x1008) ((r.bytes ++ bytes).length - 4) := ⟨_, rfl⟩
  have hvx : v.frame f = some { x with bytes := (r.bytes ++ bytes).take ((r.bytes ++ bytes).length - 4) } := by rw [hv]; exact hmore.frame
  have hvregs : v.regs = s.regs := by rw [hv]; exact hmore.regs
  have hmac : s.macEnd p bytes false = v.macGood p f (r.bytes ++ bytes) := by
    rw [hends.good_inside hcontrol hf, ← hv, inLimit_unlimited hvx hlimit]
  obtain ⟨hbeside, hrx, hframe⟩ := macGood_queued (bs := r.bytes ++ bytes) (r := { r with bytes := r.bytes ++ bytes }) (by rw [hv]; exact hmore.rx)
    hcapture hvx hbad hlate hwaits hdebits hp
    ((fld_congr hvregs _ _ _).trans hwatch) ((pairOf_congr hvregs _).trans hpair) ((ctxOf_congr hvregs _).trans hctx)
    (by rw [hv]; exact (congrArg (fun u => u.isQueued f) hmore.beside).trans hq) (by dsimp only; omega)
  have hcnts : v.cnts = ((s.bump (portReg p 0x1000)).bumpBy (portReg p 0x1008) ((r.bytes ++ bytes).length - 4)).cnts := by
    rw [hv, hmore.onlySw]
    rfl
  have honly : v = { s with sw := v.sw, cnts := v.cnts } := by
    rw [hv, hmore.onlySw]
    rfl
  rw [hmac]
  obtain ⟨t, ht⟩ : ∃ t, t = v.macGood p f (r.bytes ++ bytes) := ⟨_, rfl⟩
  rw [← ht] at hbeside hrx hframe ⊢
  have hkept : t.cnts = v.cnts := congrArg (fun u => u.cnts) hbeside
  refine ⟨hrx, by rw [hframe, grown_stored, Nat.max_eq_left hfit, ← hdebits], hkept.trans hcnts, ?_⟩
  calc t = { v with sw := t.sw } := congrArg (fun u : State => { u with sw := t.sw }) hbeside
    _ = { s with sw := t.sw, cnts := v.cnts } := congrArg (fun u : State => { u with sw := t.sw }) honly
    _ = { s with sw := t.sw, cnts := t.cnts } := congrArg (fun c => { s with sw := t.sw, cnts := c }) hkept.symm

end Sys2Proof.Machine
end

section
/-!
The head of a frame that enters the switch: its first cell, its class, and its copy (R221 to R225, R247, R248, R253, R263).
-/
namespace Sys2Proof.Machine

variable {s t : State} {p f : Nat} {x y : Frame} {r : Rx} {c : Copy} {bs : List Byte}

/-! ## The first cell (R247, R248) -/

/-- A frame that has begun on port p with its first cell, not folded. -/
def Frame.begun (p stamp granule : Nat) (bs : List Byte) : Frame :=
  { bytes := bs, ingress := p, sender := none, stamp := stamp, arriving := true, bad := false, classed := false, tc := 0, granule := granule,
    kind := 0, entry := 0, cells := 1, hit := none, act := 0, reason := 0, failed := 0, left := false, debits := [], waits := false,
    limit := none, late := false, tag := 0 }

/-- A frame has begun as the next one: nothing but cells, frames and its count has changed. -/
structure Begins (s t : State) (p stamp : Nat) (bs : List Byte) : Prop where
  regs : t.regs = s.regs
  queues : t.sw.queues = s.sw.queues
  next : t.sw.nextFrame = s.sw.nextFrame + 1
  frame : t.frame s.sw.nextFrame = some (Frame.begun p stamp s.sw.granule bs)
  others : ∀ g, g ≠ s.sw.nextFrame → t.frame g = s.frame g
  free : s.sw.free ≤ t.sw.free + 48
  count : t.count acceptedCnt = s.count acceptedCnt + 1

/-- The pre-allocated cell of a port is the first cell of a frame. -/
theorem beginFrame_begins (hpre : s.sw.pre.testBit p = true) (hfold : s.bit (swReg 0x9000) 0 = false)
    (hwatch : s.fld (portReg p 0x100) 0 2 = 0) (stamp : Nat) (bs : List Byte) :
    ∃ t, s.beginFrame p none stamp bs true = (t, some s.sw.nextFrame) ∧ Begins s t p stamp bs := by
  obtain ⟨u, hu⟩ : ∃ u, u = ({ s with sw := { s.sw with
      pre := s.sw.pre - 2 ^ p, inflightCells := s.sw.inflightCells - 1 } } : State).portsTake := ⟨_, rfl⟩
  have hbeside : u.besideCells = s.besideCells := by rw [hu, portsTake_besideCells]; rfl
  have hregs : u.regs = s.regs := congrArg (fun v => v.regs) hbeside
  have hqueues : u.sw.queues = s.sw.queues := congrArg (fun v => v.sw.queues) hbeside
  have hnext : u.sw.nextFrame = s.sw.nextFrame := congrArg (fun v => v.sw.nextFrame) hbeside
  have hgranule : u.sw.granule = s.sw.granule := congrArg (fun v => v.sw.granule) hbeside
  have hfirst : s.firstCell p = some u := by rw [State.firstCell, if_pos hpre, hu]
  have hunfolded (fromPair : Bool) : u.fold bs fromPair = (u, 0, 0) := by
    rw [State.fold]
    exact if_pos (by rw [bit_congr hregs, hfold]; rfl)
  obtain ⟨w, hw⟩ : ∃ w, w = ({ u with sw := { u.sw with nextFrame := u.sw.nextFrame + 1 } } : State).setFrame u.sw.nextFrame
      (some (Frame.begun p stamp u.sw.granule bs)) := ⟨_, rfl⟩
  have hwbeside : w.besideFrames = ({ u with sw := { u.sw with nextFrame := u.sw.nextFrame + 1 } } : State).besideFrames := by
    rw [hw, setFrame_besideFrames]
  have hwregs : w.regs = s.regs := (congrArg (fun v => v.regs) hwbeside).trans hregs
  have hwatched : (w.bump acceptedCnt).shareWatch p = w.bump acceptedCnt := shareWatch_off ((fld_congr hwregs _ _ _).trans hwatch)
  have hframes (g : Nat) : u.frame g = s.frame g := congrArg (fun v => v.frame g) hbeside
  have hfree : s.sw.free ≤ u.sw.free + 48 := by
    rw [hu]
    exact free_le_portsTake ({ s with sw := { s.sw with pre := s.sw.pre - 2 ^ p, inflightCells := s.sw.inflightCells - 1 } } : State)
  refine ⟨w.bump acceptedCnt, ?_, ⟨hwregs, ?_, ?_, ?_, fun g hg => ?_, ?_, ?_⟩⟩
  · rw [← hnext, State.beginFrame, hfirst]
    dsimp only
    rw [hunfolded]
    exact congrArg (·, some u.sw.nextFrame) (by rw [← hwatched, hw]; rfl)
  · exact (congrArg (fun v => v.sw.queues) hwbeside).trans hqueues
  · exact (congrArg (fun v => v.sw.nextFrame) hwbeside).trans (congrArg (· + 1) hnext)
  · rw [← hnext, ← hgranule, State.frame, State.bump_sw, hw]
    exact frame_setFrame_same _ _ _
  · rw [State.frame, State.bump_sw, hw]
    exact (frame_setFrame_other _ _ (hnext ▸ hg)).trans (hframes g)
  · exact hfree.trans_eq (congrArg (· + 48) (congrArg (fun v => v.sw.free) hwbeside).symm)
  · rw [State.count_bump_same]
    exact congrArg (· + 1) ((congrArg (fun v => v.count acceptedCnt) hwbeside).trans (congrArg (fun v => v.count acceptedCnt) hbeside))

/-! ## Admission (R253) -/

/-- A copy that is not cut through, not metered, and finds room joins the queue of its class. -/
theorem offerCopy_admitted (hx : s.frame f = some x) (hhalt : s.bit (swReg 0) 1 = false) (hct : c.ct = false) (hcut : s.bit (pcfg c.egress) 18 = false)
    (hmeter : bitOf x.act 16 = false) (hred : s.bit (qReg (8 * c.egress + x.tc) 0) 2 = false)
    (hdepth : s.depth (8 * c.egress + x.tc) < s.fld (qReg (8 * c.egress + x.tc) 4) 0 17) (hcopies : s.copies < 131072) (cutOk : Bool) :
    s.offerCopy f cutOk c = s.setQueue (8 * c.egress + x.tc) (s.queue (8 * c.egress + x.tc) ++ [c]) := by
  have hkeeps : s.haltDrops x.ingress c.egress = false := by rw [State.haltDrops, hhalt]; rfl
  have hstore : s.cutThrough x.ingress x.tc x.act c = false := by rw [State.cutThrough, hcut]; simp
  have hcopy : { c with ct := false } = c := by rw [← hct]
  have hadmit (dropRed : Bool) : s.admitCheck (8 * c.egress + x.tc) 0 false dropRed = 0 := by
    rw [State.admitCheck, hred]
    simp [Nat.not_le.2 hdepth, Nat.not_le.2 hcopies]
  rw [State.offerCopy, hx]
  dsimp only
  rw [hkeeps, if_neg Bool.false_ne_true, hmeter, hstore]
  simp only [Bool.and_false, hcopy, State.offer, queueOf, hadmit, if_true, Bool.false_eq_true, if_false]

/-! ## Classification (R221 to R225, R246) -/

theorem parsed_untagged (h : s.pairMode p = 0) (bs : List Byte) : s.parsed p bs = (bs, false) := by
  rw [State.parsed, h]
  exact if_neg (fun hn => absurd hn.2.1 (by decide))

theorem classReason_none {a : Action} (hpair : s.pairOf p = none) (hdrop : bitOf a.act 21 = false)
    (hvlan : s.vlanInDrops p (s.frameVid p bs) = false) (tagged : Bool) : s.classReason p bs tagged a = 0 := by
  rw [State.classReason, hpair]
  dsimp only
  rw [hdrop, hvlan]
  rfl

/-- A hit is noted at its frame. -/
theorem classify_hit {a : Action} (hx : s.frame f = some x) (hhit : a.hit.isSome = true) (hwatch : s.fld (portReg x.ingress 0x100) 0 2 = 0)
    (counts : Bool) : s.classify f bs a counts =
      s.setFrame f (some { x with classed := true, tc := s.frameClass x.ingress bs a, act := a.act, hit := a.hit }) := by
  have hnone : a.hit.isNone = false := by rw [← Option.not_isSome, hhit]; rfl
  rw [State.classify, hx]
  dsimp only
  rw [hnone, Bool.false_and, if_neg Bool.false_ne_true, shareWatch_setFrame_off hwatch]

/-- A frame that hits, without an anchor, offers its one copy. -/
theorem headClassified_one {a : Action} {u : State} (hx : s.frame f = some x) (hmode : s.pairMode x.ingress = 0) (hpair : s.pairOf x.ingress = none)
    (ha : s.chooseAction x.ingress x.bytes = a) (hhit : a.hit.isSome = true) (hdrop : bitOf a.act 21 = false)
    (hvlan : s.vlanInDrops x.ingress (s.frameVid x.ingress x.bytes) = false) (hanchor : s.anchorOf x.ingress = none)
    (hwatch : s.fld (portReg x.ingress 0x100) 0 2 = 0) (after : Option Nat)
    (hdest : s.destCopies f x.ingress x.sender x.bytes false a after = (s, [c]))
    (hu : u = s.setFrame f (some { x with classed := true, tc := s.frameClass x.ingress x.bytes a, act := a.act, hit := a.hit })) (cutOk : Bool) :
    s.headClassified f after cutOk = u.offerCopy f cutOk c := by
  have huregs : u.regs = s.regs := by rw [hu, regs_setFrame]
  have hux : u.frame f = some { x with classed := true, tc := s.frameClass x.ingress x.bytes a, act := a.act, hit := a.hit } := by
    rw [hu, frame_setFrame_same]
  have hforward : u.forward f x.bytes false a after cutOk = u.offerCopy f cutOk c := by
    rw [State.forward, hux]
    dsimp only
    rw [destCopies_congr huregs hdest]
    rfl
  rw [State.headClassified, hx]
  dsimp only
  rw [parsed_untagged hmode]
  dsimp only
  rw [ha, classReason_none hpair hdrop hvlan, classify_hit hx hhit hwatch, ← hu, if_neg (by decide), if_neg (by decide),
    (anchorOf_congr huregs _).trans hanchor]
  exact hforward

/-! ## The capture at the head (R243) -/

/-- What a capture leaves as it was. -/
def State.besideCapture (s : State) : State := { s with cnts := [], sw := { s.sw with captures := [], rxs := [] } }

theorem capture243_besideCapture (s : State) (f ring egress : Nat) : (s.capture243 f ring egress).besideCapture = s.besideCapture := by
  unfold State.capture243
  split
  · rfl
  · split <;> rfl

theorem capture243_rx (s : State) (f ring egress p : Nat) : (s.capture243 f ring egress).rx p = s.rx p := by
  unfold State.capture243
  split
  · rfl
  · split <;> rfl

/-- ACCEPTED_CNT is none of the rings' counters. -/
theorem capture243_acceptedCnt (s : State) (f ring egress : Nat) : (s.capture243 f ring egress).count acceptedCnt = s.count acceptedCnt := by
  have hother : acceptedCnt ≠ mirReg ring 0x20 := by
    unfold acceptedCnt mirReg swReg
    omega
  unfold State.capture243
  split
  · rfl
  · split
    · exact State.count_bump_other _ hother
    · rfl

theorem ingressCapture_keeps {β : Type} {k : State → β} (h : ∀ s f ring egress, k (State.capture243 s f ring egress) = k s) (s : State)
    (f : Nat) : k (s.ingressCapture f) = k s := by
  rw [State.ingressCapture]
  split
  · rfl
  · exact foldl_keeps (fun st ring => h st f ring 0x3F) _ s

theorem rxCapture_cases (hr : s.rx p = some r) (hf : r.frame = some f) (whole : Bool) : s.rxCapture p whole = s ∨
    s.rxCapture p whole = (s.setRx p (some { r with capture := false })).ingressCapture f := by
  rw [State.rxCapture, hr]
  dsimp only
  rw [hf]
  exact (ite_eq_or_eq _ _ _).symm

/-- A capture leaves the reception's bytes and frame as they were. -/
theorem rxCapture_outcome (hr : s.rx p = some r) (hf : r.frame = some f) (whole : Bool) :
    (s.rxCapture p whole).besideCapture = s.besideCapture ∧ (s.rxCapture p whole).count acceptedCnt = s.count acceptedCnt ∧
      ∃ r', (s.rxCapture p whole).rx p = some r' ∧ r'.bytes = r.bytes ∧ r'.frame = r.frame := by
  rcases rxCapture_cases hr hf whole with h | h
  · rw [h]
    exact ⟨rfl, rfl, r, hr, rfl, rfl⟩
  · rw [h]
    refine ⟨ingressCapture_keeps (k := State.besideCapture) capture243_besideCapture _ f,
      ingressCapture_keeps (k := fun u => u.count acceptedCnt) capture243_acceptedCnt _ f, { r with capture := false }, ?_, rfl, rfl⟩
    exact (ingressCapture_keeps (k := fun u => u.rx p) (fun s f ring egress => capture243_rx s f ring egress p) _ f).trans (rx_setRx_same s p _)

end Sys2Proof.Machine
end

section
/-!
A head enters the switch (R203, R222 to R225, R248, R253), and the obligation of reception.
-/
namespace Sys2Proof.Machine

variable {s t u : State} {p f : Nat} {c : Copy} {bs : List Byte} {a : Action}

/-- The head `bs` has entered the switch on port p as the next frame, and is stored. -/
structure Entered (s u : State) (p : Nat) (bs : List Byte) (stamp : Nat) : Prop where
  regs : u.regs = s.regs
  queues : u.sw.queues = s.sw.queues
  next : u.sw.nextFrame = s.sw.nextFrame + 1
  rx : u.rx p = some ⟨bs, some s.sw.nextFrame, true⟩
  frame : u.frame s.sw.nextFrame = some ((Frame.begun p stamp s.sw.granule (stored bs)).grown (stored bs))
  others : ∀ g, g ≠ s.sw.nextFrame → u.frame g = s.frame g
  count : u.count acceptedCnt = s.count acceptedCnt + 1

/-- A head whose port holds its cell, and for which the free list suffices, enters the switch and is classified. -/
theorem rxBegin_enters (henters : s.entersSwitch p bs = true) (hpre : s.sw.pre.testBit p = true) (hfold : s.bit (swReg 0x9000) 0 = false)
    (hwatch : s.fld (portReg p 0x100) 0 2 = 0) (hmode : s.pairMode p = 0) (hroom : cellsFor (bs.length - 4) 0 + 48 ≤ s.sw.free) (n lag : Nat) :
    ∃ u stamp, s.rxBegin p bs n lag = u.headClassified s.sw.nextFrame none true ∧ Entered s u p bs stamp := by
  obtain ⟨t, hbegin, hregs, hqueues, hnext, hframe, hothers, hfree, hcount⟩ :=
    beginFrame_begins (s := s.free) hpre hfold hwatch (s.ingressStamp p n lag) (stored bs)
  have hframe' : t.frame s.sw.nextFrame = some (Frame.begun p (s.ingressStamp p n lag) s.sw.granule (stored bs)) := hframe
  have hbegin' : s.free.beginFrame p none (s.ingressStamp p n lag) (stored bs) true = (t, some s.sw.nextFrame) := hbegin
  have harrived := (Receives.refl (rx_setRx_same t p (some ⟨bs, some s.sw.nextFrame, true⟩)) hframe').arrive (bs := stored bs) rfl rfl
    ((fld_congr hregs _ _ _).trans hwatch) (by
      have : s.sw.free ≤ t.sw.free + 48 := hfree
      rw [length_stored]
      show cellsFor (bs.length - 4) 0 ≤ 1 + t.sw.free
      omega)
  refine ⟨(t.setRx p (some ⟨bs, some s.sw.nextFrame, true⟩)).arrive s.sw.nextFrame (stored bs), s.ingressStamp p n lag, ?_, ?_⟩
  · rw [State.rxBegin, henters, hbegin']
    dsimp only
    rw [harrived.frame]
    exact if_neg (show ¬ (false || s.pairMode p == 1) = true by rw [hmode]; decide)
  · exact
      { regs := harrived.regs.trans hregs
        queues := harrived.queues.trans hqueues
        next := (congrArg (fun v => v.sw.nextFrame) harrived.beside).trans hnext
        rx := harrived.rx
        frame := harrived.frame
        others := fun g hg => (harrived.others g hg).trans (hothers g hg)
        count := (congrArg (fun v => v.count acceptedCnt) harrived.beside).trans hcount }

/-- The cells of a queue follow from its copies and their frames. -/
theorem depth_congr {q : Nat} (hq : t.queue q = s.queue q) (h : ∀ c ∈ s.queue q, t.frame c.frame = s.frame c.frame) : t.depth q = s.depth q := by
  rw [State.depth, State.depth, hq]
  exact List.foldl_ext _ _ _ fun n c hc => by rw [h c hc]

theorem frame_setQueue (s : State) (q : Nat) (cs : List Copy) (f : Nat) : (s.setQueue q cs).frame f = s.frame f := by
  obtain ⟨a, b, h⟩ := setQueue_shape s q cs
  rw [h]
  rfl

theorem queue_setQueue_same (s : State) (q : Nat) (cs : List Copy) : (s.setQueue q cs).queue q = cs := by
  obtain ⟨a, b, h⟩ := setQueue_shape s q cs
  rw [h]
  exact Tab.get_set_same _ _

theorem queue_setQueue_other (s : State) {q k : Nat} (cs : List Copy) (hk : k ≠ q) : (s.setQueue q cs).queue k = s.queue k := by
  obtain ⟨a, b, h⟩ := setQueue_shape s q cs
  rw [h]
  exact Tab.get_set_other _ _ hk

/-- What a queue and the ledger's terms leave as it was. -/
def State.besideQueues (s : State) : State := { s with sw := { s.sw with queues := [], queuedCells := 0, inflightCells := 0 } }

theorem setQueue_besideQueues (s : State) (q : Nat) (cs : List Copy) : (s.setQueue q cs).besideQueues = s.besideQueues := by
  obtain ⟨a, b, h⟩ := setQueue_shape s q cs
  rw [h]
  rfl

/-- What R222 to R225 and R253 decide of a head `h` on port p with action a: it hits, nothing drops it, its one copy c is neither cut through nor
metered, and the queue of its class admits it. -/
structure Admits (s : State) (p : Nat) (h : List Byte) (a : Action) (c : Copy) : Prop where
  running : s.bit (swReg 0) 1 = false
  mode : s.pairMode p = 0
  pair : s.pairOf p = none
  action : s.chooseAction p h = a
  hit : a.hit.isSome = true
  kept : bitOf a.act 21 = false
  unmetered : bitOf a.act 16 = false
  vlan : s.vlanInDrops p (s.frameVid p h) = false
  anchor : s.anchorOf p = none
  dest : s.destCopies s.sw.nextFrame p none h false a none = (s, [c])
  stored : c.ct = false
  uncut : s.bit (pcfg c.egress) 18 = false
  unred : s.bit (qReg (8 * c.egress + s.frameClass p h a) 0) 2 = false
  depth : s.depth (8 * c.egress + s.frameClass p h a) < s.fld (qReg (8 * c.egress + s.frameClass p h a) 4) 0 17
  copies : s.copies < 131072
  fresh : s.isQueued s.sw.nextFrame = false

/-- A frame with its class, its ACT and its entry. -/
def Frame.classified (x : Frame) (tc : Nat) (a : Action) : Frame := { x with classed := true, tc := tc, act := a.act, hit := a.hit }

/-- A head that has entered joins the queue of its class. -/
theorem headClassified_admitted {stamp : Nat} (hin : Entered s u p bs stamp) (had : Admits s p (stored bs) a c)
    (hwatch : s.fld (portReg p 0x100) 0 2 = 0) :
    u.headClassified s.sw.nextFrame none true =
      (u.setFrame s.sw.nextFrame (some (((Frame.begun p stamp s.sw.granule (stored bs)).grown (stored bs)).classified
        (s.frameClass p (stored bs) a) a))).setQueue (8 * c.egress + s.frameClass p (stored bs) a)
        (s.queue (8 * c.egress + s.frameClass p (stored bs) a) ++ [c]) := by
  obtain ⟨v, hv⟩ : ∃ v, v = u.setFrame s.sw.nextFrame (some (((Frame.begun p stamp s.sw.granule (stored bs)).grown (stored bs)).classified
      (s.frameClass p (stored bs) a) a)) := ⟨_, rfl⟩
  have hvregs : v.regs = s.regs := by rw [hv, regs_setFrame, hin.regs]
  have hvqueues : v.sw.queues = s.sw.queues := by rw [hv, queues_setFrame, hin.queues]
  have hvqueue : v.queue (8 * c.egress + s.frameClass p (stored bs) a) = s.queue (8 * c.egress + s.frameClass p (stored bs) a) :=
    congrArg (fun qs => Tab.get (fun _ => []) qs _) hvqueues
  have hvdepth : v.depth (8 * c.egress + s.frameClass p (stored bs) a) = s.depth (8 * c.egress + s.frameClass p (stored bs) a) := by
    refine depth_congr hvqueue fun d hd => ?_
    have hother : d.frame ≠ s.sw.nextFrame := fun heq => by
      have := isQueued_of_mem hd
      rw [heq, had.fresh] at this
      cases this
    rw [hv, frame_setFrame_other _ _ hother, hin.others _ hother]
  have hvcopies : v.copies = s.copies := by rw [State.copies, State.copies, hvqueues]
  have hvframe : v.frame s.sw.nextFrame = some (((Frame.begun p stamp s.sw.granule (stored bs)).grown (stored bs)).classified
      (s.frameClass p (stored bs) a) a) := by rw [hv, frame_setFrame_same]
  have hclassified := headClassified_one (cutOk := true) (after := none) (u := v) hin.frame ((pairMode_congr hin.regs _).trans had.mode)
    ((pairOf_congr hin.regs _).trans had.pair) ((chooseAction_congr hin.regs _ _).trans had.action) had.hit had.kept
    (by rw [vlanInDrops_congr hin.regs, frameVid_congr hin.regs]; exact had.vlan) ((anchorOf_congr hin.regs _).trans had.anchor)
    ((fld_congr hin.regs _ _ _).trans hwatch) (destCopies_congr hin.regs had.dest)
    (by rw [hv, frameClass_congr hin.regs]; rfl)
  rw [hclassified, ← hv, ← hvqueue]
  exact offerCopy_admitted hvframe ((bit_congr hvregs _ _).trans had.running) had.stored ((bit_congr hvregs _ _).trans had.uncut) had.unmetered
    ((bit_congr hvregs _ _).trans had.unred) (by rw [fld_congr hvregs]; exact hvdepth.trans_lt had.depth) (hvcopies.trans_lt had.copies) true

/-- A head enters the switch: its frame holds its cells and its class, its copy has joined the queue of that class, and it counts. -/
theorem rxHead_enters (hup : s.linkUp p = true) (hotf : s.otfPort p = false) (hrx : s.rx p = none) (hlo : 64 ≤ bs.length)
    (hhi : bs.length ≤ s.maxLen p) (henters : s.entersSwitch p bs = true) (hpre : s.sw.pre.testBit p = true)
    (hfold : s.bit (swReg 0x9000) 0 = false) (hwatch : s.fld (portReg p 0x100) 0 2 = 0) (hroom : cellsFor (bs.length - 4) 0 + 48 ≤ s.sw.free)
    (had : Admits s p (stored bs) a c) : ∃ stamp,
      (s.rxHead p bs).queue (8 * c.egress + s.frameClass p (stored bs) a) = s.queue (8 * c.egress + s.frameClass p (stored bs) a) ++ [c] ∧
      (∀ q, q ≠ 8 * c.egress + s.frameClass p (stored bs) a → (s.rxHead p bs).queue q = s.queue q) ∧
      (s.rxHead p bs).sw.nextFrame = s.sw.nextFrame + 1 ∧
      (s.rxHead p bs).frame s.sw.nextFrame = some (((Frame.begun p stamp s.sw.granule (stored bs)).grown (stored bs)).classified
        (s.frameClass p (stored bs) a) a) ∧
      (∃ r, (s.rxHead p bs).rx p = some r ∧ r.bytes = bs ∧ r.frame = some s.sw.nextFrame) ∧
      (s.rxHead p bs).count acceptedCnt = s.count acceptedCnt + 1 := by
  obtain ⟨u, stamp, hbegin, hin⟩ := rxBegin_enters henters hpre hfold hwatch had.mode hroom 64 50
  rw [rxHead_taken hup hotf hrx hlo hhi, hbegin, headClassified_admitted hin had hwatch]
  obtain ⟨v, hv⟩ : ∃ v, v = u.setFrame s.sw.nextFrame (some (((Frame.begun p stamp s.sw.granule (stored bs)).grown (stored bs)).classified
      (s.frameClass p (stored bs) a) a)) := ⟨_, rfl⟩
  obtain ⟨w, hw⟩ : ∃ w, w = v.setQueue (8 * c.egress + s.frameClass p (stored bs) a)
      (s.queue (8 * c.egress + s.frameClass p (stored bs) a) ++ [c]) := ⟨_, rfl⟩
  rw [← hv, ← hw]
  have hvbeside : v.besideFrames = u.besideFrames := by rw [hv, setFrame_besideFrames]
  have hwbeside : w.besideQueues = v.besideQueues := by rw [hw, setQueue_besideQueues]
  have hwrx : w.rx p = some ⟨bs, some s.sw.nextFrame, true⟩ :=
    (congrArg (fun z => z.rx p) hwbeside).trans ((congrArg (fun z => z.rx p) hvbeside).trans hin.rx)
  have hwqueue : w.queue (8 * c.egress + s.frameClass p (stored bs) a) = s.queue (8 * c.egress + s.frameClass p (stored bs) a) ++ [c] := by
    rw [hw, queue_setQueue_same]
  have hwframe : w.frame s.sw.nextFrame = some (((Frame.begun p stamp s.sw.granule (stored bs)).grown (stored bs)).classified
      (s.frameClass p (stored bs) a) a) := by rw [hw, frame_setQueue, hv, frame_setFrame_same]
  obtain ⟨hbeside, hcount, r, hr, hbytes, hframe⟩ := rxCapture_outcome hwrx rfl false
  refine ⟨stamp, ?_, fun q hq => ?_, ?_, ?_, ⟨r, hr, hbytes, hframe⟩, ?_⟩
  · exact (congrArg (fun z => z.queue (8 * c.egress + s.frameClass p (stored bs) a)) hbeside).trans hwqueue
  · refine (congrArg (fun z => z.queue q) hbeside).trans ?_
    have hqueues : v.sw.queues = s.sw.queues := (congrArg (fun z => z.sw.queues) hvbeside).trans hin.queues
    exact (show w.queue q = v.queue q by rw [hw, queue_setQueue_other _ _ hq]).trans (congrArg (fun qs => Tab.get (fun _ => []) qs q) hqueues)
  · exact (congrArg (fun z => z.sw.nextFrame) hbeside).trans ((congrArg (fun z => z.sw.nextFrame) hwbeside).trans
      ((congrArg (fun z => z.sw.nextFrame) hvbeside).trans hin.next))
  · exact (congrArg (fun z => z.frame s.sw.nextFrame) hbeside).trans hwframe
  · exact hcount.trans ((congrArg (fun z => z.count acceptedCnt) hwbeside).trans
      ((congrArg (fun z => z.count acceptedCnt) hvbeside).trans hin.count))

end Sys2Proof.Machine
end

section
open Sys2Proof Sys2Proof.Machine

/-- Settles O36, clause by clause: a head, further bytes and an end each go through the one rule for bytes that arrive (`Receives.arrive`), and a
head's copy through the rule for an admitted copy (`offerCopy_admitted`). -/
theorem framesAreReceived : Obligations.FramesAreReceived := by
  unfold Obligations.FramesAreReceived
  refine ⟨?enters, ?full, ?unswitched, ?passed, ?cell, ?short, ?oversize, ?capture, ?idle, ?goodOutside, ?badOutside, ?good, ?ignored⟩
  case enters =>
    rintro s p e bs _ a c hp rfl hup hotf hrx hlo hhi hmac hfwd hrun hcontrol hwatch hpre - hfree hfold hmode hpair - hlen haction hhit hkept
      hunmetered hvlan hanchor hdest rfl - hct hcut hred hdepth hcopies hfresh
    have henters : s.entersSwitch p bs = true := by
      rw [State.entersSwitch, hmac, State.accepts, hfwd, hotf, hcontrol]
      rfl
    have hcells : cellsFor (bs.length - 4) 0 = max 1 ((bs.length - 4 + 255) / 256) := rfl
    have had : Admits s p (stored bs) a c := ⟨hrun, hmode, hpair, haction, hhit, hkept, hunmetered, hvlan, hanchor, hdest, hct, hcut, hred, hdepth,
      hcopies, hfresh⟩
    obtain ⟨stamp, hqueue, hqueues, hnext, hframe, hreception, hcount⟩ := rxHead_enters hup hotf hrx hlo hhi henters hpre hfold hwatch
      (by omega) had
    refine ⟨s.rxHead p bs, exec_frameHeadClassified hp bs s, hqueue, hqueues, hnext, ⟨_, hframe, rfl, rfl, rfl, rfl, rfl, rfl, rfl, ?_⟩,
      hreception, hcount⟩
    show max 1 (cellsFor (stored bs).length 0) = max 1 (((stored bs).length + 255) / 256)
    exact max_eq_right (le_max_left 1 (((stored bs).length + 255) / 256))
  case full =>
    intro s p bs hp hup hotf hrx hlo hhi henters hpre hfree
    rw [exec_frameHeadClassified hp, rxHead_taken hup hotf hrx hlo hhi, rxBegin_full henters hpre hfree, rxCapture_unswitched _ _ _ rfl]
  case unswitched =>
    intro s p bs hp hup hotf hrx hlo hhi henters
    rw [exec_frameHeadClassified hp, rxHead_taken hup hotf hrx hlo hhi, rxBegin_unswitched henters, rxCapture_unswitched _ _ _ rfl]
  case passed =>
    intro s p bs hp h
    rw [exec_frameHeadClassified hp, rxHead_passed h]
  case cell =>
    intro s p f r x bytes hp hr hf hx hcapture hbad hlate hport hwatch hlen _ hfit
    exact ⟨s.rxMore p bytes, exec_ingressCellTaken hp bytes s, cellTaken_within hr hf hx hcapture hbad hlate hport hwatch hlen hfit⟩
  case short =>
    intro s p f r x bytes hp hr hf hx hbad hlate hreason _ hport hwatch hq hpoint hlen hshort
    obtain ⟨hfree, hframe⟩ := cellTaken_short hr hf hx hbad hlate hreason hport hwatch hq hpoint hlen hshort
    exact ⟨s.rxMore p bytes, exec_ingressCellTaken hp bytes s, hfree, _, hframe, rfl, rfl, rfl, rfl⟩
  case oversize =>
    intro s p f r x bytes hp hr hf hx hbad hlate hreason _ hport hwatch hq hpoint hlen hfit
    obtain ⟨hrx, hframe⟩ := oversizeByte_past hr hf hx hbad hlate hreason hport hwatch hq hpoint hlen hfit
    exact ⟨s.rxMore p bytes, exec_ingressOversizeByte hp bytes s, hrx, _, hframe, rfl, rfl, rfl⟩
  case capture =>
    rintro s p f _ r x bytes hp hr hf hx hcapture hlo hclassed hbad hlate harriving hport hwatch hlen hhi hfit hring rfl hact hroom
    exact ⟨s.rxMore p bytes, exec_ingressCapturePoint hp bytes s, capturePoint_within hr hf hx hcapture hlo hclassed hbad hlate harriving hport hwatch
      hlen hhi hfit hring hact hroom⟩
  case idle =>
    intro s p bytes hp h
    rw [exec_ingressCellTaken hp, exec_ingressOversizeByte hp, exec_ingressCapturePoint hp, rxMore_none h]
    exact ⟨rfl, rfl, rfl⟩
  case goodOutside =>
    intro s p r bytes hp hup hotf hr hf hne hjudge hcontrol hcounts
    have hends := Ends.outside (ce := false) hup hotf hr hf hne hcounts
    rw [hjudge] at hends
    rw [exec_macFrameEnd hp, hends.good_outside hcontrol hf]
    exact congrArg Host.Outcome.next (setRx_setRx_none ((s.bump (portReg p 0x1000)).bumpBy (portReg p 0x1008) ((r.bytes ++ bytes).length - 4)) p _)
  case badOutside =>
    intro s p r bytes ce hp hup hotf hr hf hne hjudge hcounts
    rw [exec_macFrameEnd hp, (Ends.outside hup hotf hr hf hne hcounts).bad_outside hjudge hf]
    exact congrArg Host.Outcome.next (setRx_setRx_none (s.bump (portReg p (0x1008 + 8 * s.macJudge p (r.bytes ++ bytes) ce))) p _)
  case good =>
    intro s p f r x bytes hp hup hotf hr hf hx hjudge hcontrol hcapture hcounts hbad hwaits hlate hreason hport hlimit hdebits hwatch hpair hctx hq hfit
    obtain ⟨hrx, hframe, hcnts, honly⟩ := macEnd_queued hup hotf hr hf hx hjudge hcontrol hcapture hcounts hbad hwaits hlate hreason hport hlimit
      hdebits hwatch hpair hctx hq hfit
    have hcount (b : Nat) : (s.macEnd p bytes false).count b =
        ((s.bump (portReg p 0x1000)).bumpBy (portReg p 0x1008) ((r.bytes ++ bytes).length - 4)).count b :=
      congrArg (fun cnts : Tab _ => Tab.get (fun _ => 0) cnts b) hcnts
    have hapart : portReg p 0x1000 ≠ portReg p 0x1008 := by
      unfold portReg
      omega
    refine ⟨s.macEnd p bytes false, exec_macFrameEnd hp bytes false s, hrx, hframe, ?_, ?_, fun b hb => ?_, honly⟩
    · rw [hcount, count_bumpBy_other _ hapart, State.count_bump_same]
    · rw [hcount, State.count_bumpBy_same, State.count_bump_other _ hapart.symm]
    · rw [List.mem_cons, List.mem_singleton, not_or] at hb
      rw [hcount, count_bumpBy_other _ hb.2, State.count_bump_other _ hb.1]
  case ignored =>
    intro s p bytes ce hp h
    rw [exec_macFrameEnd hp, macEnd_ignored h]
end

section
/-!
What a command of the path table leaves (R226, R229, R230): the words that it writes, its answer, and all else as it was.
-/
namespace Sys2Proof.Machine

variable {w : Who} {s t : State} {d : Word} {a i j n x code : Nat} {k : PathKey} {f : Nat → Nat} {v : Nat → Word} {mcp : Bool}

/-! ## Rows of words -/

/-- Words 0 to n - 1 of a row are written, word x at the address `f x`. -/
def State.writeRow (s : State) (f : Nat → Nat) (v : Nat → Word) (n : Nat) : State :=
  (List.range n).foldl (fun st x => st.setReg (f x) (v x)) s

theorem writeRow_succ : s.writeRow f v (n + 1) = (s.writeRow f v n).setReg (f n) (v n) := by
  rw [State.writeRow, List.range_succ, List.foldl_append]
  rfl

theorem reg_writeRow_other (h : a ∉ (List.range n).map f) : (s.writeRow f v n).reg a = s.reg a := by
  induction n with
  | zero => rfl
  | succ n ih =>
    rw [List.range_succ, List.map_append, List.mem_append, not_or] at h
    rw [writeRow_succ, State.reg_setReg_other _ _ (by simpa using h.2), ih h.1]

theorem reg_writeRow (hf : Function.Injective f) (h : x < n) : (s.writeRow f v n).reg (f x) = v x := by
  induction n with
  | zero => omega
  | succ n ih =>
    rw [writeRow_succ]
    rcases Nat.lt_succ_iff_lt_or_eq.1 h with h | rfl
    · rw [State.reg_setReg_other _ _ (hf.ne (by omega)), ih h]
    · exact State.reg_setReg_same _ _ _

theorem writeRow_onlyRegs : s.writeRow f v n = { s with regs := (s.writeRow f v n).regs } :=
  congrArg (fun u : State => { u with regs := (s.writeRow f v n).regs })
    (foldl_keeps (f := fun st x => st.setReg (f x) (v x)) (k := fun u : State => { u with regs := [] }) (fun _ _ => rfl) (List.range n) s)

/-- The same after a register apart from the row. -/
theorem writeRow_setReg_onlyRegs (s : State) (a : Nat) (c : Word) (f : Nat → Nat) (v : Nat → Word) (n : Nat) :
    ∃ r, (s.setReg a c).writeRow f v n = { s with regs := r } := by
  rw [writeRow_onlyRegs]
  exact ⟨_, rfl⟩

/-! ## Entries -/

theorem hashedWord_injective (i : Nat) : Function.Injective (hashedWord i) := fun x y h => by
  unfold hashedWord swReg at h
  omega

theorem maskedWord_injective (j : Nat) : Function.Injective (maskedWord j) := fun x y h => by
  unfold maskedWord swReg at h
  omega

theorem ptBuf_injective : Function.Injective ptBuf := fun x y h => by
  unfold ptBuf swReg at h
  omega

/-- The registers of the table and of its interface stand apart from PT_CMD. -/
theorem hashedWord_ne_ptCmd (i x : Nat) : hashedWord i x ≠ ptCmd := by
  unfold hashedWord ptCmd swReg
  omega

theorem maskedWord_ne_ptCmd (j x : Nat) : maskedWord j x ≠ ptCmd := by
  unfold maskedWord ptCmd swReg
  omega

theorem ptBuf_ne_ptCmd (x : Nat) : ptBuf x ≠ ptCmd := by
  unfold ptBuf ptCmd swReg
  omega

/-- An entry is a row of eight words; words that are not given are 0. -/
theorem writeEntry_eq (s : State) (i : Nat) (ws : List Word) : s.writeEntry i ws = s.writeRow (hashedWord i) (fun x => (ws[x]?).getD 0) 8 := rfl

theorem entryWords_writeEntry {ws : List Word} (h : ws.length = 8) : (s.writeEntry i ws).entryWords i = ws := by
  refine List.ext_getElem (by simp [State.entryWords, h]) fun x hx hx' => ?_
  have hread := reg_writeRow (s := s) (v := fun x => (ws[x]?).getD 0) (hashedWord_injective i) (show x < 8 by omega)
  rw [← writeEntry_eq] at hread
  simpa [State.entryWords, hx'] using hread

theorem entryWords_dropEntry (s : State) (i : Nat) : (s.dropEntry i).entryWords i = List.replicate 8 0 := by
  refine List.eq_replicate_iff.2 ⟨by simp [State.entryWords], fun b hb => ?_⟩
  obtain ⟨x, hx, rfl⟩ := List.mem_map.1 hb
  exact reg_writeRow (v := fun x => (([] : List Word)[x]?).getD 0) (hashedWord_injective i) (List.mem_range.1 hx)

/-! ## The start of a command (R229) -/

/-- A command has started: PT_CMD holds its opcode and index, and GO. -/
def State.ptStarted (s : State) (d : Word) : State := s.setReg ptCmd (word (fieldOf d 0 3 + fieldOf d 16 11 * 2 ^ 16 + 2 ^ 31))

theorem reg_ptStarted (d : Word) (h : a ≠ ptCmd) : (s.ptStarted d).reg a = s.reg a := State.reg_setReg_other _ _ h

theorem bit_ptStarted (s : State) (d : Word) : (s.ptStarted d).bit ptCmd 31 = true := by
  have hop : fieldOf d 0 3 < 2 ^ 3 := Nat.mod_lt _ (Nat.two_pow_pos _)
  have hindex : fieldOf d 16 11 < 2 ^ 11 := Nat.mod_lt _ (Nat.two_pow_pos _)
  rw [State.bit, State.ptStarted, State.reg_setReg_same, bitOf_eq_fieldOf, decide_eq_true_iff, fieldOf, bitsOf, word, BitVec.toNat_ofNat]
  omega

@[simp] theorem reg_ptBuf_ptStarted (s : State) (d : Word) (x : Nat) : (s.ptStarted d).reg (ptBuf x) = s.reg (ptBuf x) :=
  reg_ptStarted d (ptBuf_ne_ptCmd x)
@[simp] theorem reg_hashedWord_ptStarted (s : State) (d : Word) (i x : Nat) : (s.ptStarted d).reg (hashedWord i x) = s.reg (hashedWord i x) :=
  reg_ptStarted d (hashedWord_ne_ptCmd i x)

/-- What a command reads is not changed by its start. -/
@[simp] theorem bufKey_ptStarted (s : State) (d : Word) : (s.ptStarted d).bufKey = s.bufKey := by simp [State.bufKey, State.fld]
@[simp] theorem bufEntry_ptStarted (s : State) (d : Word) : (s.ptStarted d).bufEntry = s.bufEntry := by simp [State.bufEntry]
@[simp] theorem bufHashedOk_ptStarted (s : State) (d : Word) (mcp : Bool) : (s.ptStarted d).bufHashedOk mcp = s.bufHashedOk mcp := by
  rw [State.bufHashedOk, State.bufHashedOk, State.actionOk, State.actionOk, State.fld, State.fld]
  repeat rw [reg_ptBuf_ptStarted]
@[simp] theorem bufMaskedOk_ptStarted (s : State) (d : Word) (mcp : Bool) : (s.ptStarted d).bufMaskedOk mcp = s.bufMaskedOk mcp := by
  simp [State.bufMaskedOk, State.actionOk]
@[simp] theorem entryType_ptStarted (s : State) (d : Word) (i : Nat) : (s.ptStarted d).entryType i = s.entryType i := by
  simp [State.entryType, State.fld]
@[simp] theorem entryStatic_ptStarted (s : State) (d : Word) (i : Nat) : (s.ptStarted d).entryStatic i = s.entryStatic i := by
  simp [State.entryStatic, State.bit]
@[simp] theorem entryWords_ptStarted (s : State) (d : Word) (i : Nat) : (s.ptStarted d).entryWords i = s.entryWords i := by
  simp [State.entryWords]
@[simp] theorem candidates_ptStarted (s : State) (d : Word) (k : PathKey) : (s.ptStarted d).candidates k = s.candidates k := by
  refine List.map_congr_left fun b hb => ?_
  have hseed : swReg (0x10 + 4 * b) ≠ ptCmd := by
    rw [List.mem_range] at hb
    unfold ptCmd swReg
    omega
  rw [State.candidate, State.candidate, reg_ptStarted d hseed]
@[simp] theorem findKey_ptStarted (s : State) (d : Word) (k : PathKey) : (s.ptStarted d).findKey k = s.findKey k := by
  have hsame : (s.ptStarted d).entryIs k = s.entryIs k := funext fun i => by simp [State.entryIs, State.fld]
  rw [State.findKey, State.findKey, hsame, candidates_ptStarted]

/-! ## What each command does -/

theorem ptInsert_stored (hok : s.bufHashedOk mcp = true)
    (h : s.findKey s.bufKey = some i ∨ (s.findKey s.bufKey = none ∧ (s.candidates s.bufKey).find? (fun j => s.entryType j == 0) = some i)) :
    s.ptInsert mcp = (s.writeEntry i s.bufEntry).ptAnswer 0 (some i) := by
  rcases h with h | ⟨h, hfree⟩
  · simp [State.ptInsert, hok, h]
  · simp [State.ptInsert, hok, h, hfree]

theorem ptInsert_displaced (hok : s.bufHashedOk mcp = true) (h : s.findKey s.bufKey = none)
    (hfull : (s.candidates s.bufKey).find? (fun j => s.entryType j == 0) = none)
    (hi : (s.candidates s.bufKey).find? (fun j => !s.entryStatic j) = some i) :
    s.ptInsert mcp = ((s.writeEntry i s.bufEntry).bump (swReg 0x8028)).ptAnswer 4 (some i) := by
  simp [State.ptInsert, hok, h, hfull, hi]

theorem ptInsert_refused (hok : s.bufHashedOk mcp = false) : s.ptInsert mcp = s.ptAnswer 3 none := by
  simp [State.ptInsert, hok]

/-- A key of a type that is 1 to 3 is looked for. -/
theorem keyType_valid (hlo : 1 ≤ s.bufKey.ktype) (hhi : s.bufKey.ktype ≤ 3) : ¬ (s.fld (ptBuf 0) 0 4 = 0 ∨ 3 < s.fld (ptBuf 0) 0 4) := by
  have hkey : s.bufKey.ktype = s.fld (ptBuf 0) 0 4 := rfl
  omega

theorem ptDelete_found (hlo : 1 ≤ s.bufKey.ktype) (hhi : s.bufKey.ktype ≤ 3) (h : s.findKey s.bufKey = some i) :
    s.ptDelete = (s.dropEntry i).ptAnswer 0 (some i) := by
  simp only [State.ptDelete, if_neg (keyType_valid hlo hhi), h]

theorem ptDelete_missing (hlo : 1 ≤ s.bufKey.ktype) (hhi : s.bufKey.ktype ≤ 3) (h : s.findKey s.bufKey = none) :
    s.ptDelete = s.ptAnswer 2 none := by
  simp only [State.ptDelete, if_neg (keyType_valid hlo hhi), h]

theorem ptLookup_found (hlo : 1 ≤ s.bufKey.ktype) (hhi : s.bufKey.ktype ≤ 3) (h : s.findKey s.bufKey = some i) :
    s.ptLookup = (s.writeRow ptBuf (fun x => s.reg (hashedWord i x)) 8).ptAnswer 0 (some i) := by
  simp only [State.ptLookup, if_neg (keyType_valid hlo hhi), h, State.writeRow]

theorem ptLookup_missing (hlo : 1 ≤ s.bufKey.ktype) (hhi : s.bufKey.ktype ≤ 3) (h : s.findKey s.bufKey = none) :
    s.ptLookup = s.ptAnswer 2 none := by
  simp only [State.ptLookup, if_neg (keyType_valid hlo hhi), h]

theorem ptWriteMasked_accepted (hok : s.bufMaskedOk mcp = true) (j : Nat) :
    s.ptWriteMasked mcp j = (s.writeRow (maskedWord j) (fun x => s.reg (ptBuf x)) 16).ptAnswer 0 (some j) := if_pos hok

/-! ## The write of PT_CMD by a master -/

/-- What the command that `d` starts makes of the state in which it starts. -/
def State.ptCommand (s : State) (mcp : Bool) (d : Word) : State :=
  if fieldOf d 0 3 = 1 then s.ptInsert mcp else if fieldOf d 0 3 = 2 then s.ptDelete else if fieldOf d 0 3 = 3 then s.ptLookup
  else if fieldOf d 0 3 = 4 then s.ptWriteMasked mcp (fieldOf d 16 11) else s.ptClearLearned

theorem ptWrite_go (hidle : s.bit ptCmd 31 = false) (hlo : 1 ≤ fieldOf d 0 3) (hhi : fieldOf d 0 3 ≤ 5) (hgo : bitOf d 30 = true) :
    s.ptWrite mcp d = .done ((s.ptStarted d).ptCommand mcp d) := by
  have hvalid : ¬ (s.bit ptCmd 31 || fieldOf d 0 3 == 0 || decide (5 < fieldOf d 0 3)) = true := by
    rw [hidle, Bool.false_or, Bool.or_eq_true, beq_iff_eq, decide_eq_true_iff]
    omega
  have hcmd : fieldOf d 0 3 + fieldOf d 16 11 * 2 ^ 16 + bit01 (bitOf d 30) * 2 ^ 31 = fieldOf d 0 3 + fieldOf d 16 11 * 2 ^ 16 + 2 ^ 31 := by
    rw [hgo, bit01, if_pos rfl, Nat.one_mul]
  rw [State.ptWrite, if_neg hvalid]
  dsimp only
  rw [if_pos hgo, hcmd, State.ptCommand, State.ptStarted]

theorem ptWrite_busy (h : s.bit ptCmd 31 = true) : s.ptWrite mcp d = .err s := by
  rw [State.ptWrite, h]
  rfl

/-- A write of PT_CMD is the table's. -/
theorem swWrite_ptCmd (h : Admitted w s) (d : Word) : swWrite s w 0x2000 d = s.ptWrite (isMcp w) d := by
  rw [swWrite, h.hostOrMcp]
  rfl

/-- The effect of a write of PT_CMD that starts a command. -/
theorem ptAccess_go (h : Admitted w s) (hidle : s.bit ptCmd 31 = false) (hlo : 1 ≤ fieldOf d 0 3) (hhi : fieldOf d 0 3 ≤ 5)
    (hgo : bitOf d 30 = true) {t : State} (ht : (s.ptStarted d).ptCommand (isMcp w) d = t) :
    access w true s (regWrite w ptCmd d s) = .next (acked t) := by
  rw [access_true h]
  exact congrArg Host.Outcome.next (regWrite_admitted h d (by decide) (blockOf_sw (by decide)) (by decide)
    (by rw [State.blockWrite, swWrite_ptCmd h, ptWrite_go hidle hlo hhi hgo, ht]; rfl))

theorem ptAccess_busy (h : Admitted w s) (hbusy : s.bit ptCmd 31 = true) (d : Word) :
    access w true s (regWrite w ptCmd d s) = .next (refusedWrite (s.masterError w ptCmd true)) := by
  rw [access_true h]
  exact congrArg Host.Outcome.next (regWrite_refused h d (by decide) (blockOf_sw (by decide)) (by decide)
    (by rw [State.blockWrite, swWrite_ptCmd h, ptWrite_busy hbusy]; rfl))

theorem exec_ptInsert (h : Admitted w s) (hidle : s.bit ptCmd 31 = false) (hop : fieldOf d 0 3 = 1) (hgo : bitOf d 30 = true) :
    exec (.ptInsert w d) s = .next (acked ((s.ptStarted d).ptInsert (isMcp w))) :=
  ptAccess_go h hidle (by omega) (by omega) hgo (by simp [State.ptCommand, hop])
theorem exec_ptDelete (h : Admitted w s) (hidle : s.bit ptCmd 31 = false) (hop : fieldOf d 0 3 = 2) (hgo : bitOf d 30 = true) :
    exec (.ptDelete w d) s = .next (acked (s.ptStarted d).ptDelete) :=
  ptAccess_go h hidle (by omega) (by omega) hgo (by simp [State.ptCommand, hop])
theorem exec_ptLookup (h : Admitted w s) (hidle : s.bit ptCmd 31 = false) (hop : fieldOf d 0 3 = 3) (hgo : bitOf d 30 = true) :
    exec (.ptLookup w d) s = .next (acked (s.ptStarted d).ptLookup) :=
  ptAccess_go h hidle (by omega) (by omega) hgo (by simp [State.ptCommand, hop])
theorem exec_ptWriteMasked (h : Admitted w s) (hidle : s.bit ptCmd 31 = false) (hop : fieldOf d 0 3 = 4) (hgo : bitOf d 30 = true) :
    exec (.ptWriteMasked w d) s = .next (acked ((s.ptStarted d).ptWriteMasked (isMcp w) (fieldOf d 16 11))) :=
  ptAccess_go h hidle (by omega) (by omega) hgo (by simp [State.ptCommand, hop])
theorem exec_ptClearLearned (h : Admitted w s) (hidle : s.bit ptCmd 31 = false) (hop : fieldOf d 0 3 = 5) (hgo : bitOf d 30 = true) :
    exec (.ptClearLearned w d) s = .next (acked (s.ptStarted d).ptClearLearned) :=
  ptAccess_go h hidle (by omega) (by omega) hgo (by simp [State.ptCommand, hop])

/-! ## What stands after a command -/

/-- The answer that PT_COMMAND_COMPLETE is to report. -/
def State.withDone (s : State) (done : Word) : State := { s with sw := { s.sw with ptDone := done } }

theorem reg_acked (s : State) (a : Nat) : (acked s).reg a = s.reg a := rfl
theorem reg_free (s : State) (a : Nat) : s.free.reg a = s.reg a := rfl
theorem reg_withDone (s : State) (done : Word) (a : Nat) : (s.withDone done).reg a = s.reg a := rfl

theorem ptAnswer_some (s : State) (code i : Nat) : s.ptAnswer code (some i) = s.withDone (word (code + i * 65536)) := rfl
theorem ptAnswer_none (s : State) (code : Nat) :
    s.ptAnswer code none = (s.withDone (word (code + (freeValue 14 s.freeCtr).toNat * 65536))).free := rfl

/-- A command has ended with the answer `done`, still to be reported, and has written no registers but PT_CMD and those listed. -/
structure Answered (s t : State) (done : Word) (as : List Nat) : Prop where
  sw : t.sw = { s.sw with ptDone := done }
  busy : t.bit ptCmd 31 = true
  others : OtherRegs s t (ptCmd :: as)
  beside : t = { acked s with regs := t.regs, sw := t.sw }

/-- A command that writes a row apart from PT_CMD and answers with an index. -/
theorem rowAnswered (s : State) (d : Word) (v : Nat → Word) (done : Word) (h : ptCmd ∉ (List.range n).map f) :
    Answered s (acked (((s.ptStarted d).writeRow f v n).withDone done)) done ((List.range n).map f) := by
  obtain ⟨r, hr⟩ : ∃ r, (s.ptStarted d).writeRow f v n = { s with regs := r } := writeRow_setReg_onlyRegs s ptCmd _ f v n
  refine ⟨?_, ?_, fun a ha => ?_, ?_⟩
  · rw [hr]
    rfl
  · exact (congrArg (bitOf · 31) (reg_writeRow_other h)).trans (bit_ptStarted s d)
  · rw [List.mem_cons, not_or] at ha
    exact (reg_writeRow_other ha.2).trans (reg_ptStarted d ha.1)
  · rw [hr]
    rfl

theorem ptCmd_not_hashed (i : Nat) : ptCmd ∉ (List.range n).map (hashedWord i) := by
  rw [List.mem_map]
  exact fun ⟨x, _, h⟩ => hashedWord_ne_ptCmd i x h

theorem ptCmd_not_masked (j : Nat) : ptCmd ∉ (List.range n).map (maskedWord j) := by
  rw [List.mem_map]
  exact fun ⟨x, _, h⟩ => maskedWord_ne_ptCmd j x h

theorem ptCmd_not_buffer : ptCmd ∉ (List.range n).map ptBuf := by
  rw [List.mem_map]
  exact fun ⟨x, _, h⟩ => ptBuf_ne_ptCmd x h

theorem fieldOf_code (h : code < 65536) (i : Nat) : fieldOf (word (code + i * 65536)) 0 16 = code := by
  rw [fieldOf, bitsOf, word, BitVec.toNat_ofNat]
  omega

theorem ptDone_withDone (s : State) (done : Word) : (acked (s.withDone done).free).sw.ptDone = done := rfl

/-- The CODE of an answer whose INDEX is not stated. -/
theorem code_ptAnswer_none (s : State) (h : code < 65536) : fieldOf (acked (s.ptAnswer code none)).sw.ptDone 0 16 = code := by
  rw [ptAnswer_none, ptDone_withDone, fieldOf_code h]

/-- A command that answers without an index and writes nothing. -/
theorem bareAnswer_others (s : State) (d : Word) (code : Nat) : OtherRegs s (acked ((s.ptStarted d).ptAnswer code none)) [ptCmd] := by
  intro a ha
  rw [ptAnswer_none, reg_acked, reg_free, reg_withDone, reg_ptStarted d (by simpa using ha)]

theorem freeAnswer_beside (a : Nat) (c done : Word) (ht : t = acked ((s.setReg a c).withDone done).free) :
    t = { acked s with regs := t.regs, sw := t.sw, freeCtr := t.freeCtr } := by
  subst ht
  rfl

theorem bareAnswer_beside (ht : t = acked ((s.ptStarted d).ptAnswer code none)) :
    t = { acked s with regs := t.regs, sw := t.sw, freeCtr := t.freeCtr } := freeAnswer_beside ptCmd _ _ (by rw [ht, ptAnswer_none, State.ptStarted])

theorem entryWords_acked (s : State) (done : Word) (i : Nat) : (acked (s.withDone done)).entryWords i = s.entryWords i := rfl
theorem entryWords_bump (s : State) (a i : Nat) : (s.bump a).entryWords i = s.entryWords i := rfl

/-- A command that writes an entry and answers with an index. -/
theorem entryAnswered (s : State) (d : Word) (i : Nat) (ws : List Word) (done : Word) :
    Answered s (acked (((s.ptStarted d).writeEntry i ws).withDone done)) done ((List.range 8).map (hashedWord i)) :=
  rowAnswered s d _ done (ptCmd_not_hashed i)

/-- The same, where the entry takes the place of another, which is counted. -/
theorem displacedAnswered (s : State) (d : Word) (i : Nat) (ws : List Word) (a : Nat) (done : Word) {t : State}
    (ht : t = acked ((((s.ptStarted d).writeEntry i ws).bump a).withDone done)) :
    t.sw = { s.sw with ptDone := done } ∧ t.count a = s.count a + 1 ∧ t = { acked s with regs := t.regs, sw := t.sw, cnts := t.cnts } := by
  obtain ⟨r, hr⟩ : ∃ r, (s.ptStarted d).writeEntry i ws = { s with regs := r } := writeRow_setReg_onlyRegs s ptCmd _ _ _ 8
  rw [hr] at ht
  subst ht
  exact ⟨rfl, State.count_bump_same _ _, rfl⟩

theorem length_bufEntry (s : State) : s.bufEntry.length = 8 := by simp [State.bufEntry]

end Sys2Proof.Machine
end

section
/-!
CLEAR_LEARNED (R230): the learned entries are found among the registers that differ from their reset value, and each is invalidated.
-/
namespace Sys2Proof.Machine

variable {s t : State} {d : Word} {i j x : Nat} {js : List Nat}

/-! ## Tables as lists -/

/-- A value that is not its key's default is listed. -/
theorem Tab.mem_of_get_ne {α : Type} {e : Nat → α} {c : Tab α} {k : Nat} (h : Tab.get e c k ≠ e k) : (k, Tab.get e c k) ∈ c := by
  induction c with
  | nil => exact absurd rfl h
  | cons y c ih =>
    rw [Tab.get] at h ⊢
    split_ifs at h ⊢ with hk
    · rw [← hk]
      exact List.mem_cons_self
    · exact List.mem_cons_of_mem _ (ih h)

theorem Tab.mem_put {α : Type} {c : Tab α} {k : Nat} {v : α} {y : Nat × α} (h : y ∈ Tab.put c k v) : y = (k, v) ∨ y ∈ c := by
  induction c with
  | nil => exact .inl (List.mem_singleton.1 h)
  | cons z c ih =>
    rw [Tab.put] at h
    split_ifs at h with hk hlt
    · exact (List.mem_cons.1 h).imp_right (List.mem_cons_of_mem _)
    · exact List.mem_cons.1 h
    · rcases List.mem_cons.1 h with rfl | h
      · exact .inr List.mem_cons_self
      · exact (ih h).imp_right (List.mem_cons_of_mem _)

theorem Tab.mem_drop {α : Type} {c : Tab α} {k : Nat} {y : Nat × α} (h : y ∈ Tab.drop c k) : y ∈ c := by
  induction c with
  | nil => exact h
  | cons z c ih =>
    rw [Tab.drop] at h
    split_ifs at h with hk
    · exact List.mem_cons_of_mem _ (ih h)
    · exact (List.mem_cons.1 h).elim (fun h => h ▸ List.mem_cons_self) fun h => List.mem_cons_of_mem _ (ih h)

theorem Tab.mem_set {α : Type} [DecidableEq α] {e : Nat → α} {c : Tab α} {k : Nat} {v : α} {y : Nat × α} (h : y ∈ Tab.set e c k v) :
    y = (k, v) ∨ y ∈ c := by
  rw [Tab.set] at h
  split_ifs at h
  · exact .inr (Tab.mem_drop h)
  · exact Tab.mem_put h

/-! ## Learned entries -/

theorem regReset_word {a c w v : Nat} (hspecial : resetSpecial a = none) (hcell : cellAt a = some (.word c w v)) : regReset a = word v := by
  unfold regReset
  simp only [hspecial, hcell]

theorem regionsCell_skip {g : Region} {gs : List Region} {b o : Nat} (h : o < g.base ∨ g.base + g.n * g.stride ≤ o) :
    regionsCell b o (g :: gs) = regionsCell b o gs := if_neg (by omega)

theorem regionsCell_inside {g : Region} {gs : List Region} {b o : Nat} {c : RegCell} (hlo : g.base ≤ o) (hhi : o < g.base + g.n * g.stride)
    (hrows : ∀ at0, rowsCell at0 ((o - g.base) % g.stride) g.rows = some c) : regionsCell b o (g :: gs) = some c := by
  rw [regionsCell, if_pos ⟨hlo, hhi⟩]
  dsimp only
  rw [hrows]

/-- The words of the region HASHED. -/
theorem rowsCell_hashed {o : Nat} (at0 : Nat) (h : o < 0x70000) (hword : o % 4 = 0) : rowsCell at0 o [ro "HASHED" 0 0 114688] = some (.word 0 0 0) := by
  have hhit : hits o 0 114688 4 0 = true := by
    simp [hits]
    omega
  simp only [rowsCell, RegRow.cell, ro, hhit, if_true]

theorem cellAt_hashed {o : Nat} (hlo : 0x100000 ≤ o) (hhi : o < 0x170000) (hword : o % 4 = 0) : cellAt (swReg o) = some (.word 0 0 0) := by
  have hblock : blockOf (swReg o) = some (.sw, o) := blockOf_sw (by omega)
  unfold cellAt
  rw [hblock]
  dsimp only [mapOf]
  rw [swMap]
  iterate 8 rw [regionsCell_skip (by dsimp only; omega)]
  exact regionsCell_inside hlo hhi fun at0 => rowsCell_hashed at0 (Nat.mod_lt _ (by decide)) (by dsimp only; omega)

/-- The words of the table are 0 after reset. -/
theorem regReset_hashed {o : Nat} (hlo : 0x100000 ≤ o) (hhi : o < 0x170000) (hword : o % 4 = 0) : regReset (swReg o) = 0 := by
  have hspecial : resetSpecial (swReg o) = none := by
    unfold resetSpecial
    rw [if_neg (by unfold swReg swBase portBase; omega), if_neg (by unfold swReg; omega), if_neg (by unfold swReg swBase travBase; omega),
      if_neg (by unfold swReg; omega), if_neg (by unfold swReg; omega)]
  exact regReset_word hspecial (cellAt_hashed hlo hhi hword)

theorem regReset_hashedWord (hi : i < 14336) (hx : x < 8) : regReset (hashedWord i x) = 0 :=
  regReset_hashed (by omega) (by omega) (by omega)

/-- A learned entry is in the list of them. -/
theorem mem_learnedEntries_of_learned (hi : i < 14336) (htype : s.entryType i ≠ 0) (hlearned : s.entryStatic i = false) :
    i ∈ s.learnedEntries := by
  have hne : s.reg (hashedWord i 0) ≠ regReset (hashedWord i 0) := fun h => htype (by
    rw [State.entryType, State.fld, h, regReset_hashedWord hi (by decide)]
    rfl)
  refine List.mem_filterMap.2 ⟨_, Tab.mem_of_get_ne hne, ?_⟩
  have hentry : hashedWord 0 0 ≤ hashedWord i 0 ∧ hashedWord i 0 < hashedWord 14336 0 ∧ (hashedWord i 0 - hashedWord 0 0) % 32 = 0 := by
    unfold hashedWord swReg
    omega
  have hindex : (hashedWord i 0 - hashedWord 0 0) / 32 = i := by
    unfold hashedWord swReg
    omega
  obtain ⟨hlo, hhi, hword⟩ := hentry
  exact (if_pos ⟨hlo, hhi, hword, htype, hlearned⟩).trans (congrArg some hindex)

/-- An entry in the list is learned. -/
theorem entryStatic_of_mem_learnedEntries (hregs : ∀ y ∈ s.regs, y.1 = hashedWord i 0 → s.reg y.1 = y.2) (h : i ∈ s.learnedEntries) :
    s.entryStatic i = false := by
  obtain ⟨⟨a, v⟩, hmem, hy⟩ := List.mem_filterMap.1 h
  rw [Option.ite_none_right_eq_some] at hy
  obtain ⟨⟨hlo, hhi, hword, -, hlearned⟩, hindex⟩ := hy
  have ha : a = hashedWord i 0 := by
    rw [Option.some.injEq] at hindex
    unfold hashedWord swReg at *
    omega
  subst ha
  rw [State.entryStatic, State.bit, hregs _ hmem rfl]
  exact hlearned

/-! ## Entries invalidated one after another -/

theorem reg_dropEntry_other (h : i ≠ j) (hx : x < 8) : (s.dropEntry j).reg (hashedWord i x) = s.reg (hashedWord i x) := by
  refine reg_writeRow_other (f := hashedWord j) (n := 8) fun hmem => ?_
  obtain ⟨y, hy, heq⟩ := List.mem_map.1 hmem
  rw [List.mem_range] at hy
  unfold hashedWord swReg at heq
  omega

theorem reg_dropEntry_same (hx : x < 8) : (s.dropEntry i).reg (hashedWord i x) = 0 :=
  reg_writeRow (v := fun x => (([] : List Word)[x]?).getD 0) (hashedWord_injective i) hx

theorem reg_dropEntries_other (h : i ∉ js) (hx : x < 8) :
    (js.foldl (fun st j => st.dropEntry j) s).reg (hashedWord i x) = s.reg (hashedWord i x) := by
  induction js generalizing s with
  | nil => rfl
  | cons j js ih =>
    rw [List.mem_cons, not_or] at h
    rw [List.foldl_cons, ih h.2, reg_dropEntry_other h.1 hx]

/-- An entry that is invalid, or among those invalidated, is invalid at the end. -/
theorem reg_dropEntries_same (h : s.reg (hashedWord i x) = 0 ∨ i ∈ js) (hx : x < 8) :
    (js.foldl (fun st j => st.dropEntry j) s).reg (hashedWord i x) = 0 := by
  induction js generalizing s with
  | nil => exact h.resolve_right List.not_mem_nil
  | cons j js ih =>
    rw [List.foldl_cons]
    refine ih ?_
    by_cases hij : i = j
    · exact .inl (hij ▸ reg_dropEntry_same hx)
    · rw [reg_dropEntry_other hij hx]
      exact h.imp_right fun h => (List.mem_cons.1 h).resolve_left hij

/-- The table's words after CLEAR_LEARNED. -/
theorem reg_ptClearLearned (s : State) (a : Nat) :
    (acked s.ptClearLearned).reg a = (s.learnedEntries.foldl (fun st j => st.dropEntry j) s).reg a := by
  rw [State.ptClearLearned, ptAnswer_none, reg_acked, reg_free, reg_withDone]

/-- CLEAR_LEARNED leaves entries that are invalid or STATIC. -/
theorem ptClearLearned_clears (hi : i < 14336) : (acked s.ptClearLearned).entryType i = 0 ∨ (acked s.ptClearLearned).entryStatic i = true := by
  rw [State.entryType, State.fld, State.entryStatic, State.bit, reg_ptClearLearned]
  by_cases hmem : i ∈ s.learnedEntries
  · left
    rw [reg_dropEntries_same (.inr hmem) (by decide)]
    rfl
  · rw [reg_dropEntries_other hmem (by decide)]
    by_contra! h
    exact hmem (mem_learnedEntries_of_learned hi h.1 (Bool.eq_false_of_not_eq_true h.2))

/-- CLEAR_LEARNED leaves a STATIC entry as it was. -/
theorem ptClearLearned_keeps (hregs : ∀ y ∈ s.regs, y.1 = hashedWord i 0 → s.reg y.1 = y.2) (hstatic : s.entryStatic i = true) :
    (acked s.ptClearLearned).entryWords i = s.entryWords i := by
  have hmem : i ∉ s.learnedEntries := fun h => by
    rw [entryStatic_of_mem_learnedEntries hregs h] at hstatic
    cases hstatic
  refine List.map_congr_left fun x hx => ?_
  rw [reg_ptClearLearned, reg_dropEntries_other hmem (List.mem_range.1 hx)]

theorem ptClearLearned_code (s : State) : fieldOf (acked s.ptClearLearned).sw.ptDone 0 16 = 0 := by
  rw [State.ptClearLearned, code_ptAnswer_none _ (by decide)]

theorem mem_regs_setReg {a : Nat} {v : Word} {y : Nat × Word} (h : y ∈ (s.setReg a v).regs) : y = (a, v) ∨ y ∈ s.regs := Tab.mem_set h

/-- The start of a command leaves the registers of the table listed as they were. -/
theorem regs_ptStarted (hregs : ∀ y ∈ s.regs, s.reg y.1 = y.2) :
    ∀ y ∈ (s.ptStarted d).regs, y.1 = hashedWord i 0 → (s.ptStarted d).reg y.1 = y.2 := by
  intro y hy ha
  rcases mem_regs_setReg hy with hy | hy
  · rw [hy] at ha
    exact absurd ha.symm (hashedWord_ne_ptCmd i 0)
  · rw [ha, reg_hashedWord_ptStarted, ← ha, hregs y hy]

end Sys2Proof.Machine
end

section
/-!
Learning and ageing (R231, R232).
-/
namespace Sys2Proof.Machine

variable {s : State} {p sa vid i : Nat} {rest : List (Nat × Nat × Nat)}

/-- A state in which the frames `rest` wait to be learned. -/
def State.withLearns (s : State) (rest : List (Nat × Nat × Nat)) : State := { s with sw := { s.sw with learns := rest } }

/-- The words of an entry that is learned from port p: not STATIC, hit, and going to that port under LEARN_ACT. -/
def State.learnedWords (s : State) (p sa vid : Nat) : List Word :=
  [word (33 + vid * 65536), word sa, word (sa / 2 ^ 32), 0, word (if p < 32 then 2 ^ p else 0), word (if p < 32 then 0 else 2 ^ (p - 32)), 0,
    s.reg (swReg 0x34)]

/-- The lower 32 bits of an address are a word. -/
theorem word_mod (n : Nat) : word (n % 2 ^ 32) = word n := BitVec.eq_of_toNat_eq (by simp [word])

theorem sourceLearn_new (h : s.sw.learns = (p, sa, vid) :: rest) (hidle : s.bit ptCmd 31 = false) (hnew : s.findKey (macPathKey 1 sa 0 vid) = none)
    (hi : (s.candidates (macPathKey 1 sa 0 vid)).find? (fun j => s.entryType j == 0) = some i) :
    s.sourceLearn = ((s.withLearns rest).writeEntry i (s.learnedWords p sa vid)).bump (swReg 0x8010) := by
  have hidle' : ¬ (s.bit ptCmd 31 && s.fld ptCmd 0 3 == 5) = true := by simp [hidle]
  have hnew' : (s.withLearns rest).findKey (macPathKey 1 sa 0 vid) = none := hnew
  have hi' : ((s.withLearns rest).candidates (macPathKey 1 sa 0 vid)).find? (fun j => (s.withLearns rest).entryType j == 0) = some i := hi
  have hword : 1 + 32 + vid * 65536 = 33 + vid * 65536 := rfl
  rw [State.withLearns] at hnew' hi'
  rw [State.sourceLearn, h]
  dsimp only
  rw [if_neg hidle', hnew', hi', macPathKey, word_mod, Nat.zero_mul, Nat.add_zero, hword]
  rfl

theorem sourceLearn_static (h : s.sw.learns = (p, sa, vid) :: rest) (hidle : s.bit ptCmd 31 = false)
    (hfound : s.findKey (macPathKey 1 sa 0 vid) = some i) (hstatic : s.entryStatic i = true) :
    s.sourceLearn = (s.withLearns rest).setBit (hashedWord i 0) 5 true := by
  have hidle' : ¬ (s.bit ptCmd 31 && s.fld ptCmd 0 3 == 5) = true := by simp [hidle]
  have hfound' : (s.withLearns rest).findKey (macPathKey 1 sa 0 vid) = some i := hfound
  have hstatic' : (s.withLearns rest).entryStatic i = true := hstatic
  rw [State.withLearns] at hfound' hstatic'
  rw [State.sourceLearn, h]
  dsimp only
  rw [if_neg hidle', hfound']
  exact if_pos hstatic'

theorem sourceLearn_idle (h : s.sw.learns = []) : s.sourceLearn = s := by rw [State.sourceLearn, h]

/-- The sweep has visited entry i. -/
def State.visited (s : State) (i : Nat) : State := { s with sw := { s.sw with swept := Tab.set (fun _ => 0) s.sw.swept i (s.cyc + 1) } }

theorem exec_addressAgeVisit (hi : i < 14336) (s : State) : exec (.addressAgeVisit i) s = .next (s.ageVisit i) := by
  have hentry : isPathEntry i = true := decide_eq_true hi
  have hevent : exec (.addressAgeVisit i) s = event (isPathEntry i) s (s.ageVisit i) := rfl
  rw [hevent, hentry, event_true]

theorem ageVisit_early (h : s.ageDue i = false) : s.ageVisit i = s := by rw [State.ageVisit, h]; rfl

theorem ageVisit_kept (h : s.ageDue i = true) (hkept : s.entryType i = 0 ∨ s.entryStatic i = true) : s.ageVisit i = s.visited i := by
  rw [State.ageVisit, h]
  exact if_pos hkept

theorem ageVisit_hit (h : s.ageDue i = true) (htype : s.entryType i ≠ 0) (hlearned : s.entryStatic i = false) (hhit : s.entryHit i = true) :
    s.ageVisit i = (s.visited i).setBit (hashedWord i 0) 5 false := by
  have hages : ¬ (s.entryType i = 0 ∨ s.entryStatic i = true) := by simp [htype, hlearned]
  rw [State.ageVisit, h]
  exact (if_neg hages).trans (if_pos hhit)

theorem ageVisit_aged (h : s.ageDue i = true) (htype : s.entryType i ≠ 0) (hlearned : s.entryStatic i = false) (hhit : s.entryHit i = false) :
    s.ageVisit i = ((s.visited i).dropEntry i).bump (swReg 0x8030) := by
  have hages : ¬ (s.entryType i = 0 ∨ s.entryStatic i = true) := by simp [htype, hlearned]
  rw [State.ageVisit, h]
  exact (if_neg hages).trans (if_neg (by rw [hhit]; exact Bool.false_ne_true))

theorem ageDue_iff (s : State) (i : Nat) : s.ageDue i = true ↔ s.fld (swReg 0x30) 0 16 ≠ 0 ∧
    (Tab.get (fun _ => 0) s.sw.swept i = 0 ∨ Tab.get (fun _ => 0) s.sw.swept i + s.fld (swReg 0x30) 0 16 * 1000 * 500000 ≤ s.cyc + 1) := by
  have hperiod : s.fld (swReg 0x30) 0 16 * 1000 * cycMs ≠ 0 ↔ s.fld (swReg 0x30) 0 16 ≠ 0 := by
    unfold cycMs
    omega
  rw [State.ageDue, Bool.and_eq_true, bne_iff_ne, hperiod, Bool.or_eq_true, beq_iff_eq, decide_eq_true_iff]
  rfl

/-- An entry that is written and counted, in a state that differs by the switch alone. -/
theorem entryCounted (s : State) (sw : SwSt) (i a : Nat) (ws : List Word) :
    (((({ s with sw := sw } : State).writeEntry i ws).bump a).count a = s.count a + 1) ∧
      OtherRegs s ((({ s with sw := sw } : State).writeEntry i ws).bump a) ((List.range 8).map (hashedWord i)) ∧
      (({ s with sw := sw } : State).writeEntry i ws).bump a =
        { s with
          regs := ((({ s with sw := sw } : State).writeEntry i ws).bump a).regs
          cnts := ((({ s with sw := sw } : State).writeEntry i ws).bump a).cnts
          sw := sw } := by
  obtain ⟨r, hr⟩ : ∃ r, ({ s with sw := sw } : State).writeEntry i ws = { s with sw := sw, regs := r } := ⟨_, writeRow_onlyRegs⟩
  refine ⟨?_, fun b hb => ?_, ?_⟩
  · rw [hr, State.count_bump_same]
    rfl
  · rw [State.reg_bump]
    exact reg_writeRow_other hb
  · rw [hr]
    rfl

end Sys2Proof.Machine
end

section
open Sys2Proof Sys2Proof.Machine

/-- Settles O42, clause by clause: a command starts (`exec_ptInsert` and the like), what it reads is not changed by its start, and what it writes is
a row of registers apart from PT_CMD (`rowAnswered`); learning and ageing write one entry (`entryCounted`). -/
theorem pathTableIsKept : Obligations.PathTableIsKept := by
  unfold Obligations.PathTableIsKept
  refine ⟨?insert, ?displace, ?refused, ?delete, ?lookup, ?missing, ?masked, ?clear, ?busy, ?complete, ?idle, ?learn, ?static, ?unlearned, ?hit,
    ?aged, ?kept, ?early, ageDue_iff⟩
  case insert =>
    intro w s d i h hidle hop hgo hok hi
    have hstored := ptInsert_stored (s := s.ptStarted d) (mcp := isMcp w) (i := i) (by simpa using hok) (by simpa using hi)
    rw [bufEntry_ptStarted, ptAnswer_some, Nat.zero_add] at hstored
    obtain ⟨hsw, hbusy, hothers, hbeside⟩ := entryAnswered s d i s.bufEntry (word (i * 65536))
    refine ⟨_, exec_ptInsert h hidle hop hgo, ?_⟩
    rw [hstored]
    exact ⟨(entryWords_acked _ _ i).trans (entryWords_writeEntry (length_bufEntry s)), hsw, hbusy, hothers, hbeside⟩
  case displace =>
    intro w s d i h hidle hop hgo hok hnone hfull hi
    have hstored := ptInsert_displaced (s := s.ptStarted d) (mcp := isMcp w) (i := i) (by simpa using hok) (by simpa using hnone)
      (by simpa using hfull) (by simpa using hi)
    rw [bufEntry_ptStarted, ptAnswer_some] at hstored
    refine ⟨_, exec_ptInsert h hidle hop hgo, ?_⟩
    rw [hstored]
    obtain ⟨hsw, hcount, hbeside⟩ := displacedAnswered s d i s.bufEntry (swReg 0x8028) (word (4 + i * 65536)) rfl
    exact ⟨(entryWords_acked _ _ i).trans ((entryWords_bump _ _ i).trans (entryWords_writeEntry (length_bufEntry s))), hsw, hcount, hbeside⟩
  case refused =>
    intro w s d h hidle hop hgo hok
    refine ⟨_, exec_ptInsert h hidle hop hgo, ?_⟩
    rw [ptInsert_refused (by simpa using hok)]
    exact ⟨code_ptAnswer_none _ (by decide), bareAnswer_others s d 3, bareAnswer_beside rfl⟩
  case delete =>
    intro w s d i h hidle hop hgo hlo hhi hi
    have hfound := ptDelete_found (s := s.ptStarted d) (i := i) (by simpa using hlo) (by simpa using hhi) (by simpa using hi)
    rw [ptAnswer_some, Nat.zero_add] at hfound
    obtain ⟨hsw, hbusy, hothers, hbeside⟩ := entryAnswered s d i [] (word (i * 65536))
    refine ⟨_, exec_ptDelete h hidle hop hgo, ?_⟩
    rw [hfound]
    exact ⟨(entryWords_acked _ _ i).trans (entryWords_dropEntry _ i), hsw, hbusy, hothers, hbeside⟩
  case lookup =>
    intro w s d i h hidle hop hgo hlo hhi hi
    have hfound := ptLookup_found (s := s.ptStarted d) (i := i) (by simpa using hlo) (by simpa using hhi) (by simpa using hi)
    rw [ptAnswer_some, Nat.zero_add] at hfound
    obtain ⟨hsw, -, hothers, hbeside⟩ := rowAnswered s d (fun x => (s.ptStarted d).reg (hashedWord i x)) (word (i * 65536)) (n := 8) ptCmd_not_buffer
    refine ⟨_, exec_ptLookup h hidle hop hgo, ?_⟩
    rw [hfound]
    refine ⟨List.map_congr_left fun x hx => ?_, hsw, hothers, hbeside⟩
    rw [reg_acked, reg_withDone, reg_writeRow ptBuf_injective (List.mem_range.1 hx), reg_hashedWord_ptStarted]
  case missing =>
    intro w s d h hidle hgo hlo hhi hnone
    refine ⟨fun hop => ⟨_, exec_ptDelete h hidle hop hgo, ?_⟩, fun hop => ⟨_, exec_ptLookup h hidle hop hgo, ?_⟩⟩
    · rw [ptDelete_missing (by simpa using hlo) (by simpa using hhi) (by simpa using hnone)]
      exact ⟨code_ptAnswer_none _ (by decide), bareAnswer_others s d 2⟩
    · rw [ptLookup_missing (by simpa using hlo) (by simpa using hhi) (by simpa using hnone)]
      exact ⟨code_ptAnswer_none _ (by decide), bareAnswer_others s d 2⟩
  case masked =>
    rintro w s d _ h hidle hop hgo hok rfl
    have hwrite := ptWriteMasked_accepted (s := s.ptStarted d) (mcp := isMcp w) (by simpa using hok) (fieldOf d 16 11)
    rw [ptAnswer_some, Nat.zero_add] at hwrite
    obtain ⟨hsw, -, hothers, hbeside⟩ := rowAnswered s d (fun x => (s.ptStarted d).reg (ptBuf x)) (word (fieldOf d 16 11 * 65536)) (n := 16)
      (ptCmd_not_masked (fieldOf d 16 11))
    refine ⟨_, exec_ptWriteMasked h hidle hop hgo, ?_⟩
    rw [hwrite]
    refine ⟨fun x hx => ?_, hsw, hothers, hbeside⟩
    rw [reg_acked, reg_withDone, reg_writeRow (maskedWord_injective _) hx, reg_ptBuf_ptStarted]
  case clear =>
    intro w s d h hidle hop hgo hregs
    refine ⟨_, exec_ptClearLearned h hidle hop hgo, fun i hi => ptClearLearned_clears hi, fun i _ hstatic => ?_, ptClearLearned_code _⟩
    exact (ptClearLearned_keeps (regs_ptStarted hregs) (by simpa using hstatic)).trans (entryWords_ptStarted s d i)
  case busy =>
    intro w s d h hbusy
    exact ⟨ptAccess_busy h hbusy d, ptAccess_busy h hbusy d, ptAccess_busy h hbusy d, ptAccess_busy h hbusy d, ptAccess_busy h hbusy d⟩
  case complete =>
    intro s h
    exact congrArg Host.Outcome.next (if_pos h)
  case idle =>
    intro s h
    exact congrArg Host.Outcome.next (if_neg (by rw [h]; exact Bool.false_ne_true))
  case learn =>
    intro s p sa vid i rest hlearns hidle _ hnone hi
    refine ⟨_, congrArg Host.Outcome.next (sourceLearn_new hlearns hidle hnone hi), ?_, entryCounted s _ i (swReg 0x8010) _⟩
    exact (entryWords_bump _ _ i).trans (entryWords_writeEntry (ws := s.learnedWords p sa vid) rfl)
  case static =>
    intro s p sa vid i rest hlearns hidle _ hfound hstatic
    exact congrArg Host.Outcome.next (sourceLearn_static hlearns hidle hfound hstatic)
  case unlearned =>
    intro s h
    exact congrArg Host.Outcome.next (sourceLearn_idle h)
  case hit =>
    intro s i hi hdue htype hlearned hhit
    rw [exec_addressAgeVisit hi, ageVisit_hit hdue htype hlearned hhit, State.visited]
  case aged =>
    intro s i hi hdue htype hlearned hhit
    refine ⟨_, (exec_addressAgeVisit hi s).trans (congrArg _ (ageVisit_aged hdue htype hlearned hhit)), ?_, entryCounted s _ i (swReg 0x8030) []⟩
    exact (entryWords_bump _ _ i).trans (entryWords_dropEntry _ i)
  case kept =>
    intro s i hi hdue hkept
    rw [exec_addressAgeVisit hi, ageVisit_kept hdue hkept, State.visited]
  case early =>
    intro s i hi hdue
    rw [exec_addressAgeVisit hi, ageVisit_early hdue]
end

section
/-!
An overage head that leaves its queue while the share of its port stands at a high watermark that has been written since the share rose (R208, R260): the
share of the port changes as the frame is released, so the stop is found now, and its event goes out on the event bus.
-/
namespace Sys2Proof.Machine

/-- A frame of one cell that has arrived whole at port 0 when G was 0. -/
def Frame.whole : Frame :=
  { bytes := [], ingress := 0, sender := none, stamp := 0, arriving := false, bad := false, classed := true, tc := 0, granule := 0, kind := 0,
    entry := 0, cells := 1, hit := none, act := 0, reason := 0, failed := 0, left := false, debits := [], waits := false, limit := none,
    late := false, tag := 0 }

/-- Frame 0 is the head of queue 0, whose copies age out after one granule, and frame 1 still arrives; both are of port 0, which sends pause frames for
its SHARE and whose high watermark is now 1 cell. The next granule is due. -/
def State.agedAtWatermark : State :=
  ((((({ State.reset with cyc := 8000 }.setReg (qReg 0 0) 1).setReg (portReg 0 0x100) 1).setReg (portReg 0 0x108) 1).setFrame 0
    (some Frame.whole)).setFrame 1 (some { Frame.whole with arriving := true })).setQueue 0 [⟨0, 0, 0, false, false, 0, 0, 0, none⟩]

theorem exec_ageGranule (s : State) : exec .ageGranule s = .next s.ageGranule := rfl

/-- The granule is due, and no event is on the bus. -/
theorem agedAtWatermark_due : State.agedAtWatermark.cyc / 8000 % 2 ^ 20 ≠ State.agedAtWatermark.sw.granule ∧ State.agedAtWatermark.flt.bus = [] := by
  decide +kernel

/-- The head leaves, and port 0 raises the event of a stop. -/
theorem agedAtWatermark_stops : State.agedAtWatermark.ageGranule.flt.bus.map (fun e => (e.src, e.cls, e.cause)) = [(0x58, 0, 4)] := by
  decide +kernel

end Sys2Proof.Machine

open Sys2Proof Sys2Proof.Machine

/-- Refutes O43: the removal of an overage head can take a port over its high watermark as it stands now, and then an event is raised, so registers,
counters and the switch are not all that a new granule changes. -/
theorem not_mirrorsQueuesAndLedgers : ¬ Obligations.MirrorsQueuesAndLedgers := by
  rintro ⟨-, -, -, -, -, -, -, -, hage, -⟩
  obtain ⟨hdue, hbus⟩ := agedAtWatermark_due
  obtain ⟨t, ht, -, -, hbeside⟩ := hage State.agedAtWatermark hdue
  rw [exec_ageGranule] at ht
  injection ht with ht
  have hflt : t.flt = _ := congrArg State.flt hbeside
  have hstops := agedAtWatermark_stops
  rw [ht, hflt, hbus] at hstops
  cases hstops
end

section
/-!
A step of the machine (R268, R269, R339; log entries 4 and 151): the command at the front of the queue, or a TIME cycle in which Traverse writes the
timed actions that are due.
-/
namespace Sys2Proof.Machine

variable {s t u : State} {a : Nat} {x : StepAct}

theorem step_command {c : Instr} {rest : List Instr} (h : s.pending = c :: rest) : step s = exec c { s with pending := rest } := by
  rw [step, h]

theorem step_idle (h : s.pending = []) : step s = .next s.idleCycle := by
  rw [step, h]

/-- INC by RATE (R269). -/
theorem inc_eq {r : Int} (h : r = signed (s.reg (timeBase + 0x10)).toNat 32) : s.inc = (2 ^ 33 + 2 * r).toNat := by
  subst h
  rfl

/-! ## What Traverse's writes change -/

/-- A state with the channels, the axes and the counters of another. -/
def State.withActions (s u : State) : State :=
  { s with cnts := u.cnts, pch := { s.pch with chans := u.pch.chans }, trav := { s.trav with axes := u.trav.axes } }

/-- From `s` to `t` entries have joined the timed-action queues of channels, and nothing else has changed but axes and counters. -/
structure ActionsWritten (s t : State) : Prop where
  chan : ∀ n, t.chan n = { s.chan n with taq := (t.chan n).taq } ∧ ∃ xs, (t.chan n).taq = (s.chan n).taq ++ xs
  beside : ∀ u, t.withActions u = s.withActions u

namespace ActionsWritten

theorem of_chans (hchan : ∀ n, t.chan n = s.chan n) (hbeside : ∀ u, t.withActions u = s.withActions u) : ActionsWritten s t :=
  ⟨fun n => by rw [hchan n]; exact ⟨rfl, [], (List.append_nil _).symm⟩, hbeside⟩

theorem refl (s : State) : ActionsWritten s s := of_chans (fun _ => rfl) fun _ => rfl

theorem trans (h : ActionsWritten s t) (g : ActionsWritten t u) : ActionsWritten s u where
  chan n := by
    obtain ⟨hsame, xs, hxs⟩ := h.chan n
    obtain ⟨gsame, ys, hys⟩ := g.chan n
    refine ⟨?_, xs ++ ys, by rw [hys, hxs, List.append_assoc]⟩
    rw [gsame, hsame]
  beside v := (g.beside v).trans (h.beside v)

theorem foldl {α : Type} {f : State → α → State} (h : ∀ s x, ActionsWritten s (f s x)) (xs : List α) (s : State) :
    ActionsWritten s (xs.foldl f s) := by
  induction xs generalizing s with
  | nil => exact refl s
  | cons x xs ih => exact (h s x).trans (ih _)

theorem setAxis (s : State) (a : Nat) (c : AxisSt) : ActionsWritten s (s.setAxis a c) := of_chans (fun _ => rfl) fun _ => rfl

theorem bump (s : State) (a : Nat) : ActionsWritten s (s.bump a) := of_chans (fun _ => rfl) fun _ => rfl

theorem taqPush (s : State) (n t : Nat) (w : Word) : ActionsWritten s (s.taqPush n t w).1 := by
  unfold State.taqPush
  dsimp only
  split
  · exact refl s
  · refine ⟨fun m => ?_, fun _ => rfl⟩
    rcases eq_or_ne m n with rfl | hm
    · rw [chan_setChan_same]
      exact ⟨rfl, _, rfl⟩
    · rw [State.chan, State.setChan, Tab.get_set_other _ _ hm]
      exact ⟨rfl, [], (List.append_nil _).symm⟩

theorem writeAct (s : State) (a : Nat) (x : StepAct) : ActionsWritten s (s.writeAct a x) := by
  unfold State.writeAct
  dsimp only
  split
  · split
    · exact taqPush s _ _ _
    · exact (taqPush s _ _ _).trans ((bump _ _).trans (setAxis _ _ _))
  · exact refl s

theorem writeActs (s : State) (a : Nat) (t : Int) : ActionsWritten s (s.writeActs a t) :=
  (setAxis s a _).trans (foldl (fun s x => writeAct s a x) _ _)

theorem idleCycle (s : State) : ActionsWritten s.timeCycle s.idleCycle :=
  foldl (fun st c => by
    dsimp only
    split
    · exact refl st
    · exact writeActs st _ _) _ _

theorem eq (h : ActionsWritten s t) : t = s.withActions t := h.beside t

end ActionsWritten

/-! ## Cycles in which nothing, or one action, is to be written -/

/-- A loop over elements that each leave the state as it is. -/
theorem foldl_eq_self {α : Type} {f : State → α → State} {xs : List α} (h : ∀ x ∈ xs, f s x = s) : xs.foldl f s = s := by
  induction xs with
  | nil => rfl
  | cons x xs ih =>
    rw [List.foldl_cons, h x List.mem_cons_self]
    exact ih fun y hy => h y (List.mem_cons_of_mem x hy)

/-- Without actions that wait, the time alone goes on. -/
theorem idleCycle_no_actions (h : ∀ x, x ∈ s.trav.axes → x.2.acts = []) : s.idleCycle = s.timeCycle :=
  foldl_eq_self fun x hx => if_pos (List.isEmpty_iff.2 (h x hx))

/-- One axis with one action, which is due: it is taken from the axis and written. -/
theorem idleCycle_one_action {c : AxisSt} (haxes : s.trav.axes = [(a, c)]) (hacts : c.acts = [x]) (hdue : x.at' ≤ s.timeCycle.motionNs + 1000) :
    s.idleCycle = (s.timeCycle.setAxis a { c with acts := [] }).writeAct a x := by
  have haxis : s.timeCycle.axis a = c := by simp [State.axis, State.timeCycle, haxes, Tab.get]
  have hidle : s.idleCycle = s.timeCycle.writeActs a s.timeCycle.motionNs := by
    simp [State.idleCycle, State.timeCycle, haxes, hacts]
  simp [hidle, State.writeActs, haxis, hacts, hdue]

/-- An action of an axis that feeds its channel, whose queue has room: it joins the queue, and a step is counted (R157, R339). -/
theorem writeAct_room (hfed : s.bit (pchReg (s.stepCh a) 0x1108) 1 = true) (hroom : (s.chan (s.stepCh a)).taq.length < 16) :
    ((s.writeAct a x).axis a).acts = (s.axis a).acts ∧
    (∃ w, ((s.writeAct a x).chan (s.stepCh a)).taq =
      (s.chan (s.stepCh a)).taq ++ [((x.at' + s.trav.skew).toNat / 2 % 2 ^ 48, w)]) ∧
    (s.writeAct a x).count (axisReg a 0x108) = s.count (axisReg a 0x108) + bit01 (x.step != 0) := by
  have hpush (p : Nat) (w : Word) : (s.taqPush (s.stepCh a) p w).1 =
      s.setChan (s.stepCh a) { s.chan (s.stepCh a) with taq := (s.chan (s.stepCh a)).taq ++ [(p % 2 ^ 48, w)] } := by
    rw [State.taqPush, if_neg (by omega)]
  unfold State.writeAct
  dsimp only
  rw [if_pos hfed, hpush, Nat.mod_mod]
  by_cases hstep : x.step = 0
  · rw [if_pos hstep, chan_setChan_same, hstep]
    exact ⟨rfl, ⟨_, rfl⟩, (BitVec.add_zero _).symm⟩
  · rw [if_neg hstep]
    refine ⟨?_, ⟨_, congrArg Chan.taq (chan_setChan_same s _ _)⟩, ?_⟩
    · rw [State.axis, State.setAxis, Tab.get_set_same]
      rfl
    · rw [bne_iff_ne.2 hstep]
      exact State.count_bump_same _ _

end Sys2Proof.Machine

open Sys2Proof Sys2Proof.Machine

/-- Settles O1: a command is run on the rest of the queue; on an empty queue the time goes on and due actions are written (`ActionsWritten.idleCycle`). -/
theorem stepRunsTheFrontCommandOrPassesACycle : Obligations.StepRunsTheFrontCommandOrPassesACycle := by
  unfold Obligations.StepRunsTheFrontCommandOrPassesACycle
  refine ⟨fun c rest s => step_command, ?nothing, ?cycle, ?action⟩
  case nothing =>
    intro s r hp hr hacts
    rw [step_idle hp, idleCycle_no_actions hacts, State.timeCycle, inc_eq hr]
  case cycle =>
    intro s r hp hr
    have hwritten := ActionsWritten.idleCycle s
    have heq := hwritten.eq
    have htime : s.idleCycle.time = s.time + s.inc := congrArg State.time heq
    have hcyc : s.idleCycle.cyc = s.cyc + 1 := congrArg State.cyc heq
    have hpch : s.idleCycle.pch = { s.pch with chans := s.idleCycle.pch.chans } := congrArg State.pch heq
    have htrav : s.idleCycle.trav = { s.trav with axes := s.idleCycle.trav.axes } := congrArg State.trav heq
    refine ⟨_, step_idle hp, by rw [htime, inc_eq hr], hcyc, hwritten.chan, hpch, htrav, heq.trans ?_⟩
    rw [htime, hcyc, hpch, htrav]
    rfl
  case action =>
    intro s a n c x hp hrate ha haxes hacts hdue hn hfed hroom
    have hns : s.timeCycle.ns = (s.time + 2 ^ 33) / 2 ^ 32 := by
      rw [State.ns, State.timeCycle, inc_eq (r := 0) (by rw [hrate]; decide)]
      rfl
    have hone := idleCycle_one_action haxes hacts (by rwa [State.motionNs, hns])
    subst hn
    obtain ⟨hleft, hjoined, hcounted⟩ := writeAct_room (s := s.timeCycle.setAxis a { c with acts := [] }) (a := a) (x := x) hfed hroom
    rw [← hone] at hleft hjoined hcounted
    refine ⟨_, step_idle hp, hleft.trans ?_, hjoined, hcounted⟩
    rw [State.axis, State.setAxis, Tab.get_set_same]
end

section
/-!
Accesses to the registers of TIME by an admitted master, and the events that its units put on the event bus.
-/
namespace Sys2Proof.Machine

variable {w : Who} {s t : State} {d v : Word} {o : Nat}

theorem timeReg_aligned (h4 : o % 4 = 0) : timeReg o % 4 = 0 := by
  unfold timeReg timeBase
  omega

section
variable (h : Admitted w s) (ho : o < 0x100000) (h4 : o % 4 = 0)
include h ho h4

/-- A write in TIME is what the time base answers. -/
theorem timeAccess_done (hr : timeWrite s w none o d = .done t) :
    access w true s (regWrite w (timeReg o) d s) = .next (acked t) :=
  (access_true h _).trans (congrArg _ (regWrite_admitted h d (timeReg_aligned h4) (blockOf_time ho) (by decide)
    (by rw [State.blockWrite, hr]; rfl)))

theorem timeAccess_refused (hr : timeWrite s w none o d = .err s) :
    access w true s (regWrite w (timeReg o) d s) = .next (refusedWrite (s.masterError w (timeReg o) true)) :=
  (access_true h _).trans (congrArg _ (regWrite_refused h d (timeReg_aligned h4) (blockOf_time ho) (by decide)
    (by rw [State.blockWrite, hr]; rfl)))

/-- A write to which the time base adds nothing stores the RW bits (R6). -/
theorem timeAccess_plain {rw r : Nat} (hr : timeWrite s w none o d = .plain) (hc : cellAt (timeReg o) = some (.word rw 0 r)) :
    access w true s (regWrite w (timeReg o) d s) =
      .next (acked (s.setReg (timeReg o) ((s.reg (timeReg o) &&& ~~~(word rw)) ||| (d &&& word rw)))) :=
  (access_true h _).trans (congrArg _ (regWrite_admitted h d (timeReg_aligned h4) (blockOf_time ho) (by decide)
    (by rw [State.blockWrite, hr, ← plainWord_no_w1c, WRes.orPlain, plainWrite, hc]; rfl)))

/-- A read in TIME is what the time base answers. -/
theorem timeQuery_val (hr : timeRead s w o = .val t v) : query w true s (regRead w (timeReg o) s) = .next (answered t v) :=
  (query_true h _).trans (congrArg _ (regRead_admitted h (timeReg_aligned h4) (blockOf_time ho) (by decide)
    (by rw [State.blockRead, hr]; rfl)))
end

/-! ## Registers, counters and events beside which nothing changes -/

/-- From `s` to `t` nothing but registers has changed. -/
def BesideRegs (s t : State) : Prop := t = { s with regs := t.regs }

theorem BesideRegs.refl (s : State) : BesideRegs s s := rfl
theorem BesideRegs.setReg (h : BesideRegs s t) (a : Nat) (v : Word) : BesideRegs s (t.setReg a v) := by
  unfold BesideRegs at h ⊢
  exact congrArg (fun u : State => { u with regs := (t.setReg a v).regs }) h
theorem BesideRegs.setBit (h : BesideRegs s t) (a i : Nat) (b : Bool) : BesideRegs s (t.setBit a i b) := h.setReg a _

theorem raise_onBus (s : State) (src : Nat) {cls : Nat} (cause : Nat) (h : cls ≤ 1) : s.raise src cls cause = s.onBus (s.newEvent src cls cause 0 []) :=
  if_pos h

/-- From `s` to `t` nothing but registers, counters and the faults and events under way has changed. -/
def BesideNoted (s t : State) : Prop := t = { s with regs := t.regs, cnts := t.cnts, flt := t.flt }

theorem BesideNoted.refl (s : State) : BesideNoted s s := rfl
theorem BesideNoted.setReg (h : BesideNoted s t) (a : Nat) (v : Word) : BesideNoted s (t.setReg a v) := by
  unfold BesideNoted at h ⊢
  exact congrArg (fun u : State => { u with regs := (t.setReg a v).regs }) h
theorem BesideNoted.setBit (h : BesideNoted s t) (a i : Nat) (b : Bool) : BesideNoted s (t.setBit a i b) := h.setReg a _
theorem BesideNoted.bump (h : BesideNoted s t) (a : Nat) : BesideNoted s (t.bump a) := by
  unfold BesideNoted at h ⊢
  exact congrArg (fun u : State => { u with cnts := (t.bump a).cnts }) h
/-- An event of class F0 or F1 goes onto the event bus (R384, R399). -/
theorem BesideNoted.raise (h : BesideNoted s t) (src : Nat) {cls : Nat} (cause : Nat) (hcls : cls ≤ 1) :
    BesideNoted s (t.raise src cls cause) := by
  rw [raise_onBus t src cause hcls]
  unfold BesideNoted at h ⊢
  exact congrArg (fun u : State => { u with flt := (t.onBus (t.newEvent src cls cause 0 [])).flt }) h

theorem raise_flt (s : State) (src : Nat) {cls : Nat} (cause : Nat) (h : cls ≤ 1) :
    ∃ e, (s.raise src cls cause).flt = { s.flt with bus := s.flt.bus ++ [e] } ∧ e.src = src ∧ e.cls = cls ∧ e.cause = cause :=
  ⟨_, by rw [raise_onBus s src cause h]; rfl, rfl, rfl, rfl⟩

@[simp] theorem reg_raise (s : State) (src cls cause a : Nat) : (s.raise src cls cause).reg a = s.reg a := by
  rw [State.reg, State.raise_regs, State.reg]
@[simp] theorem bit_raise (s : State) (src cls cause a i : Nat) : (s.raise src cls cause).bit a i = s.bit a i := by
  rw [State.bit, reg_raise, State.bit]
@[simp] theorem count_raise (s : State) (src cls cause a : Nat) : (s.raise src cls cause).count a = s.count a := by
  rw [State.count, State.raise_cnts, State.count]

end Sys2Proof.Machine
end

section
/-!
The steering of the device time (R270 to R273): rate, steps, servo updates, holdover and their owner.
-/
namespace Sys2Proof.Machine

variable {w : Who} {s t : State} {d v : Word} {off : Int}

/-! ## What the commands are -/

theorem exec_rateWrite (w : Who) (d : Word) (s : State) : exec (.rateWrite w d) s = access w true s (regWrite w (timeReg 0x10) d s) := rfl
theorem exec_stepApply (s : State) : exec .stepApply s = .next s.stepApply := rfl
theorem exec_holdoverEntry (s : State) : exec .holdoverEntry s = .next s.enterHoldover := rfl

/-! ## Writes of the servo registers (R269, R271 to R273) -/

theorem timeWrite_notOwner {o : Nat} (ho : isServoReg o = true) (h : s.servoOwner w none = false) : timeWrite s w none o d = .err s := by
  rw [timeWrite, if_pos ho, h]
  rfl

/-- What the time base answers to the owner's write of a servo register. -/
theorem timeWrite_owner {o : Nat} (ho : isServoReg o = true) (h : s.servoOwner w none = true) : timeWrite s w none o d =
    if o = 0x10 then WRes.unless (decide (-4294967 ≤ signed d.toNat 32 ∧ signed d.toNat 32 ≤ 4294967)) s .plain
    else if o = 0x20 then WRes.unless (decide (fieldOf d 0 30 ≤ 999999999)) s .plain
    else if o = 0x24 then (if bitOf d 0 then s.stepRequest else .done s)
    else if o = 0x34 then .done (if bitOf d 0 then s.servoUpdate else s)
    else .plain := by
  rw [timeWrite, if_pos ho, h]
  rfl

theorem timeWrite_rate_inRange (h : s.servoOwner w none = true) (hr : -4294967 ≤ signed d.toNat 32 ∧ signed d.toNat 32 ≤ 4294967) :
    timeWrite s w none 0x10 d = .plain := by
  rw [timeWrite_owner rfl h, if_pos rfl, decide_eq_true hr]
  rfl

theorem timeWrite_rate_outOfRange (h : s.servoOwner w none = true) (hr : ¬ (-4294967 ≤ signed d.toNat 32 ∧ signed d.toNat 32 ≤ 4294967)) :
    timeWrite s w none 0x10 d = .err s := by
  rw [timeWrite_owner rfl h, if_pos rfl, decide_eq_false hr]
  rfl

theorem timeWrite_stepGo (h : s.servoOwner w none = true) (hd : bitOf d 0 = true) : timeWrite s w none 0x24 d = s.stepRequest := by
  rw [timeWrite_owner rfl h, hd]
  rfl

theorem timeWrite_servoUpd (h : s.servoOwner w none = true) (hd : bitOf d 0 = true) : timeWrite s w none 0x34 d = .done s.servoUpdate := by
  rw [timeWrite_owner rfl h, hd]
  rfl

theorem timeWrite_ownerReg (s : State) (w : Who) (d : Word) : timeWrite s w none 0x30 d =
    WRes.unless (isMcp w && decide (fieldOf d 0 6 ≤ 0x21 ∨ fieldOf d 0 6 = 0x3F)) s (.done (s.ownerChanged d)) := rfl

theorem stepRequest_free (h : s.tb.step = none) :
    s.stepRequest = .done ({ s with tb := { s.tb with step := some s.stepOffset } }.setBit (tickReg 8) 2 true) := by
  rw [State.stepRequest, h]
  rfl

theorem stepRequest_pending (h : s.tb.step ≠ none) : s.stepRequest = .err s := if_pos (Option.isSome_iff_ne_none.2 h)

theorem isMcp_of_isHost (h : isHost w = true) : isMcp w = false := by
  rw [isHost, beq_iff_eq] at h
  rw [isMcp, h]
  rfl

/-! ## A step of the time (R271) -/

/-- The step that waits is taken out, and STEP_PEND shows none. -/
def State.stepTaken (s : State) : State := { s with tb := { s.tb with step := none } }.setBit (tickReg 8) 2 false

/-- The time, the timed actions of motions and the ends of pulses are moved by an offset. -/
def State.timeMoved (s : State) (off : Int) : State :=
  { s with
    time := (Int.ofNat s.ns + off).toNat * nsUnit + fracOf s.time, pch := { s.pch with chans := s.actionsMoved off },
    trav := { s.trav with skew := s.trav.skew + off },
    tb := { s.tb with ppsEnd := s.tb.ppsEnd.map (fun (o, e) => (o, (Int.ofNat e + off).toNat)) } }

theorem stepTime_rejected (hs : s.tb.step = some off) (hneg : Int.ofNat s.ns + off < 0) : s.stepTime = s.stepTaken.setBit timeSticky 3 true := by
  rw [State.stepTime, hs]
  exact if_pos (decide_eq_true hneg)

theorem stepTime_applied (hs : s.tb.step = some off) (hpos : 0 ≤ Int.ofNat s.ns + off) :
    s.stepTime = (((s.stepTaken.timeMoved off).bump (timeReg 0x100)).ppsPass 0).ppsPass 1 := by
  have hneg : ¬ s.stepNegative off = true := by simpa [State.stepNegative] using hpos
  rw [State.stepTime, hs]
  exact if_neg hneg

theorem stepApply_idle (h : s.running = true ∨ s.tb.step = none) : s.stepApply = s := by
  rw [State.stepApply]
  rcases h with h | h
  · rw [h]
  · rw [h]
    cases s.running <;> rfl

theorem stepApply_rejected (hr : s.running = false) (hs : s.tb.step = some off) (hneg : Int.ofNat s.ns + off < 0) :
    s.stepApply = s.stepTaken.setBit timeSticky 3 true := by
  rw [State.stepApply, hr, hs, ← stepTime_rejected hs hneg]
  exact if_pos (decide_eq_true hneg)

/-- Choosing the first boundary again changes the tick generator alone. -/
theorem replan_tick (s : State) : ∃ x, s.replan = { s with tick := x } := by
  unfold State.replan
  split
  · exact ⟨_, rfl⟩
  · exact ⟨s.tick, rfl⟩

/-- Passing over grid instants changes those of the PPS output alone. -/
theorem ppsPass_at (s : State) (o : Nat) : ∃ y, s.ppsPass o = { s with tb := { s.tb with ppsAt := y } } := ⟨_, rfl⟩

/-- While no ticks run, the step is applied and counted; the tick generator and the PPS outputs look at the grid again (R34, R288). -/
theorem stepApply_applied (hr : s.running = false) (hs : s.tb.step = some off) (hpos : 0 ≤ Int.ofNat s.ns + off) :
    ∃ x y, s.stepApply = { (s.stepTaken.timeMoved off).bump (timeReg 0x100) with
      tick := x, tb := { (s.stepTaken.timeMoved off).tb with ppsAt := y } } := by
  have hneg : ¬ s.stepNegative off = true := by simpa [State.stepNegative] using hpos
  have happly : s.stepApply = s.stepTime.replan := by
    rw [State.stepApply, hr, hs]
    exact if_neg hneg
  obtain ⟨y, hy⟩ := ppsPass_at ((s.stepTaken.timeMoved off).bump (timeReg 0x100)) 0
  obtain ⟨z, hz⟩ := ppsPass_at (((s.stepTaken.timeMoved off).bump (timeReg 0x100)).ppsPass 0) 1
  obtain ⟨x, hx⟩ := replan_tick s.stepTime
  refine ⟨x, z, ?_⟩
  rw [happly, hx, stepTime_applied hs hpos, hz, hy]
  rfl

theorem ns_timeMoved (hpos : 0 ≤ Int.ofNat s.ns + off) : Int.ofNat (s.timeMoved off).ns = Int.ofNat s.ns + off := by
  have hfrac : fracOf s.time < nsUnit := Nat.mod_lt _ (by decide)
  have hns : (s.timeMoved off).ns = (Int.ofNat s.ns + off).toNat := by
    rw [State.ns, State.timeMoved, Nat.mul_comm, Nat.mul_add_div (by decide), Nat.div_eq_of_lt hfrac, Nat.add_zero]
  rw [hns]
  exact Int.toNat_of_nonneg hpos

theorem frac_timeMoved (s : State) (off : Int) : fracOf (s.timeMoved off).time = fracOf s.time := by
  rw [fracOf, State.timeMoved, Nat.mul_comm, Nat.mul_add_mod, fracOf, Nat.mod_mod]

/-! ## Servo updates and holdover (R273) -/

/-- The time of the update is shown, and STATUS shows neither HOLDOVER nor NO_UPD. -/
def State.updateShown (s : State) : State :=
  (((s.setReg (timeReg 0x50) (word (nsOf s.time))).setReg (timeReg 0x54) (word (secOf s.time))).setBit timeStatus 0 false).setBit timeStatus 1 false

theorem updateShown_beside (s : State) : BesideRegs s s.updateShown :=
  ((((BesideRegs.refl s).setReg _ _).setReg _ _).setBit _ _ _).setBit _ _ _

theorem servoUpdate_eq (s : State) : s.servoUpdate =
    { s with regs := s.updateShown.regs, tb := { s.tb with holdFrom := s.cyc, everUpd := true } } :=
  congrArg (fun u : State => { u with tb := { u.tb with holdFrom := u.cyc, everUpd := true } }) (updateShown_beside s)

theorem reg_updateShown_other {a : Nat} (hns : a ≠ timeReg 0x50) (hsec : a ≠ timeReg 0x54) (hstatus : a ≠ timeStatus) :
    s.updateShown.reg a = s.reg a := by
  rw [State.updateShown, State.reg_setBit_other _ _ _ hstatus, State.reg_setBit_other _ _ _ hstatus, State.reg_setReg_other _ _ hsec,
    State.reg_setReg_other _ _ hns]

theorem reg_updateShown_ns (s : State) : s.updateShown.reg (timeReg 0x50) = word (nsOf s.time) := by
  rw [State.updateShown, State.reg_setBit_other _ _ _ (by decide), State.reg_setBit_other _ _ _ (by decide), State.reg_setReg_other _ _ (by decide),
    State.reg_setReg_same]

theorem reg_updateShown_sec (s : State) : s.updateShown.reg (timeReg 0x54) = word (secOf s.time) := by
  rw [State.updateShown, State.reg_setBit_other _ _ _ (by decide), State.reg_setBit_other _ _ _ (by decide), State.reg_setReg_same]

theorem bit_updateShown_holdover (s : State) : s.updateShown.bit timeStatus 0 = false :=
  (State.bit_setBit_apart _ _ _ _ _ (by decide) (by decide)).trans (State.bit_setBit_same _ _ _ _ (by decide))

theorem bit_updateShown_noUpd (s : State) : s.updateShown.bit timeStatus 1 = false := State.bit_setBit_same _ _ _ _ (by decide)

/-- The new OWNER, and NO_UPD. -/
def State.ownerShown (s : State) (d : Word) : State := (s.setReg (timeReg 0x30) (word (fieldOf d 0 6))).setBit timeStatus 1 true

theorem ownerChanged_eq (s : State) (d : Word) : s.ownerChanged d =
    { s with regs := (s.ownerShown d).regs, tb := { s.tb with holdFrom := s.cyc } } :=
  congrArg (fun u : State => { u with tb := { u.tb with holdFrom := u.cyc } }) (((BesideRegs.refl s).setReg _ _).setBit _ _ _)

theorem reg_ownerShown (s : State) (d : Word) : (s.ownerShown d).reg (timeReg 0x30) = word (fieldOf d 0 6) := by
  rw [State.ownerShown, State.reg_setBit_other _ _ _ (by decide), State.reg_setReg_same]

theorem reg_ownerShown_other {a : Nat} (howner : a ≠ timeReg 0x30) (hstatus : a ≠ timeStatus) : (s.ownerShown d).reg a = s.reg a := by
  rw [State.ownerShown, State.reg_setBit_other _ _ _ hstatus, State.reg_setReg_other _ _ howner]

theorem enterHoldover_entered (hhold : s.bit timeStatus 0 = false) (hupd : s.tb.everUpd = true) (hage : s.fld (timeReg 0x38) 0 16 ≤ s.holdAge) :
    s.enterHoldover = (((s.setBit timeStatus 0 true).setBit timeSticky 0 true).bump (timeReg 0x108)).raise 0x61 0 0 :=
  if_pos (by simp [hhold, hupd, hage])

theorem enterHoldover_idle (h : s.bit timeStatus 0 = true ∨ s.tb.everUpd = false ∨ s.holdAge < s.fld (timeReg 0x38) 0 16) :
    s.enterHoldover = s := by
  refine if_neg ?_
  rcases h with h | h | h
  · simp [h]
  · simp [h]
  · simp [Nat.not_le.2 h]

end Sys2Proof.Machine

open Sys2Proof Sys2Proof.Machine

/-- Settles O44, clause by clause: what the time base answers to each write and read, and what a step and an entry into holdover leave. -/
theorem timeIsSteered : Obligations.TimeIsSteered := by
  unfold Obligations.TimeIsSteered
  refine ⟨?rate, ?range, ?stranger, ?request, ?pending, ?applied, ?rejected, ?idle, ?now, ?update, ?holdover, ?noHoldover, ?owner, ?ownerRefused⟩
  case rate =>
    intro w s d h howner hlo hhi
    have hall : (s.reg (timeReg 0x10) &&& ~~~(word (bits 31 0))) ||| (d &&& word (bits 31 0)) = d := by
      rw [show word (bits 31 0) = BitVec.allOnes 32 by decide, BitVec.not_allOnes, BitVec.and_zero, BitVec.zero_or, BitVec.and_allOnes]
    rw [exec_rateWrite, timeAccess_plain h (by decide) rfl (timeWrite_rate_inRange howner ⟨hlo, hhi⟩) (rw := bits 31 0) (r := 0) (by decide), hall]
  case range =>
    intro w s d h howner hout
    exact timeAccess_refused h (by decide) rfl (timeWrite_rate_outOfRange howner (by omega))
  case stranger =>
    intro w s d h howner
    exact ⟨timeAccess_refused h (by decide) rfl (timeWrite_notOwner rfl howner),
      timeAccess_refused h (by decide) rfl (timeWrite_notOwner rfl howner), timeAccess_refused h (by decide) rfl (timeWrite_notOwner rfl howner)⟩
  case request =>
    intro w s d h howner hd hfree
    exact timeAccess_done h (by decide) rfl ((timeWrite_stepGo howner hd).trans (stepRequest_free hfree))
  case pending =>
    intro w s d h howner hd hpend
    exact timeAccess_refused h (by decide) rfl ((timeWrite_stepGo howner hd).trans (stepRequest_pending hpend))
  case applied =>
    intro s off hr hs hpos
    obtain ⟨x, y, happly⟩ := stepApply_applied hr hs hpos
    refine ⟨_, (exec_stepApply s).trans (congrArg _ happly), ns_timeMoved (s := s.stepTaken) hpos, frac_timeMoved s.stepTaken off, rfl, ?_, rfl,
      State.count_bump_same (s.stepTaken.timeMoved off) _, fun a ha => ?_, rfl⟩
    · exact State.bit_setBit_same { s with tb := { s.tb with step := none } } (tickReg 8) 2 false (by decide)
    · exact State.count_bump_other (s.stepTaken.timeMoved off) (by simpa using ha)
  case rejected =>
    intro s off hr hs hneg
    refine ⟨_, (exec_stepApply s).trans (congrArg _ (stepApply_rejected hr hs hneg)), rfl, State.bit_setBit_same _ _ _ _ (by decide), ?_, ?_, rfl⟩
    · rw [State.bit_setBit_other _ _ _ _ (by decide)]
      exact State.bit_setBit_same _ _ _ _ (by decide)
    · intro a ha
      obtain ⟨hsticky, hstatus⟩ : a ≠ timeSticky ∧ a ≠ tickReg 8 := by simpa using ha
      exact (State.reg_setBit_other _ _ _ hsticky).trans (State.reg_setBit_other _ _ _ hstatus)
  case idle =>
    intro s h
    rw [exec_stepApply, stepApply_idle h]
  case now =>
    intro w s h
    exact timeQuery_val h (by decide) rfl rfl
  case update =>
    intro w s d h howner hd
    refine ⟨_, timeAccess_done h (by decide) rfl ((timeWrite_servoUpd howner hd).trans (congrArg _ (servoUpdate_eq s))), reg_updateShown_ns s,
      reg_updateShown_sec s, bit_updateShown_holdover s, bit_updateShown_noUpd s, rfl, fun a ha => ?_, rfl⟩
    obtain ⟨hns, hsec, hstatus⟩ : a ≠ timeReg 0x50 ∧ a ≠ timeReg 0x54 ∧ a ≠ timeStatus := by simpa using ha
    exact reg_updateShown_other hns hsec hstatus
  case holdover =>
    intro s hhold hupd hage
    have hbeside := ((((BesideNoted.refl s).setBit timeStatus 0 true).setBit timeSticky 0 true).bump (timeReg 0x108)).raise 0x61 0 (Nat.zero_le 1)
    obtain ⟨e, hflt, he⟩ := raise_flt (((s.setBit timeStatus 0 true).setBit timeSticky 0 true).bump (timeReg 0x108)) 0x61 0 (Nat.zero_le 1)
    refine ⟨_, (exec_holdoverEntry s).trans (congrArg _ (enterHoldover_entered hhold hupd hage)), ?_, ?_, ?_, ⟨e, by simpa using hflt, he⟩,
      fun a ha => ?_, hbeside⟩
    · rw [bit_raise, State.bit_bump, State.bit_setBit_other _ _ _ _ (by decide), State.bit_setBit_same _ _ _ _ (by decide)]
    · rw [bit_raise, State.bit_bump, State.bit_setBit_same _ _ _ _ (by decide)]
    · rw [count_raise, State.count_bump_same]
      rfl
    · obtain ⟨hstatus, hsticky⟩ : a ≠ timeStatus ∧ a ≠ timeSticky := by simpa using ha
      rw [reg_raise, State.reg_bump, State.reg_setBit_other _ _ _ hsticky, State.reg_setBit_other _ _ _ hstatus]
  case noHoldover =>
    intro s h
    rw [exec_holdoverEntry, enterHoldover_idle h]
  case owner =>
    intro w s d hw hd
    have hok : (isMcp w && decide (fieldOf d 0 6 ≤ 0x21 ∨ fieldOf d 0 6 = 0x3F)) = true := by rw [hw.isMcp, decide_eq_true hd, Bool.and_true]
    have hdone : timeWrite s w none 0x30 d = .done (s.ownerChanged d) := by rw [timeWrite_ownerReg, hok, WRes.unless, if_pos rfl]
    refine ⟨_, timeAccess_done hw.admitted (by decide) rfl (hdone.trans (congrArg _ (ownerChanged_eq s d))), reg_ownerShown s d,
      State.bit_setBit_same (s.setReg (timeReg 0x30) (word (fieldOf d 0 6))) _ _ _ (by decide), rfl, fun a ha => ?_, rfl⟩
    obtain ⟨howner, hstatus⟩ : a ≠ timeReg 0x30 ∧ a ≠ timeStatus := by simpa using ha
    exact reg_ownerShown_other howner hstatus
  case ownerRefused =>
    intro w s d h hd
    refine timeAccess_refused h (by decide) rfl ?_
    rw [timeWrite_ownerReg, WRes.unless, if_neg]
    rcases hd with hd | ⟨hlo, hhi⟩
    · simp [isMcp_of_isHost hd]
    · simp [hhi, Nat.not_le.2 hlo]
end

section
/-!
Stamps, launch entries and PPS pins (R276, R280, R283 to R289).
-/
namespace Sys2Proof.Machine

variable {w : Who} {s t : State} {d v : Word} {p i n q o x : Nat} {r : Bool}

/-! ## What the commands are -/

theorem exec_txtsInfoRead (hp : p < 40) (w : Who) (s : State) :
    exec (.txtsInfoRead w p) s = query w true s (regRead w (timeReg (0x10010 + 0x100 * p)) s) := by
  have he : exec (.txtsInfoRead w p) s = query w (isPort p) s (regRead w (timeReg (0x10010 + 0x100 * p)) s) := rfl
  rw [he, isPort, decide_eq_true hp]

theorem exec_capInfoRead (hi : i < 2) (w : Who) (s : State) :
    exec (.capInfoRead w i) s = query w true s (regRead w (timeReg (0x504 + 0x40 * i)) s) := by
  have he : exec (.capInfoRead w i) s = query w (isPps i) s (regRead w (timeReg (0x504 + 0x40 * i)) s) := rfl
  rw [he, isPps, decide_eq_true hi]

theorem exec_launchArm (hn : n < 1024) (w : Who) (d : Word) (s : State) :
    exec (.launchArm w n d) s = access w true s (regWrite w (launchAddr n) d s) := by
  have he : exec (.launchArm w n d) s = access w (isLaunch n) s (regWrite w (launchAddr n) d s) := rfl
  rw [he, isLaunch, decide_eq_true hn]

theorem exec_lqModeWrite (hq : q < 320) (w : Who) (d : Word) (s : State) :
    exec (.lqModeWrite w q d) s = access w true s (regWrite w (lqAddr q) d s) := by
  have he : exec (.lqModeWrite w q d) s = access w (isLaunchQueue q) s (regWrite w (lqAddr q) d s) := rfl
  rw [he, isLaunchQueue, decide_eq_true hq]

theorem exec_gateWindowOpen (hn : n < 1024) (s : State) : exec (.gateWindowOpen n) s = .next (s.gateOpen n) := by
  have he : exec (.gateWindowOpen n) s = event (isLaunch n) s (s.gateOpen n) := rfl
  rw [he, isLaunch, decide_eq_true hn, event_true]

theorem exec_gateWindowClose (hn : n < 1024) (s : State) : exec (.gateWindowClose n) s = .next (s.gateClose n) := by
  have he : exec (.gateWindowClose n) s = event (isLaunch n) s (s.gateClose n) := rfl
  rw [he, isLaunch, decide_eq_true hn, event_true]

theorem exec_launchOnceEligible (hn : n < 1024) (s : State) : exec (.launchOnceEligible n) s = .next (s.onceEligible n) := by
  have he : exec (.launchOnceEligible n) s = event (isLaunch n) s (s.onceEligible n) := rfl
  rw [he, isLaunch, decide_eq_true hn, event_true]

theorem exec_ppsOutPulse (ho : o < 2) (s : State) : exec (.ppsOutPulse o) s = .next (s.ppsPulse o) := by
  have he : exec (.ppsOutPulse o) s = event (isPps o) s (s.ppsPulse o) := rfl
  rw [he, isPps, decide_eq_true ho, event_true]

theorem exec_ppsOutPulseEnd (ho : o < 2) (s : State) : exec (.ppsOutPulseEnd o) s = .next (s.ppsPulseEnd o) := by
  have he : exec (.ppsOutPulseEnd o) s = event (isPps o) s (s.ppsPulseEnd o) := rfl
  rw [he, isPps, decide_eq_true ho, event_true]

theorem exec_ppsInCapture (hi : i < 2) (r : Bool) (s : State) : exec (.ppsInCapture i r) s = .next (s.ppsCapture i r) := by
  have he : exec (.ppsInCapture i r) s = event (isPps i) s (s.ppsCapture i r) := rfl
  rw [he, isPps, decide_eq_true hi, event_true]

/-! ## The stamp and capture queues (R280, R289) -/

theorem timeRead_txtsInfo (hp : p < 40) (s : State) (w : Who) :
    timeRead s w (0x10010 + 0x100 * p) = .val (s.txtsPop w p).1 (s.txtsPop w p).2 := by
  have hport : (0x10010 + 0x100 * p - 0x10000) / 0x100 = p := by omega
  have hoff : (0x10010 + 0x100 * p - 0x10000) % 0x100 = 0x10 := by omega
  unfold timeRead
  iterate 6 rw [if_neg (by omega)]
  rw [if_pos (by omega), hport, hoff]
  rfl

theorem timeRead_capInfo (hi : i < 2) (s : State) (w : Who) : timeRead s w (0x504 + 0x40 * i) = .val (s.capPop w i).1 (s.capPop w i).2 := by
  have hinput : (0x504 + 0x40 * i - 0x500) / 0x40 = i := by omega
  have hoff : (0x504 + 0x40 * i - 0x500) % 0x40 = 4 := by omega
  unfold timeRead
  iterate 5 rw [if_neg (by omega)]
  rw [if_pos (by omega), hinput, hoff]
  rfl

theorem txtsInfoRead_pop (h : Admitted w s) (hp : p < 40) :
    exec (.txtsInfoRead w p) s = .next (answered (s.txtsPop w p).1 (s.txtsPop w p).2) :=
  (exec_txtsInfoRead hp w s).trans (timeQuery_val h (by omega) (by omega) (timeRead_txtsInfo hp s w))

theorem capInfoRead_pop (h : Admitted w s) (hi : i < 2) : exec (.capInfoRead w i) s = .next (answered (s.capPop w i).1 (s.capPop w i).2) :=
  (exec_capInfoRead hi w s).trans (timeQuery_val h (by omega) (by omega) (timeRead_capInfo hi s w))

/-! ## Launch entries (R284 to R287) -/

theorem timeWrite_launchCfg (hn : n < 1024) (s : State) (w : Who) (d : Word) :
    timeWrite s w none (0x20000 + 0x20 * n) d = s.launchWrite n 0 d false := by
  have hentry : (0x20000 + 0x20 * n - 0x20000) / 0x20 = n := by omega
  have hoff : (0x20000 + 0x20 * n - 0x20000) % 0x20 = 0 := by omega
  have hservo : ¬ isServoReg (0x20000 + 0x20 * n) = true := by
    simp [isServoReg]
    omega
  unfold timeWrite
  rw [if_neg hservo]
  iterate 4 rw [if_neg (by omega)]
  rw [if_pos (by omega), hentry, hoff]
  rfl

section
variable (h : Admitted w s) (hn : n < 1024)
include h hn

theorem launchArm_done (hr : s.launchWrite n 0 d false = .done t) : exec (.launchArm w n d) s = .next (acked t) :=
  (exec_launchArm hn w d s).trans (timeAccess_done h (by omega) (by omega) ((timeWrite_launchCfg hn s w d).trans hr))

theorem launchArm_refused (hr : s.launchWrite n 0 d false = .err s) :
    exec (.launchArm w n d) s = .next (refusedWrite (s.masterError w (launchAddr n) true)) :=
  (exec_launchArm hn w d s).trans (timeAccess_refused h (by omega) (by omega) ((timeWrite_launchCfg hn s w d).trans hr))
end

theorem timeWrite_lq (hq : q < 320) (s : State) (w : Who) (d : Word) :
    timeWrite s w none (0x30000 + 4 * q) d = WRes.unless (decide (fieldOf d 0 2 ≠ 3)) s .plain := by
  have hservo : ¬ isServoReg (0x30000 + 4 * q) = true := by
    simp [isServoReg]
    omega
  unfold timeWrite
  rw [if_neg hservo]
  iterate 5 rw [if_neg (by omega)]
  rw [if_pos (by omega)]

/-- CFG of a launch entry as a write leaves it (R6). -/
def launchCfg (old d : Word) : Word := (old &&& ~~~(word 0x1FF0F)) ||| (d &&& word 0x1FF0F)

section
variable (hq : fieldOf d 8 9 ≤ 319)
include hq

theorem launchWrite_arms (hd : bitOf d 0 = true)
    (hlen : (s.reg (launchAddr n + 0x10)).toNat = 0 ∨ (s.reg (launchAddr n + 0x0C)).toNat ≤ (s.reg (launchAddr n + 0x10)).toNat) :
    s.launchWrite n 0 d false = .done { s.setReg (launchAddr n) (launchCfg (s.reg (launchAddr n)) d) with
      sw := { s.sw with onceLate := Tab.set (fun _ => false) s.sw.onceLate n false } } := by
  unfold State.launchWrite
  dsimp only
  rw [if_pos rfl, if_neg (by omega), plainWord_no_w1c, if_pos hd]
  rfl

theorem launchWrite_disarms (hd : bitOf d 0 = false) :
    s.launchWrite n 0 d false = .done ((s.setReg (launchAddr n) (launchCfg (s.reg (launchAddr n)) d)).setBit (launchAddr n + 0x18) 0 false) := by
  unfold State.launchWrite
  dsimp only
  rw [if_pos rfl, if_neg (by simp [hd]; omega), plainWord_no_w1c, if_neg (by simp [hd])]
  rfl
end

theorem launchWrite_noQueue (hq : 319 < fieldOf d 8 9) : s.launchWrite n 0 d false = .err s := by
  unfold State.launchWrite
  dsimp only
  rw [if_pos rfl, if_pos (.inl hq)]

/-! ## Launch modes (R283) -/

theorem cellAt_lq (hq : q < 320) : cellAt (lqAddr q) = some (.word 3 0 0) := by
  have hblock : blockOf (lqAddr q) = some (.time, 0x30000 + 4 * q) := blockOf_time (by omega)
  have hrow (at0 : Nat) : rowsCell at0 ((0x30000 + 4 * q - 0x30000) % 4) [rw "LQ" 0 3] = some (.word 3 0 0) := by
    rw [show (0x30000 + 4 * q - 0x30000) % 4 = 0 by omega]
    rfl
  unfold cellAt
  rw [hblock]
  dsimp only [mapOf]
  rw [timeMap]
  iterate 5 rw [regionsCell_skip (by dsimp only; omega)]
  exact regionsCell_inside (by dsimp only; omega) (by dsimp only; omega) hrow

/-- The RW bits of a word, below a width, read as written. -/
theorem fieldOf_stored (x d : Word) {len : Nat} (h : len ≤ 32) :
    fieldOf ((x &&& ~~~(word (2 ^ len - 1))) ||| (d &&& word (2 ^ len - 1))) 0 len = fieldOf d 0 len := by
  unfold fieldOf bitsOf word
  refine Nat.eq_of_testBit_eq fun j => ?_
  simp only [Nat.testBit_mod_two_pow, Nat.pow_zero, Nat.div_one, BitVec.testBit_toNat]
  by_cases hj : j < len
  · have hmask : (BitVec.ofNat 32 (2 ^ len - 1)).getLsbD j = true := by
      rw [BitVec.getLsbD_ofNat, Nat.testBit_two_pow_sub_one, decide_eq_true hj, decide_eq_true (by omega)]
      rfl
    simp [hmask]
  · simp [hj]

/-- MODE of queue q as a write leaves it. -/
def State.lqStored (s : State) (q : Nat) (d : Word) : State := s.setReg (lqAddr q) ((s.reg (lqAddr q) &&& ~~~(word 3)) ||| (d &&& word 3))

theorem lqMode_lqStored (hq : q < 320) (s : State) (d : Word) : (s.lqStored q d).lqMode q = fieldOf d 0 2 := by
  rw [State.lqMode, if_pos hq, State.fld, State.lqStored, State.reg_setReg_same]
  exact fieldOf_stored _ d (len := 2) (by decide)

theorem lqModeWrite_stored (h : Admitted w s) (hq : q < 320) (hd : fieldOf d 0 2 ≠ 3) :
    exec (.lqModeWrite w q d) s = .next (acked (s.lqStored q d)) := by
  have hplain : timeWrite s w none (0x30000 + 4 * q) d = .plain := by
    rw [timeWrite_lq hq, decide_eq_true hd]
    rfl
  exact (exec_lqModeWrite hq w d s).trans (timeAccess_plain h (by omega) (by omega) hplain (cellAt_lq hq))

theorem lqModeWrite_reserved (h : Admitted w s) (hq : q < 320) (hd : fieldOf d 0 2 = 3) :
    exec (.lqModeWrite w q d) s = .next (refusedWrite (s.masterError w (lqAddr q) true)) := by
  have herr : timeWrite s w none (0x30000 + 4 * q) d = .err s := by
    rw [timeWrite_lq hq, hd]
    rfl
  exact (exec_lqModeWrite hq w d s).trans (timeAccess_refused h (by omega) (by omega) herr)

/-! ## Late entries (R286) -/

/-- How far the device time, and 8 bytes on the wire of queue q's port, is past X of entry n. -/
def State.pastLaunch (s : State) (q n : Nat) : Nat := (s.ns % trigSpan + bytesNs (s.linkSpeed (q / 8)) 8 + trigSpan - s.launchX n) % trigSpan

theorem onceIsLate_of_past (htol : (s.reg (launchAddr n + 0x14)).toNat < s.pastLaunch q n) (hpast : s.pastLaunch q n < trigSpan / 2)
    (hfirst : Tab.get (fun _ => false) s.sw.onceLate n = false) : s.onceIsLate q n = true := by
  have hlate := decide_eq_true htol
  have hreached := decide_eq_true hpast
  rw [State.pastLaunch] at hlate hreached
  simp only [State.onceIsLate, hlate, hreached, hfirst, Bool.not_false, Bool.and_self]

theorem onceIsLate_inTime (htol : s.pastLaunch q n ≤ (s.reg (launchAddr n + 0x14)).toNat) : s.onceIsLate q n = false := by
  have hlate := decide_eq_false (Nat.not_lt.2 htol)
  rw [State.pastLaunch] at hlate
  simp only [State.onceIsLate, hlate, Bool.and_false, Bool.false_and]

/-- A late entry without LATE_DROP is noted, and its head stays. -/
theorem lateHeads_late (hmode : s.lqMode q = 2) (hhead : s.queue q ≠ []) (hentry : s.onceEntry q = some n) (hlate : s.onceIsLate q n = true)
    (hdrop : s.bit (launchAddr n) 3 = false) (k : Nat) : s.lateHeads q (k + 1) = s.noteLate n := by
  have hjudged : ¬ (s.lqMode q ≠ 2 ∨ (s.queue q).isEmpty = true) := by simp [hmode, hhead]
  refine (if_neg hjudged).trans ?_
  generalize s.onceEntry q = first at hentry ⊢
  subst hentry
  dsimp only
  rw [hlate, hdrop]
  rfl

theorem lateHeads_inTime (hentry : s.onceEntry q = some n) (hlate : s.onceIsLate q n = false) (k : Nat) : s.lateHeads q k = s := by
  cases k with
  | zero => rfl
  | succ k =>
    by_cases hjudged : s.lqMode q ≠ 2 ∨ (s.queue q).isEmpty = true
    · exact if_pos hjudged
    · refine (if_neg hjudged).trans ?_
      generalize s.onceEntry q = first at hentry ⊢
      subst hentry
      dsimp only
      rw [hlate]
      rfl

theorem lateCheck_late (hmode : s.lqMode q = 2) (hhead : s.queue q ≠ []) (hentry : s.onceEntry q = some n) (hlate : s.onceIsLate q n = true)
    (hdrop : s.bit (launchAddr n) 3 = false) : s.lateCheck q = s.noteLate n := by
  obtain ⟨k, hk⟩ := Nat.exists_eq_succ_of_ne_zero (mt List.length_eq_zero_iff.1 hhead)
  rw [State.lateCheck, hk]
  exact lateHeads_late hmode hhead hentry hlate hdrop k

/-- An enabled ONCE entry that comes first for its queue is judged (R285, R286). -/
theorem onceEligible_judges (hq : q = s.fld (launchAddr n) 8 9) (hen : s.bit (launchAddr n) 0 = true) (hkind : s.bit (launchAddr n) 1 = false)
    (hentry : s.onceEntry q = some n) : s.onceEligible n = s.lateCheck q := by
  subst hq
  refine if_pos ?_
  rw [hen, hkind, hentry]
  exact beq_self_eq_true _

theorem onceEligible_idle (hq : q = s.fld (launchAddr n) 8 9)
    (h : s.bit (launchAddr n) 0 = false ∨ s.bit (launchAddr n) 1 = true ∨ s.queue q = [] ∨ s.onceIsLate q n = false) : s.onceEligible n = s := by
  subst hq
  unfold State.onceEligible
  dsimp only
  split
  · next hjudged =>
    obtain ⟨⟨hen, hkind⟩, hentry⟩ : (s.bit (launchAddr n) 0 = true ∧ s.bit (launchAddr n) 1 = false) ∧
      s.onceEntry (s.fld (launchAddr n) 8 9) = some n := by simpa using hjudged
    rcases h with h | h | hnone | hlate
    · simp [hen] at h
    · simp [hkind] at h
    · rw [State.lateCheck, hnone]
      rfl
    · exact lateHeads_inTime hentry hlate _
  · rfl

/-- STAT.LATE, LAUNCH_LATE and its count. -/
def State.lateShown (s : State) (n : Nat) : State := ((s.setBit (launchAddr n + 0x18) 2 true).setBit timeSticky 4 true).bump (timeReg 0x120)

theorem lateShown_eq (s : State) (n : Nat) : s.lateShown n = { s with regs := (s.lateShown n).regs, cnts := (s.lateShown n).cnts } := by
  have hbeside : BesideNoted s (s.lateShown n) := (((BesideNoted.refl s).setBit _ _ _).setBit _ _ _).bump _
  have hflt : (s.lateShown n).flt = s.flt := by simp [State.lateShown]
  rwa [BesideNoted, hflt] at hbeside

theorem noteLate_eq (s : State) (n : Nat) : s.noteLate n = { s with
    regs := (s.lateShown n).regs, cnts := (s.lateShown n).cnts,
    sw := { s.sw with onceLate := Tab.set (fun _ => false) s.sw.onceLate n true } } :=
  congrArg (fun u : State => { u with sw := { u.sw with onceLate := Tab.set (fun _ => false) u.sw.onceLate n true } }) (lateShown_eq s n)

theorem stat_ne_sticky (n : Nat) : launchAddr n + 0x18 ≠ timeSticky := by
  unfold launchAddr timeSticky timeReg
  omega

theorem bit_noteLate (s : State) (n a i : Nat) : (s.noteLate n).bit a i = (s.lateShown n).bit a i := by
  rw [noteLate_eq, State.bit, State.reg, State.bit, State.reg]

theorem bit_noteLate_stat (s : State) (n : Nat) : (s.noteLate n).bit (launchAddr n + 0x18) 2 = true := by
  rw [bit_noteLate, State.lateShown, State.bit_bump, State.bit_setBit_other _ _ _ _ (stat_ne_sticky n), State.bit_setBit_same _ _ _ _ (by decide)]

theorem bit_noteLate_sticky (s : State) (n : Nat) : (s.noteLate n).bit timeSticky 4 = true := by
  rw [bit_noteLate, State.lateShown, State.bit_bump, State.bit_setBit_same _ _ _ _ (by decide)]

theorem count_noteLate (s : State) (n : Nat) : (s.noteLate n).count (timeReg 0x120) = s.count (timeReg 0x120) + 1 := by
  have hcount : (s.lateShown n).count (timeReg 0x120) = s.count (timeReg 0x120) + 1 := State.count_bump_same _ _
  rw [noteLate_eq, ← hcount, State.count, State.count]

theorem late_noteLate (s : State) (n : Nat) : Tab.get (fun _ => false) (s.noteLate n).sw.onceLate n = true := by
  rw [noteLate_eq]
  exact Tab.get_set_same (d := fun _ => false) s.sw.onceLate true

theorem reg_noteLate_other {a : Nat} (hstat : a ≠ launchAddr n + 0x18) (hsticky : a ≠ timeSticky) : (s.noteLate n).reg a = s.reg a := by
  have hreg : (s.lateShown n).reg a = s.reg a := by
    rw [State.lateShown, State.reg_bump, State.reg_setBit_other _ _ _ hsticky, State.reg_setBit_other _ _ _ hstat]
  rw [noteLate_eq, ← hreg, State.reg, State.reg]

theorem noteLate_beside (s : State) (n : Nat) : s.noteLate n =
    { s with regs := (s.noteLate n).regs, cnts := (s.noteLate n).cnts, sw := (s.noteLate n).sw } := by
  rw [noteLate_eq]

/-! ## PPS pins (R288, R289) -/

/-- A pulse has started at the grid instant x. -/
def State.pulseStarted (s : State) (o x : Nat) : State :=
  { s with tb := { s.tb with
    ppsHigh := Tab.set (fun _ => false) s.tb.ppsHigh o true
    ppsAt := Tab.set (fun _ => none) s.tb.ppsAt o (some x)
    ppsEnd := Tab.set (fun _ => 0) s.tb.ppsEnd o (s.ns - s.past x + s.fld (timeReg (0x400 + 0x40 * o) + 0x10) 0 30) } }

/-- What a grid instant, if there is one, makes of an output. -/
def State.pulseAt (s : State) (o : Nat) : Option Nat → State
  | some x =>
    if s.bit (timeReg (0x400 + 0x40 * o)) 0 && !s.flt.f3 && !s.flt.f4 && decide (Tab.get (fun _ => none) s.tb.ppsAt o ≠ some x) then
      s.pulseStarted o x
    else s
  | none => s

/-- The pulse has ended. -/
def State.pulseEnded (s : State) (o : Nat) : State := { s with tb := { s.tb with ppsHigh := Tab.set (fun _ => false) s.tb.ppsHigh o false } }

/-- The definition is unfolded as a function, without its arguments: a comparison of its two forms at a state would have the kernel evaluate the grid
instant, whose arithmetic is modulo 2^32 seconds. -/
theorem ppsPulse_eq (s : State) (o : Nat) : s.ppsPulse o = s.pulseAt o (s.ppsInstant o) := by
  have hdef : State.ppsPulse = State.ppsPulse := rfl
  conv at hdef =>
    rhs
    delta State.ppsPulse
  rw [hdef]
  beta_reduce
  generalize s.ppsInstant o = instant
  cases instant <;> rfl

theorem ppsPulse_starts (hx : s.ppsInstant o = some x) (hen : s.bit (timeReg (0x400 + 0x40 * o)) 0 = true) (hf3 : s.flt.f3 = false)
    (hf4 : s.flt.f4 = false) (hnew : Tab.get (fun _ => none) s.tb.ppsAt o ≠ some x) : s.ppsPulse o = s.pulseStarted o x := by
  rw [ppsPulse_eq, hx]
  exact if_pos (by simp [hen, hf3, hf4, hnew])

theorem ppsPulse_idle (h : s.bit (timeReg (0x400 + 0x40 * o)) 0 = false ∨ s.flt.f3 = true ∨ s.flt.f4 = true ∨ s.ppsInstant o = none) :
    s.ppsPulse o = s := by
  rw [ppsPulse_eq]
  cases hx : s.ppsInstant o with
  | none => rfl
  | some x =>
    refine if_neg ?_
    rcases h with h | h | h | h
    · simp [h]
    · simp [h]
    · simp [h]
    · simp [hx] at h

theorem ppsPulseEnd_ends (hhigh : Tab.get (fun _ => false) s.tb.ppsHigh o = true) (hend : Tab.get (fun _ => 0) s.tb.ppsEnd o ≤ s.ns) :
    s.ppsPulseEnd o = s.pulseEnded o := if_pos (by simp [hhigh, hend])

theorem ppsPulseEnd_idle (h : Tab.get (fun _ => false) s.tb.ppsHigh o = false ∨ s.ns < Tab.get (fun _ => 0) s.tb.ppsEnd o) :
    s.ppsPulseEnd o = s := by
  refine if_neg ?_
  rcases h with h | h
  · simp [h]
  · simp [Nat.not_le.2 h]

theorem high_pulseStarted (s : State) (o x : Nat) : Tab.get (fun _ => false) (s.pulseStarted o x).tb.ppsHigh o = true :=
  Tab.get_set_same (d := fun _ => false) s.tb.ppsHigh true
theorem at_pulseStarted (s : State) (o x : Nat) : Tab.get (fun _ => none) (s.pulseStarted o x).tb.ppsAt o = some x :=
  Tab.get_set_same (d := fun _ => none) s.tb.ppsAt (some x)
theorem end_pulseStarted (s : State) (o x : Nat) : Tab.get (fun _ => 0) (s.pulseStarted o x).tb.ppsEnd o =
    s.ns - s.past x + s.fld (timeReg (0x410 + 0x40 * o)) 0 30 := by
  have hwidth : timeReg (0x410 + 0x40 * o) = timeReg (0x400 + 0x40 * o) + 0x10 := by
    unfold timeReg
    omega
  rw [hwidth]
  exact Tab.get_set_same (d := fun _ => 0) s.tb.ppsEnd _
theorem high_pulseEnded (s : State) (o : Nat) : Tab.get (fun _ => false) (s.pulseEnded o).tb.ppsHigh o = false :=
  Tab.get_set_same (d := fun _ => false) s.tb.ppsHigh false

/-- The level of the ball with VDD_AON, out of reset (R288, R468). -/
theorem ppsLevel_powered (hphase : s.mgt.phase ≠ .unpowered) (hporst : s.mgt.porstLow = false) (o : Nat) : s.ppsLevel o =
    some (xor (Tab.get (fun _ => false) s.tb.ppsHigh o && !s.flt.f3 && !s.flt.f4) (s.bit (timeReg (0x400 + 0x40 * o)) 1)) := by
  rw [State.ppsLevel, if_neg hphase, if_neg (by simp [hporst])]

theorem ppsLevel_pulseStarted (hphase : s.mgt.phase ≠ .unpowered) (hporst : s.mgt.porstLow = false) (hf3 : s.flt.f3 = false) (hf4 : s.flt.f4 = false)
    (o x : Nat) : (s.pulseStarted o x).ppsLevel o = some (!s.bit (timeReg (0x400 + 0x40 * o)) 1) := by
  rw [ppsLevel_powered (s := s.pulseStarted o x) hphase hporst]
  rw [high_pulseStarted, show (s.pulseStarted o x).flt = s.flt from rfl, hf3, hf4]
  exact congrArg some (Bool.true_xor _)

theorem ppsLevel_pulseEnded (hphase : s.mgt.phase ≠ .unpowered) (hporst : s.mgt.porstLow = false) (o : Nat) :
    (s.pulseEnded o).ppsLevel o = some (s.bit (timeReg (0x400 + 0x40 * o)) 1) := by
  rw [ppsLevel_powered (s := s.pulseEnded o) hphase hporst]
  rw [high_pulseEnded]
  exact congrArg some (Bool.false_xor _)

section
variable (hsel : s.bit (timeReg (0x500 + 0x40 * i)) (if r then 0 else 1) = true)
include hsel

theorem ppsCapture_room (hroom : (Tab.get (fun _ => []) s.tb.caps i).length < 16) : s.ppsCapture i r = { s with
    tb := { s.tb with caps := Tab.set (fun _ => []) s.tb.caps i (Tab.get (fun _ => []) s.tb.caps i ++ [⟨word (2 ^ 31 + bit01 r), s.time⟩]) } } := by
  rw [State.ppsCapture, if_pos hsel]
  exact if_pos hroom

theorem ppsCapture_full (hfull : 16 ≤ (Tab.get (fun _ => []) s.tb.caps i).length) :
    s.ppsCapture i r = (s.setBit timeSticky 6 true).bump (timeReg (0x520 + 0x40 * i)) := by
  have hcounter : timeReg (0x500 + 0x40 * i + 0x20) = timeReg (0x520 + 0x40 * i) := congrArg timeReg (by omega)
  rw [State.ppsCapture, if_pos hsel, ← hcounter]
  exact if_neg (Nat.not_lt.2 hfull)
end

end Sys2Proof.Machine

open Sys2Proof Sys2Proof.Machine

/-- Settles O46, clause by clause: what each read pops, what a launch entry and a mode become, and what the pins show and capture. -/
theorem launchesStampsAndPulses : Obligations.LaunchesStampsAndPulses := by
  unfold Obligations.LaunchesStampsAndPulses
  refine ⟨?stamp, ?noStamp, ?capture, ?noCapture, ?gateOpen, ?gateShut, ?late, ?inTime, ?arm, ?disarm, ?noQueue, ?mode, ?reservedMode, ?pulse, ?noPulse,
    ?pulseEnd, ?noPulseEnd, ?edge, ?edgeLost, ?edgeOff⟩
  case stamp =>
    intro w s p e q h hp hq
    rw [txtsInfoRead_pop h hp, State.txtsPop, hq]
  case noStamp =>
    intro w s p h hp hq
    rw [txtsInfoRead_pop h hp, State.txtsPop, hq]
  case capture =>
    intro w s i e q h hi hq
    rw [capInfoRead_pop h hi, State.capPop, hq]
  case noCapture =>
    intro w s i h hi hq
    rw [capInfoRead_pop h hi, State.capPop, hq]
  case gateOpen =>
    intro s n hn hopen
    rw [exec_gateWindowOpen hn, exec_gateWindowClose hn, State.gateOpen, State.gateClose, hopen]
    exact ⟨rfl, rfl⟩
  case gateShut =>
    intro s n hn hshut
    rw [exec_gateWindowOpen hn, exec_gateWindowClose hn, State.gateOpen, State.gateClose, hshut]
    exact ⟨rfl, rfl⟩
  case late =>
    intro s n q hn hq hen hkind hentry hmode hhead htol hpast hfirst hdrop
    have hlate := lateCheck_late hmode hhead hentry (onceIsLate_of_past htol hpast hfirst) hdrop
    refine ⟨_, (exec_launchOnceEligible hn s).trans (congrArg _ ((onceEligible_judges hq hen hkind hentry).trans hlate)),
      bit_noteLate_stat s n, bit_noteLate_sticky s n, count_noteLate s n, by rw [noteLate_eq], late_noteLate s n, fun a ha => ?_, noteLate_beside s n⟩
    obtain ⟨hstat, hsticky⟩ : a ≠ launchAddr n + 0x18 ∧ a ≠ timeSticky := by simpa using ha
    exact reg_noteLate_other hstat hsticky
  case inTime =>
    intro s n q hn hq h
    rw [exec_launchOnceEligible hn, onceEligible_idle hq (h.imp_right (Or.imp_right (Or.imp_right onceIsLate_inTime)))]
  case arm =>
    intro w s n d h hn hq hd hlen
    exact launchArm_done h hn (launchWrite_arms hq hd hlen)
  case disarm =>
    intro w s n d h hn hq hd
    exact launchArm_done h hn (launchWrite_disarms hq hd)
  case noQueue =>
    intro w s n d h hn hq
    exact launchArm_refused h hn (launchWrite_noQueue hq)
  case mode =>
    intro w s q d h hq hd
    exact ⟨_, lqModeWrite_stored h hq hd, lqMode_lqStored hq s d, fun a ha => State.reg_setReg_other _ _ (by simpa using ha), rfl⟩
  case reservedMode =>
    intro w s q d h hq hd
    exact lqModeWrite_reserved h hq hd
  case pulse =>
    intro s o x ho hx hen hf3 hf4 hnew
    exact ⟨_, (exec_ppsOutPulse ho s).trans (congrArg _ (ppsPulse_starts hx hen hf3 hf4 hnew)),
      fun hphase hporst => ppsLevel_pulseStarted hphase hporst hf3 hf4 o x, high_pulseStarted s o x, at_pulseStarted s o x,
      end_pulseStarted s o x, rfl⟩
  case noPulse =>
    intro s o ho h
    rw [exec_ppsOutPulse ho, ppsPulse_idle h]
  case pulseEnd =>
    intro s o ho hhigh hend
    exact ⟨_, (exec_ppsOutPulseEnd ho s).trans (congrArg _ (ppsPulseEnd_ends hhigh hend)),
      fun hphase hporst => ppsLevel_pulseEnded hphase hporst o, high_pulseEnded s o, rfl⟩
  case noPulseEnd =>
    intro s o ho h
    rw [exec_ppsOutPulseEnd ho, ppsPulseEnd_idle h]
  case edge =>
    intro s i r hi hsel hroom
    rw [exec_ppsInCapture hi, ppsCapture_room hsel hroom]
  case edgeLost =>
    intro s i r hi hsel hfull
    rw [exec_ppsInCapture hi, ppsCapture_full hsel hfull]
  case edgeOff =>
    intro s i r hi hsel
    rw [exec_ppsInCapture hi, State.ppsCapture, hsel]
    rfl
end

section
/-!
The choice of the clock reference (R274, R275), and what the MCP makes of a reference that fails again and again (R438).
-/
namespace Sys2Proof.Machine

variable {w : Who} {s t u : State} {d : Word} {x y i a : Nat}

theorem exec_referenceBad (b : Bool) (s : State) : exec (.referenceBad b) s = .next (s.refFails (bit01 b)) := rfl
theorem exec_referenceGood (b : Bool) (s : State) : exec (.referenceGood b) s = .next (s.refDeclareGood (bit01 b)) := rfl
theorem exec_referenceRevert (s : State) : exec .referenceRevert s = .next s.refRevert := rfl

theorem timeWrite_ref (s : State) (w : Who) (d : Word) : timeWrite s w none 0x48 d = s.refWrite d := rfl

theorem BesideNoted.eq (h : BesideNoted s t) : t = { s with regs := t.regs, cnts := t.cnts, flt := t.flt } := h

theorem BesideNoted.trans (h : BesideNoted s t) (g : BesideNoted t u) : BesideNoted s u := by
  unfold BesideNoted at h g ⊢
  exact Eq.trans g (congrArg (fun v : State => { v with regs := u.regs, cnts := u.cnts, flt := u.flt }) h)

theorem BesideNoted.acked (h : BesideNoted s t) :
    Machine.acked t = { Machine.acked s with regs := (Machine.acked t).regs, cnts := (Machine.acked t).cnts, flt := (Machine.acked t).flt } :=
  congrArg Machine.acked h.eq

/-- What is noted after a judgement, which changes the time base and its registers, leaves the rest as it was. -/
theorem BesideNoted.judged (h : BesideNoted u t) (hu : u = { s with tb := u.tb, regs := u.regs }) :
    t = { s with tb := t.tb, regs := t.regs, cnts := t.cnts, flt := t.flt } := by
  have htb : t.tb = u.tb := (congrArg State.tb h.eq :)
  rw [htb]
  exact h.eq.trans (congrArg (fun v : State => { v with regs := t.regs, cnts := t.cnts, flt := t.flt }) hu)

/-! ## The references in STATUS -/

theorem bit01_lt_two (b : Bool) : bit01 b < 2 := by cases b <;> decide

theorem refActive_lt_two (s : State) : s.refActive < 2 := Nat.mod_lt _ (by decide)

theorem eq_or_eq_other (hx : x < 2) (hy : y < 2) : y = x ∨ y = 1 - x := by omega

theorem refActive_setBit (s : State) (v : Bool) (hi : 3 ≤ i) (h32 : i < 32) : (s.setBit timeStatus i v).refActive = s.refActive :=
  State.fld_setFld_apart _ _ _ _ _ _ _ (by omega) (.inl (by omega))

theorem refActive_raise (s : State) (src cls cause : Nat) : (s.raise src cls cause).refActive = s.refActive := by
  rw [State.refActive, State.fld, reg_raise]
  rfl

/-! ## The PLL moves to a reference (R275) -/

theorem refSwitch_same (h : s.refActive = x) : s.refSwitch x = s := if_pos h

/-- STATUS names reference x, and REF_SWITCHED is set and counted. -/
def State.switchShown (s : State) (x : Nat) : State := ((s.setFld timeStatus 2 1 x).setBit timeSticky 1 true).bump (timeReg 0x110)

theorem refSwitch_moves (h : s.refActive ≠ x) : s.refSwitch x = (s.switchShown x).raise 0x61 0 1 := if_neg h

theorem refSwitch_beside (s : State) (x : Nat) : BesideNoted s (s.refSwitch x) := by
  by_cases h : s.refActive = x
  · rw [refSwitch_same h]
    exact .refl s
  · rw [refSwitch_moves h]
    exact ((((BesideNoted.refl s).setReg _ _).setBit _ _ _).bump _).raise _ _ (Nat.zero_le 1)

theorem reg_refSwitch_other (hstatus : a ≠ timeStatus) (hsticky : a ≠ timeSticky) : (s.refSwitch x).reg a = s.reg a := by
  by_cases h : s.refActive = x
  · rw [refSwitch_same h]
  · rw [refSwitch_moves h, reg_raise, State.switchShown, State.reg_bump, State.reg_setBit_other _ _ _ hsticky, State.reg_setFld_other _ _ _ _ hstatus]

theorem bit_refSwitch (hi : i ≠ 2) : (s.refSwitch x).bit timeStatus i = s.bit timeStatus i := by
  by_cases h : s.refActive = x
  · rw [refSwitch_same h]
  · rw [refSwitch_moves h, bit_raise, State.switchShown, State.bit_bump, State.bit_setBit_other _ _ _ _ (by decide), State.bit, State.reg_setFld,
      if_pos rfl, bitOf_setBits_other _ _ _ _ _ (by decide) (by omega), State.bit]

theorem refActive_refSwitch (hx : x < 2) : (s.refSwitch x).refActive = x := by
  by_cases h : s.refActive = x
  · rw [refSwitch_same h, h]
  · rw [refSwitch_moves h, State.refActive, State.fld, reg_raise, State.switchShown, State.reg_bump, State.reg_setBit_other _ _ _ (by decide),
      State.reg_setFld, if_pos rfl, fieldOf_setBits_same _ _ _ _ (by decide), Nat.pow_one, Nat.mod_eq_of_lt hx]

theorem sticky_refSwitch (h : s.refActive ≠ x) : (s.refSwitch x).bit timeSticky 1 = true := by
  rw [refSwitch_moves h, bit_raise, State.switchShown, State.bit_bump, State.bit_setBit_same _ _ _ _ (by decide)]

theorem count_refSwitch (s : State) (x : Nat) :
    (s.refSwitch x).count (timeReg 0x110) = s.count (timeReg 0x110) + (if s.refActive = x then 0 else 1) := by
  by_cases h : s.refActive = x
  · rw [refSwitch_same h, if_pos h]
    exact (BitVec.add_zero _).symm
  · rw [refSwitch_moves h, count_raise, State.switchShown, State.count_bump_same, if_neg h]
    rfl

theorem flt_refSwitch (h : s.refActive ≠ x) :
    ∃ e, (s.refSwitch x).flt = { s.flt with bus := s.flt.bus ++ [e] } ∧ e.src = 0x61 ∧ e.cls = 0 ∧ e.cause = 1 := by
  rw [refSwitch_moves h]
  exact raise_flt (s.switchShown x) 0x61 1 (Nat.zero_le 1)

theorem tb_refSwitch (s : State) (x : Nat) : (s.refSwitch x).tb = s.tb := (congrArg State.tb (refSwitch_beside s x).eq :)

/-! ## The automatic choice and the hold (R275) -/

theorem refAuto_stays (h : Tab.get (fun _ => false) s.tb.refBad s.refActive = false ∨ s.refOk (1 - s.refActive) = false) : s.refAuto = s := by
  refine if_neg ?_
  rcases h with h | h <;> simp [h]

theorem refAuto_leaves (hsel : s.fld (timeReg 0x48) 0 2 = 0) (hbad : Tab.get (fun _ => false) s.tb.refBad s.refActive = true)
    (hok : s.refOk (1 - s.refActive) = true) : s.refAuto = s.refSwitch (1 - s.refActive) :=
  if_pos (by simp [hsel, hbad, hok])

/-- The automatic choice is a move to a reference, or nothing. -/
theorem refAuto_cases (s : State) : s.refAuto = s ∨ s.refAuto = s.refSwitch (1 - s.refActive) := by
  unfold State.refAuto
  dsimp only
  split
  · exact .inr rfl
  · exact .inl rfl

theorem refAuto_beside (s : State) : BesideNoted s s.refAuto := by
  rcases refAuto_cases s with h | h
  · rw [h]
    exact .refl s
  · rw [h]
    exact refSwitch_beside s _

theorem reg_refAuto_other (hstatus : a ≠ timeStatus) (hsticky : a ≠ timeSticky) : s.refAuto.reg a = s.reg a := by
  rcases refAuto_cases s with h | h
  · rw [h]
  · rw [h, reg_refSwitch_other hstatus hsticky]

theorem bit_refAuto (hi : i ≠ 2) : s.refAuto.bit timeStatus i = s.bit timeStatus i := by
  rcases refAuto_cases s with h | h
  · rw [h]
  · rw [h, bit_refSwitch hi]

theorem refHold_idle (hx : x < 2) (h : Tab.get (fun _ => false) s.tb.refBad x = false) : s.refHold = s := by
  refine if_neg ?_
  rcases eq_or_eq_other (x := 0) (by decide) hx with rfl | rfl <;> simp [h]

/-- PLL_HOLD and REF_LOST are shown. -/
def State.holdShown (s : State) : State := (s.setBit timeStatus 5 true).setBit timeSticky 2 true

theorem bit_holdShown (s : State) : s.holdShown.bit timeStatus 5 = true := by
  rw [State.holdShown, State.bit_setBit_other _ _ _ _ (by decide), State.bit_setBit_same _ _ _ _ (by decide)]

theorem sticky_holdShown (s : State) : s.holdShown.bit timeSticky 2 = true := State.bit_setBit_same _ _ _ _ (by decide)

theorem bit_holdShown_other (hi : i ≠ 5) : s.holdShown.bit timeStatus i = s.bit timeStatus i := by
  rw [State.holdShown, State.bit_setBit_other _ _ _ _ (by decide), State.bit_setBit_apart _ _ _ _ _ (by decide) hi]

theorem refActive_holdShown (s : State) : s.holdShown.refActive = s.refActive :=
  (State.fld_setBit_other _ _ _ _ _ (by decide)).trans (refActive_setBit s true (by decide) (by decide))

theorem refHold_holds (hx : x < 2) (hbad : Tab.get (fun _ => false) s.tb.refBad x = true)
    (hother : Tab.get (fun _ => false) s.tb.refBad (1 - x) = true) (hhold : s.bit timeStatus 5 = false) :
    s.refHold = s.holdShown.raise 0x61 1 2 := by
  refine if_pos ?_
  rcases eq_or_eq_other (x := 0) (by decide) hx with rfl | rfl <;> simp_all

theorem refHold_cases (s : State) : s.refHold = s ∨ s.refHold = s.holdShown.raise 0x61 1 2 := by
  unfold State.refHold
  split
  · exact .inr rfl
  · exact .inl rfl

theorem refHold_beside (s : State) : BesideNoted s s.refHold := by
  rcases refHold_cases s with h | h
  · rw [h]
    exact .refl s
  · rw [h]
    exact (((BesideNoted.refl s).setBit _ _ _).setBit _ _ _).raise _ _ (Nat.le_refl 1)

theorem bit_refHold (hi : i ≠ 5) : s.refHold.bit timeStatus i = s.bit timeStatus i := by
  rcases refHold_cases s with h | h
  · rw [h]
  · rw [h, bit_raise, bit_holdShown_other hi]

/-! ## A reference is declared bad (R274) -/

/-- Reference x is bad from now on, and STATUS does not show it good. -/
def State.judgedBad (s : State) (x : Nat) : State :=
  { s with tb := { s.tb with
    refBad := Tab.set (fun _ => false) s.tb.refBad x true, refFrom := Tab.set (fun _ => 0) s.tb.refFrom x s.cyc } }.setBit timeStatus (3 + x) false

theorem refDeclareBad_eq (h : s.tb.monitors = true) (x : Nat) : s.refDeclareBad x = (s.judgedBad x).refAuto.refHold := by
  rw [State.refDeclareBad, h]
  rfl

theorem judgedBad_eq (s : State) (x : Nat) : s.judgedBad x = { s with tb := (s.judgedBad x).tb, regs := (s.judgedBad x).regs } := rfl

theorem refBad_judgedBad_same (s : State) (x : Nat) : Tab.get (fun _ => false) (s.judgedBad x).tb.refBad x = true :=
  Tab.get_set_same (d := fun _ => false) s.tb.refBad true

theorem refBad_judgedBad_other (h : y ≠ x) :
    Tab.get (fun _ => false) (s.judgedBad x).tb.refBad y = Tab.get (fun _ => false) s.tb.refBad y :=
  Tab.get_set_other (d := fun _ => false) s.tb.refBad true h

theorem bit_judgedBad_other (hx : x < 2) (hi : i ≠ 3 + x) : (s.judgedBad x).bit timeStatus i = s.bit timeStatus i :=
  State.bit_setBit_apart _ _ _ _ _ (by omega) hi

theorem refOk_judgedBad_same (hx : x < 2) (s : State) : (s.judgedBad x).refOk x = false := State.bit_setBit_same _ _ _ _ (by omega)

theorem refOk_judgedBad_other (hx : x < 2) (h : y ≠ x) : (s.judgedBad x).refOk y = s.refOk y := bit_judgedBad_other hx (by omega)

theorem refActive_judgedBad (hx : x < 2) (s : State) : (s.judgedBad x).refActive = s.refActive := refActive_setBit _ _ (by omega) (by omega)

theorem reg_judgedBad_other (h : a ≠ timeStatus) : (s.judgedBad x).reg a = s.reg a := State.reg_setBit_other _ _ _ h

theorem refDeclareBad_beside (h : s.tb.monitors = true) (x : Nat) : BesideNoted (s.judgedBad x) (s.refDeclareBad x) := by
  rw [refDeclareBad_eq h]
  exact (refAuto_beside _).trans (refHold_beside _)

theorem refDeclareBad_off (h : s.tb.monitors = false) (x : Nat) : s.refDeclareBad x = s := by
  rw [State.refDeclareBad, h]
  rfl

/-- While the other reference is not bad and reference x is not active, the PLL stays where it is. -/
theorem refDeclareBad_inactive (h : s.tb.monitors = true) (hx : x < 2) (hactive : s.refActive ≠ x)
    (hother : Tab.get (fun _ => false) s.tb.refBad (1 - x) = false) : s.refDeclareBad x = s.judgedBad x := by
  have hother' : Tab.get (fun _ => false) (s.judgedBad x).tb.refBad (1 - x) = false := by rwa [refBad_judgedBad_other (by omega)]
  have ha : (s.judgedBad x).refActive = 1 - x := by
    rw [refActive_judgedBad hx]
    exact (eq_or_eq_other hx (refActive_lt_two s)).resolve_left hactive
  rw [refDeclareBad_eq h, refAuto_stays (.inl (by rw [ha, hother'])), refHold_idle (by omega) hother']

/-- The PLL leaves an active reference that is declared bad for the other, which is good. -/
theorem refDeclareBad_leaves (h : s.tb.monitors = true) (hx : x < 2) (hactive : s.refActive = x)
    (hother : Tab.get (fun _ => false) s.tb.refBad (1 - x) = false) (hok : s.refOk (1 - x) = true) (hsel : s.fld (timeReg 0x48) 0 2 = 0) :
    s.refDeclareBad x = (s.judgedBad x).refSwitch (1 - x) := by
  have ha : (s.judgedBad x).refActive = x := (refActive_judgedBad hx s).trans hactive
  have hsel' : (s.judgedBad x).fld (timeReg 0x48) 0 2 = 0 := by rwa [State.fld, reg_judgedBad_other (by decide)]
  have hauto : (s.judgedBad x).refAuto = (s.judgedBad x).refSwitch (1 - x) := by
    rw [refAuto_leaves hsel' (by rw [ha, refBad_judgedBad_same]) (by rw [ha, refOk_judgedBad_other hx (by omega), hok]), ha]
  rw [refDeclareBad_eq h, hauto]
  exact refHold_idle (x := 1 - x) (by omega) (by rwa [tb_refSwitch, refBad_judgedBad_other (by omega)])

/-- Where both references are bad the PLL holds. -/
theorem refDeclareBad_holds (h : s.tb.monitors = true) (hx : x < 2) (hother : Tab.get (fun _ => false) s.tb.refBad (1 - x) = true)
    (hok : s.refOk (1 - x) = false) (hhold : s.bit timeStatus 5 = false) :
    s.refDeclareBad x = (s.judgedBad x).holdShown.raise 0x61 1 2 := by
  have hnone : (s.judgedBad x).refOk (1 - (s.judgedBad x).refActive) = false := by
    rcases eq_or_eq_other hx (refActive_lt_two (s.judgedBad x)) with ha | ha
    · rw [ha, refOk_judgedBad_other hx (by omega), hok]
    · rw [ha, show 1 - (1 - x) = x by omega, refOk_judgedBad_same hx]
  rw [refDeclareBad_eq h, refAuto_stays (.inr hnone)]
  exact refHold_holds hx (refBad_judgedBad_same s x) (by rwa [refBad_judgedBad_other (by omega)]) (by rwa [bit_judgedBad_other hx (by omega)])

theorem refOk_refDeclareBad (h : s.tb.monitors = true) (hx : x < 2) : (s.refDeclareBad x).refOk x = false := by
  rw [refDeclareBad_eq h, State.refOk, bit_refHold (by omega), bit_refAuto (by omega)]
  exact refOk_judgedBad_same hx s

/-! ## The hours in which a reference was declared bad (R438) -/

/-- The power-on hours in which reference x was declared bad, of the last 24. -/
def State.badHours (s : State) (x : Nat) : List Nat := s.within 24 (Tab.get (fun _ => []) s.mgt.refBadAt x)

/-- A state with the hours of reference x. -/
def State.withBadHours (s : State) (x : Nat) (l : List Nat) : State :=
  { s with mgt := { s.mgt with refBadAt := Tab.set (fun _ => []) s.mgt.refBadAt x l } }

theorem refFails_off (h : s.tb.monitors = false) (x : Nat) : s.refFails x = s := by
  rw [State.refFails, h, refDeclareBad_off h]
  rfl

theorem refFails_again (hbad : Tab.get (fun _ => false) s.tb.refBad x = true) : s.refFails x = s.refDeclareBad x := by
  refine if_neg ?_
  simp [hbad]

/-- Declaring a reference bad changes neither the MRAM nor what the MCP keeps. -/
theorem refDeclareBad_mem_mgt (h : s.tb.monitors = true) (x : Nat) : (s.refDeclareBad x).mem = s.mem ∧ (s.refDeclareBad x).mgt = s.mgt := by
  have hd := (refDeclareBad_beside h x).judged (judgedBad_eq s x)
  rw [hd]
  exact ⟨rfl, rfl⟩

theorem State.bytes_congr (h : t.mem = s.mem) (a n : Nat) : t.bytes a n = s.bytes a n := by
  induction n generalizing a with
  | zero => rfl
  | succ n ih => rw [State.bytes, State.bytes, ih, State.byte, State.byte, h]

theorem powerOnHours_congr (h : t.mem = s.mem) : t.powerOnHours = s.powerOnHours := by
  have hcopy : t.counterCopy = s.counterCopy := funext₃ fun o n i => congrArg leNat (State.bytes_congr h _ n)
  rw [State.powerOnHours, State.powerOnHours, State.counterVal, State.counterVal, hcopy]

theorem badHours_congr (hmem : t.mem = s.mem) (hmgt : t.mgt = s.mgt) (x : Nat) : t.badHours x = s.badHours x := by
  rw [State.badHours, State.badHours, State.within, State.within, powerOnHours_congr hmem, hmgt]

theorem sparesUsedOf_congr (h : t.mgt = s.mgt) : t.sparesUsedOf i = s.sparesUsedOf i := by rw [State.sparesUsedOf, State.sparesUsedOf, h]

theorem mcpRuns_congr (h : t.mgt = s.mgt) : t.mcpRuns = s.mcpRuns := by rw [State.mcpRuns, State.mcpRuns, h]

section
variable (h : s.tb.monitors = true) (hgood : Tab.get (fun _ => false) s.tb.refBad x = false)
include h hgood

/-- What the MCP makes of a reference that has just been declared bad: the third time in 24 hours the other is preferred. -/
theorem refFails_counts : s.refFails x =
    if 2 ≤ (s.badHours x).length ∧ s.mcpRuns = true then ((s.refDeclareBad x).withBadHours x []).useSpare 8 x 0
    else (s.refDeclareBad x).withBadHours x (s.powerOnHours :: s.badHours x) := by
  obtain ⟨hmem, hmgt⟩ := refDeclareBad_mem_mgt h x
  have hnew : (s.tb.monitors && !Tab.get (fun _ => false) s.tb.refBad x) = true := by rw [h, hgood]; rfl
  rw [← badHours_congr hmem hmgt x, ← mcpRuns_congr hmgt, ← powerOnHours_congr hmem]
  refine (if_pos hnew).trans ?_
  have hiff : (decide (3 ≤ ((s.refDeclareBad x).powerOnHours :: (s.refDeclareBad x).within 24
      (Tab.get (fun _ => []) (s.refDeclareBad x).mgt.refBadAt x)).length) && (s.refDeclareBad x).mcpRuns) = true ↔
      2 ≤ ((s.refDeclareBad x).badHours x).length ∧ (s.refDeclareBad x).mcpRuns = true := by
    rw [Bool.and_eq_true, decide_eq_true_iff, List.length_cons, Nat.succ_le_succ_iff, State.badHours]
  rw [← if_congr hiff rfl rfl]
  split <;> rfl
end

theorem tab_withBadHours (s : State) (x : Nat) (l : List Nat) : Tab.get (fun _ => []) (s.withBadHours x l).mgt.refBadAt x = l :=
  Tab.get_set_same (d := fun _ => []) s.mgt.refBadAt l

/-- A reference that is declared bad, and not for the third time, is noted beside what its declaration comes to. -/
theorem refFails_noted (h : s.tb.monitors = true)
    (hfew : Tab.get (fun _ => false) s.tb.refBad x = true ∨ (s.badHours x).length < 2 ∨ s.mcpRuns = false) :
    ∃ m, s.refFails x = { s.refDeclareBad x with mgt := { s.mgt with refBadAt := m } } ∧
      (Tab.get (fun _ => false) s.tb.refBad x = false → Tab.get (fun _ => []) m x = s.powerOnHours :: s.badHours x) := by
  obtain ⟨-, hmgt⟩ := refDeclareBad_mem_mgt h x
  cases hbad : Tab.get (fun _ => false) s.tb.refBad x with
  | true =>
    refine ⟨s.mgt.refBadAt, ?_, fun hgood => absurd hgood (by decide)⟩
    rw [refFails_again hbad, ← hmgt]
  | false =>
    have hthird : ¬ (2 ≤ (s.badHours x).length ∧ s.mcpRuns = true) := by
      rintro ⟨htwo, hruns⟩
      rcases hfew with hfew | hfew | hfew
      · simp [hbad] at hfew
      · omega
      · simp [hruns] at hfew
    refine ⟨_, ?_, fun _ => tab_withBadHours s x _⟩
    rw [refFails_counts h hbad, if_neg hthird, State.withBadHours, State.withBadHours, hmgt]

/-! ## The other reference is preferred, and a spare noted (R438, R440) -/

theorem mramPut_keeps {β : Type} {k : State → β} (hbad : ∀ (s : State) b n, k (s.setBlockErrors b n) = k s)
    (hstore : ∀ (s : State) a bs, k (s.store a bs) = k s)
    (s : State) (o : Nat) (bs : List Byte) : k (s.mramPut o bs) = k s := by
  refine (foldl_keeps (fun st i => ?_) _ _).trans (hstore s _ bs)
  split
  · exact hbad st _ _
  · rfl

theorem mramPut_regs (s : State) (o : Nat) (bs : List Byte) : (s.mramPut o bs).regs = s.regs :=
  mramPut_keeps (fun _ _ _ => rfl) (fun s a bs => State.store_regs s a bs) s o bs

theorem mramPut_mgt (s : State) (o : Nat) (bs : List Byte) : (s.mramPut o bs).mgt = s.mgt :=
  mramPut_keeps (fun _ _ _ => rfl) (fun s a bs => State.store_mgt s a bs) s o bs

/-- Noting a spare changes no register. -/
theorem noteSpare_regs (s : State) (kind unit spare : Nat) : (s.noteSpare kind unit spare 0).regs = s.regs := by
  have hpost : (s.noteSpare kind unit spare 0).regs = ((s.countSpare kind).spareEntry kind 1 unit spare).regs := rfl
  rw [hpost, State.spareEntry, State.free_regs, mramPut_regs]
  rfl

/-- The spare is counted, and its entry joins the spare map while that has room. -/
theorem noteSpare_mgt (s : State) (kind unit spare : Nat) (hroom : s.mgt.spareMap.length < 4094) : ∃ e,
    (s.noteSpare kind unit spare 0).mgt = { s.mgt with
      sparesUsed := Tab.set (fun _ => 0) s.mgt.sparesUsed kind (s.sparesUsedOf kind + 1), spareMap := s.mgt.spareMap ++ [e],
      spareSeq := s.mgt.spareSeq + 1 } := by
  have hpost : (s.noteSpare kind unit spare 0).mgt = ((s.countSpare kind).spareEntry kind 1 unit spare).mgt := rfl
  have hroom' : (s.countSpare kind).mgt.spareMap.length < 4094 := hroom
  rw [hpost, State.spareEntry, State.free_mgt, mramPut_mgt]
  dsimp only
  rw [if_pos hroom']
  exact ⟨_, rfl⟩

/-- PREFER names the other reference, and REVERT is 1. -/
def State.preferShown (s : State) (x : Nat) : State := (s.setBit (timeReg 0x48) 2 (x == 0)).setBit (timeReg 0x48) 3 true

theorem useSpare_reference (s : State) (x : Nat) : s.useSpare 8 x 0 = (s.preferShown x).refAuto.noteSpare 8 x (1 - x) 0 := rfl

theorem revert_preferShown (s : State) (x : Nat) : (s.preferShown x).bit (timeReg 0x48) 3 = true := State.bit_setBit_same _ _ _ _ (by decide)

theorem prefer_preferShown (hx : x < 2) (s : State) : (s.preferShown x).fld (timeReg 0x48) 2 1 = 1 - x := by
  rw [State.preferShown, State.setBit, State.fld_setFld_apart _ _ _ _ _ _ _ (by decide) (by decide), State.setBit,
    State.fld_setFld_same _ _ _ _ _ (by decide)]
  rcases eq_or_eq_other (x := 0) (by decide) hx with rfl | rfl <;> rfl

/-- REF shows the preference, whatever the PLL then does. -/
theorem reg_useSpare_ref (s : State) (x : Nat) : (s.useSpare 8 x 0).reg (timeReg 0x48) = (s.preferShown x).reg (timeReg 0x48) := by
  rw [useSpare_reference, State.reg, noteSpare_regs]
  exact reg_refAuto_other (by decide) (by decide)

theorem bit_useSpare_status (x : Nat) (hi : i ≠ 2) : (s.useSpare 8 x 0).bit timeStatus i = s.bit timeStatus i := by
  rw [useSpare_reference, State.bit, State.reg, noteSpare_regs]
  refine (bit_refAuto hi).trans ?_
  rw [State.preferShown, State.bit_setBit_other _ _ _ _ (by decide), State.bit_setBit_other _ _ _ _ (by decide)]

theorem mgt_useSpare (x : Nat) (hroom : s.mgt.spareMap.length < 4094) : ∃ e, (s.useSpare 8 x 0).mgt = { s.mgt with
    sparesUsed := Tab.set (fun _ => 0) s.mgt.sparesUsed 8 (s.sparesUsedOf 8 + 1), spareMap := s.mgt.spareMap ++ [e],
    spareSeq := s.mgt.spareSeq + 1 } := by
  have hmgt : (s.preferShown x).refAuto.mgt = s.mgt := by
    have h := congrArg State.mgt (refAuto_beside (s.preferShown x)).eq
    exact h.trans (by simp [State.preferShown])
  obtain ⟨e, he⟩ := noteSpare_mgt (s.preferShown x).refAuto 8 x (1 - x) (by rwa [hmgt])
  refine ⟨e, ?_⟩
  rw [useSpare_reference, he, State.sparesUsedOf, State.sparesUsedOf, hmgt]

/-! ## A reference is declared good (R274, R275) -/

/-- Reference x is good from now on, and STATUS shows it good. -/
def State.judgedGood (s : State) (x : Nat) : State :=
  { s with tb := { s.tb with
    refBad := Tab.set (fun _ => false) s.tb.refBad x false
    refGoodAt := Tab.set (fun _ => 0) s.tb.refGoodAt x s.cyc } }.setBit timeStatus (3 + x) true

theorem judgedGood_eq (s : State) (x : Nat) : s.judgedGood x = { s with tb := (s.judgedGood x).tb, regs := (s.judgedGood x).regs } := rfl

theorem refBad_judgedGood (s : State) (x : Nat) : Tab.get (fun _ => false) (s.judgedGood x).tb.refBad x = false :=
  Tab.get_set_same (d := fun _ => false) s.tb.refBad false

theorem refBad_judgedGood_other (h : y ≠ x) :
    Tab.get (fun _ => false) (s.judgedGood x).tb.refBad y = Tab.get (fun _ => false) s.tb.refBad y :=
  Tab.get_set_other (d := fun _ => false) s.tb.refBad false h

theorem goodAt_judgedGood (s : State) (x : Nat) : Tab.get (fun _ => 0) (s.judgedGood x).tb.refGoodAt x = s.cyc :=
  Tab.get_set_same (d := fun _ => 0) s.tb.refGoodAt s.cyc

theorem bit_judgedGood_same (hx : x < 2) (s : State) : (s.judgedGood x).bit timeStatus (3 + x) = true := State.bit_setBit_same _ _ _ _ (by omega)

theorem bit_judgedGood_other (hx : x < 2) (hi : i ≠ 3 + x) : (s.judgedGood x).bit timeStatus i = s.bit timeStatus i :=
  State.bit_setBit_apart _ _ _ _ _ (by omega) hi

theorem refActive_judgedGood (hx : x < 2) (s : State) : (s.judgedGood x).refActive = s.refActive := refActive_setBit _ _ (by omega) (by omega)

theorem refDeclareGood_idle
    (h : s.tb.monitors = false ∨ s.cyc < Tab.get (fun _ => 0) s.tb.refFrom x + 100 * cycMs ∨ s.refOk x = true) : s.refDeclareGood x = s := by
  refine if_neg ?_
  rcases h with h | h | h
  · simp [State.refMayBeGood, h]
  · simp [State.refMayBeGood, Nat.not_le.2 h]
  · simp [h]

section
variable (h : s.tb.monitors = true) (hran : Tab.get (fun _ => 0) s.tb.refFrom x + 100 * cycMs ≤ s.cyc) (hok : s.refOk x = false)
include h hran hok

theorem refDeclareGood_takes : s.refDeclareGood x = s.refGood x := if_pos (by simp [State.refMayBeGood, h, hran, hok])

/-- A PLL in hold leaves it onto the reference. -/
theorem refDeclareGood_held (hx : x < 2) (hhold : s.bit timeStatus 5 = true) :
    s.refDeclareGood x = ((s.judgedGood x).setBit timeStatus 5 false).refSwitch x := by
  have hhold' : (s.judgedGood x).bit timeStatus 5 = true := (bit_judgedGood_other hx (by omega)).trans hhold
  rw [refDeclareGood_takes h hran hok]
  exact if_pos hhold'

/-- Beside an active reference that is not bad, the PLL stays where it is. -/
theorem refDeclareGood_stays (hx : x < 2) (hhold : s.bit timeStatus 5 = false) (hactive : Tab.get (fun _ => false) s.tb.refBad s.refActive = false) :
    s.refDeclareGood x = s.judgedGood x := by
  have hhold' : ¬ (s.judgedGood x).bit timeStatus 5 = true := by rw [bit_judgedGood_other hx (by omega), hhold]; decide
  have hgood : Tab.get (fun _ => false) (s.judgedGood x).tb.refBad (s.judgedGood x).refActive = false := by
    rw [refActive_judgedGood hx]
    by_cases ha : s.refActive = x
    · rw [ha, refBad_judgedGood]
    · rw [refBad_judgedGood_other ha, hactive]
  rw [refDeclareGood_takes h hran hok]
  exact (if_neg hhold').trans (refAuto_stays (.inl hgood))
end

/-! ## The return to PREFER, and SEL (R275) -/

theorem refRevert_returns (hx : x = s.fld (timeReg 0x48) 2 1) (hsel : s.fld (timeReg 0x48) 0 2 = 0) (hrevert : s.bit (timeReg 0x48) 3 = true)
    (hok : s.refOk x = true) (hlong : Tab.get (fun _ => 0) s.tb.refGoodAt x + 10000 * cycMs ≤ s.cyc) : s.refRevert = s.refSwitch x := by
  subst hx
  exact if_pos (by simp [hsel, hrevert, hok, hlong])

theorem refRevert_idle (h : s.bit (timeReg 0x48) 3 = false ∨ s.fld (timeReg 0x48) 0 2 ≠ 0 ∨ s.refOk (s.fld (timeReg 0x48) 2 1) = false) :
    s.refRevert = s := by
  refine if_neg ?_
  rcases h with h | h | h <;> simp [h]

/-- REF as a write leaves it. -/
def State.refStored (s : State) (d : Word) : State := s.setReg (timeReg 0x48) (word (fieldOf d 0 4))

theorem refActive_refStored (s : State) (d : Word) : (s.refStored d).refActive = s.refActive := State.fld_setReg_other _ _ _ _ (by decide)

theorem refWrite_automatic (hsel : fieldOf d 0 2 = 0) (hactive : Tab.get (fun _ => false) s.tb.refBad s.refActive = false) :
    s.refWrite d = .done (s.refStored d) := by
  have hstays : (s.refStored d).refAuto = s.refStored d := refAuto_stays (.inl (by rw [refActive_refStored]; exact hactive))
  unfold State.refWrite
  dsimp only
  rw [hsel, if_neg (by decide), if_neg (by simp), if_pos rfl]
  exact congrArg WRes.done hstays

theorem refWrite_forced (hsel : fieldOf d 0 2 = x + 1) (hx : x < 2) (hgood : Tab.get (fun _ => false) s.tb.refBad x = false) :
    s.refWrite d = .done ((s.refStored d).refSwitch x) := by
  unfold State.refWrite
  dsimp only
  rw [hsel, if_neg (by omega), Nat.add_sub_cancel, if_neg (by simp [hgood]), if_neg (Nat.succ_ne_zero x)]
  rfl

theorem refWrite_refused (h : fieldOf d 0 2 = 3 ∨ (fieldOf d 0 2 ≠ 0 ∧ Tab.get (fun _ => false) s.tb.refBad (fieldOf d 0 2 - 1) = true)) :
    s.refWrite d = .err s := by
  unfold State.refWrite
  dsimp only
  rcases h with h | h
  · rw [if_pos h]
  · rw [if_pos h]
    split <;> rfl

end Sys2Proof.Machine

open Sys2Proof Sys2Proof.Machine

/-- Settles O45, clause by clause: what the declaration of a reference comes to, beside what the MCP keeps of it, and the moves of the PLL. -/
theorem referencesAreChosen : Obligations.ReferencesAreChosen := by
  unfold Obligations.ReferencesAreChosen
  refine ⟨?unwatched, ?inactive, ?third, ?leaves, ?holds, ?notGood, ?held, ?good, ?returns, ?noReturn, ?automatic, ?forced, ?refused⟩
  case unwatched =>
    intro s b h
    rw [exec_referenceBad, refFails_off h]
  case inactive =>
    intro s b h hactive hother hfew
    obtain ⟨m, hm, -⟩ := refFails_noted h hfew
    rw [refDeclareBad_inactive h (bit01_lt_two b) hactive hother] at hm
    exact ⟨_, (exec_referenceBad b s).trans (congrArg _ hm), rfl, refOk_judgedBad_same (bit01_lt_two b) s,
      refActive_judgedBad (bit01_lt_two b) s, fun a ha => reg_judgedBad_other (by simpa using ha), rfl⟩
  case third =>
    intro s b h hgood htwo hruns hroom
    obtain ⟨-, hmgt⟩ := refDeclareBad_mem_mgt h (bit01 b)
    have hroom' : ((s.refDeclareBad (bit01 b)).withBadHours (bit01 b) []).mgt.spareMap.length < 4094 := by rwa [State.withBadHours, hmgt]
    obtain ⟨e, he⟩ := mgt_useSpare (bit01 b) hroom'
    refine ⟨_, (exec_referenceBad b s).trans (congrArg _ ((refFails_counts h hgood).trans (if_pos ⟨htwo, hruns⟩))), ?_, ?_, ?_, ?_, ?_, ?_⟩
    · rw [State.refOk, bit_useSpare_status _ (by omega)]
      exact refOk_refDeclareBad h (bit01_lt_two b)
    · rw [State.bit, reg_useSpare_ref]
      exact revert_preferShown _ _
    · rw [State.fld, reg_useSpare_ref]
      exact prefer_preferShown (bit01_lt_two b) _
    · rw [State.sparesUsedOf, he, ← sparesUsedOf_congr hmgt]
      exact Tab.get_set_same (d := fun _ => 0) (s.refDeclareBad (bit01 b)).mgt.sparesUsed ((s.refDeclareBad (bit01 b)).sparesUsedOf 8 + 1)
    · rw [he, ← hmgt]
      exact List.length_append
    · rw [he]
      exact tab_withBadHours (s.refDeclareBad (bit01 b)) (bit01 b) []
  case leaves =>
    intro s b h hactive hother hok hsel hfew
    obtain ⟨m, hm, hhours⟩ := refFails_noted h (.inr (.inl hfew))
    have hx := bit01_lt_two b
    have hmoves : (s.judgedBad (bit01 b)).refActive ≠ 1 - bit01 b := by
      rw [refActive_judgedBad hx, hactive]
      omega
    rw [refDeclareBad_leaves h hx hactive hother hok hsel] at hm
    have hbeside := (refSwitch_beside (s.judgedBad (bit01 b)) (1 - bit01 b)).judged (judgedBad_eq s _)
    refine ⟨_, (exec_referenceBad b s).trans (congrArg _ hm), refActive_refSwitch (by omega), ?_, sticky_refSwitch hmoves, ?_, flt_refSwitch hmoves,
      hhours, congrArg (fun u : State => { u with mgt := { s.mgt with refBadAt := m } }) hbeside⟩
    · exact (bit_refSwitch (by omega)).trans (refOk_judgedBad_same hx s)
    · exact (count_refSwitch _ _).trans (by rw [if_neg hmoves]; rfl)
  case holds =>
    intro s b h hother hok hhold hfew
    obtain ⟨m, hm, -⟩ := refFails_noted h (hfew.imp_right .inl)
    have hx := bit01_lt_two b
    rw [refDeclareBad_holds h hx hother hok hhold] at hm
    refine ⟨_, (exec_referenceBad b s).trans (congrArg _ hm), ?_, ?_, ?_, ?_, raise_flt (s.judgedBad (bit01 b)).holdShown 0x61 2 (Nat.le_refl 1)⟩
    · exact (bit_raise _ _ _ _ _ _).trans (bit_holdShown _)
    · exact (bit_raise _ _ _ _ _ _).trans (sticky_holdShown _)
    · exact ((bit_raise _ _ _ _ _ _).trans (bit_holdShown_other (by omega))).trans (refOk_judgedBad_same hx s)
    · exact (refActive_raise _ _ _ _).trans ((refActive_holdShown _).trans (refActive_judgedBad hx s))
  case notGood =>
    intro s b h
    rw [exec_referenceGood, refDeclareGood_idle h]
  case held =>
    intro s b h hran hok hhold
    have hx := bit01_lt_two b
    have hbeside : BesideNoted (s.judgedGood (bit01 b)) (((s.judgedGood (bit01 b)).setBit timeStatus 5 false).refSwitch (bit01 b)) :=
      ((BesideNoted.refl _).setBit _ _ _).trans (refSwitch_beside _ _)
    have htb := congrArg State.tb hbeside.eq
    refine ⟨_, (exec_referenceGood b s).trans (congrArg _ (refDeclareGood_held h hran hok hx hhold)), ?_, ?_, refActive_refSwitch hx, ?_, ?_,
      hbeside.judged (judgedGood_eq s _)⟩
    · rw [bit_refSwitch (by decide), State.bit_setBit_same _ _ _ _ (by decide)]
    · rw [State.refOk, bit_refSwitch (by omega), State.bit_setBit_apart _ _ _ _ _ (by decide) (by omega), bit_judgedGood_same hx]
    · rw [htb]
      exact refBad_judgedGood s _
    · rw [htb]
      exact goodAt_judgedGood s _
  case good =>
    intro s b h hran hok hhold hactive
    exact ⟨_, (exec_referenceGood b s).trans (congrArg _ (refDeclareGood_stays h hran hok (bit01_lt_two b) hhold hactive)),
      bit_judgedGood_same (bit01_lt_two b) s, refActive_judgedGood (bit01_lt_two b) s,
      fun a ha => State.reg_setBit_other _ _ _ (by simpa using ha), goodAt_judgedGood s _, rfl⟩
  case returns =>
    intro s hsel hrevert hok hlong hactive
    have hx : s.fld (timeReg 0x48) 2 1 < 2 := Nat.mod_lt _ (by decide)
    exact ⟨_, (exec_referenceRevert s).trans (congrArg _ (refRevert_returns rfl hsel hrevert hok hlong)), refActive_refSwitch hx,
      sticky_refSwitch hactive, (count_refSwitch s _).trans (by rw [if_neg hactive]), tb_refSwitch s _, refSwitch_beside s _⟩
  case noReturn =>
    intro s h
    rw [exec_referenceRevert, refRevert_idle h]
  case automatic =>
    intro w s d h hsel hactive
    exact timeAccess_done h (by decide) rfl ((timeWrite_ref s w d).trans (refWrite_automatic hsel hactive))
  case forced =>
    intro w s d x h hsel hx hgood
    have hbeside : BesideNoted s ((s.refStored d).refSwitch x) := ((BesideNoted.refl s).setReg _ _).trans (refSwitch_beside _ x)
    refine ⟨_, timeAccess_done h (by decide) rfl ((timeWrite_ref s w d).trans (refWrite_forced hsel hx hgood)), refActive_refSwitch hx, ?_, ?_,
      hbeside.acked⟩
    · exact (reg_refSwitch_other (by decide) (by decide)).trans (State.reg_setReg_same _ _ _)
    · rw [← refActive_refStored s d]
      exact count_refSwitch (s.refStored d) x
  case refused =>
    intro w s d h hd
    exact timeAccess_refused h (by decide) rfl ((timeWrite_ref s w d).trans (refWrite_refused hd))
end
